-- ==== Sys2Proof/Word.lean ====
section
/-! DEFINITION. The word types of the SPT9632 model, the identifiers of its parts, and the plain
data that commands and State share (CAN frames, error reports). -/
namespace Sys2Proof

/-- A byte (R6, R8). -/
abbrev Byte := BitVec 8
/-- A 32-bit word: a general register, a system register (R62, R12). -/
abbrev Word := BitVec 32
/-- A lane 0-39 (R25). -/
abbrev LaneId := Fin 40
/-- A task 0-63 (R165). -/
abbrev TaskId := Fin 64
/-- A Yelx port 0-7 (R261). -/
abbrev PortId := Fin 8
/-- A shaft 0-3 (R220). -/
abbrev ShaftId := Fin 4
/-- A host slot 0-3 (R384). -/
abbrev SlotId := Fin 4
/-- A field channel 0-31 (R353). -/
abbrev ChanId := Fin 32
/-- A CAN channel 0-3 (R368). -/
abbrev CanId := Fin 4

/-- A prefix word before an instruction: `EXT` with its payload, or `REP` (R83, R84). -/
inductive Pre where
  | ext (payload : BitVec 10)
  | rep
  deriving DecidableEq, Repr

/-- The instruction that stands after `REP` in the row REP: a string or CRC element form that is
marked repeatable, an instruction that writes RC, RS or RD, or any other instruction (R84, R86, R148). -/
inductive RepBody where
  | movs (bytes : Fin 3)
  | fillw (s : BitVec 4)
  | crcm (bytes : Fin 3)
  | writesRep
  | other
  deriving DecidableEq, Repr

/-- What an ECC read of one word finds: no error, a single-bit error that is corrected, an uncorrectable error, or three or
more wrong bits that it does not find as such: corrected to a wrong value and counted, or with no error found (R78, R215,
R436). -/
inductive Ecc where
  | none
  | corrected
  | uncorrectable
  | wrong (counted : Bool)
  deriving DecidableEq, Repr

/-- Where in the Canopy a word with an error lies: in a current version of an area, in a shadow line
of a copy, or in a retained version (R217). A copy is named by 4 x task + role, a retained version of the line by the
instant at which it was committed. -/
inductive ErrLoc where
  | area
  | shadow (copy : Nat)
  | retained (ver : Nat)
  deriving DecidableEq, Repr

/-- One word error reported by a check or a scrub of the Canopy: its place, its lane-visible
address, and what the read of it found (R215-R217). -/
structure EccErr where
  loc  : ErrLoc
  addr : Nat
  ecc  : Ecc
  /-- who found it, as `CAN_LAST_ERR.FINDER` numbers it; the scrubber unless stated (R218) -/
  finder : Fin 8 := 1
  deriving DecidableEq, Repr

/-- The outcome of an instruction fetch: from the buffer or by a block fill, with no error, a
corrected error or an uncorrectable one in a word of the unit, counted from its first word, in the program store or in
the buffer only (R80, R81, R135). -/
inductive FetchOutcome where
  | good
  | corrected (word : BitVec 21) (buffer : Bool)
  | uncorrectable (word : BitVec 21) (buffer : Bool)
  deriving DecidableEq, Repr

/-- The word of the unit that the fetch has reached. -/
def FetchOutcome.word : FetchOutcome → BitVec 21
  | .good => 0
  | .corrected w _ | .uncorrectable w _ => w

/-- The parts of the lane self-test, in the order in which they run (R313). -/
inductive TestPart where
  | oscillator
  | logic
  | bufferStore
  | scratch
  deriving DecidableEq, Repr

/-- The base page with which a link partner completes Clause 37 on a port: full duplex and remote fault (R262). -/
structure BasePage where
  port : PortId
  fd   : Bool
  rf   : BitVec 2
  deriving DecidableEq, Repr

/-- A CAN frame as it stands on the bus (R372). -/
structure CanFrame where
  fdf  : Bool
  rtr  : Bool
  ide  : Bool
  id   : BitVec 29
  esi  : Bool
  brs  : Bool
  dlc  : BitVec 4
  data : List Byte
  deriving DecidableEq, Repr

end Sys2Proof
end

