-- ==== Sys2Proof/Syntax.lean ====
section
/-! DEFINITION. The commands of the SPT9632: one constructor for each row of the opcode table, with the row's operands.

A lane instruction names the lane `l` that issues it and the prefix words `p` that stand before it (R84). Every other
command carries `dt`, the ns that pass before it; see notes/assumptions for this reading of the block. -/
namespace Sys2Proof

/-- A command of the block (the rows of the opcode table). -/
inductive Instr where
  /-- `BLD` (R109): Loads RLO with a bit of the bit window. -/
  | bld (l : LaneId) (p : List Pre) (n : BitVec 9)
  /-- `BLDN` (R109): Loads RLO with the inverse of a window bit. -/
  | bldn (l : LaneId) (p : List Pre) (n : BitVec 9)
  /-- `BAND` (R109): ANDs RLO with a window bit. -/
  | band (l : LaneId) (p : List Pre) (n : BitVec 9)
  /-- `BANDN` (R109): ANDs RLO with the inverse of a window bit. -/
  | bandn (l : LaneId) (p : List Pre) (n : BitVec 9)
  /-- `BOR` (R109): ORs RLO with a window bit. -/
  | bor (l : LaneId) (p : List Pre) (n : BitVec 9)
  /-- `BST` (R109): Writes RLO into a window bit. -/
  | bst (l : LaneId) (p : List Pre) (n : BitVec 9)
  /-- `BSET` (R111): Sets a window bit when RLO is 1, with its checks made whatever RLO holds. -/
  | bset (l : LaneId) (p : List Pre) (n : BitVec 9)
  /-- `BRST` (R111): Clears a window bit when RLO is 1, with its checks made whatever RLO holds. -/
  | brst (l : LaneId) (p : List Pre) (n : BitVec 9)
  /-- `MOV` (R115): Copies a general register. -/
  | mov (l : LaneId) (p : List Pre) (d s : BitVec 4)
  /-- `ADD` (R115): Adds two registers and sets Z N C V. -/
  | add (l : LaneId) (p : List Pre) (d s : BitVec 4)
  /-- `ADC` (R115): Adds two registers and the carry. -/
  | adc (l : LaneId) (p : List Pre) (d s : BitVec 4)
  /-- `SUB` (R115): Subtracts two registers. -/
  | sub (l : LaneId) (p : List Pre) (d s : BitVec 4)
  /-- `SBC` (R115): Subtracts two registers with the borrow. -/
  | sbc (l : LaneId) (p : List Pre) (d s : BitVec 4)
  /-- `CMP` (R115): Compares two registers by subtraction and sets the flags only. -/
  | cmp (l : LaneId) (p : List Pre) (d s : BitVec 4)
  /-- `AND` (R115): Bitwise AND of two registers. -/
  | and (l : LaneId) (p : List Pre) (d s : BitVec 4)
  /-- `OR` (R115): Bitwise OR of two registers. -/
  | or (l : LaneId) (p : List Pre) (d s : BitVec 4)
  /-- `XOR` (R115): Bitwise XOR of two registers. -/
  | xor (l : LaneId) (p : List Pre) (d s : BitVec 4)
  /-- `TST` (R115): ANDs two registers and sets Z N only. -/
  | tst (l : LaneId) (p : List Pre) (d s : BitVec 4)
  /-- `NEG` (R115): Negates a register with the edge results of R97. -/
  | neg (l : LaneId) (p : List Pre) (d s : BitVec 4)
  /-- `LSL` (R117): Logical left shift by a register count. -/
  | lsl (l : LaneId) (p : List Pre) (d s : BitVec 4)
  /-- `LSR` (R117): Logical right shift by a register count. -/
  | lsr (l : LaneId) (p : List Pre) (d s : BitVec 4)
  /-- `ASR` (R117): Arithmetic right shift by a register count. -/
  | asr (l : LaneId) (p : List Pre) (d s : BitVec 4)
  /-- `ROR` (R117): Rotate right by a register count. -/
  | ror (l : LaneId) (p : List Pre) (d s : BitVec 4)
  /-- `MUL` (R118): Multiplies two registers, keeping the low 32 bits. -/
  | mul (l : LaneId) (p : List Pre) (d s : BitVec 4)
  /-- `MOVI` (R120): Loads an extended immediate into a register. -/
  | movi (l : LaneId) (p : List Pre) (d : BitVec 4) (imm : BitVec 2)
  /-- `ADDI` (R120): Adds an immediate. -/
  | addi (l : LaneId) (p : List Pre) (d : BitVec 4) (imm : BitVec 2)
  /-- `SUBI` (R120): Subtracts an immediate. -/
  | subi (l : LaneId) (p : List Pre) (d : BitVec 4) (imm : BitVec 2)
  /-- `CMPI` (R120): Compares a register with an immediate. -/
  | cmpi (l : LaneId) (p : List Pre) (d : BitVec 4) (imm : BitVec 2)
  /-- `ANDI` (R120): ANDs a register with an immediate. -/
  | andi (l : LaneId) (p : List Pre) (d : BitVec 4) (imm : BitVec 2)
  /-- `ORI` (R120): ORs a register with an immediate. -/
  | ori (l : LaneId) (p : List Pre) (d : BitVec 4) (imm : BitVec 2)
  /-- `XORI` (R120): XORs a register with an immediate. -/
  | xori (l : LaneId) (p : List Pre) (d : BitVec 4) (imm : BitVec 2)
  /-- `TSTI` (R120): Tests a register against an immediate. -/
  | tsti (l : LaneId) (p : List Pre) (d : BitVec 4) (imm : BitVec 2)
  /-- `MULI` (R120): Multiplies a register by an immediate. -/
  | muli (l : LaneId) (p : List Pre) (d : BitVec 4) (imm : BitVec 2)
  /-- `LSLI` (R120): Logical left shift by an immediate count. -/
  | lsli (l : LaneId) (p : List Pre) (d : BitVec 4) (imm : BitVec 2)
  /-- `LSRI` (R120): Logical right shift by an immediate count. -/
  | lsri (l : LaneId) (p : List Pre) (d : BitVec 4) (imm : BitVec 2)
  /-- `ASRI` (R120): Arithmetic right shift by an immediate count. -/
  | asri (l : LaneId) (p : List Pre) (d : BitVec 4) (imm : BitVec 2)
  /-- `RORI` (R120): Rotate right by an immediate count. -/
  | rori (l : LaneId) (p : List Pre) (d : BitVec 4) (imm : BitVec 2)
  /-- `RTOG` (R121): Copies RLO into a register. -/
  | rtog (l : LaneId) (p : List Pre) (d : BitVec 4)
  /-- `GTOR` (R121): Sets RLO from whether a register is non-zero. -/
  | gtor (l : LaneId) (p : List Pre) (s : BitVec 4)
  /-- `RNOT` (R121): Inverts RLO. -/
  | rnot (l : LaneId) (p : List Pre)
  /-- `RSET` (R121): Sets RLO to 1. -/
  | rset (l : LaneId) (p : List Pre)
  /-- `RCLR` (R121): Clears RLO. -/
  | rclr (l : LaneId) (p : List Pre)
  /-- `MOVSB` (R122): String element copying a byte from RS to RD. -/
  | movsb (l : LaneId) (p : List Pre) (run : Nat)
  /-- `MOVSH` (R122): String element copying a halfword from RS to RD. -/
  | movsh (l : LaneId) (p : List Pre) (run : Nat)
  /-- `MOVSW` (R122): String element copying a word from RS to RD. -/
  | movsw (l : LaneId) (p : List Pre) (run : Nat)
  /-- `FILLW` (R122): String element writing a register word to RD. -/
  | fillw (l : LaneId) (p : List Pre) (s : BitVec 4) (run : Nat)
  /-- `DIVS` (R124): Signed division of a register pair, with the division-by-zero results or DIVZERO. -/
  | divs (l : LaneId) (p : List Pre) (pr s : BitVec 3)
  /-- `DIVU` (R124): Unsigned division of a register pair. -/
  | divu (l : LaneId) (p : List Pre) (pr s : BitVec 3)
  /-- `LDB` (R125): Loads a zero-extended byte, arriving after the load shadow. -/
  | ldb (l : LaneId) (p : List Pre) (d b : BitVec 4)
  /-- `LDBS` (R125): Loads a sign-extended byte. -/
  | ldbs (l : LaneId) (p : List Pre) (d b : BitVec 4)
  /-- `LDH` (R125): Loads a zero-extended halfword. -/
  | ldh (l : LaneId) (p : List Pre) (d b : BitVec 4)
  /-- `LDHS` (R125): Loads a sign-extended halfword. -/
  | ldhs (l : LaneId) (p : List Pre) (d b : BitVec 4)
  /-- `LDW` (R125): Loads a word. -/
  | ldw (l : LaneId) (p : List Pre) (d b : BitVec 4)
  /-- `STB` (R125): Stores a byte into lane scratch or a shadow line after the ownership check. -/
  | stb (l : LaneId) (p : List Pre) (s b : BitVec 4)
  /-- `STH` (R125): Stores a halfword. -/
  | sth (l : LaneId) (p : List Pre) (s b : BitVec 4)
  /-- `STW` (R125): Stores a word. -/
  | stw (l : LaneId) (p : List Pre) (s b : BitVec 4)
  /-- `MFS` (R127): Reads a special register into a general register. -/
  | mfs (l : LaneId) (p : List Pre) (sr : BitVec 5) (g : BitVec 3)
  /-- `MTS` (R127): Writes a special register; a write of BW refills the window copy. -/
  | mts (l : LaneId) (p : List Pre) (sr : BitVec 5) (g : BitVec 3)
  /-- `FADD` (R128): Binary32 addition. -/
  | fadd (l : LaneId) (p : List Pre) (x y : BitVec 3)
  /-- `FSUB` (R128): Binary32 subtraction. -/
  | fsub (l : LaneId) (p : List Pre) (x y : BitVec 3)
  /-- `FMUL` (R128): Binary32 multiplication. -/
  | fmul (l : LaneId) (p : List Pre) (x y : BitVec 3)
  /-- `FDIV` (R128): Binary32 division. -/
  | fdiv (l : LaneId) (p : List Pre) (x y : BitVec 3)
  /-- `FCMP` (R128): Binary32 compare setting Z N C V. -/
  | fcmp (l : LaneId) (p : List Pre) (x y : BitVec 3)
  /-- `FTOI` (R128): Converts binary32 to an integer. -/
  | ftoi (l : LaneId) (p : List Pre) (x y : BitVec 3)
  /-- `ITOF` (R128): Converts a signed integer to binary32. -/
  | itof (l : LaneId) (p : List Pre) (x y : BitVec 3)
  /-- `SKCC` (R134): Skips the next unit when a condition holds. -/
  | skcc (l : LaneId) (p : List Pre) (cc : BitVec 4)
  /-- `SKZ` (R134): Skips the next unit when a register is zero. -/
  | skz (l : LaneId) (p : List Pre) (s : BitVec 4)
  /-- `SKNZ` (R134): Skips the next unit when a register is non-zero. -/
  | sknz (l : LaneId) (p : List Pre) (s : BitVec 4)
  /-- `BCC` (R137): Conditional relative branch, abandoning loop levels it leaves. -/
  | bcc (l : LaneId) (p : List Pre) (cc : BitVec 4) (off : BitVec 4)
  /-- `BRA` (R137): Unconditional relative branch. -/
  | bra (l : LaneId) (p : List Pre) (off : BitVec 6)
  /-- `CALL` (R137): Relative call that writes LR. -/
  | call (l : LaneId) (p : List Pre) (off : BitVec 6)
  /-- `BR` (R137): Branch to a register address. -/
  | br (l : LaneId) (p : List Pre) (s : BitVec 4)
  /-- `CALLR` (R137): Call to a register address. -/
  | callr (l : LaneId) (p : List Pre) (s : BitVec 4)
  /-- `RET` (R137): Returns to LR. -/
  | ret (l : LaneId) (p : List Pre)
  /-- `LOOP` (R141): Opens a zero-overhead loop level or jumps past a body with count 0. -/
  | loop (l : LaneId) (p : List Pre) (s : BitVec 4) (len : BitVec 4)
  /-- `LEAVE` (R145): Abandons the innermost loop level. -/
  | leave (l : LaneId) (p : List Pre)
  /-- `REP` (R148): Repeats a repeatable instruction RC times, interruptible between elements. -/
  | rep (l : LaneId) (pre post : List Pre) (inner : RepBody) (run : Nat)
  /-- `CRCB` (R154): CRC step over a register byte. -/
  | crcb (l : LaneId) (p : List Pre) (s : BitVec 4)
  /-- `CRCH` (R154): CRC step over a register halfword. -/
  | crch (l : LaneId) (p : List Pre) (s : BitVec 4)
  /-- `CRCW` (R154): CRC step over a register word. -/
  | crcw (l : LaneId) (p : List Pre) (s : BitVec 4)
  /-- `CRCMB` (R154): CRC element over the byte at RS. -/
  | crcmb (l : LaneId) (p : List Pre) (run : Nat)
  /-- `CRCMH` (R154): CRC element over the halfword at RS. -/
  | crcmh (l : LaneId) (p : List Pre) (run : Nat)
  /-- `CRCMW` (R154): CRC element over the word at RS. -/
  | crcmw (l : LaneId) (p : List Pre) (run : Nat)
  /-- `CRCI` (R153): Sets CA to its initial value. -/
  | crci (l : LaneId) (p : List Pre)
  /-- `CRCF` (R153): Writes the final CRC value to a register. -/
  | crcf (l : LaneId) (p : List Pre) (d : BitVec 4)
  /-- `PAR` (R155): Sets RLO to the parity of a register. -/
  | par (l : LaneId) (p : List Pre) (s : BitVec 4)
  /-- `BREV` (R155): Reverses the bits of a register. -/
  | brev (l : LaneId) (p : List Pre) (d s : BitVec 3)
  /-- `BREVB` (R155): Reverses the bits within each byte. -/
  | brevb (l : LaneId) (p : List Pre) (d s : BitVec 3)
  /-- `CHK` (R156): Check-in of the running instance with the task watchdog. -/
  | chk (l : LaneId) (p : List Pre)
  /-- `HALT` (R157): Ends the instance and sends its write set to commit or to the compare gate. -/
  | halt (l : LaneId) (p : List Pre) (errs : List EccErr)
  /-- `SYS` (R158): Reads a system register into a register, stalling up to 500 ns. -/
  | sys (l : LaneId) (p : List Pre) (d : BitVec 4) (srn : BitVec 2)
  /-- `CFG` (R159): Writes a system register at SETUP level, for every register without a row of its own. -/
  | cfg (l : LaneId) (p : List Pre) (s : BitVec 4) (srn : BitVec 2)
  /-- `FRET` (R162): Reads a fret entry and enters it into the write set with a status. -/
  | fret (l : LaneId) (p : List Pre) (d s : BitVec 3)
  /-- `FRETC` (R163): Enters a cancellation of fret entries by key into the write set. -/
  | fretc (l : LaneId) (p : List Pre) (d s : BitVec 3)
  /-- `UNASSIGNED_ENCODING` (R102): A lane decodes a word that no chapter assigns and raises ILLEGAL, ending the instance. -/
  | unassignedEncoding (l : LaneId) (p : List Pre) (w : BitVec 14)
  /-- `SYSC` (R160): A SYSC with an unknown call number completes BAD_FORM, and one not marked for the task's level raises PRIVILEGE. -/
  | sysc (l : LaneId) (p : List Pre) (d : BitVec 4) (n : BitVec 2)
  /-- `CANOPY_LOAD_RETURN` (R75): A Canopy load value arrives and a stalled lane resumes. -/
  | canopyLoadReturn (dt : Nat) (l : LaneId) (e : Ecc)
  /-- `WINDOW_FILL` (R112): The Canopy fill of the window copy completes and the bit instruction resumes. -/
  | windowFill (dt : Nat) (l : LaneId) (ws : List (Fin 16 × Ecc))
  /-- `INSTRUCTION_FETCH` (R80): A buffer-miss fetch of an 8-word block completes, with ECC correction or PSTORE_UE. -/
  | instructionFetch (dt : Nat) (l : LaneId) (o : FetchOutcome)
  /-- `PSTORE_REWRITE` (R81): The service core rewrites a faulty program-store word and records PSTORE_UE. -/
  | pstoreRewrite (dt : Nat) (a : BitVec 21) (ok : Bool)
  /-- `PSTORE_SCRUB` (R82): The 60 s scrub pass corrects program-store words. -/
  | pstoreScrub (dt : Nat) (errs : List (BitVec 21 × Bool))
  /-- `CYCLIC_RELEASE` (R167): A period boundary releases a cyclic task or counts a skip. -/
  | cyclicRelease (dt : Nat) (t : TaskId)
  /-- `EVENT_TRIGGER` (R169): A recognised trigger releases, latches or coalesces an event task. -/
  | eventTrigger (dt : Nat) (t : TaskId)
  /-- `LATCHED_RELEASE` (R169): A latched trigger is released once the instance closes and the minimum gap has passed. -/
  | latchedRelease (dt : Nat) (t : TaskId)
  /-- `TASK_AGED` (R177): An unstarted instance passes its starvation bound and takes effective priority 14. -/
  | taskAged (dt : Nat) (t : TaskId) (l : LaneId)
  /-- `COMMIT` (R181): A write set becomes visible, fret entries enter the queue and committed calls take effect. -/
  | commit (dt : Nat) (t : TaskId)
  /-- `OUTPUT_RELEASE` (R183): At release plus margin the committed Q ranges are presented and a bridge frame starts. -/
  | outputRelease (dt : Nat) (t : TaskId)
  /-- `TASK_WATCHDOG_VERDICT` (R185): At the deadline the watchdog judges good, miss or overrun. -/
  | taskWatchdogVerdict (dt : Nat) (t : TaskId)
  /-- `AT_TIME_EXPIRY` (R195): The instant of a pending AT_TIME arrives and triggers its task. -/
  | atTimeExpiry (dt : Nat) (t : TaskId)
  /-- `TASK_TRIGGER` (R194): Committed call triggering an event task at commit. -/
  | taskTrigger (l : LaneId) (p : List Pre) (d : BitVec 4)
  /-- `RELEASE_TIME` (R194): Immediate call returning the release instant and instance number. -/
  | releaseTime (l : LaneId) (p : List Pre) (d : BitVec 4)
  /-- `AT_TIME` (R194): Committed call setting or cancelling a timed trigger. -/
  | atTime (l : LaneId) (p : List Pre) (d : BitVec 4)
  /-- `SNAP_INFO` (R194): Immediate call returning the staleness and age of a group snapshot. -/
  | snapInfo (l : LaneId) (p : List Pre) (d : BitVec 4)
  /-- `CANOPY_SCRUB` (R216): The scrubber pass corrects single-bit errors and finds uncorrectable ones. -/
  | canopyScrub (dt : Nat) (errs : List EccErr)
  /-- `COMPARE_GATE` (R304): The digests of two copies are compared: agreement, program fault or mismatch. -/
  | compareGate (dt : Nat) (t : TaskId)
  /-- `SPARE_WAIT_END` (R307): A mismatch waiting for a spare is served when a lane returns to SPARE. -/
  | spareWaitEnd (dt : Nat) (t : TaskId)
  /-- `SPARE_WAKE` (R308): A woken spare is powered and starts the replay. -/
  | spareWake (dt : Nat) (t : TaskId)
  /-- `PAIR_VOTE` (R309): The replay is compared with both copies and the agreeing write set commits. -/
  | pairVote (dt : Nat) (t : TaskId)
  /-- `PAIR_STRAGGLER` (R305): At the straggler instant a late copy is stopped and treated as a mismatch. -/
  | pairStraggler (dt : Nat) (t : TaskId)
  /-- `LANE_SELF_TEST_END` (R313): A lane self-test ends with its verdict. -/
  | laneSelfTestEnd (dt : Nat) (l : LaneId) (failed : Option TestPart)
  /-- `STAND_IN_RETURN` (R314): At the stand-in's first instant with no open instance the package lane returns or moves. -/
  | standInReturn (dt : Nat) (l : LaneId)
  /-- `SPARE_TEST_START` (R316): A periodic spare self-test starts on the next SPARE lane. -/
  | spareTestStart (dt : Nat)
  /-- `LOOP_SAMPLE` (R327): At a class sample instant each due loop runs its control law. -/
  | loopSample (dt : Nat) (k : Fin 8)
  /-- `LOOP_CLASS_COMMIT` (R322): The write set of a sample class commits. -/
  | loopClassCommit (dt : Nat) (k : Fin 8)
  /-- `TUNE_TIMEOUT` (R336): A tune that exceeds its duration limit completes TIMEOUT. -/
  | tuneTimeout (dt : Nat) (n : Fin 256)
  /-- `LOOP_READ` (R342): Immediate call returning loop output, status and integrator. -/
  | loopRead (l : LaneId) (p : List Pre) (d : BitVec 4)
  /-- `LOOP_TUNE` (R334): Committed call starting a relay tune. -/
  | loopTune (l : LaneId) (p : List Pre) (d : BitVec 4)
  /-- `LOOP_CAPTURE` (R338): Committed call starting a capture with an optional test signal. -/
  | loopCapture (l : LaneId) (p : List Pre) (d : BitVec 4)
  /-- `LOOP_ABORT` (R342): Committed call aborting a tune or capture. -/
  | loopAbort (l : LaneId) (p : List Pre) (d : BitVec 4)
  /-- `COUNT_EDGE` (R225): A filtered encoder edge moves the count and anchor. -/
  | countEdge (dt : Nat) (sh : ShaftId) (a b z : Bool)
  /-- `WIRE_ERROR` (R222): An encoder pair reads open or shorted. -/
  | wireError (dt : Nat) (sh : ShaftId)
  /-- `WIRE_FAULT_TIMEOUT` (R223): A wire error that persists 1 ms puts the shaft into shaft fault. -/
  | wireFaultTimeout (dt : Nat) (sh : ShaftId)
  /-- `VELOCITY_UPDATE` (R226): Every 25 µs velocity and acceleration are recomputed. -/
  | velocityUpdate (dt : Nat)
  /-- `FRET_EVALUATION` (R238): Every 25 ns armed entries are tested for crossings. -/
  | fretEvaluation (dt : Nat)
  /-- `FRET_LEAD` (R246): Row streaming not started by crossing minus lead time is recorded. -/
  | fretLead (dt : Nat) (row : BitVec 16) (pt : PortId)
  /-- `FRET_MISSED` (R251): A row not confirmed by its deadline is missed. -/
  | fretMissed (dt : Nat) (row : BitVec 16)
  /-- `SHAFT_READ` (R257): Immediate call returning shaft position and velocity. -/
  | shaftRead (l : LaneId) (p : List Pre) (d : BitVec 4)
  /-- `PORT_SIGNAL_DETECT` (R280): A down port detects signal and enters SYNCING. -/
  | portSignalDetect (dt : Nat) (pt : PortId)
  /-- `PORT_LINK` (R262): A port acquires link and enters ADMITTING. -/
  | portLink (dt : Nat) (page : BasePage)
  /-- `PARTNER_IDLE_TIMEOUT` (R262): A partner that sent only idles for 10 ms gives link. -/
  | partnerIdleTimeout (dt : Nat) (pt : PortId)
  /-- `PORT_LINK_LOSS` (R280): A port loses link and goes DOWN. -/
  | portLinkLoss (dt : Nat) (pt : PortId)
  /-- `YL_PORT_RETIRED` (R280): A port without link for PORT_LOSS ms is retired. -/
  | ylPortRetired (dt : Nat) (pt : PortId)
  /-- `ADMISSION_PASS_END` (R282): The admission pass ends and the port goes UP. -/
  | admissionPassEnd (dt : Nat) (pt : PortId)
  /-- `REDISCOVERY` (R282): Every 100 ms absent, mismatched and retired stations are sent DISCOVER. -/
  | rediscovery (dt : Nat) (pt : PortId)
  /-- `LINK_CYCLE_START` (R270): At t0 a port reads Q and starts its cycle frames in order. -/
  | linkCycleStart (dt : Nat) (pt : PortId)
  /-- `INPUT_READ_POINT` (R271): At t0 + T a port commits input bytes and evaluates input groups. -/
  | inputReadPoint (dt : Nat) (pt : PortId)
  /-- `ATTEMPT_TIMEOUT` (R277): A response not due in time fails the attempt: retry or NO_DELIVERY. -/
  | attemptTimeout (dt : Nat) (tag : Fin 512)
  /-- `IMGR` (R269): Received station frame with flags, row buffers, latch reports and inputs. -/
  | imgr (dt : Nat) (pt : PortId) (f : List Byte)
  /-- `ACK` (R268): Received acknowledgement completing a transaction. -/
  | ack (dt : Nat) (pt : PortId) (f : List Byte)
  /-- `NAK` (R276): Received NAK handled by its reason. -/
  | nak (dt : Nat) (pt : PortId) (f : List Byte)
  /-- `IDENT` (R282): Received IDENT judged for a match. -/
  | ident (dt : Nat) (pt : PortId) (f : List Byte)
  /-- `SYNC_REPLY` (R290): Received reply from which RTT and delay are computed. -/
  | syncReply (dt : Nat) (pt : PortId) (f : List Byte)
  /-- `MBX_RESPONSE` (R269): Received mailbox response held for the calling task. -/
  | mbxResponse (dt : Nat) (pt : PortId) (f : List Byte)
  /-- `CYC_RETURN` (R289): An own CYC returns around a closed line. -/
  | cycReturn (dt : Nat) (pt : PortId) (f : List Byte)
  /-- `MBX_TIMEOUT` (R277): An MBX transaction open 100 ms completes TIMEOUT. -/
  | mbxTimeout (dt : Nat) (tag : Fin 512)
  /-- `SYNC_MEASUREMENT` (R290): Every 1,000 ms each admitted station is measured. -/
  | syncMeasurement (dt : Nat) (pt : PortId)
  /-- `INJECT_DELAY_EXPIRY` (R293): A frame held by fault injection is passed on. -/
  | injectDelayExpiry (dt : Nat) (pt : PortId)
  /-- `FABRIC_TAG_GRANT` (R32): A request waiting for a tag proceeds when one is free. -/
  | fabricTagGrant (dt : Nat)
  /-- `YL_READMIT` (R285): Committed call readmitting a station or port. -/
  | ylReadmit (l : LaneId) (p : List Pre) (d : BitVec 4)
  /-- `YL_MBX_SEND` (R294): Committed call sending a mailbox request. -/
  | ylMbxSend (l : LaneId) (p : List Pre) (d : BitVec 4)
  /-- `YL_MBX_READ` (R294): Immediate call consuming a held mailbox response. -/
  | ylMbxRead (l : LaneId) (p : List Pre) (d : BitVec 4)
  /-- `YL_STA_INFO` (R294): Immediate call returning station status. -/
  | ylStaInfo (l : LaneId) (p : List Pre) (d : BitVec 4)
  /-- `YL_COUNT` (R294): Immediate call returning a port counter. -/
  | ylCount (l : LaneId) (p : List Pre) (d : BitVec 4)
  /-- `DOWN_FRAME_TICK` (R350): A down frame starts at a 10 µs multiple or other due start. -/
  | downFrameTick (dt : Nat)
  /-- `DOWN_FRAME_DEFERRED` (R350): A start that waited for the wire sends its frame. -/
  | downFrameDeferred (dt : Nat)
  /-- `REFRESH` (R351): Field die applies output values, tests and timed changes and answers. -/
  | refresh (dt : Nat) (ok : Bool)
  /-- `SAFE_FRAME` (R355): Field die makes masked channels safe and withdraws their changes. -/
  | safeFrame (dt : Nat) (ok : Bool)
  /-- `CONFIG` (R361): Field die takes one channel's configuration. -/
  | config (dt : Nat) (ok : Bool)
  /-- `IDLE` (R350): Field die keeps channels de-energised and sets its time. -/
  | idle (dt : Nat) (ok : Bool)
  /-- `RELEASE_FRAME` (R363): Field die releases expired channels. -/
  | releaseFrame (dt : Nat) (ok : Bool)
  /-- `DARK_TEST_END` (R359): The dark-test time ends with pass or TEST_FAIL. -/
  | darkTestEnd (dt : Nat) (ch : ChanId) (rb : Bool)
  /-- `UP_FRAME` (R351): At the input read point the logic side commits INPUT and READBACK. -/
  | upFrame (dt : Nat) (ok : Bool)
  /-- `BRIDGE_LOSS` (R352): No valid up frame for 30 µs declares the stream lost. -/
  | bridgeLoss (dt : Nat)
  /-- `SILENCE` (R362): No valid down frame for 30 µs: channels hold. -/
  | silence (dt : Nat)
  /-- `CHANNEL_HOLD_EXPIRY` (R362): A channel's hold limit runs out and it takes its safe value. -/
  | channelHoldExpiry (dt : Nat) (ch : ChanId)
  /-- `TIMED_CHANGE` (R355): A held timed change is applied at its stamp. -/
  | timedChange (dt : Nat) (id : BitVec 4)
  /-- `FIELD_INPUT_CHANGE` (R357): A new input state passes the filter. -/
  | fieldInputChange (dt : Nat) (ch : ChanId) (lvl : Bool)
  /-- `OVERLOAD` (R358): Current at limit for 100 µs turns the driver off with a strike. -/
  | overload (dt : Nat) (ch : ChanId)
  /-- `GROUP_LIMIT` (R358): Group or module current above its limit for 1 ms turns a group off. -/
  | groupLimit (dt : Nat) (g : Fin 4)
  /-- `READBACK` (R358): Readback differing beyond the RB time turns the driver off with a strike. -/
  | readback (dt : Nat) (ch : ChanId) (lvl : Bool)
  /-- `VF_LOSS` (R358): VFg below its undervoltage threshold de-energises the group. -/
  | vfLoss (dt : Nat) (g : Fin 4)
  /-- `VF_RETURN` (R358): VFg returns and the group follows again. -/
  | vfReturn (dt : Nat) (g : Fin 4)
  /-- `FAULT_FOLLOW_RESUME` (R358): 100 ms after a fault a channel follows its value again. -/
  | faultFollowResume (dt : Nat) (ch : ChanId)
  /-- `FLD_READMIT` (R364): Committed call readmitting a field channel. -/
  | fldReadmit (l : LaneId) (p : List Pre) (d : BitVec 4)
  /-- `CAN_RX_FRAME` (R373): A valid frame is stored in the ring and raises trigger 0x3. -/
  | canRxFrame (dt : Nat) (ch : CanId) (stamp : Nat) (f : CanFrame)
  /-- `CAN_TX_ATTEMPT` (R376): The channel offers the winning queued frame. -/
  | canTxAttempt (dt : Nat) (ch : CanId)
  /-- `CAN_TX_SUCCESS` (R376): A frame becomes valid for the transmitter. -/
  | canTxSuccess (dt : Nat) (ch : CanId)
  /-- `CAN_ERROR` (R378): A protocol error updates counters, possibly error-passive or bus-off. -/
  | canError (dt : Nat) (ch : CanId) (tec : BitVec 9) (rec : Byte)
  /-- `CBUS_BUS_ON` (R378): Bus-off recovery completes. -/
  | cbusBusOn (dt : Nat) (ch : CanId)
  /-- `CBUS_SEND` (R375): Committed call queueing a frame. -/
  | cbusSend (l : LaneId) (p : List Pre) (d : BitVec 4)
  /-- `CBUS_ABORT` (R376): Committed call aborting queued frames by key. -/
  | cbusAbort (l : LaneId) (p : List Pre) (d : BitVec 4)
  /-- `CBUS_RECOVER` (R380): Committed call starting bus-off recovery. -/
  | cbusRecover (l : LaneId) (p : List Pre) (d : BitVec 4)
  /-- `CBUS_READMIT` (R380): Committed call readmitting a CAN channel. -/
  | cbusReadmit (l : LaneId) (p : List Pre) (d : BitVec 4)
  /-- `CMD_TAIL` (R389): Host write publishing commands; the device takes them in order. -/
  | cmdTail (dt : Nat) (slot : SlotId) (wr : List (BitVec 16 × Word)) (v : Word)
  /-- `CPL_HEAD` (R387): Host write freeing completion entries. -/
  | cplHead (dt : Nat) (slot : SlotId) (v : Word)
  /-- `TASK_BELL` (R391): Host write ringing the task doorbell. -/
  | taskBell (dt : Nat) (slot : SlotId)
  /-- `NOTIFY` (R387): Host W1C clear of notify bits. -/
  | notify (dt : Nat) (slot : SlotId) (v : Word)
  /-- `IRQ_MASK` (R392): Host write of interrupt enables; unmasking a pending cause sends MSI-X. -/
  | irqMask (dt : Nat) (slot : SlotId) (v : Word)
  /-- `IRQ_PEND` (R392): Host W1C clear of pending causes. -/
  | irqPend (dt : Nat) (slot : SlotId) (v : Word)
  /-- `SLOT_ID` (R393): QSPI key write of 0 causing a slot reset. -/
  | slotId (dt : Nat) (slot : SlotId) (v : Word)
  /-- `SLOT_RESET` (R393): FLR, hot reset, PERST or link loss resets a slot. -/
  | slotReset (dt : Nat) (slot : SlotId)
  /-- `QSPI_WRITE_FRAME` (R386): A QSPI write frame into the slot map. -/
  | qspiWriteFrame (dt : Nat) (b : Bool) (f : List Byte)
  /-- `QSPI_READ_FRAME` (R386): A QSPI read frame from the slot map. -/
  | qspiReadFrame (dt : Nat) (b : Bool) (f : List Byte)
  /-- `IDENTIFY` (R395): Command returning identity and state. -/
  | identify (dt : Nat) (slot : SlotId)
  /-- `OWNER_CHALLENGE` (R398): Command drawing a nonce. -/
  | ownerChallenge (dt : Nat) (slot : SlotId)
  /-- `OWNER_PROVE` (R398): Command granting OWNER on a valid signature. -/
  | ownerProve (dt : Nat) (slot : SlotId)
  /-- `RELEASE` (R399): Command returning the slot to its base role. -/
  | release (dt : Nat) (slot : SlotId)
  /-- `SLOT_BIND` (R384): Command writing the slot record. -/
  | slotBind (dt : Nat) (slot : SlotId)
  /-- `KEY_ENROL` (R399): Command enrolling an owner key. -/
  | keyEnrol (dt : Nat) (slot : SlotId)
  /-- `KEY_REMOVE` (R399): Command removing an owner key. -/
  | keyRemove (dt : Nat) (slot : SlotId)
  /-- `START` (R54): Command entering RUN from STOP if ready. -/
  | start (dt : Nat) (slot : SlotId)
  /-- `STOP` (R43): Command taking cause 0x0E to STOP. -/
  | stop (dt : Nat) (slot : SlotId)
  /-- `HOLD` (R44): Command entering HOLD if shafts are below creep speed. -/
  | hold (dt : Nat) (slot : SlotId)
  /-- `HOLD_LIMIT` (R48): HOLD_REMAIN reaching 0 takes cause 0x15 to STOP. -/
  | holdLimit (dt : Nat)
  /-- `RESUME` (R47): Command returning from HOLD to RUN. -/
  | resume (dt : Nat) (slot : SlotId)
  /-- `CLEAR_EXIT` (R54): Command leaving CLEARING for RUN if ready. -/
  | clearExit (dt : Nat) (slot : SlotId)
  /-- `ACK_FAULT` (R55): Command clearing DEV_FAULT bits. -/
  | ackFault (dt : Nat) (slot : SlotId)
  /-- `RESET` (R570): Command flushing the service core and resetting the device. -/
  | reset (dt : Nat) (slot : SlotId)
  /-- `STANDBY` (R500): Command saving, flushing and entering STANDBY. -/
  | standby (dt : Nat) (slot : SlotId)
  /-- `RECOVER` (R472): Command setting the recovery flag and resetting. -/
  | recover (dt : Nat) (slot : SlotId)
  /-- `READ` (R396): Command reading Canopy bytes atomically. -/
  | read (dt : Nat) (slot : SlotId)
  /-- `WRITE` (R396): Command committing one host write set to owned H lines. -/
  | write (dt : Nat) (slot : SlotId)
  /-- `SYSREAD` (R396): Command reading a system register. -/
  | sysread (dt : Nat) (slot : SlotId)
  /-- `LINK_COUNT` (R395): Command reading a port counter. -/
  | linkCount (dt : Nat) (slot : SlotId)
  /-- `REC_READ` (R462): Command copying recorder records. -/
  | recRead (dt : Nat) (slot : SlotId)
  /-- `REC_CLEAR` (R463): Command writing REC_CLEARED and moving the clear mark. -/
  | recClear (dt : Nat) (slot : SlotId)
  /-- `READMIT` (R395): Command readmitting a lane, station, port or channel. -/
  | readmit (dt : Nat) (slot : SlotId)
  /-- `HOST_LOOP_TUNE` (R334): Host command starting a relay tune. -/
  | hostLoopTune (dt : Nat) (slot : SlotId)
  /-- `HOST_LOOP_CAPTURE` (R340): Host command starting a capture. -/
  | hostLoopCapture (dt : Nat) (slot : SlotId)
  /-- `HOST_LOOP_ABORT` (R397): Host command aborting a tune or capture. -/
  | hostLoopAbort (dt : Nat) (slot : SlotId)
  /-- `PKG_OPEN` (R404): Command erasing the inactive package slot. -/
  | pkgOpen (dt : Nat) (slot : SlotId)
  /-- `PKG_WRITE` (R404): Command programming package bytes. -/
  | pkgWrite (dt : Nat) (slot : SlotId)
  /-- `PKG_CLOSE` (R404): Command checking and marking the package LOADED. -/
  | pkgClose (dt : Nat) (slot : SlotId)
  /-- `PKG_ABORT` (R404): Command ending the open load. -/
  | pkgAbort (dt : Nat) (slot : SlotId)
  /-- `ACTIVATE` (R405): Command making the LOADED slot active and entering SETUP. -/
  | activate (dt : Nat) (slot : SlotId)
  /-- `REVERT` (R405): Command making the PREVIOUS slot active and entering SETUP. -/
  | revert (dt : Nat) (slot : SlotId)
  /-- `EXCHANGE_PLAN` (R407): Command loading new code and starting the staged run. -/
  | exchangePlan (dt : Nat) (slot : SlotId)
  /-- `EXCHANGE` (R409): Command accepting an exchange and fixing its epoch. -/
  | exchange (dt : Nat) (slot : SlotId)
  /-- `EXCHANGE_EPOCH` (R409): At the epoch the package record switches. -/
  | exchangeEpoch (dt : Nat)
  /-- `EXCHANGE_ABORT` (R413): Command aborting an exchange before its epoch. -/
  | exchangeAbort (dt : Nat) (slot : SlotId)
  /-- `OWNER_LEASE_EXPIRY` (R399): 60 s without a command drops OWNER. -/
  | ownerLeaseExpiry (dt : Nat)
  /-- `NONCE_LAPSE` (R398): An unused nonce lapses after 30 s. -/
  | nonceLapse (dt : Nat) (slot : SlotId)
  /-- `HOST_NOTIFY` (R414): Committed call ORing bits into a slot's NOTIFY. -/
  | hostNotify (l : LaneId) (p : List Pre) (d : BitVec 4)
  /-- `SAFE_PASSWORD` (R428): Command setting the safety password. -/
  | safePassword (dt : Nat) (slot : SlotId)
  /-- `SAFE_CONFIRM` (R428): Command writing a confirmed check value. -/
  | safeConfirm (dt : Nat) (slot : SlotId)
  /-- `SAFE_REVOKE` (R428): Command clearing a confirmed value. -/
  | safeRevoke (dt : Nat) (slot : SlotId)
  /-- `SAFE_LOG_READ` (R428): Command reading the change log. -/
  | safeLogRead (dt : Nat) (slot : SlotId)
  /-- `SAFE_LOCKOUT_END` (R429): A 300 s password lockout ends. -/
  | safeLockoutEnd (dt : Nat)
  /-- `SAFE_STOP` (R432): Committed guard call requesting STOP. -/
  | safeStop (l : LaneId) (p : List Pre) (d : BitVec 4)
  /-- `SAFE_STATUS` (R432): Immediate call returning guard status. -/
  | safeStatus (l : LaneId) (p : List Pre) (d : BitVec 4)
  /-- `NV_READ` (R464): Immediate call copying a user record. -/
  | nvRead (l : LaneId) (p : List Pre) (d : BitVec 4)
  /-- `NV_WRITE` (R464): Committed call writing a user record. -/
  | nvWrite (l : LaneId) (p : List Pre) (d : BitVec 4)
  /-- `NV_ABORT` (R464): Committed call aborting pending record writes. -/
  | nvAbort (l : LaneId) (p : List Pre) (d : BitVec 4)
  /-- `NV_COUNT` (R464): Committed call incrementing a user counter. -/
  | nvCount (l : LaneId) (p : List Pre) (d : BitVec 4)
  /-- `NV_COUNT_READ` (R464): Immediate call reading a user counter. -/
  | nvCountRead (l : LaneId) (p : List Pre) (d : BitVec 4)
  /-- `REC_USER` (R464): Committed call recording a user event. -/
  | recUser (l : LaneId) (p : List Pre) (d : BitVec 4)
  /-- `USER_RECORD_WRITE` (R446): The service core writes a pending user record. -/
  | userRecordWrite (dt : Nat)
  /-- `COUNTER_INCREMENT` (R449): The service core increments a spread counter. -/
  | counterIncrement (dt : Nat)
  /-- `OPERATING_MINUTE` (R450): Every 60 s of operating time counter 0 increments. -/
  | operatingMinute (dt : Nat)
  /-- `SYSTEM_RECORD_WRITE` (R442): A system record reaches its commit point. -/
  | systemRecordWrite (dt : Nat) (id : BitVec 16)
  /-- `RECORDER_WRITE` (R459): A buffered record is written to the recorder. -/
  | recorderWrite (dt : Nat)
  /-- `MERGED_RECORD_REWRITE` (R460): A merged record is rewritten. -/
  | mergedRecordRewrite (dt : Nat)
  /-- `NV_SCRUB` (R436): The 24 h parameter-store scrub corrects words. -/
  | nvScrub (dt : Nat) (errs : List (Nat × Bool))
  /-- `PERIODIC_WARM_SAVE` (R454): The save period runs out and a reason 4 save starts. -/
  | periodicWarmSave (dt : Nat)
  /-- `WARM_COPY` (R453): After a save the image is copied to the other slot. -/
  | warmCopy (dt : Nat)
  /-- `HANDSHAKE_REQUEST` (R474): Every 1 ms a numbered request goes to the service core. -/
  | handshakeRequest (dt : Nat)
  /-- `HANDSHAKE_ANSWER` (R474): The service core echoes a request number. -/
  | handshakeAnswer (dt : Nat) (n : Nat)
  /-- `HANDSHAKE_TIMEOUT` (R474): Ten unanswered requests raise SVC_LOSS. -/
  | handshakeTimeout (dt : Nat)
  /-- `FW_INFO` (R475): Command returning firmware status. -/
  | fwInfo (dt : Nat) (slot : SlotId)
  /-- `FW_OPEN` (R475): Command erasing the capture area and opening a download. -/
  | fwOpen (dt : Nat) (slot : SlotId)
  /-- `FW_WRITE` (R475): Command programming download bytes. -/
  | fwWrite (dt : Nat) (slot : SlotId)
  /-- `FW_CLOSE` (R476): Command verifying the download. -/
  | fwClose (dt : Nat) (slot : SlotId)
  /-- `FW_ABORT` (R475): Command ending a download or install. -/
  | fwAbort (dt : Nat) (slot : SlotId)
  /-- `FW_INSTALL` (R477): Command installing the captured image. -/
  | fwInstall (dt : Nat) (slot : SlotId)
  /-- `FW_REFRESH` (R481): Command starting a refresh pass. -/
  | fwRefresh (dt : Nat) (slot : SlotId)
  /-- `NOR_REFRESH_DUE` (R481): A refresh pass falls due. -/
  | norRefreshDue (dt : Nat)
  /-- `NOR_REFRESH_BLOCK` (R481): Each 60 s one block is refreshed. -/
  | norRefreshBlock (dt : Nat)
  /-- `NOR_PAGE_CHECK` (R482): Every 30 days refreshed regions are read. -/
  | norPageCheck (dt : Nat) (blk : Nat) (bits : Nat) (ue : Bool)
  /-- `NOR_ERASE_END` (R485): A NOR erase ends and the watchdog resumes. -/
  | norEraseEnd (dt : Nat)
  /-- `SUPWD_LONG_ERASE` (R485): An erase outlasting 600 ms resumes the watchdog. -/
  | supwdLongErase (dt : Nat) (blk : Nat)
  /-- `SUPWD_KICK` (R483): Key write restarting the watchdog count. -/
  | supwdKick (dt : Nat) (v : Word)
  /-- `SUPWD_DIS` (R484): Key writes of the disable sequence. -/
  | supwdDis (dt : Nat) (v : Word)
  /-- `SUPWD_LOCK` (R484): Key write setting the disable lock. -/
  | supwdLock (dt : Nat) (v : Word)
  /-- `SUPWD_CFG` (R483): Write of clock and timeout, pending until a kick. -/
  | supwdCfg (dt : Nat) (v : Word)
  /-- `SUPWD_EXPIRED` (R483): The watchdog count reaches its timeout and resets the device. -/
  | supwdExpired (dt : Nat)
  /-- `CLOCK_STOPPED` (R486): Four missing selected-clock periods reset the device. -/
  | clockStopped (dt : Nat) (xfo : Bool)
  /-- `SUPWD_MON_LOST` (R486): Loss of the monitoring clock is recorded. -/
  | supwdMonLost (dt : Nat) (xfo : Bool)
  /-- `POWER_ON_RESET_RELEASE` (R494): VLOG above 3.13 V for 1 ms releases reset with cause 0x01. -/
  | powerOnResetRelease (dt : Nat) (testEn : Bool)
  /-- `VLOG_BELOW_PRST` (R497): VLOG below PRST enters OFF. -/
  | vlogBelowPrst (dt : Nat)
  /-- `POWER_WARNING` (R495): VLOG below PWARN starts the save and flush and triggers tasks. -/
  | powerWarning (dt : Nat)
  /-- `POWER_RIDE_THROUGH` (R496): VLOG recovers above 3.13 V before PRST. -/
  | powerRideThrough (dt : Nat)
  /-- `NRESET` (R508): nRESET low resets the device under cause 0x04. -/
  | nreset (dt : Nat)
  /-- `LOAD_SWITCH_OPEN` (R500): 1 ms after the STANDBY completion the load switches open. -/
  | loadSwitchOpen (dt : Nat)
  /-- `WAKE_EDGE` (R502): A WAKE rising edge wakes from STANDBY. -/
  | wakeEdge (dt : Nat)
  /-- `QSPI_CS_WAKE` (R502): A QSPI chip-select edge wakes from STANDBY. -/
  | qspiCsWake (dt : Nat)
  /-- `CAN0_WAKE` (R502): CAN0_RXD dominant over 50 µs wakes from STANDBY. -/
  | can0Wake (dt : Nat)
  /-- `PLL_LOCK` (R506): The PLL locks and the main die leaves reset. -/
  | pllLock (dt : Nat) (wakeHigh : Bool)
  /-- `PLL_LOCK_RETRY` (R506): Every 100 ms a failed lock is retried. -/
  | pllLockRetry (dt : Nat) (ok : Bool)
  /-- `PLL_LOSS_OF_LOCK` (R505): Crystal stop or lock loss stops XFO. -/
  | pllLossOfLock (dt : Nat)
  /-- `BOOT_COMPLETE` (R302): After lane boot tests the package is checked and SETUP or STOP entered. -/
  | bootComplete (dt : Nat) (failed : List (LaneId × TestPart))
  /-- `SETUP_LIMIT` (R37): A setup task not complete 5 s after release fails. -/
  | setupLimit (dt : Nat)
  /-- `TEST_LOGIC_RESET` (R528): Five TCK edges with TMS high reset the TAP. -/
  | testLogicReset (dt : Nat)
  /-- `EXTEST` (R529): TAP instruction driving boundary cells in board test. -/
  | extest (dt : Nat)
  /-- `SAMPLE_PRELOAD` (R528): TAP instruction sampling the boundary register. -/
  | samplePreload (dt : Nat)
  /-- `IDCODE` (R530): TAP instruction selecting IDCODE. -/
  | idcode (dt : Nat)
  /-- `CLAMP` (R529): TAP instruction clamping outputs in board test. -/
  | clamp (dt : Nat)
  /-- `HIGHZ` (R529): TAP instruction floating outputs in board test. -/
  | highz (dt : Nat)
  /-- `BYPASS` (R528): TAP instruction selecting the bypass register. -/
  | bypass (dt : Nat)
  /-- `NRESET_RELEASE` (R508): The rising edge of nRESET releases the reset, after which the PLL relocks and the boot ROM starts. -/
  | nresetRelease (dt : Nat)
  /-- `PCIE_LINK_UP` (R518): Once PCIE_PERST_N rises, the PCIe link trains and HOST_SLOTn.UP becomes 1. -/
  | pcieLinkUp (dt : Nat) (slot : SlotId)
  /-- `Z_RISING_EDGE` (R230): A rising edge of the Z index input arms the next forward count edge with Z high as a reference edge. -/
  | zRisingEdge (dt : Nat) (sh : ShaftId)
  /-- `WIRE_ERROR_CLEARED` (R223): An encoder pair stops reading open or shorted, so SHAFT_STAT.WIRE clears and the 1 ms wire-fault timing ends. -/
  | wireErrorCleared (dt : Nat) (sh : ShaftId)
  deriving DecidableEq, Repr

end Sys2Proof
end

