-- ==== Sys2Proof/Decode.lean ====
section
/-! DEFINITION. The 14-bit words of the lane instructions (R83, R107, R109, R115, R119-R130, R134-R163): the
prefixes, the instruction that an own word and the prefixes before it stand for, the unit read from a list of words, and
the words of an instruction. No row of the opcode table gives bits, so no word of the table spells a command. -/
namespace Sys2Proof

/-- The command that the word `w` of `nbits` bits spells by the table's bits: none, as no row gives bits. -/
def decodeTableWord (nbits w : Nat) : Option Instr :=
  match nbits, w with
  | _, _ => none

/-- Bits [lo + n - 1 : lo] of an instruction word. -/
def wfld (w : BitVec 14) (lo n : Nat) : BitVec n := w.extractLsb' lo n

/-- A prefix word: `EXT` with its payload in bits [9:0], or `REP` (R107, R148). -/
def prefixOf (w : BitVec 14) : Option Pre :=
  if wfld w 10 4 = 0xF then some (.ext (wfld w 0 10)) else if w = 0x3400 then some .rep else none

/-- The special-register numbers of R127. -/
def srNamed (n : BitVec 5) : Bool := decide (n.toNat ≤ 8 ∨ (0x10 ≤ n.toNat ∧ n.toNat ≤ 0x1B))

/-- Class 00: the bit operations (R109). -/
def decodeBitOp (l : LaneId) (p : List Pre) (w : BitVec 14) : Instr :=
  let n := wfld w 0 9
  match (wfld w 9 3).toNat with
  | 0 => .bld l p n
  | 1 => .bldn l p n
  | 2 => .band l p n
  | 3 => .bandn l p n
  | 4 => .bor l p n
  | 5 => .bst l p n
  | 6 => .bset l p n
  | _ => .brst l p n

/-- Class 01: the register ALU (R115). -/
def decodeAlu (l : LaneId) (p : List Pre) (w : BitVec 14) : Instr :=
  let d := wfld w 4 4
  let s := wfld w 0 4
  match (wfld w 8 4).toNat with
  | 0x0 => .mov l p d s
  | 0x1 => .add l p d s
  | 0x2 => .adc l p d s
  | 0x3 => .sub l p d s
  | 0x4 => .sbc l p d s
  | 0x5 => .cmp l p d s
  | 0x6 => .and l p d s
  | 0x7 => .or l p d s
  | 0x8 => .xor l p d s
  | 0x9 => .tst l p d s
  | 0xa => .neg l p d s
  | 0xb => .lsl l p d s
  | 0xc => .lsr l p d s
  | 0xd => .asr l p d s
  | 0xe => .ror l p d s
  | _ => .mul l p d s

/-- Operation 0xD of group 00 of class 10: RLO and string operations (R121). -/
def decodeRlo (l : LaneId) (p : List Pre) (run : Nat) (w : BitVec 14) : Option Instr :=
  let r := wfld w 0 4
  match (wfld w 4 2).toNat with
  | 0 => some (.rtog l p r)
  | 1 => some (.gtor l p r)
  | 2 => match r.toNat with
    | 0 => some (.rnot l p)
    | 1 => some (.rset l p)
    | 2 => some (.rclr l p)
    | 4 => some (.movsb l p run)
    | 5 => some (.movsh l p run)
    | 6 => some (.movsw l p run)
    | _ => none
  | _ => some (.fillw l p r run)

/-- Group 00 of class 10: the immediate ALU, RLO and string operations, and division (R120, R121, R124). -/
def decodeImm (l : LaneId) (p : List Pre) (run : Nat) (w : BitVec 14) : Option Instr :=
  let d := wfld w 2 4
  let i := wfld w 0 2
  match (wfld w 6 4).toNat with
  | 0x0 => some (.movi l p d i)
  | 0x1 => some (.addi l p d i)
  | 0x2 => some (.subi l p d i)
  | 0x3 => some (.cmpi l p d i)
  | 0x4 => some (.andi l p d i)
  | 0x5 => some (.ori l p d i)
  | 0x6 => some (.xori l p d i)
  | 0x7 => some (.tsti l p d i)
  | 0x8 => some (.muli l p d i)
  | 0x9 => some (.lsli l p d i)
  | 0xa => some (.lsri l p d i)
  | 0xb => some (.asri l p d i)
  | 0xc => some (.rori l p d i)
  | 0xd => decodeRlo l p run w
  | 0xe => some (.divs l p (wfld w 3 3) (wfld w 0 3))
  | _ => some (.divu l p (wfld w 3 3) (wfld w 0 3))

/-- Groups 01 and 10 of class 10: loads and stores (R125). -/
def decodeMem (l : LaneId) (p : List Pre) (w : BitVec 14) : Instr :=
  let d := wfld w 4 4
  let b := wfld w 0 4
  match (wfld w 10 2).toNat, (wfld w 8 2).toNat with
  | 1, 0 => .ldb l p d b
  | 1, 1 => .ldbs l p d b
  | 1, 2 => .ldh l p d b
  | 1, 3 => .ldhs l p d b
  | 2, 0 => .ldw l p d b
  | 2, 1 => .stb l p d b
  | 2, 2 => .sth l p d b
  | _, _ => .stw l p d b

/-- Group 11 of class 10: special-register moves and binary32 operations (R127, R128). -/
def decodeSpecial (l : LaneId) (p : List Pre) (w : BitVec 14) : Option Instr :=
  let x := wfld w 3 3
  let y := wfld w 0 3
  match (wfld w 8 2).toNat with
  | 0 => if srNamed (wfld w 3 5) then some (.mfs l p (wfld w 3 5) y) else none
  | 1 => if srNamed (wfld w 3 5) then some (.mts l p (wfld w 3 5) y) else none
  | _ => match (wfld w 6 3).toNat with
    | 0 => some (.fadd l p x y)
    | 1 => some (.fsub l p x y)
    | 2 => some (.fmul l p x y)
    | 3 => some (.fdiv l p x y)
    | 4 => some (.fcmp l p x y)
    | 5 => some (.ftoi l p x y)
    | 6 => some (.itof l p x y)
    | _ => none

/-- Class 10 by its group (R119). -/
def decodeClass2 (l : LaneId) (p : List Pre) (run : Nat) (w : BitVec 14) : Option Instr :=
  match (wfld w 10 2).toNat with
  | 0 => decodeImm l p run w
  | 1 | 2 => some (decodeMem l p w)
  | _ => decodeSpecial l p w

/-- Group 00 of class 11: skips and transfers of control (R134, R137). -/
def decodeFlow (l : LaneId) (p : List Pre) (w : BitVec 14) : Option Instr :=
  let s := wfld w 0 4
  match (wfld w 8 2).toNat with
  | 0 => match (wfld w 4 4).toNat with
    | 0 => some (.skcc l p s)
    | 1 => some (.skz l p s)
    | 2 => some (.sknz l p s)
    | _ => none
  | 1 => some (.bcc l p (wfld w 4 4) s)
  | 2 => match (wfld w 6 2).toNat with
    | 0 => some (.bra l p (wfld w 0 6))
    | 1 => some (.call l p (wfld w 0 6))
    | 2 => match (wfld w 4 2).toNat with
      | 0 => some (.br l p s)
      | 1 => some (.callr l p s)
      | _ => none
    | _ => if wfld w 0 6 = 0 then some (.ret l p) else none
  | _ => none

/-- Group 01 of class 11 without `REP`: `LOOP` and `LEAVE` (R141, R145). -/
def decodeLoops (l : LaneId) (p : List Pre) (w : BitVec 14) : Option Instr :=
  match (wfld w 8 2).toNat with
  | 1 => some (.loop l p (wfld w 4 4) (wfld w 0 4))
  | 2 => if wfld w 0 8 = 0 then some (.leave l p) else none
  | _ => none

/-- Words 0x3800-0x38BF of group 10 of class 11: CRC and parity (R154, R155). -/
def decodeCrc (l : LaneId) (p : List Pre) (run : Nat) (w : BitVec 14) : Option Instr :=
  let s := wfld w 0 4
  match (wfld w 4 4).toNat with
  | 0 => some (.crcb l p s)
  | 1 => some (.crch l p s)
  | 2 => some (.crcw l p s)
  | 4 => match s.toNat with
    | 0 => some (.crcmb l p run)
    | 1 => some (.crcmh l p run)
    | 2 => some (.crcmw l p run)
    | 8 => some (.crci l p)
    | _ => none
  | 5 => some (.crcf l p s)
  | 8 => some (.par l p s)
  | _ => none

/-- Group 10 of class 11: CRC, parity, bit reverse, check-in, end, system registers, calls and frets (R154-R163). -/
def decodeSystem (l : LaneId) (p : List Pre) (run : Nat) (w : BitVec 14) : Option Instr :=
  let d := wfld w 3 3
  let s := wfld w 0 3
  match (wfld w 6 4).toNat with
  | 0 | 1 | 2 => decodeCrc l p run w
  | 3 => some (.brev l p d s)
  | 4 => some (.brevb l p d s)
  | 5 => if wfld w 0 6 = 0 then some (.chk l p) else if wfld w 0 6 = 1 then some (.halt l p []) else none
  | 6 => some (.sys l p (wfld w 2 4) (wfld w 0 2))
  | 7 => some (.cfg l p (wfld w 2 4) (wfld w 0 2))
  | 8 => some (.sysc l p (wfld w 2 4) (wfld w 0 2))
  | 9 => some (.fret l p d s)
  | 0xa => some (.fretc l p d s)
  | _ => none

/-- The instruction that an own word stands for after the prefixes `p`, by class and group (R83, R130); none for a
prefix word and for a word that is not assigned. `run` is the number of elements that a repeated unit executes before
the lane switches. -/
def decodeWord (l : LaneId) (p : List Pre) (run : Nat) (w : BitVec 14) : Option Instr :=
  match (wfld w 12 2).toNat with
  | 0 => some (decodeBitOp l p w)
  | 1 => some (decodeAlu l p w)
  | 2 => decodeClass2 l p run w
  | _ => match (wfld w 10 2).toNat with
    | 0 => decodeFlow l p w
    | 1 => decodeLoops l p w
    | 2 => decodeSystem l p run w
    | _ => none

/-- The unit at the head of a list of words: every `EXT` and `REP` belongs to it up to the first other word, and an
unassigned word is the row of R130 (R84, R135). -/
def decodeUnit (l : LaneId) (run : Nat) : List Pre → List (BitVec 14) → Option Instr
  | _, [] => none
  | p, w :: r =>
    match prefixOf w with
    | some q => decodeUnit l run (p ++ [q]) r
    | none => match decodeWord l p run w with
      | some i => some i
      | none => some (.unassignedEncoding l p w)

/-- An assigned word: a prefix, or a word of an instruction (R83, R130). -/
def assignedWord (w : BitVec 14) : Bool := (prefixOf w).isSome || (decodeWord 0 [] 0 w).isSome

/-- The word of a prefix (R107, R148). -/
def Pre.word : Pre → BitVec 14
  | .ext x => 0x3C00 ||| x.setWidth 14
  | .rep => 0x3400

/-- A word from its opcode bits and two fields of widths that end at bit `lo` and at bit 0. -/
def wordOf {n m : Nat} (op : BitVec 14) (hi : BitVec n) (lo : Nat) (low : BitVec m) : BitVec 14 :=
  op ||| (hi.setWidth 14 <<< lo) ||| low.setWidth 14

/-- Lane, prefixes and own word of a lane instruction (R109-R163). -/
def unitOf : Instr → Option (LaneId × List Pre × BitVec 14)
  | .bld l p n => some (l, p, 0x0 ||| n.setWidth 14)
  | .bldn l p n => some (l, p, 0x200 ||| n.setWidth 14)
  | .band l p n => some (l, p, 0x400 ||| n.setWidth 14)
  | .bandn l p n => some (l, p, 0x600 ||| n.setWidth 14)
  | .bor l p n => some (l, p, 0x800 ||| n.setWidth 14)
  | .bst l p n => some (l, p, 0xa00 ||| n.setWidth 14)
  | .bset l p n => some (l, p, 0xc00 ||| n.setWidth 14)
  | .brst l p n => some (l, p, 0xe00 ||| n.setWidth 14)
  | .mov l p d s => some (l, p, wordOf 0x1000 d 4 s)
  | .add l p d s => some (l, p, wordOf 0x1100 d 4 s)
  | .adc l p d s => some (l, p, wordOf 0x1200 d 4 s)
  | .sub l p d s => some (l, p, wordOf 0x1300 d 4 s)
  | .sbc l p d s => some (l, p, wordOf 0x1400 d 4 s)
  | .cmp l p d s => some (l, p, wordOf 0x1500 d 4 s)
  | .and l p d s => some (l, p, wordOf 0x1600 d 4 s)
  | .or l p d s => some (l, p, wordOf 0x1700 d 4 s)
  | .xor l p d s => some (l, p, wordOf 0x1800 d 4 s)
  | .tst l p d s => some (l, p, wordOf 0x1900 d 4 s)
  | .neg l p d s => some (l, p, wordOf 0x1a00 d 4 s)
  | .lsl l p d s => some (l, p, wordOf 0x1b00 d 4 s)
  | .lsr l p d s => some (l, p, wordOf 0x1c00 d 4 s)
  | .asr l p d s => some (l, p, wordOf 0x1d00 d 4 s)
  | .ror l p d s => some (l, p, wordOf 0x1e00 d 4 s)
  | .mul l p d s => some (l, p, wordOf 0x1f00 d 4 s)
  | .movi l p d i => some (l, p, wordOf 0x2000 d 2 i)
  | .addi l p d i => some (l, p, wordOf 0x2040 d 2 i)
  | .subi l p d i => some (l, p, wordOf 0x2080 d 2 i)
  | .cmpi l p d i => some (l, p, wordOf 0x20c0 d 2 i)
  | .andi l p d i => some (l, p, wordOf 0x2100 d 2 i)
  | .ori l p d i => some (l, p, wordOf 0x2140 d 2 i)
  | .xori l p d i => some (l, p, wordOf 0x2180 d 2 i)
  | .tsti l p d i => some (l, p, wordOf 0x21c0 d 2 i)
  | .muli l p d i => some (l, p, wordOf 0x2200 d 2 i)
  | .lsli l p d i => some (l, p, wordOf 0x2240 d 2 i)
  | .lsri l p d i => some (l, p, wordOf 0x2280 d 2 i)
  | .asri l p d i => some (l, p, wordOf 0x22c0 d 2 i)
  | .rori l p d i => some (l, p, wordOf 0x2300 d 2 i)
  | .rtog l p d => some (l, p, 0x2340 ||| d.setWidth 14)
  | .gtor l p s => some (l, p, 0x2350 ||| s.setWidth 14)
  | .rnot l p => some (l, p, 0x2360)
  | .rset l p => some (l, p, 0x2361)
  | .rclr l p => some (l, p, 0x2362)
  | .movsb l p _ => some (l, p, 0x2364)
  | .movsh l p _ => some (l, p, 0x2365)
  | .movsw l p _ => some (l, p, 0x2366)
  | .fillw l p s _ => some (l, p, 0x2370 ||| s.setWidth 14)
  | .divs l p x s => some (l, p, wordOf 0x2380 x 3 s)
  | .divu l p x s => some (l, p, wordOf 0x23c0 x 3 s)
  | .ldb l p d b => some (l, p, wordOf 0x2400 d 4 b)
  | .ldbs l p d b => some (l, p, wordOf 0x2500 d 4 b)
  | .ldh l p d b => some (l, p, wordOf 0x2600 d 4 b)
  | .ldhs l p d b => some (l, p, wordOf 0x2700 d 4 b)
  | .ldw l p d b => some (l, p, wordOf 0x2800 d 4 b)
  | .stb l p d b => some (l, p, wordOf 0x2900 d 4 b)
  | .sth l p d b => some (l, p, wordOf 0x2a00 d 4 b)
  | .stw l p d b => some (l, p, wordOf 0x2b00 d 4 b)
  | .mfs l p r g => some (l, p, wordOf 0x2c00 r 3 g)
  | .mts l p r g => some (l, p, wordOf 0x2d00 r 3 g)
  | .fadd l p x y => some (l, p, wordOf 0x2e00 x 3 y)
  | .fsub l p x y => some (l, p, wordOf 0x2e40 x 3 y)
  | .fmul l p x y => some (l, p, wordOf 0x2e80 x 3 y)
  | .fdiv l p x y => some (l, p, wordOf 0x2ec0 x 3 y)
  | .fcmp l p x y => some (l, p, wordOf 0x2f00 x 3 y)
  | .ftoi l p x y => some (l, p, wordOf 0x2f40 x 3 y)
  | .itof l p x y => some (l, p, wordOf 0x2f80 x 3 y)
  | .skcc l p c => some (l, p, 0x3000 ||| c.setWidth 14)
  | .skz l p c => some (l, p, 0x3010 ||| c.setWidth 14)
  | .sknz l p c => some (l, p, 0x3020 ||| c.setWidth 14)
  | .bcc l p c x => some (l, p, wordOf 0x3100 c 4 x)
  | .bra l p x => some (l, p, 0x3200 ||| x.setWidth 14)
  | .call l p x => some (l, p, 0x3240 ||| x.setWidth 14)
  | .br l p s => some (l, p, 0x3280 ||| s.setWidth 14)
  | .callr l p s => some (l, p, 0x3290 ||| s.setWidth 14)
  | .ret l p => some (l, p, 0x32c0)
  | .loop l p s n => some (l, p, wordOf 0x3500 s 4 n)
  | .leave l p => some (l, p, 0x3600)
  | .crcb l p s => some (l, p, 0x3800 ||| s.setWidth 14)
  | .crch l p s => some (l, p, 0x3810 ||| s.setWidth 14)
  | .crcw l p s => some (l, p, 0x3820 ||| s.setWidth 14)
  | .crcmb l p _ => some (l, p, 0x3840)
  | .crcmh l p _ => some (l, p, 0x3841)
  | .crcmw l p _ => some (l, p, 0x3842)
  | .crci l p => some (l, p, 0x3848)
  | .crcf l p d => some (l, p, 0x3850 ||| d.setWidth 14)
  | .par l p s => some (l, p, 0x3880 ||| s.setWidth 14)
  | .brev l p d s => some (l, p, wordOf 0x38c0 d 3 s)
  | .brevb l p d s => some (l, p, wordOf 0x3900 d 3 s)
  | .chk l p => some (l, p, 0x3940)
  | .halt l p _ => some (l, p, 0x3941)
  | .sys l p d n => some (l, p, wordOf 0x3980 d 2 n)
  | .cfg l p s n => some (l, p, wordOf 0x39c0 s 2 n)
  | .sysc l p d n => some (l, p, wordOf 0x3a00 d 2 n)
  | .fret l p d s => some (l, p, wordOf 0x3a40 d 3 s)
  | .fretc l p d s => some (l, p, wordOf 0x3a80 d 3 s)
  | .unassignedEncoding l p w => some (l, p, w)
  | .taskTrigger l p d => some (l, p, wordOf 0x3a00 d 2 (BitVec.ofNat 2 0))
  | .releaseTime l p d => some (l, p, wordOf 0x3a00 d 2 (BitVec.ofNat 2 1))
  | .atTime l p d => some (l, p, wordOf 0x3a00 d 2 (BitVec.ofNat 2 2))
  | .snapInfo l p d => some (l, p, wordOf 0x3a00 d 2 (BitVec.ofNat 2 3))
  | .shaftRead l p d => some (l, p, wordOf 0x3a00 d 2 (BitVec.ofNat 2 0))
  | .ylReadmit l p d => some (l, p, wordOf 0x3a00 d 2 (BitVec.ofNat 2 0))
  | .ylMbxSend l p d => some (l, p, wordOf 0x3a00 d 2 (BitVec.ofNat 2 1))
  | .ylMbxRead l p d => some (l, p, wordOf 0x3a00 d 2 (BitVec.ofNat 2 2))
  | .ylStaInfo l p d => some (l, p, wordOf 0x3a00 d 2 (BitVec.ofNat 2 3))
  | .ylCount l p d => some (l, p, wordOf 0x3a00 d 2 (BitVec.ofNat 2 0))
  | .loopRead l p d => some (l, p, wordOf 0x3a00 d 2 (BitVec.ofNat 2 0))
  | .loopTune l p d => some (l, p, wordOf 0x3a00 d 2 (BitVec.ofNat 2 1))
  | .loopCapture l p d => some (l, p, wordOf 0x3a00 d 2 (BitVec.ofNat 2 2))
  | .loopAbort l p d => some (l, p, wordOf 0x3a00 d 2 (BitVec.ofNat 2 3))
  | .fldReadmit l p d => some (l, p, wordOf 0x3a00 d 2 (BitVec.ofNat 2 0))
  | .cbusSend l p d => some (l, p, wordOf 0x3a00 d 2 (BitVec.ofNat 2 0))
  | .cbusAbort l p d => some (l, p, wordOf 0x3a00 d 2 (BitVec.ofNat 2 1))
  | .cbusRecover l p d => some (l, p, wordOf 0x3a00 d 2 (BitVec.ofNat 2 2))
  | .cbusReadmit l p d => some (l, p, wordOf 0x3a00 d 2 (BitVec.ofNat 2 3))
  | .hostNotify l p d => some (l, p, wordOf 0x3a00 d 2 (BitVec.ofNat 2 0))
  | .safeStop l p d => some (l, p, wordOf 0x3a00 d 2 (BitVec.ofNat 2 0))
  | .safeStatus l p d => some (l, p, wordOf 0x3a00 d 2 (BitVec.ofNat 2 1))
  | .nvRead l p d => some (l, p, wordOf 0x3a00 d 2 (BitVec.ofNat 2 0))
  | .nvWrite l p d => some (l, p, wordOf 0x3a00 d 2 (BitVec.ofNat 2 1))
  | .nvAbort l p d => some (l, p, wordOf 0x3a00 d 2 (BitVec.ofNat 2 2))
  | .nvCount l p d => some (l, p, wordOf 0x3a00 d 2 (BitVec.ofNat 2 3))
  | .nvCountRead l p d => some (l, p, wordOf 0x3a00 d 2 (BitVec.ofNat 2 0))
  | .recUser l p d => some (l, p, wordOf 0x3a00 d 2 (BitVec.ofNat 2 1))
  | .rep l pre post inner _ =>
    match inner with
    | .movs n => some (l, pre ++ [.rep] ++ post, 0x2364 + BitVec.ofNat 14 n.val)
    | .fillw s => some (l, pre ++ [.rep] ++ post, 0x2370 ||| s.setWidth 14)
    | .crcm n => some (l, pre ++ [.rep] ++ post, 0x3840 + BitVec.ofNat 14 n.val)
    | .writesRep | .other => none
  | _ => none

/-- The words of a lane instruction: its prefixes in their order, then its own word (R84). -/
def encodeUnit (i : Instr) : Option (List (BitVec 14)) :=
  (unitOf i).map fun u => u.2.1.map Pre.word ++ [u.2.2]

end Sys2Proof
end

