-- ==== Sys2Proof/Config.lean ====
section
/-! DEFINITION. What one implementation fixes and what the spec leaves free. Every `opaque` constant
has no body: no proof can see its value, so a statement holds whatever the value is. -/
namespace Sys2Proof.Config

/-- FREE VALUE (R71): the byte a lane finds at a scratch address that the instance has not written;
the first argument is the seed of the instance's scratch, the second the address. -/
opaque staleScratch : Nat → Nat → Byte
/-- FREE VALUE (R398, R427): the n-th byte of the k-th draw from the device's random source. -/
opaque randomByte : Nat → Nat → Byte
/-- UNINTERPRETED (R398, R400): SHA-256 of a byte string, as 32 bytes. -/
opaque sha256 : List Byte → List Byte
/-- UNINTERPRETED (R398, R400, R470): whether an ECDSA P-256 signature `sig` (r, s) over the digest
verifies against the public key (X, Y). -/
opaque ecdsaP256 (key digest sig : List Byte) : Bool
/-- UNINTERPRETED (R427): PBKDF2-HMAC-SHA256 of a password with a salt, 10,000 iterations. -/
opaque pbkdf2 (password salt : List Byte) : List Byte
/-- IMPLEMENTATION (R470): the digest of the Oxgan key held in the boot ROM. -/
opaque oxganKeyDigest : List Byte
/-- IMPLEMENTATION (R438): the module serial number of the factory identity record. -/
opaque serial : BitVec 64
/-- IMPLEMENTATION (R438): the PCI vendor ID of the factory identity record. -/
opaque pciVendor : BitVec 16
/-- IMPLEMENTATION (R1): bits [23:0] of the BUILD field of the factory firmware image. -/
opaque firmwareBuild : BitVec 24
/-- IMPLEMENTATION (R530): Oxgan's JEP106 identity code in the BSDL file. -/
opaque jep106 : BitVec 11
/-- FREE VALUE (R253, R258): whether a velocity that lies between two representable fixed-point values
is reported as the upper one; the spec states no rounding. The argument is the exact value scaled. -/
opaque roundUp : Rat → Bool
/-- FREE VALUE (R356, R362): an analogue or asynchronous choice of the field side; n-th draw. -/
opaque freeBit : Nat → Bool
/-- FREE VALUE (R320, R416, R434): the byte by which a record of event `code` tells two cases apart whose codes the spec
does not state: a key enrolled (true) or removed, a password changed (true) or first set, a takeover for good (true) or as a stand-in, a vote's
commit after (true) or before the output release instant. -/
opaque recordFlag : Nat → Bool → Byte
/-- FREE VALUE (R490): the byte by which a record names a NOR region, counted in the order of R468. -/
opaque regionCode : Nat → Byte
/-- FREE VALUE (R60): the byte by which `NO_PACKAGE` names the check result of a package slot; the argument is 0, or
the status (R16) that the failed check would give a command. -/
opaque checkResult : Nat → Byte
/-- FREE VALUE: a 32-bit value the spec does not state; n-th draw. -/
opaque freeWord : Nat → Word
/-- FREE VALUE: a duration in ns that the spec only bounds; n-th draw, to be bounded by its user. -/
opaque freeNs : Nat → Nat

end Sys2Proof.Config
end

