-- ==== Sys2Proof/Machine/Tab.lean ====
section
/-! DEFINITION. Sparse tables: a list of (key, value) pairs with strictly rising keys in which no entry
holds the value that an unlisted key reads as. Memory (`Host.Cell` lists), the register store and the
per-task, per-lane and per-station tables are all of this form. -/
namespace Sys2Proof.Machine

/-- A sparse table; what an unlisted key reads as is an argument of every operation. -/
abbrev Tab (α : Type) := List (Nat × α)

/-- The value held at key `k`; `d` where the table lists none. -/
def tabGet {α : Type} (d : α) : Tab α → Nat → α
  | [], _ => d
  | (a, v) :: r, k => if a = k then v else tabGet d r k

/-- `v` written at key `k` of a table with rising keys, whatever `v` is. -/
def tabPut {α : Type} (k : Nat) (v : α) : Tab α → Tab α
  | [] => [(k, v)]
  | (a, w) :: r => if k < a then (k, v) :: (a, w) :: r
                   else if k = a then (k, v) :: r
                   else (a, w) :: tabPut k v r

/-- Key `k` no longer listed. -/
def tabDel {α : Type} (k : Nat) : Tab α → Tab α
  | [] => []
  | (a, w) :: r => if a = k then tabDel k r else (a, w) :: tabDel k r

/-- `v` written at key `k`, in canonical form: a value equal to the default `d` removes the entry. -/
def tabSet {α : Type} [DecidableEq α] (d : α) (k : Nat) (v : α) (t : Tab α) : Tab α :=
  if v = d then tabDel k t else tabPut k v t

/-- The entry at `k` changed by `f`. -/
def tabMod {α : Type} [DecidableEq α] (d : α) (k : Nat) (f : α → α) (t : Tab α) : Tab α :=
  tabSet d k (f (tabGet d t k)) t

/-- Keys strictly above `lo`, strictly rising. -/
def tabRising {α : Type} : Option Nat → Tab α → Bool
  | _, [] => true
  | none, (a, _) :: r => tabRising (some a) r
  | some lo, (a, _) :: r => decide (lo < a) && tabRising (some a) r

/-- The canonical form: rising keys and no entry equal to the default. -/
def tabWf {α : Type} [DecidableEq α] (d : α) (t : Tab α) : Bool :=
  tabRising none t && t.all (fun e => decide (e.2 ≠ d))

/-- Memory: (address, byte) pairs in canonical form. -/
abbrev Mem := List Host.Cell

/-- What a byte that no entry lists reads as: 0, as the device sets every area and the shadow pool to
0 at each reset and at each entry to SETUP (R210, R569). -/
def memDefault : Byte := 0

/-- One byte of a memory. -/
def Mem.byte (m : Mem) (a : Nat) : Byte := tabGet memDefault m a

/-- One byte of a memory written. -/
def Mem.setByte (m : Mem) (a : Nat) (v : Byte) : Mem := tabSet memDefault a v m

/-- The canonical form of a memory. -/
def Mem.wf (m : Mem) : Bool := tabWf memDefault m

end Sys2Proof.Machine
end

