-- ==== Sys2Proof/Machine/State.lean ====
section
/-! DEFINITION. The state of the SPT9632: plain data, one structure for each subsystem of R24 and one for
the whole. Instants are ns of the time base (R507); operating-time stamps are ns of operating time (R511). -/
namespace Sys2Proof.Machine

/-- A fault of the block: none is raised by the present meanings (every command has an effect). -/
inductive Fault where
  /-- Reserved for a state the spec calls impossible; raised by no meaning. Safe. -/
  | impossible (why : String)
  deriving DecidableEq, Repr

/-- A refusal of the model. -/
inductive Refusal where
  /-- Raised by an arm of `exec` that has no meaning yet. Safe. -/
  | notModelled (mnemonic : String)
  deriving DecidableEq, Repr

/-! ## Device state (block 0x0000) -/

/-- The nine states of R36. -/
inductive DevState where
  | off | standby | boot | recovery | setup | stop | run | hold | clearing
  deriving DecidableEq, Repr

/-- The transitions of R37: whether cause `c` may lead from one state to another. -/
def moveOk (c : Byte) (f t : DevState) : Bool :=
  match c.toNat with
  | 0x01 => f == .off && t == .boot
  | 0x02 => f == .standby && t == .boot
  | 0x03 => f != .off && t == .off
  | 0x04 => f != .off && f != .standby && t == .boot
  | 0x05 => f == .boot && t == .recovery
  | 0x06 => f == .boot && t == .setup
  | 0x07 => f == .boot && t == .stop
  | 0x08 => f == .recovery && t == .boot
  | 0x09 => f == .setup && t == .stop
  | 0x0A => f == .setup && t == .run
  | 0x0B => f == .setup && t == .stop
  | 0x0C => f == .stop && t == .setup
  | 0x0D => f == .stop && t == .run
  | 0x0E | 0x0F | 0x10 | 0x11 | 0x12 => (f == .run || f == .hold || f == .clearing) && t == .stop
  | 0x13 => f == .run && t == .hold
  | 0x14 => f == .hold && t == .run
  | 0x15 | 0x16 => f == .hold && t == .stop
  | 0x17 => (f == .run || f == .hold) && t == .clearing
  | 0x18 => f == .clearing && t == .run
  | 0x19 => f == .stop && t == .standby
  | _ => false

/-- A transition of R37: its cause, the state it left and the state it entered. -/
structure Move where
  cause : Byte
  left : DevState
  entered : DevState
  ok : moveOk cause left entered = true
  deriving DecidableEq, Repr

/-- Device state, transition bookkeeping and latched faults (R36-R60). -/
structure Dev where
  /-- the last transition: `DEV_STATE.STATE`, `PREV` and `CAUSE` -/
  last : Move := { cause := 0x01, left := .off, entered := .boot, ok := rfl }
  /-- the time-base instant of the last transition since the time base started (R41, R42) -/
  lastMove : Option Nat := none
  /-- `DEV_FAULT` -/
  fault : BitVec 8 := 0
  /-- operating-time stamp at which `DEV_FAULT` bits were last set, and the bits set at it (R13) -/
  faultSet : Nat × BitVec 8 := (0, 0)
  /-- `DEV_READY.PKG` -/
  pkgOk : Bool := false
  /-- ns left in HOLD, from which `HOLD_REMAIN` reads -/
  holdLeft : Nat := 0
  /-- `TRANS_COUNT` -/
  trans : Word := 0
  deriving DecidableEq, Repr

/-- The device state of R36. -/
def Dev.state (d : Dev) : DevState := d.last.entered

/-! ## Clocks, supplies, standby die (block 0x0C00) -/

/-- Clock, supply and reset state (R491-R513). -/
structure Clk where
  /-- the 64-bit time base, in ns -/
  tb : Nat := 0
  /-- `CLK_STAT.PLL_LOCK` -/
  lock : Bool := false
  /-- `CLK_STAT.XFO` -/
  xfo : Bool := false
  /-- `CLK_STAT.LFO` -/
  lfo : Bool := true
  /-- `CLK_STAT.REFCLK` -/
  refclk : Bool := false
  /-- operating time in ns (`OPS_SECONDS`, `OPS_MS`) -/
  opNs : Nat := 0
  /-- `RST_SOURCE.NOLOCK` -/
  noLock : Bool := false
  /-- `RST_SOURCE.SOURCE` -/
  rstSrc : BitVec 3 := 0
  /-- `RST_SOURCE.SLOT` -/
  rstSlot : BitVec 2 := 0
  /-- `RST_SOURCE.CLOCK` -/
  rstClock : BitVec 3 := 0
  /-- the state left by the most recent reset, for the records of R490 -/
  rstFrom : DevState := .off
  /-- `WAKE_STAT.SOURCE` -/
  wakeStat : BitVec 2 := 0
  /-- `PWR_STAT.WARN` -/
  warn : Bool := false
  /-- operating-time stamp at which VLOG fell below PWARN (R496) -/
  warnAt : Nat := 0
  /-- whether the save begun by the present power warning reached its commit point (R496) -/
  warnSaved : Bool := false
  /-- `PWR_STAT.RIDES` -/
  rides : BitVec 16 := 0
  /-- VLOG is above the PRST threshold -/
  vlog : Bool := true
  /-- nRESET is held low: reset release is awaited (R508) -/
  nresetLow : Bool := false
  /-- `WAKE_CFG` as taken when the wake sources were armed; none when not armed (R500, R513) -/
  wakeArmed : Option (BitVec 3) := none
  /-- a wake held until the load switches open or VLOG rises (R500, R503) -/
  wakeHeld : Option (BitVec 2) := none
  /-- the load switches of the standby die are closed (R22) -/
  loadOn : Bool := true
  /-- `SVC_BOOT.RECOVERY_REQ` -/
  recoveryReq : Bool := false
  /-- the recovery flag was set by WAKE rather than by `RECOVER` (R490) -/
  recoveryByWake : Bool := false
  /-- the entry to BOOT from OFF or STANDBY that the boot ROM has still to count, and whether operating time is still to be
  loaded after a power-on (R450, R511) -/
  cycleDue : Option Move := some { cause := 0x01, left := .off, entered := .boot, ok := rfl }
  timeDue : Bool := true
  /-- the main die waits for PLL lock after a release of reset (R506) -/
  awaitLock : Bool := true
  /-- operating-time stamp of the latest release of reset (R490) -/
  relAt : Nat := 0
  /-- the boot ROM has run its steps and the firmware runs (R471) -/
  fwRuns : Bool := false
  deriving DecidableEq, Repr

/-! ## Program store -/

/-- The program store (R78-R82, R100). -/
structure PStore where
  /-- the stored 14-bit words; an unlisted word reads as 0 -/
  words : Tab (BitVec 14) := []
  ceCount : Word := 0
  ueCount : BitVec 16 := 0
  lastErr : Word := 0
  /-- words of the store with an error that wait for the rewrite of R81, with the task that hit them and whether the
  error is uncorrectable -/
  rewrites : List (BitVec 21 × Byte × Bool) := []
  deriving DecidableEq, Repr

/-! ## Lanes and copies of instances -/

/-- The lane registers of R62, with the loop depth of R146. -/
structure Regs where
  g : Vector Word 16 := Vector.replicate 16 0
  rlo : Bool := false
  /-- DZ, V, C, N, Z in bits 4 to 0 (R63) -/
  fl : BitVec 5 := 0
  bw : Word := 0
  ls : Vector (BitVec 21) 4 := Vector.replicate 4 0
  le : Vector (BitVec 21) 4 := Vector.replicate 4 0
  lc : Vector Word 4 := Vector.replicate 4 0
  depth : Fin 5 := 0
  rc : Word := 0
  rs : Word := 0
  rd : Word := 0
  cp : Word := 0
  ca : Word := 0
  cm : Word := 0
  pc : BitVec 21 := 0
  deriving DecidableEq, Repr

/-- A load in its shadow (R73-R77): `left` slots of the shadow are still to come. -/
structure PendLoad where
  dst : BitVec 4
  val : Word
  addr : Word
  left : Nat
  arrived : Bool
  /-- its bytes, and whether it extends the sign -/
  size : Nat := 4
  signed : Bool := false
  deriving DecidableEq, Repr

/-- A bit instruction that waits for the fill of its window copy (R112). -/
structure PendBit where
  op : BitVec 3
  addr : Word
  bit : Fin 8
  words : Nat
  deriving DecidableEq, Repr

/-- Why a lane issues no further slot. -/
inductive Stall where
  | none
  | load
  | window (b : PendBit)
  /-- a bit access outside the window copy that waits as a byte load does (R113) -/
  | bit (b : PendBit)
  | quota
  /-- a request to the fabric waits for one of the reserved or of the other tags (R32) -/
  | tag (reserved : Bool)
  deriving DecidableEq, Repr

/-- One accepted item of a write set, in issue order (R157, R160, R162, R163). -/
inductive WItem where
  | fret (entry : List Byte)
  | cancel (key : Word)
  | call (n : BitVec 16) (g0 g1 g2 g3 : Word)
  deriving DecidableEq, Repr

/-- A shadow line: its 64 bytes, byte k in bits 8k+7..8k, and which bytes the copy wrote (R203). -/
structure Shadow where
  data : BitVec 512
  wrote : BitVec 64
  deriving DecidableEq, Repr

/-- How a copy ended (R180, R304). -/
inductive Ended where
  | halt
  | fault (code : Byte) (pc : BitVec 21)
  | stopped
  deriving DecidableEq, Repr

/-- One copy of an instance on a lane: its context (R88) and its write set. -/
structure Copy where
  /-- the physical lane that carries it -/
  lane : Nat
  regs : Regs
  /-- the next unit is skipped (R135) -/
  skip : Bool := false
  loads : List PendLoad := []
  stall : Stall := .none
  /-- the window copy is filled (R112) -/
  winFull : Bool := false
  /-- the 64 bytes of the window copy while it is filled from the Canopy -/
  win : BitVec 512 := 0
  /-- the copy has issued its first slot (R178) -/
  started : Bool := false
  startAt : Nat := 0
  aged : Bool := false
  shadow : Tab (Option Shadow) := []
  /-- unrepaired words of the shadow lines, by address, each with its `CAN_LAST_ERR` (R217, R219) -/
  ueWords : List (Nat × Word) := []
  ws : List WItem := []
  /-- the item stream of R303 -/
  items : List Byte := []
  /-- number of `SYS` reads and immediate calls so far (R161) -/
  order : Nat := 0
  /-- the copy named another register or call than its twin at the same position (R161) -/
  diverged : Bool := false
  /-- `CHK` executions: 0, 1, or 2 for two or more (R156, R303) -/
  chk : Nat := 0
  /-- the last time-base and position values read by `TB_LO` and `SHAFT_POS_LOn` (R258, R513) -/
  tbHi : Option Word := none
  posHi : Tab (Option Byte) := []
  /-- seed of the stale scratch bytes of this copy (R71) -/
  seed : Nat := 0
  ended : Option Ended := none
  /-- the lane on which the copy begins anew once it stands at a permitted boundary (R89, R312) -/
  restart : Option Nat := none
  /-- a vote made this copy's lane the odd lane; or the copy was stopped as a straggler (R305, R309) -/
  unknown : Bool := false
  deriving DecidableEq, Repr

/-- Lane roles of R298. -/
inductive Role where
  | bound | spare | awake | testing | retired | spareTest
  deriving DecidableEq, Repr

/-- Why a lane self-test runs (R302, R313, R315, R316, R317). -/
inductive TestKind where
  | vote
  | vote3
  | readmit (slot : Nat) (cid : BitVec 16) (live : Bool)
  | periodic
  deriving DecidableEq, Repr

/-- A physical lane (R25, R298-R319). -/
structure Lane where
  role : Role := .spare
  /-- the package lane it carries; none reads as 0x3F -/
  acts : Option Nat := none
  cause : Byte := 0
  /-- operating seconds of its last strikes, at most three, most recent first (R314, R318) -/
  strikes : List Word := []
  life : BitVec 16 := 0
  test : Option (TestKind × Nat) := none
  /-- the lane that stands in for this one while it tests (R312) -/
  standIn : Option Nat := none
  /-- this woken spare stands in for the lane named (R312) -/
  standsFor : Option Nat := none
  /-- the copy it runs now, by its key -/
  running : Option Nat := none
  /-- lane scratch bytes written; an unlisted byte is stale (R71) -/
  scratch : Tab (Option Byte) := []
  /-- word addresses held by the instruction buffer (R80), one for each index [11:0] -/
  buf : Tab (Option (BitVec 21)) := []
  deriving DecidableEq, Repr

/-- The lane array with the pairing and spare manager. -/
structure Lanes where
  /-- lanes 0-39; an unlisted lane is a spare that carries its own number -/
  lanes : Tab Lane := []
  /-- the takeover at the completion of the setup task waits for running tests (R302) -/
  takeoverDue : Bool := false
  /-- copies of open instances, keyed 4 x task + role: 0 lane, 1 twin, 2 replay; task 64 is the setup
  task, 65 the setup task of a staged run -/
  copies : Tab (Option Copy) := []
  replays : BitVec 16 := 0
  vote3 : Byte := 0
  stragglers : Byte := 0
  /-- operating-time stamp of the start of the present spare-test interval and its length in ns -/
  spareFrom : Nat := 0
  spareLen : Nat := 0
  /-- the last lane tested as SPARE_TEST -/
  spareLast : Nat := 39
  /-- lane tests have run since this BOOT (R302) -/
  bootTested : Bool := false
  deriving DecidableEq, Repr

/-! ## Task sequencer -/

/-- A value read once for all copies of an instance (R161). -/
structure Imm where
  /-- true for `SYS` -/
  isSys : Bool
  num : BitVec 16
  status : Byte
  /-- results as (register, value) -/
  res : List (Nat × Word)
  /-- bytes copied into the task's own lines -/
  data : List (Nat × Byte)
  deriving DecidableEq, Repr

/-- Where a paired instance stands between the compare gate and its commit (R304-R309). -/
inductive Phase where
  | going
  | passed
  | waitSpare (since : Nat)
  | waking (spare : Nat) (since : Nat)
  | replaying (spare : Nat)
  deriving DecidableEq, Repr

/-- A shaft as taken into a snapshot (R257). -/
structure ShaftSnap where
  pos : BitVec 40
  stat : Byte
  vel : Word
  deriving DecidableEq, Repr

/-- An open instance (R167-R176, R568). -/
structure Inst where
  num : Word
  rel : Nat
  /-- the deadline, the output release instant and the end of the starvation bound -/
  due : Nat
  outAt : Nat
  starveAt : Nat
  /-- the straggler instant of R305 -/
  lateAt : Nat
  /-- the bytes the instance reads, fixed at its release (R173-R176) -/
  snap : Mem
  /-- declared groups: (group, STALE, age) -/
  groups : List (Nat × Bool × Nat)
  shafts : List ShaftSnap
  imm : List Imm := []
  /-- the first `LOOP_READ` of each loop, by loop (R342) -/
  loopRd : Tab (Option Imm) := []
  phase : Phase := .going
  /-- the instance is frozen in HOLD since that instant (R46) -/
  frozenAt : Option Nat := none
  /-- a transition stops the instance: each of its copies goes at its next permitted boundary (R43, R50, R89) -/
  stopDue : Bool := false
  /-- version of an online exchange the instance belongs to (R412) -/
  newVer : Bool := false
  /-- instant from which its commit waits for retained versions (R208) -/
  waitFrom : Option Nat := none
  deriving DecidableEq, Repr

/-- A check-in window not yet decided (R185). -/
structure Win where
  task : Nat
  num : Word
  due : Nat
  chk : Bool
  /-- the instance is still open -/
  isOpen : Bool
  lanes : List Nat
  pcs : List (BitVec 21)
  deriving DecidableEq, Repr

/-- An output release still to come (R183). -/
structure OutRel where
  task : Nat
  num : Word
  at_ : Nat
  /-- its bridge frame has fallen due (R350) -/
  begun : Bool := false
  deriving DecidableEq, Repr

/-- What the sequencer keeps for each task (R165-R197). -/
structure TaskSt where
  num : Word := 0
  lastRel : Option Nat := none
  /-- the last period boundary that was handled -/
  lastDue : Option Nat := none
  armed : Bool := false
  latched : Bool := false
  fault : Byte := 0
  skips : Byte := 0
  excess : Bool := false
  late : Bool := false
  aged : Bool := false
  overrun : Bool := false
  miss : Bool := false
  /-- stopped by CLEARING (R50) -/
  cleared : Bool := false
  /-- the `DEV_FAULT` bits whose clearing ends its guard stop; 0: not guard-stopped (R419) -/
  gstop : Byte := 0
  atTime : Option Nat := none
  /-- its outputs follow its releases: it has committed since the last entry to RUN (R59) -/
  live : Bool := false
  /-- instant of its last commit (R363) -/
  lastCommit : Option Nat := none
  /-- held by a coordinated switch since that instant (R410) -/
  heldAt : Option Nat := none
  /-- it runs the new version of an online exchange (R409) -/
  switched : Bool := false
  deriving DecidableEq, Repr

/-- An input group (R172-R174). -/
structure Group where
  /-- it has arrived complete since the entry to RUN -/
  ever : Bool := false
  /-- expected cycles since the snapshot cycle -/
  age : Nat := 0
  /-- its I bytes as they stood at the end of the snapshot cycle -/
  img : Mem := []
  /-- the stations that delivered in the snapshot cycle -/
  got : List Nat := []
  /-- it arrived complete in the latest cycle, whatever the device state (R330) -/
  cur : Bool := false
  deriving DecidableEq, Repr

/-- A trigger raised and not yet recognised (R168-R170). -/
structure Trig where
  task : Nat
  source : BitVec 4
  at_ : Nat
  deriving DecidableEq, Repr

/-- The task sequencer with the task watchdog. -/
structure Seq where
  check : Word := 0
  lastTwd : Word := 0
  tasks : Tab TaskSt := []
  /-- open instances by task ID; 64 the setup task, 65 a staged setup task -/
  insts : Tab (Option Inst) := []
  wins : List Win := []
  outs : List OutRel := []
  groups : Tab Group := []
  trigs : List Trig := []
  /-- releases fall on period boundaries strictly after this instant (R167) -/
  after : Nat := 0
  /-- Q as presented to the bridge and the ports (R183, R184) -/
  shown : Mem := []
  /-- G words of the guard source as presented (R354) -/
  shownG : Mem := []
  /-- instant of the release of the setup task -/
  setupAt : Nat := 0
  /-- instant of the last read point of a link cycle, a bridge frame or a loop sample (R34) -/
  readAt : Option Nat := none
  /-- the instant of the last commit, and the frets and calls of every commit of that instant, each with its task (R182) -/
  callsAt : Nat := 0
  calls : List (Nat × WItem) := []
  deriving DecidableEq, Repr

/-! ## Canopy -/

/-- A retained version of a line (R204, R245). -/
structure Retained where
  line : Nat
  owner : Nat
  data : BitVec 512
  /-- open instances that still need it -/
  need : List Nat
  /-- rows of the fret engine that hold it -/
  rows : List (BitVec 16)
  /-- the commit instant of this version -/
  ver : Nat := 0
  /-- its unrepaired words, by address, each with its `CAN_LAST_ERR` (R217, R219) -/
  ue : List (Nat × Word) := []
  deriving DecidableEq, Repr

/-- The Canopy (R198-R219). -/
structure Canopy where
  /-- the current version of every byte of I, Q, M, K, G, D, H and C -/
  mem : Mem := []
  /-- unrepaired words, by address, in an area -/
  bad : List Nat := []
  /-- `FINDER` of each unrepaired word (R218, R219) -/
  finders : Tab Nat := []
  /-- commit instant of the current version of each committed line -/
  stamp : Tab Nat := []
  retained : List Retained := []
  check : Word := 0
  low : Nat := 32768
  ceCount : Word := 0
  ueCount : BitVec 16 := 0
  lastErr : Word := 0
  deriving DecidableEq, Repr

/-! ## Fret engine -/

/-- A shaft (R220-R232). -/
structure Shaft where
  /-- count within the revolution and revolution field -/
  cnt : Nat := 0
  rev : BitVec 16 := 0
  /-- levels of A, B and Z at the last accepted sample -/
  a : Bool := false
  b : Bool := false
  z : Bool := false
  /-- a rising edge of Z has been seen and its reference edge is still to come -/
  zArmed : Bool := false
  /-- the levels of A, B and Z at the last sample, and the instants since which each has had its level (R220) -/
  raw : Bool × Bool × Bool := (false, false, false)
  since : Nat × Nat × Nat := (0, 0, 0)
  /-- the instant of the last count edge (R222) -/
  edgeAt : Option Nat := none
  /-- the position that holds in shaft fault (R223) -/
  holdPos : Nat := 0
  /-- instant of the anchor edge -/
  t1 : Nat := 0
  /-- velocity in au/us and acceleration in au/us^2 -/
  v : Rat := 0
  acc : Rat := 0
  /-- recent count edges, newest first: (instant, unwrapped position in au) -/
  edges : List (Nat × Int) := []
  referenced : Bool := false
  fault : Bool := false
  stopped : Bool := false
  backward : Bool := false
  wire : Bool := false
  wireAt : Nat := 0
  /-- operating-time stamps of strikes -/
  strikes : List Nat := []
  lastKind : Byte := 0
  deriving DecidableEq, Repr

/-- A row that a ROW entry streams (R244-R252). -/
structure RowSt where
  id : BitVec 16
  /-- the stations of the row: (port x 32 + station, offset in the buffer, bytes) -/
  parts : List (Nat × Nat × Nat)
  /-- the buffer content as committed at the entry's commit instant -/
  data : List Byte
  commitAt : Nat
  /-- bytes acknowledged by each station of the row -/
  acked : Tab Nat := []
  /-- bytes handed to transactions so far, by station -/
  sent : Tab Nat := []
  armed : Bool := false
  crossed : Bool := false
  /-- ports on which streaming has not started in time, with the projected crossing; and those whose late start has been
  recorded (R246, R260) -/
  leadOpen : List (Nat × Nat) := []
  leadSaid : List Nat := []
  /-- its deadline as of the last velocity update (R250) -/
  deadline : Option Nat := none
  /-- stations whose latch report is still to come (R252) -/
  reports : List Nat := []
  deriving DecidableEq, Repr

/-- An entry of the fret queue (R233-R241). -/
structure FretE where
  /-- its number among the entries of the queue -/
  num : Nat := 0
  task : Nat
  target : BitVec 40
  dir : BitVec 2
  shaft : Fin 4
  kind : BitVec 4
  lateFire : Bool
  repeats : Bool
  sub : Byte
  key : Word
  word : Word
  armed : Bool := false
  /-- an ANY entry's approach side: true for d < 0 -/
  sideNeg : Bool := true
  lastD : Int := 0
  /-- it has been judged since its shaft was referenced (R232) -/
  judged : Bool := false
  fired : Bool := false
  /-- the timed change handed to the bridge: identifier and stamp (R242) -/
  change : Option (BitVec 4 × Nat) := none
  row : Option RowSt := none
  deriving DecidableEq, Repr

/-- The fret engine. -/
structure Fret where
  shafts : Tab Shaft := []
  queue : List FretE := []
  nextNum : Nat := 0
  check : Word := 0
  missCount : Word := 0
  lateCount : BitVec 16 := 0
  dropCount : BitVec 16 := 0
  abortLate : BitVec 16 := 0
  aborted : BitVec 16 := 0
  /-- fired entries that are consumed, by task and key, until a cancellation counts them (R255) -/
  spent : List (Nat × Word) := []
  nextRow : BitVec 16 := 0
  nextChange : BitVec 4 := 0
  deriving DecidableEq, Repr

/-! ## Yelx links and the transaction fabric -/

/-- The tag of a request on the fabric: none is asked for, it waits for one of the reserved or of the other tags, or it
holds one (R31, R32). -/
inductive TagSt where
  | no
  | wait (reserved : Bool)
  | has (tag : Nat)
  deriving DecidableEq, Repr

/-- A Yelx frame (R265, R266). -/
structure YFrame where
  type : BitVec 4
  up : Bool := false
  line : Bool := false
  odd : Bool := false
  retry : Bool := false
  port : BitVec 3
  sta : BitVec 5 := 0
  sub : Byte := 0
  seq : BitVec 16 := 0
  tag : Option (BitVec 9) := none
  cycle : Word := 0
  hop : Byte := 0
  body : List Byte := []
  deriving DecidableEq, Repr

/-- What a transaction of a port is for. -/
inductive TransFor where
  | imgw
  | row (id : BitVec 16) (off len : Nat)
  | mbx (task : Nat)
  | sync
  /-- a SYNC SET, which belongs to no transaction -/
  | syncSet
  | discover
  | admission (held : Bool)
  | safe
  | release
  | retire
  | readmit (slot : Option (Nat × BitVec 16))
  deriving DecidableEq, Repr

/-- A transaction that holds a tag (R31, R274-R278). -/
structure Trans where
  tag : Nat
  frame : YFrame
  for_ : TransFor
  firstAt : Nat
  /-- instant of the attempt that is out now; none while the frame waits for its turn -/
  sentAt : Option Nat := none
  retries : Nat := 0
  /-- its last attempt failed: it completes `NO_DELIVERY` at the cycle end (R277) -/
  dead : Bool := false
  /-- on a closed line, the port at which the NAK came that failed its previous attempt, until the second copy of that NAK
  has come through the other port (R288) -/
  nakFrom : Option Nat := none
  deriving DecidableEq, Repr

/-- A frame that waits for its cycle or for a tag. -/
structure YWait where
  port : Nat
  frame : YFrame
  for_ : TransFor
  tag : TagSt := .no
  /-- it goes in a later cycle than the one that runs -/
  later : Bool := false
  deriving DecidableEq, Repr

/-- A frame whose start in the running cycle is planned (R272). -/
structure Depart where
  at_ : Nat
  port : Nat
  frame : YFrame
  for_ : TransFor
  deriving DecidableEq, Repr

/-- A Yelx port (R270-R280, R293). -/
structure Port where
  /-- state code of R280 -/
  state : BitVec 3 := 0
  /-- the instant at which it entered SYNCING (R262) -/
  syncingAt : Nat := 0
  /-- the end of the last frame that has started, and of the last frame whose start is planned (R272) -/
  wireTo : Nat := 0
  busyTo : Nat := 0
  /-- DISCOVER frames of the running cycle while UP (R282) -/
  discovers : Nat := 0
  /-- instant from which the time without link runs -/
  noLinkAt : Nat := 0
  admitAt : Nat := 0
  cycle : Word := 0
  t0 : Option Nat := none
  castSeq : BitVec 16 := 0
  /-- station being tried in the admission pass -/
  passSta : Nat := 0
  cycMissed : Nat := 0
  cycBack : Bool := false
  lineOpen : Bool := false
  lastEven : Nat := 0
  lossSaid : Bool := false
  /-- fault injection: matching frames seen, injections done, frames held -/
  injSeen : Nat := 0
  injDone : Nat := 0
  injHeld : List (Nat × List Byte × Bool) := []
  deriving DecidableEq, Repr

/-- A Yelx station (R281-R286, R294). -/
structure Sta where
  /-- state code of R283 -/
  state : BitVec 3 := 0
  wasAdmitted : Bool := false
  strikes : List Nat := []
  consec : Nat := 0
  /-- the sequence counters to and from the station (R275) -/
  seqTo : BitVec 16 := 0
  seqFrom : BitVec 16 := 0
  rtt : Word := 0
  delayEven : Word := 0xFFFFFFFF
  delayOdd : Word := 0xFFFFFFFF
  type : Word := 0
  inMax : BitVec 16 := 0
  outMax : BitVec 16 := 0
  rowBuf : BitVec 2 := 0
  /-- rows whose streaming has begun since that report (R246) -/
  rowsNew : Nat := 0
  /-- its IMGW of the present cycle completed: the input bytes to commit (R271) -/
  arrived : Option (List Byte) := none
  valid : Bool := false
  /-- the IMGW of the present cycle failed -/
  failed : Bool := false
  /-- Q byte offsets (within its output) released since its admission (R286), in lines -/
  released : List Nat := []
  /-- ranges that an ADM SAFE still has to make safe -/
  safeDue : Option (List (Nat × Nat)) := none
  syncDue : Bool := false
  syncT1 : Nat := 0
  /-- instant of its admission, or of its last measurement since (R290) -/
  syncAt : Nat := 0
  /-- sequence number of the last SYNC REQ -/
  syncSeq : Option (BitVec 16) := none
  /-- instant of the last admission or readmission (R286) -/
  admitAt : Nat := 0
  mbxTask : Option Nat := none
  mbxHeld : Option (List Byte) := none
  mbxTimeout : Bool := false
  discoverAt : Nat := 0
  deriving DecidableEq, Repr

/-- The Yelx ports and the transaction fabric (R31, R32, R261-R297). -/
structure Yelx where
  ports : Tab Port := []
  stas : Tab Sta := []
  trans : List Trans := []
  waits : List YWait := []
  /-- the frames of the running cycles that have not started, in order for each port -/
  plan : List Depart := []
  /-- the status with which the last transaction of each tag completed (R16, R31) -/
  ended : Tab (Option Nat) := []
  peak : Nat := 0
  waitCount : Word := 0
  check : Word := 0
  /-- counters of R294, keyed 16 x port + index -/
  counts : Tab Word := []
  deriving DecidableEq, Repr

/-! ## Loop engine -/

/-- A relay tune that runs on a loop (R334-R336). -/
structure Tune where
  rule : BitVec 2
  cycles : Nat
  dr : Word
  eps : Word
  limitNs : Nat
  startAt : Nat
  begun : Bool := false
  /-- the mode in which it began -/
  mode : BitVec 2 := 0
  bias : Word := 0
  /-- the side of the relay: true for b + dr; none before the first switch -/
  side : Option Bool := none
  switches : List Nat := []
  ymin : Word := 0
  ymax : Word := 0
  /-- it ends with this status in the loop's next sample: an abort or its duration limit (R336) -/
  ending : Option Nat := none
  deriving DecidableEq, Repr

/-- A capture (R338-R340). -/
structure Cap where
  loop : Nat
  form : BitVec 4
  atSp : Bool
  dec : Nat
  amp : Word
  par : Word
  records : Nat
  k : Nat := 0
  done : Nat := 0
  firstAt : Nat := 0
  begun : Bool := false
  lfsr : BitVec 9 := 0x1FF
  deriving DecidableEq, Repr

/-- The state of a loop (R327-R333, R343). -/
structure LoopSt where
  /-- mode in effect: 0 OFF, 1 MANUAL, 2 AUTO, 3 FAULT -/
  mode : BitVec 2 := 0
  i : Word := 0
  d : Word := 0
  /-- the setpoint and process value of the last sample -/
  lastR : Word := 0
  lastY : Word := 0
  /-- none after a state reset: takes the w of the next evaluated sample -/
  wPrev : Option Word := none
  uPrev : Word := 0
  held : Nat := 0
  region : Nat := 0
  /-- bank used in the previous sample; none after a state reset -/
  bank : Option Nat := none
  reason : Byte := 0
  sat : Bool := false
  intHeld : Bool := false
  selected : Bool := false
  /-- the next AUTO sample is a bumpless event whatever BUMPLESS holds (R336) -/
  bump : Bool := false
  /-- no sample has been evaluated since OFF or FAULT (R329) -/
  rested : Bool := false
  tune : Option Tune := none
  deriving DecidableEq, Repr

/-- A write set of a sample class that waits for its commit instant (R322). -/
structure LoopWs where
  cls : Nat
  at_ : Nat
  bytes : List (Nat × Byte)
  /-- tunes that end with this write set: (loop, status, Ku, Tu) -/
  tunes : List (Nat × Nat × Word × Word)
  /-- the capture that ends with this write set: (loop, records) -/
  capEnds : Option (Nat × Nat)
  /-- result lines of tunes, by loop (R336) -/
  aux : List (Nat × List (Nat × Byte)) := []
  /-- the header of the capture and, in the final block, its last record (R339, R340) -/
  capHead : List (Nat × Byte) := []
  deriving DecidableEq, Repr

/-- The loop engine (R321-R345). -/
structure Loops where
  loops : Tab LoopSt := []
  groupU : Tab Word := []
  groupSeen : List Nat := []
  cap : Option Cap := none
  /-- records written by the last capture -/
  capDone : Nat := 0
  pend : List LoopWs := []
  check : Word := 0
  faults : BitVec 16 := 0
  tunes : BitVec 16 := 0
  /-- the last instant at which a class was sampled -/
  sampled : Tab (Option Nat) := []
  /-- samples fall strictly after this instant (R341) -/
  after : Nat := 0
  deriving DecidableEq, Repr

/-! ## Bridge and field die -/

/-- Types of down frame (R347). -/
inductive DownType where
  | refresh | safe | config | idle | release
  deriving DecidableEq, Repr

/-- A timed change on its way to the field die: operation 1 new, 2 replace, 3 withdraw (R347). -/
structure Change where
  op : BitVec 2
  id : BitVec 4
  half : Bool
  mask : BitVec 16
  values : BitVec 16
  stamp : Nat
  /-- it takes the start of the frame that carries it as its stamp (R242, `LATE_FIRE`) -/
  atFrame : Bool := false
  /-- the tag of its delivery (R31) -/
  tag : TagSt := .no
  deriving DecidableEq, Repr

/-- A down frame (R346, R347). -/
structure DownFrame where
  type : DownType
  seq : BitVec 4
  time : Nat
  values : Word := 0
  mask : Word := 0
  duty : Option (BitVec 5 × BitVec 16) := none
  change : Option Change := none
  /-- CONFIG: channel, `FLD_CHn`, `FLD_PWMn`, `FLD_CFG` -/
  cfg : Option (BitVec 5 × Word × Word × Word) := none
  deriving DecidableEq, Repr

/-- A down frame on the wire, with the count of the field die at its start (R351). -/
structure Flight where
  frame : DownFrame
  at_ : Nat
  deriving DecidableEq, Repr

/-- An up frame (R348). -/
structure UpFrame where
  seq : BitVec 4 := 0
  vf : BitVec 4 := 0
  hot : Bool := false
  pending : BitVec 16 := 0
  input : Word := 0
  readback : Word := 0
  edge : Word := 0
  fault : Word := 0
  expired : Word := 0
  repCh : Byte := 0
  repKind : Byte := 0
  deriving DecidableEq, Repr

/-- A channel of the field die (R353-R363). -/
structure Chan where
  /-- the configuration received, with its hold limit in ms, not yet in effect; and the one in effect -/
  newCfg : Option (Word × Word × Option Nat) := none
  cfg : Word := 0
  pwm : Word := 0
  hold : Option Nat := none
  active : Bool := false
  /-- presented value -/
  value : Bool := false
  /-- the duty in effect, the duty that takes its place, and the start of the period from which it does (R356) -/
  duty : BitVec 16 := 0
  dutyNew : BitVec 16 := 0
  dutyAt : Nat := 0
  /-- the start of the first PWM period (R356) -/
  pwmAt : Nat := 0
  /-- a PWM channel at a safe value of 1: the driver is on continuously (R356) -/
  cont : Bool := false
  /-- the driver is enabled; and the last instant at which it was switched (R358) -/
  driver : Bool := false
  swAt : Nat := 0
  /-- it holds its safe value after a SAFE frame until the next timed change (R355) -/
  safeHeld : Bool := false
  input : Bool := false
  /-- the instant of the last accepted change of the input (R357) -/
  inAt : Nat := 0
  edge : Bool := false
  readback : Bool := false
  retired : Bool := false
  /-- kind 1 to 4 of a fault that keeps its driver off; 0 none. The loss of VF is a state of its group (R358) -/
  fault : Byte := 0
  faultAt : Nat := 0
  lastKind : Byte := 0
  strikes : List Nat := []
  expired : Bool := false
  /-- a dark test runs, begun at that instant -/
  test : Option Nat := none
  testReq : Bool := false
  deriving DecidableEq, Repr

/-- What happened on the field die and the logic side has still to learn with an up frame (R23, R355, R358, R360): a fault of a
channel with its kind and its strikes, a retirement, a change applied late. -/
inductive News where
  | fault (ch : Nat) (kind : Byte) (strikes : Nat)
  | retired (ch : Nat) (kind : Byte)
  | late (channels : Word) (stamp at_ : Nat)
  deriving DecidableEq, Repr

/-- The up frame that answers a down frame, with the count of the field die at the start of that down frame; none where
the die discarded it (R349, R351). With it goes what the logic side learns of the channels (R23). -/
structure Answer where
  frame : Option UpFrame
  at_ : Nat
  view : Tab Chan := []
  news : List News := []
  deriving DecidableEq, Repr

/-- The bridge logic side and the field die (R346-R367). -/
structure Field where
  /-- down frames on the wire, in order -/
  wire : List Flight := []
  /-- up frames on their way back, in order -/
  answers : List Answer := []
  downSeq : BitVec 4 := 0
  /-- a start fell due while a frame was on the wire -/
  startDue : Bool := false
  /-- the channels of a SAFE frame that is due -/
  safeDue : Option Word := none
  /-- the tag of that SAFE frame (R32) -/
  safeTag : TagSt := .no
  cfgDue : List Nat := []
  relDue : Word := 0
  changeQ : List Change := []
  /-- the last duty sent for each channel since its configuration -/
  dutySent : Tab (Option (BitVec 16)) := []
  /-- channels readmitted, which the next valid frame tells the field die (R23, R360) -/
  readmits : Word := 0
  /-- logic side: the stream -/
  valid : Bool := false
  goodRun : Nat := 0
  lastUpSeq : Option (BitVec 4) := none
  lastUpAt : Nat := 0
  lostAt : Nat := 0
  losses : BitVec 16 := 0
  errs : Word := 0
  lastUp : Option UpFrame := none
  /-- the channels as the latest valid up frame showed them (R23, R365) -/
  view : Tab Chan := []
  check : Word := 0
  /-- instant of the last restoration of the stream (R352, R363) -/
  restoredAt : Nat := 0
  /-- field die -/
  chans : Tab Chan := []
  timed : List Change := []
  /-- the field die's own count of ns, and its value at the end of the last valid down frame -/
  dieNs : Nat := 0
  dieLastEnd : Nat := 0
  /-- the time counter of the field die at that end (R351) -/
  dieTime : Nat := 0
  /-- the last valid down frame that drives the channels was IDLE, or there was none: every channel is de-energised
  (R57, R361) -/
  idle : Bool := true
  dieSeq : Option (BitVec 4) := none
  silent : Bool := false
  vfLost : BitVec 4 := 0
  /-- `FLD_CFG` as received and not yet in effect, and as in effect (R361) -/
  newFldCfg : Option Word := none
  fldCfg : Word := 0
  news : List News := []
  rep : Byte × Byte := (0, 0)
  deriving DecidableEq, Repr

/-! ## CAN ports -/

/-- A frame of a transmit queue (R375). -/
structure TxFrame where
  frame : CanFrame
  oneShot : Bool
  echo : Bool
  task : Nat
  key : Word
  /-- an abort reached it on the bus: how many other frames that abort removed (R376) -/
  aborted : Option Nat := none
  /-- the SOF instant of its attempt -/
  sof : Nat := 0
  /-- its place in the order in which frames were queued (R376) -/
  pos : Nat := 0
  /-- a transition removed the frames of its task while it was on the bus: no further attempt (R377) -/
  last : Bool := false
  deriving DecidableEq, Repr

/-- A CAN channel (R368-R383). -/
structure CanCh where
  /-- 0 off, 1 error-active, 2 error-passive, 3 bus-off, 4 recovering (R381); retirement is `retired` -/
  err : BitVec 3 := 1
  retired : Bool := false
  tec : BitVec 9 := 0
  recv : Byte := 0
  strikes : List Nat := []
  queue : List TxFrame := []
  onBus : Option TxFrame := none
  /-- the place of the next frame that is queued -/
  nextPos : Nat := 0
  seq : BitVec 16 := 1
  rxCount : Word := 0
  txCount : Word := 0
  errFrames : BitVec 16 := 0
  busOffs : BitVec 16 := 0
  peak : Nat := 0
  busOffAt : Nat := 0
  deriving DecidableEq, Repr

/-- The CAN ports. -/
structure Cans where
  chs : Tab CanCh := []
  check : Word := 0
  deriving DecidableEq, Repr

/-! ## Host slots and packages -/

/-- The role of a slot (R384, R387). -/
inductive HRole where
  | observer | operator | owner
  deriving DecidableEq, Repr

/-- The slot map at reset: the vectors of the MSI-X table are masked (R385, R387; PRESUMED, the PCI Express standard,
log entry 23). -/
def msixMasked : Mem := (List.range 8).map fun k => (0x200C + 16 * k, 1)

/-- A host slot (R384-R393, R398, R399). -/
structure Slot where
  /-- bound front end code; none when unbound -/
  front : Option Nat := none
  base : HRole := .observer
  role : HRole := .observer
  cmdTail : Nat := 0
  cmdHead : Nat := 0
  cplTail : Nat := 0
  cplHead : Nat := 0
  notify : Word := 0
  mask : BitVec 4 := 0
  pend : BitVec 4 := 0
  /-- operating-time stamp at which `NOTIFY` and `IRQ_PEND` bits were last set, and the bits set at it (R13) -/
  notifySet : Nat × Word := (0, 0)
  pendSet : Nat × BitVec 4 := (0, 0)
  qerr : Bool := false
  /-- completion entries that wait for space in the completion queue -/
  owed : List (List Byte) := []
  /-- command queue, completion queue, MSI-X table and transfer window, by offset -/
  map : Mem := msixMasked
  /-- the MSI-X pending bits -/
  pba : BitVec 4 := 0
  /-- the long command that runs (R389) -/
  long : Option (BitVec 16) := none
  /-- the nonce: draw number and operating-time stamp -/
  nonce : Option (Nat × Nat) := none
  /-- operating-time stamps of failed proofs -/
  fails : List Nat := []
  /-- operating-time stamp at which the lease was last restarted -/
  leaseAt : Nat := 0
  key : Nat := 0
  /-- the command at the head of the queue waits for a tag (R32) -/
  tagWait : Bool := false
  pcieUp : Bool := false
  msixOn : Bool := false
  qspiAt : Option Nat := none
  deriving DecidableEq, Repr

/-- What a started command waits for before it writes its completion. -/
inductive WaitFor where
  | sysRecord (id : BitVec 16)
  | station (key : Nat)
  | exchange
  | plan
  | install
  | erase
  deriving DecidableEq, Repr

/-- A started command whose completion is still to be written (R389). -/
structure Wait where
  slot : Nat
  cid : BitVec 16
  op : Byte
  for_ : WaitFor
  val0 : Word := 0
  /-- no reset of the slot has discarded its completion (R393) -/
  live : Bool := true
  /-- the event that the commit of the record it waits for records: its code and its items as (bytes, value);
  code 0: none -/
  ev : Nat := 0
  items : List (Nat × Nat) := []
  deriving DecidableEq, Repr

/-- The host slots. -/
structure Hosts where
  slots : Tab Slot := []
  waits : List Wait := []
  /-- host commands are not taken: an install pauses the service core (R478) -/
  paused : Bool := false
  deriving DecidableEq, Repr

/-- A record of the LAYOUT section of a package (R400). -/
structure Layout where
  base : Nat
  end_ : Nat
  hash : Word
  readers : BitVec 64
  deriving DecidableEq, Repr

/-- The parts of a package header that the device keeps (R400). -/
structure Header where
  testPermit : Bool
  online : Bool
  words : Nat
  base : Nat
  entry : BitVec 21
  lane : Nat
  version : Word
  layout : List Layout
  deriving DecidableEq, Repr

/-- A plan of an online exchange (R407, R408). -/
structure Plan where
  id : BitVec 16
  pause : Nat
  coord : List Nat
  cfg : Tab Word
  mem : Mem
  check : Word
  /-- the new package, and its slot (true: B) -/
  hdr : Header
  slotB : Bool
  /-- it was refused with reason 8: it waits for the confirmation of its slot, and no exchange runs it (R426) -/
  unconfirmed : Bool := false
  deriving DecidableEq, Repr

/-- The online exchange (R406-R413). -/
structure Exch where
  plan : Option Plan := none
  nextId : BitVec 16 := 1
  /-- a staged run is under way: its configuration and its staging store -/
  staged : Option (Tab Word × Mem) := none
  stagedLane : Nat := 0
  /-- the accepted exchange and its epoch -/
  run : Option (Plan × Nat) := none
  epochPassed : Bool := false
  switchAt : Option Nat := none
  longestHold : Nat := 0
  deriving DecidableEq, Repr

/-- The open load of a package (R404). -/
structure Load where
  slotB : Bool
  len : Nat
  /-- `PKG_CLOSE` has verified it: `VERSION` and key index; the write of LOADED is under way -/
  closing : Option (Word × Byte) := none
  deriving DecidableEq, Repr

/-- Package slots, keys and the online exchange. -/
structure Pkg where
  /-- the active slot: false A, true B -/
  active : Bool := false
  stA : BitVec 3 := 0
  stB : BitVec 3 := 0
  verA : Word := 0
  verB : Word := 0
  keyA : Byte := 0
  keyB : Byte := 0
  keys : Tab (Option (List Byte)) := []
  load : Option Load := none
  hdr : Option Header := none
  exch : Exch := {}
  deriving DecidableEq, Repr

/-! ## Safety -/

/-- The safety record and the safety check values (R424-R433, R443). -/
structure Safe where
  /-- salt and derived key -/
  password : Option (List Byte × List Byte) := none
  confA : Option Word := none
  confB : Option Word := none
  /-- end of the lockout in operating seconds; 0: none -/
  lockEnd : Word := 0
  fails : List Word := []
  logCount : Word := 0
  /-- the 16 log entries of 32 bytes, by index -/
  log : Tab (List Byte) := []
  schk : Word := 0
  check : Word := 0
  staged : Word := 0
  deriving DecidableEq, Repr

/-! ## Parameter store and recorder -/

/-- One copy of a two-copy record (R439). -/
structure NvCopy where
  valid : Bool := false
  blank : Bool := true
  seq : Word := 0
  data : List Byte := []
  deriving DecidableEq, Repr

/-- A two-copy record. -/
structure NvRec where
  a : NvCopy := {}
  b : NvCopy := {}
  deriving DecidableEq, Repr

/-- A spread counter (R447): high words and tag with their validity, and which cells are set. -/
structure Ctr where
  hiA : Option Word := some 0
  hiB : Option Word := some 0
  tag : Option Word := some 0
  cells : BitVec 256 := 0
  deriving DecidableEq, Repr

/-- A warm image as its slot holds it (R451). -/
structure Warm where
  /-- the header check verifies over the header and the range list -/
  hdrOk : Bool := false
  /-- stored lines whose check fails, or that hold an uncorrectable word -/
  lost : List Nat := []
  seq : Word := 0
  ops : Word := 0
  cycles : Word := 0
  tb : Nat := 0
  version : Word := 0
  slotB : Bool := false
  reason : Byte := 0
  /-- ranges: first line address, lines, layout hash -/
  ranges : List (Nat × Nat × Word) := []
  lines : Tab (BitVec 512) := []
  deriving DecidableEq, Repr

/-- An image is valid (R451). -/
def Warm.valid (w : Warm) : Bool := w.hdrOk && w.lost.isEmpty && w.seq != 0

/-- A record of the event recorder (R457). -/
structure Rec where
  seq : Word
  code : BitVec 16
  rep : BitVec 16
  firstS : Word
  firstMs : BitVec 10
  cycles : BitVec 24
  state : BitVec 4
  lastS : Word
  lastMs : BitVec 10
  contents : List Byte
  snap : List Word
  tb : Nat
  /-- the 128 bytes that its slot holds, where they are not those of the fields: a write of it was cut off, or a word of it is
  uncorrectable (R436, R460) -/
  raw : Option (List Byte) := none
  deriving DecidableEq, Repr

/-- A pending user-record write (R446). -/
structure UserW where
  task : Nat
  rno : Nat
  key : Word
  data : List Byte
  setup : Bool
  /-- the tag of the request (R31) -/
  tag : TagSt := .no
  deriving DecidableEq, Repr

/-- A warm save and the recorder flush after it, which the die may still be writing (R437, R452-R454, R497). -/
structure Saving where
  reason : Byte
  /-- operating-time stamp and time-base instant of its start -/
  startOp : Nat
  startTb : Nat
  /-- the slot that it fills (true: B) and what that slot held; none for a flush alone -/
  slot : Option (Bool × Warm) := none
  /-- the recorder on the die before the flush, and the records that the flush writes, in order -/
  recs : Tab (Option Rec) := []
  work : List Rec := []
  deriving DecidableEq, Repr

/-- The parameter store and the event recorder (R435-R467). -/
structure Nv where
  /-- the factory identity record verifies (R438) -/
  identOk : Bool := true
  /-- a word of the factory identity record is uncorrectable: its check fails at the next BOOT -/
  identLost : Bool := false
  sys : Tab NvRec := []
  user : Tab NvRec := []
  /-- the mirror of the user records: sequence number and data (R444) -/
  mirror : Tab (Option (Word × List Byte)) := []
  ctrs : Tab Ctr := []
  warmA : Warm := {}
  warmB : Warm := {}
  /-- records written, by slot 0-511 -/
  recs : Tab (Option Rec) := []
  /-- records not yet written, oldest first -/
  buf : List Rec := []
  /-- the records merged again after they were written and not yet rewritten, oldest first, each as the die holds it -/
  dirty : List Rec := []
  overflow : Nat := 0
  newest : Word := 0
  clearMark : Word := 0
  /-- writes of system records that wait, in order -/
  sysW : List (BitVec 16) := []
  userW : List UserW := []
  peak : Nat := 0
  /-- increments that wait: the counter, and the tag of a task's request (R31) -/
  incW : List (Nat × TagSt) := []
  /-- identifiers whose loss has been recorded since the device reset (R440) -/
  lostSaid : List Nat := []
  ceCount : Word := 0
  ueCount : Word := 0
  check : Word := 0
  restored : Bool := false
  restSlotB : Bool := false
  skipped : Byte := 0
  saveReason : BitVec 3 := 0
  saveLines : BitVec 9 := 0
  /-- a copy into the other image slot is due (R453) -/
  copyDue : Bool := false
  /-- the latest save and flush, until the service core has gone on to other work -/
  saving : Option Saving := none
  /-- the reason of a save that waits for a reserved tag (R32) -/
  saveWait : Option Nat := none
  /-- minutes of operating time that counter 0 has been incremented for (R450) -/
  minutes : Nat := 0
  /-- time-base instant from which the period of reason 4 runs -/
  saveFrom : Option Nat := none
  deriving DecidableEq, Repr

/-! ## Service core, NOR and watchdog -/

/-- The capture area (R475-R479). -/
structure Capture where
  state : BitVec 2 := 0
  loader : Bool := false
  len : Nat := 0
  pause : Nat := 0
  issue : Byte := 0
  build : BitVec 24 := 0
  deriving DecidableEq, Repr

/-- What an erase of a NOR block is for. -/
inductive EraseUse where
  | load
  | capture
  | firmware
  | loader
  | refresh
  deriving DecidableEq, Repr

/-- A refresh pass (R481). -/
structure Refresh where
  running : Bool := false
  next : Nat := 0
  startS : Nat := 0
  /-- a block pending in the refresh buffer -/
  pending : Option Nat := none
  due : Word := 63072000
  /-- operating second at which the last block was begun -/
  blockS : Option Nat := none
  /-- blocks to be refreshed out of turn, with the corrected bits found (R482) -/
  extra : List (Nat × Nat) := []
  deriving DecidableEq, Repr

/-- A numbered handshake request (R474). -/
structure HsReq where
  n : Nat
  /-- time-base instant of its issue -/
  issued : Nat
  /-- answered in time, or unanswered for 2 ms; none while neither is settled -/
  answered : Option Bool := none
  deriving DecidableEq, Repr

/-- The service core and the NOR die (R468-R490). -/
structure Svc where
  /-- the NOR die, by byte address; an erased byte reads 0xFF -/
  nor : Tab Byte := []
  /-- DESIGN CHOICE (log entry 94): the firmware and the loader region hold the image that the module was shipped with, whose bytes
  the spec does not give and which verifies (R470); `nor` lists nothing of it -/
  fwShipped : Bool := true
  ldrShipped : Bool := true
  /-- blocks of which a page cannot be corrected (R482) -/
  bad : List Nat := []
  issue : Byte := 0x41
  build : BitVec 24 := 0
  /-- the issue of the loader image (R490) -/
  ldrIssue : Byte := 0x41
  cap : Capture := {}
  refresh : Refresh := {}
  /-- an install runs: true for a loader image; the operating-time stamp of its acceptance -/
  install : Option (Bool × Nat) := none
  /-- the service core has not stopped answering (R474) -/
  answering : Bool := true
  losses : BitVec 16 := 0
  /-- the next request number, and the latest requests in the order of their numbers, oldest first -/
  hsNext : Nat := 0
  hsReqs : List HsReq := []
  /-- SETUP has been entered since the device reset: the sequencer issues requests (R474) -/
  hsOn : Bool := false
  /-- erases that run one after another, the first of them now, and the start of that one (operating-time stamp) -/
  erases : List (Nat × EraseUse) := []
  eraseAt : Nat := 0
  deriving DecidableEq, Repr

/-- The supervisory watchdog and the clock monitor (R483-R488). -/
structure Wd where
  clkXfo : Bool := false
  timeout : BitVec 13 := 2000
  /-- `SUPWD_CFG` as written, applied by the next kick -/
  next : Option Word := none
  enabled : Bool := true
  suspended : Bool := false
  lock : Bool := false
  monOk : Bool := true
  /-- ns counted since the last kick -/
  count : Nat := 0
  /-- instant (operating time) of the first write of the disable sequence -/
  disAt : Option Nat := none
  /-- timeout and clock at the last expiry, for the record of step 2 of R471 -/
  expTimeout : BitVec 13 := 2000
  expXfo : Bool := false
  deriving DecidableEq, Repr

/-! ## Boundary scan -/

/-- TAP instructions (R528). -/
inductive TapIr where
  | extest | sample | idcode | clamp | highz | bypass
  deriving DecidableEq, Repr

/-- The TAP (R528-R531). -/
structure Tap where
  /-- TEST_EN as sampled at power-on: `SVC_BOOT.TEST` (R473, R529) -/
  testEn : Bool := false
  ir : TapIr := .idcode
  /-- the update latches of the 58 boundary cells -/
  cells : BitVec 58 := 0
  /-- the pads are driven from the boundary cells or held high impedance -/
  padsFromCells : Bool := false
  padsHighZ : Bool := false
  deriving DecidableEq, Repr

/-! ## Outputs on the wires -/

/-- The configuration-space identity of a PCIe function (R385). -/
structure PcieId where
  vendor : BitVec 16
  device : BitVec 16
  revision : Byte
  classCode : BitVec 24
  subVendor : BitVec 16
  subsystem : BitVec 16
  /-- size of BAR0, a 32-bit non-prefetchable memory BAR -/
  bar0 : Nat
  msixVectors : Nat
  flr : Bool
  deriving DecidableEq, Repr

/-- What the device puts on its wires, in order. -/
inductive Out where
  /-- a down frame of the bridge stream, and an up frame (R346) -/
  | bridge (f : List Byte)
  | bridgeUp (f : List Byte)
  | yelx (port : Nat) (bytes : List Byte)
  | can (ch : Nat) (f : CanFrame)
  | msix (slot vec : Nat)
  /-- a PCIe function enumerates: its identity, and what its `SLOT_ID` reads (R385) -/
  | enumerates (f : Nat) (id : PcieId) (slotId : Word)
  | qspi (front : Nat) (bytes : List Byte)
  deriving DecidableEq, Repr

/-! ## The whole machine -/

/-- The state of the SPT9632. -/
structure State where
  /-- the commands that wait, first in, first out -/
  pending : List Instr
  /-- MODEL: the number of free values drawn so far -/
  free : Nat
  /-- the RW registers that differ from their reset values, keyed 4096 x SRN + window entry -/
  cfg : Tab Word
  dev : Dev
  clk : Clk
  ps : PStore
  ln : Lanes
  seq : Seq
  can : Canopy
  fret : Fret
  yl : Yelx
  lp : Loops
  fld : Field
  cb : Cans
  host : Hosts
  pkg : Pkg
  safe : Safe
  nv : Nv
  svc : Svc
  wd : Wd
  tap : Tap
  out : List Out
  deriving DecidableEq, Repr

/-- The slots as the shipped slot record binds them (R384). -/
def State.resetSlots : Tab Slot :=
  [(0, { front := some 0, base := .operator, role := .operator }),
   (1, { front := some 1, base := .observer, role := .observer }),
   (2, { front := some 4, base := .operator, role := .operator }),
   (3, { front := some 5, base := .observer, role := .observer })]

/-- The machine right after a power-on reset of a module as shipped: BOOT, nothing listed anywhere
(R36, R60, R384, R402, R440, R447, R569). -/
def State.reset : State where
  pending := []
  free := 0
  cfg := []
  dev := {}
  clk := {}
  ps := {}
  ln := {}
  seq := {}
  can := {}
  fret := {}
  yl := {}
  lp := {}
  fld := {}
  cb := {}
  host := { slots := State.resetSlots }
  pkg := {}
  safe := {}
  nv := {}
  svc := { build := Config.firmwareBuild }
  wd := {}
  tap := {}
  out := []

end Sys2Proof.Machine
end

