-- ==== Sys2Proof/Machine/Bits.lean ====
section
/-! DEFINITION. Bit fields, sign extension, byte order, bit reversal and the CRCs that several parts use. -/
namespace Sys2Proof.Machine

/-- A Boolean as a number. -/
def b2n (b : Bool) : Nat := if b then 1 else 0

/-- A Boolean as a word bit. -/
def b2w (b : Bool) : Word := if b then 1 else 0

/-- Field [lo + n - 1 : lo] of a word, as a number (R6). -/
def fld (w : Word) (lo n : Nat) : Nat := (w.toNat >>> lo) % 2 ^ n

/-- Bit `k` of a word. -/
def wbit (w : Word) (k : Nat) : Bool := w.getLsbD k

/-- Value `v` placed as field [lo + n - 1 : lo]; the other bits 0. -/
def put (v lo n : Nat) : Word := BitVec.ofNat 32 ((v % 2 ^ n) <<< lo)

/-- A word with bit `k` set to `b`. -/
def setBit (w : Word) (k : Nat) (b : Bool) : Word :=
  if b then w ||| BitVec.ofNat 32 (1 <<< k) else w &&& ~~~ (BitVec.ofNat 32 (1 <<< k))

/-- The value that replaces 0 by a default (R4). -/
def orElse (v d : Nat) : Nat := if v = 0 then d else v

/-- Bits `f` of `v` read as two's complement, in 32 bits (R85). -/
def signExt (v f : Nat) : Word :=
  if f = 0 then 0
  else if 32 ≤ f then BitVec.ofNat 32 v
  else BitVec.ofInt 32 (if v % 2 ^ f < 2 ^ (f - 1) then ((v % 2 ^ f : Nat) : Int) else ((v % 2 ^ f : Nat) : Int) - (2 ^ f : Nat))

/-- The number that the low `n` bits of `v` spell as two's complement. -/
def toSigned (v n : Nat) : Int :=
  if v % 2 ^ n < 2 ^ (n - 1) then ((v % 2 ^ n : Nat) : Int) else ((v % 2 ^ n : Nat) : Int) - (2 ^ n : Nat)

/-- Byte `k` of a number, little-endian (R8). -/
def byteOf (v k : Nat) : Byte := BitVec.ofNat 8 (v >>> (8 * k))

/-- The `n` bytes of a number, little-endian (R8). -/
def leBytes (n v : Nat) : List Byte := (List.range n).map (byteOf v)

/-- The number that bytes spell, little-endian (R8). -/
def ofLe : List Byte → Nat
  | [] => 0
  | b :: r => b.toNat + 256 * ofLe r

/-- The number that bytes spell, most significant byte first. -/
def ofBe (l : List Byte) : Nat := ofLe l.reverse

/-- Byte `k` of a list; 0 beyond its end. -/
def byteAt (l : List Byte) (k : Nat) : Byte := l.getD k 0

/-- The `n` bytes from offset `k`, little-endian, as a number. -/
def leAt (l : List Byte) (k n : Nat) : Nat := ofLe ((l.drop k).take n)

/-- A word from bytes at an offset. -/
def wordAt (l : List Byte) (k : Nat) : Word := BitVec.ofNat 32 (leAt l k 4)

/-- `l` padded with zero bytes to length `n`. -/
def padTo (n : Nat) (l : List Byte) : List Byte := l ++ List.replicate (n - l.length) 0

/-- The low `n` bits of a number in reverse order. -/
def revBits : Nat → Nat → Nat
  | 0, _ => 0
  | n + 1, v => (v % 2) * 2 ^ n + revBits n (v / 2)

/-- Number of one bits among the low `n` bits. -/
def popcount : Nat → Nat → Nat
  | 0, _ => 0
  | n + 1, v => v % 2 + popcount n (v / 2)

/-- One bit of the CRC step of R152: `w` the width, `cp` the polynomial. -/
def crcBit (w cp ca : Nat) (d : Bool) : Nat :=
  let fb := (ca.testBit (w - 1)) != d
  let c := (ca * 2) % 2 ^ w
  if fb then c ^^^ (cp % 2 ^ w) else c

/-- The CRC step of R152 over the low `u` bits of `data`, from bit u - 1 down to bit 0. -/
def crcUnit (w cp : Nat) : Nat → Nat → Nat → Nat
  | 0, _, ca => ca
  | u + 1, data, ca => crcUnit w cp u data (crcBit w cp ca (data.testBit u))

/-- CRC over bytes with input reflection `refin`. -/
def crcBytes (w cp : Nat) (refin : Bool) (ca : Nat) (l : List Byte) : Nat :=
  l.foldl (fun c b => crcUnit w cp 8 (if refin then revBits 8 b.toNat else b.toNat) c) ca

/-- CRC-32C with the settings of R267. -/
def crc32c (l : List Byte) : Nat :=
  revBits 32 (crcBytes 32 0x1EDC6F41 true 0xFFFFFFFF l) ^^^ 0xFFFFFFFF

/-- The recorder's CRC-32 (R457), which is also the Ethernet FCS polynomial. -/
def crc32 (l : List Byte) : Nat :=
  revBits 32 (crcBytes 32 0x04C11DB7 true 0xFFFFFFFF l) ^^^ 0xFFFFFFFF

/-- The first CRC-16 of the table after R155, used by QSPI frames (R386). -/
def crc16 (l : List Byte) : Nat := crcBytes 16 0x1021 false 0xFFFF l

/-- A counter of `n` bits that holds at all ones. -/
def satInc {n : Nat} (c : BitVec n) : BitVec n := if c = BitVec.allOnes n then c else c + 1

/-- A counter of `n` bits advanced by `k`, holding at all ones. -/
def satAdd {n : Nat} (c : BitVec n) (k : Nat) : BitVec n :=
  if 2 ^ n ≤ c.toNat + k then BitVec.allOnes n else BitVec.ofNat n (c.toNat + k)

/-- Byte `k` (0-63) of a 64-byte line. -/
def lineByte (d : BitVec 512) (k : Nat) : Byte := BitVec.ofNat 8 (d.toNat >>> (8 * k))

/-- A line with byte `k` replaced. -/
def lineSet (d : BitVec 512) (k : Nat) (v : Byte) : BitVec 512 :=
  (d &&& ~~~ (BitVec.ofNat 512 (0xFF <<< (8 * k)))) ||| BitVec.ofNat 512 (v.toNat <<< (8 * k))

/-- The 64 bytes of a line in ascending address order. -/
def lineBytes (d : BitVec 512) : List Byte := (List.range 64).map (lineByte d)

/-- A line from its bytes. -/
def lineOf (l : List Byte) : BitVec 512 := BitVec.ofNat 512 (ofLe (l.take 64))

/-- Consecutive bytes of a memory. -/
def Mem.bytes (m : Mem) (a n : Nat) : List Byte := (List.range n).map fun k => m.byte (a + k)

/-- A little-endian word of a memory. -/
def Mem.word (m : Mem) (a : Nat) : Word := BitVec.ofNat 32 (ofLe (m.bytes a 4))

/-- Bytes written from address `a` on. -/
def Mem.putBytes (m : Mem) : Nat → List Byte → Mem
  | _, [] => m
  | a, b :: r => (m.setByte a b).putBytes (a + 1) r

/-- The 64-byte line with number `n` (address / 64). -/
def Mem.line (m : Mem) (n : Nat) : BitVec 512 := lineOf (m.bytes (64 * n) 64)

/-- A whole line written. -/
def Mem.putLine (m : Mem) (n : Nat) (d : BitVec 512) : Mem := m.putBytes (64 * n) (lineBytes d)

/-- The entries of a memory with addresses from `a` to `b - 1`. -/
def Mem.part (m : Mem) (a b : Nat) : Mem := m.filter fun e => decide (a ≤ e.1 ∧ e.1 < b)

/-- Memory `m` with the range from `a` to `b - 1` taken from `src`. -/
def Mem.copyRange (m src : Mem) (a b : Nat) : Mem :=
  (m.filter fun e => decide (e.1 < a)) ++ src.part a b ++ (m.filter fun e => decide (max a b ≤ e.1))

end Sys2Proof.Machine
end

