-- ==== Sys2Proof/Machine/Flags.lean ====
section
/-! DEFINITION. Every flag computation of the lane: add (R116), shifts and rotates (R97, R117), multiply
(R97, R118), division (R124), and the moves between flags and FL (R63). FL bits: DZ 4, V 3, C 2, N 1, Z 0. -/
namespace Sys2Proof.Machine

/-- The flags as separate bits (R63). -/
structure Fl where
  dz : Bool
  v : Bool
  c : Bool
  n : Bool
  z : Bool
  deriving DecidableEq, Repr

/-- FL read as flags. -/
def flOf (f : BitVec 5) : Fl :=
  { dz := f.getLsbD 4, v := f.getLsbD 3, c := f.getLsbD 2, n := f.getLsbD 1, z := f.getLsbD 0 }

/-- Flags packed into FL. -/
def flPack (f : Fl) : BitVec 5 :=
  BitVec.ofNat 5 (16 * b2n f.dz + 8 * b2n f.v + 4 * b2n f.c + 2 * b2n f.n + b2n f.z)

/-- The function add of R116: result and the flags c, v (z and n follow from the result). -/
def addWith (a b : Word) (cin : Bool) : Word × Bool × Bool :=
  let sum := a.toNat + b.toNat + b2n cin
  let ssum := a.toInt + b.toInt + (b2n cin : Int)
  (BitVec.ofNat 32 sum, decide (2 ^ 32 ≤ sum), decide (ssum < -(2 ^ 31) ∨ 2 ^ 31 - 1 < ssum))

/-- Z and N set from a result; the other flags kept. -/
def flZN (f : BitVec 5) (r : Word) : BitVec 5 :=
  flPack { flOf f with z := decide (r = 0), n := r.msb }

/-- Z, N, C and V set; DZ kept. -/
def flZNCV (f : BitVec 5) (r : Word) (c v : Bool) : BitVec 5 :=
  flPack { flOf f with z := decide (r = 0), n := r.msb, c := c, v := v }

/-- A shift or rotate of R97 with count 0-255: result and the new C (none: unchanged). -/
inductive ShiftOp where
  | lsl | lsr | asr | ror
  deriving DecidableEq, Repr

/-- Results and C of the shifts and rotates (R97, R117). For the arithmetic shift R97 states no C below count 32: count 0
leaves C, counts 1 to 31 take the last bit shifted out, as the logical shifts do (DEDUCED, log entry 82). -/
def shiftWith (op : ShiftOp) (a : Word) (cnt : Nat) : Word × Option Bool :=
  match op with
  | .lsl =>
    if cnt = 0 then (a, none)
    else if cnt ≤ 31 then (a <<< cnt, some (a.getLsbD (32 - cnt)))
    else if cnt = 32 then (0, some (a.getLsbD 0))
    else (0, some false)
  | .lsr =>
    if cnt = 0 then (a, none)
    else if cnt ≤ 31 then (a >>> cnt, some (a.getLsbD (cnt - 1)))
    else if cnt = 32 then (0, some (a.getLsbD 31))
    else (0, some false)
  | .asr =>
    if cnt = 0 then (a, none)
    else if cnt ≤ 31 then (a.sshiftRight cnt, some (a.getLsbD (cnt - 1)))
    else (if a.msb then BitVec.allOnes 32 else 0, some a.msb)
  | .ror =>
    let m := cnt % 32
    if m = 0 then (a, none)
    else (a.rotateRight m, some (a.getLsbD (m - 1)))

/-- FL after a shift or rotate (R117). -/
def flShift (f : BitVec 5) (r : Word) (c : Option Bool) : BitVec 5 :=
  flPack { flOf f with z := decide (r = 0), n := r.msb, c := c.getD (flOf f).c }

/-- V of a multiplication (R97). -/
def mulOverflow (a b : Word) : Bool :=
  let p := a.toInt * b.toInt
  decide (p < -(2 ^ 31) ∨ 2 ^ 31 - 1 < p)

/-- FL after a multiplication: Z, N, V; C kept (R118). -/
def flMul (f : BitVec 5) (r : Word) (v : Bool) : BitVec 5 :=
  flPack { flOf f with z := decide (r = 0), n := r.msb, v := v }

/-- Quotient, remainder, V and division by zero of R124. -/
def divideWith (signed : Bool) (a b : Word) : Word × Word × Bool × Bool :=
  if b = 0 then
    (if signed then (if a.msb then 0x80000000 else 0x7FFFFFFF) else 0xFFFFFFFF, a, false, true)
  else if signed && decide (a = 0x80000000) && decide (b = 0xFFFFFFFF) then
    (0x80000000, 0, true, false)
  else if signed then
    let q := Int.tdiv a.toInt b.toInt
    (BitVec.ofInt 32 q, BitVec.ofInt 32 (a.toInt - q * b.toInt), false, false)
  else
    (BitVec.ofNat 32 (a.toNat / b.toNat), BitVec.ofNat 32 (a.toNat % b.toNat), false, false)

/-- FL after a division: Z, N from the quotient, V; DZ once set stays set; C kept (R63, R124). -/
def flDiv (f : BitVec 5) (q : Word) (v dz : Bool) : BitVec 5 :=
  flPack { flOf f with z := decide (q = 0), n := q.msb, v := v, dz := (flOf f).dz || dz }

/-- The condition of code cc (R133). -/
def condHolds (cc : BitVec 4) (rlo : Bool) (f : BitVec 5) : Bool :=
  let x := flOf f
  match cc.toNat with
  | 0 => rlo
  | 1 => !rlo
  | 2 => x.z
  | 3 => !x.z
  | 4 => x.n
  | 5 => !x.n
  | 6 => x.c
  | 7 => !x.c
  | 8 => x.v
  | 9 => !x.v
  | 10 => x.c && !x.z
  | 11 => !x.c || x.z
  | 12 => x.n == x.v
  | 13 => x.n != x.v
  | 14 => !x.z && (x.n == x.v)
  | _ => x.z || (x.n != x.v)

end Sys2Proof.Machine
end

