-- ==== Sys2Proof/Machine/Float32.lean ====
section
/-! DEFINITION. IEEE 754 binary32 as R99 fixes it: round to nearest, ties to even, subnormals kept. -/
namespace Sys2Proof.Machine

/-- Exponent field. -/
def fExp (w : Word) : Nat := fld w 23 8
/-- Fraction field. -/
def fFrac (w : Word) : Nat := fld w 0 23
/-- A NaN. -/
def fNan (w : Word) : Bool := decide (fExp w = 255 ∧ fFrac w ≠ 0)
/-- An infinity. -/
def fInf (w : Word) : Bool := decide (fExp w = 255 ∧ fFrac w = 0)
/-- A finite value. -/
def fFin (w : Word) : Bool := decide (fExp w ≠ 255)
/-- A zero of either sign. -/
def fZero (w : Word) : Bool := decide (fExp w = 0 ∧ fFrac w = 0)
/-- The default NaN of R99. -/
def fDefNan : Word := 0x7FC00000
/-- A NaN quieted by setting bit 22. -/
def fQuiet (w : Word) : Word := w ||| 0x00400000
/-- Infinity with sign. -/
def fInfS (neg : Bool) : Word := if neg then 0xFF800000 else 0x7F800000
/-- Zero with sign. -/
def fZeroS (neg : Bool) : Word := if neg then 0x80000000 else 0

/-- 2 to an integer power. -/
def pow2 (e : Int) : Rat := if 0 ≤ e then ((2 ^ e.toNat : Nat) : Rat) else 1 / ((2 ^ (-e).toNat : Nat) : Rat)

/-- The exact value of a finite binary32. -/
def fVal (w : Word) : Rat :=
  let m : Nat := if fExp w = 0 then fFrac w else 2 ^ 23 + fFrac w
  let e : Int := if fExp w = 0 then -149 else (fExp w : Int) - 150
  let q := (m : Rat) * pow2 e
  if w.msb then -q else q

/-- Nearest integer, ties to even. -/
def roundEven (q : Rat) : Int :=
  let f := q.floor
  let r := q - (f : Rat)
  if r < 1 / 2 then f else if 1 / 2 < r then f + 1 else if f % 2 = 0 then f else f + 1

/-- Floor of log2 of a positive rational. -/
def ratLog2 (q : Rat) : Int :=
  let e : Int := (q.num.natAbs.log2 : Int) - (q.den.log2 : Int)
  if pow2 e ≤ q then (if pow2 (e + 1) ≤ q then e + 1 else e) else e - 1

/-- The binary32 nearest to a rational; `neg0` is the sign of an exact zero (R99). -/
def fRound (neg0 : Bool) (q : Rat) : Word :=
  if q = 0 then fZeroS neg0
  else
    let neg := decide (q < 0)
    let a := if neg then -q else q
    let e := max (ratLog2 a) (-126)
    let m := (roundEven (a * pow2 (23 - e))).toNat
    let (m, e) := if m = 2 ^ 24 then (2 ^ 23, e + 1) else (m, e)
    if 127 < e then fInfS neg
    else
      let body := if m < 2 ^ 23 then m else (m - 2 ^ 23) + ((e + 127).toNat <<< 23)
      BitVec.ofNat 32 (body + (if neg then 2 ^ 31 else 0))

/-- The NaN result of a two-operand operation, if any (R99). -/
def fNanOf (x y : Word) : Option Word :=
  if fNan x then some (fQuiet x) else if fNan y then some (fQuiet y) else none

/-- x + y (R99, R128). -/
def fAdd (x y : Word) : Word :=
  match fNanOf x y with
  | some r => r
  | none =>
    if fInf x then (if fInf y && (x.msb != y.msb) then fDefNan else x)
    else if fInf y then y
    else fRound (x.msb && y.msb && fZero x && fZero y) (fVal x + fVal y)

/-- A binary32 with the other sign. -/
def fNeg (x : Word) : Word := x ^^^ 0x80000000

/-- |x|. -/
def fAbs (x : Word) : Word := x &&& 0x7FFFFFFF

/-- x - y (R99, R128). -/
def fSub (x y : Word) : Word :=
  match fNanOf x y with
  | some r => r
  | none => fAdd x (fNeg y)

/-- x × y (R99, R128). -/
def fMul (x y : Word) : Word :=
  match fNanOf x y with
  | some r => r
  | none =>
    let neg := x.msb != y.msb
    if fInf x || fInf y then (if fZero x || fZero y then fDefNan else fInfS neg)
    else if fZero x || fZero y then fZeroS neg
    else
      let r := fRound neg (fVal x * fVal y)
      if fZero r then fZeroS neg else r

/-- x ÷ y (R99, R128). -/
def fDiv (x y : Word) : Word :=
  match fNanOf x y with
  | some r => r
  | none =>
    let neg := x.msb != y.msb
    if fInf x then (if fInf y then fDefNan else fInfS neg)
    else if fInf y then fZeroS neg
    else if fZero y then (if fZero x then fDefNan else fInfS neg)
    else if fZero x then fZeroS neg
    else
      let r := fRound neg (fVal x / fVal y)
      if fZero r then fZeroS neg else r

/-- The order of two binary32 values: none if unordered; -1, 0, 1. -/
def fOrd (x y : Word) : Option Int :=
  if fNan x || fNan y then none
  else
    let v (w : Word) : Rat := if fInf w then (if w.msb then -(pow2 200) else pow2 200) else fVal w
    some (if v x < v y then -1 else if v x = v y then 0 else 1)

/-- x < y, false if unordered. -/
def fLt (x y : Word) : Bool := fOrd x y == some (-1)
/-- x <= y, false if unordered. -/
def fLe (x y : Word) : Bool := fOrd x y == some (-1) || fOrd x y == some 0

/-- FL after `FCMP` (R99): Z equal, N less, V unordered, C = 0; DZ kept. -/
def flCmp (f : BitVec 5) (x y : Word) : BitVec 5 :=
  flPack { flOf f with z := fOrd x y == some 0, n := fOrd x y == some (-1), v := fOrd x y == none, c := false }

/-- Conversion to integer: result and V (R99). -/
def fToInt (y : Word) : Word × Bool :=
  if fNan y then (0, true)
  else if fInf y then (if y.msb then 0x80000000 else 0x7FFFFFFF, true)
  else
    let q := fVal y
    if (2 ^ 31 : Rat) ≤ q then (0x7FFFFFFF, true)
    else if q < -(2 ^ 31 : Rat) then (0x80000000, true)
    else (BitVec.ofInt 32 (roundEven q), false)

/-- Conversion from a signed integer (R99). -/
def fOfInt (i : Int) : Word := fRound false (i : Rat)

/-! ## Root, pi and sine of the loop engine (R334, R338) -/

/-- The binary32 nearest to the square root of a rational that is not negative: the root of 2^160 q to the next
integer below tells it from every tie (DEDUCED, log entry 9). -/
def fSqrtOf (q : Rat) : Word :=
  let n := (q * ((2 ^ 400 : Nat) : Rat)).floor.toNat
  let r := Nat.sqrt n
  let x : Rat := ((2 * r + (if r * r = n then 0 else 1) : Nat) : Rat) / ((2 ^ 201 : Nat) : Rat)
  fRound false x

/-- The square root of a binary32; of a negative number the default NaN (R99; DEDUCED, log entry 9). -/
def fSqrt (x : Word) : Word :=
  if fNan x then fQuiet x else if fZero x then x else if x.msb then fDefNan else if fInf x then x else fSqrtOf (fVal x)

/-- pi to 60 decimals. -/
def piRat : Rat := 3141592653589793238462643383279502884197169399375105820974944 / ((10 ^ 60 : Nat) : Rat)

/-- The series of the sine of `x` from the term `t` on, whose index is `n`, with `fuel` terms. -/
def sineSeries (x t : Rat) (n : Nat) : Nat → Rat
  | 0 => 0
  | fuel + 1 => t + sineSeries x (-(t * x * x) / (((n + 1) * (n + 2) : Nat) : Rat)) (n + 2) fuel

/-- The binary32 nearest to sin(2 pi k / K), for K at least 1 (DEDUCED, log entry 9): by the symmetry of the sine
the argument is brought to at most a quarter of the period. -/
def fSine (k period : Nat) : Word :=
  let j := k % period
  let neg := decide (period < 2 * j)
  let q : Rat := (((if neg then 2 * j - period else 2 * j) : Nat) : Rat) / ((2 * period : Nat) : Rat)
  let q := if 1 / 4 < q then 1 / 2 - q else q
  if q = 0 then 0
  else
    let x := 2 * piRat * q
    let v := sineSeries x x 1 24
    fRound false (if neg then -v else v)

end Sys2Proof.Machine
end

