-- ==== Sys2Proof/Machine/RegFile.lean ====
section
/-! DEFINITION. The system register file: which SRN names a register (R549-R567), the register store with
field masks and reset values (R11, R12, R14), selectors and windows (R553), and the reading of settings with
their defaults (R4). -/
namespace Sys2Proof.Machine

/-- Access of a register as its table lists it (R12). -/
inductive RegAcc where
  | ro | rw | w1c | key
  deriving DecidableEq, Repr

/-- Reset class of R14. -/
inductive RegCls where
  | cp | cd | cs
  deriving DecidableEq, Repr

/-- One row of the register index: first SRN, number of registers, distance between them, access, reset
class, mask of the writable bits, and reset value of a writable register. -/
structure RegRow where
  lo : Nat
  n : Nat
  step : Nat
  acc : RegAcc
  cls : RegCls
  mask : Word
  reset : Word
  deriving DecidableEq, Repr

/-- Registers of block 0x0000 (R549-R567). -/
def regBlock0 : List RegRow :=
  [⟨0x0000, 1, 1, .ro, .cp, 0x00000000, 0x0⟩,  -- ID_PART
   ⟨0x0001, 1, 1, .ro, .cp, 0x00000000, 0x0⟩,  -- ID_ISSUE
   ⟨0x0002, 1, 1, .ro, .cp, 0x00000000, 0x0⟩,  -- ID_SERIAL_LO
   ⟨0x0003, 1, 1, .ro, .cp, 0x00000000, 0x0⟩,  -- ID_SERIAL_HI
   ⟨0x0004, 1, 1, .ro, .cp, 0x00000000, 0x0⟩,  -- ID_PCI_VENDOR
   ⟨0x0010, 1, 1, .ro, .cd, 0x00000000, 0x0⟩,  -- DEV_STATE
   ⟨0x0011, 1, 1, .ro, .cd, 0x00000000, 0x0⟩,  -- DEV_READY
   ⟨0x0012, 1, 1, .w1c, .cd, 0x00000000, 0x0⟩,  -- DEV_FAULT
   ⟨0x0013, 1, 1, .rw, .cs, 0x03FF0FFF, 0x1E0258⟩,  -- HOLD_CFG
   ⟨0x0014, 1, 1, .ro, .cd, 0x00000000, 0x0⟩,  -- HOLD_REMAIN
   ⟨0x0015, 1, 1, .rw, .cs, 0x00000003, 0x0⟩,  -- START_CFG
   ⟨0x0016, 1, 1, .ro, .cp, 0x00000000, 0x0⟩]  -- TRANS_COUNT

/-- Registers of block 0x0100 (R549-R567). -/
def regBlock1 : List RegRow :=
  [⟨0x0100, 1, 1, .ro, .cp, 0x00000000, 0x0⟩,  -- PS_INFO
   ⟨0x0101, 1, 1, .ro, .cd, 0x00000000, 0x0⟩,  -- PS_CE_COUNT
   ⟨0x0102, 1, 1, .ro, .cd, 0x00000000, 0x0⟩,  -- PS_UE_COUNT
   ⟨0x0103, 1, 1, .ro, .cd, 0x00000000, 0x0⟩,  -- PS_LAST_ERR
   ⟨0x0110, 1, 1, .ro, .cp, 0x00000000, 0x0⟩,  -- PAIR_INFO
   ⟨0x0111, 1, 1, .rw, .cs, 0xFFFFCFFF, 0x0⟩,  -- PAIR_CFG
   ⟨0x0112, 1, 1, .rw, .cs, 0x0000003F, 0x0⟩,  -- PAIR_SEL
   ⟨0x0113, 1, 1, .rw, .cs, 0xFFFFFFFF, 0x0⟩,  -- PAIR_WCET
   ⟨0x0114, 1, 1, .ro, .cd, 0x00000000, 0x0⟩,  -- LANE_RETIRED_LO
   ⟨0x0115, 1, 1, .ro, .cd, 0x00000000, 0x0⟩,  -- LANE_RETIRED_HI
   ⟨0x0116, 1, 1, .ro, .cd, 0x00000000, 0x0⟩,  -- PAIR_COUNT
   ⟨0x0120, 40, 1, .ro, .cd, 0x00000000, 0x0⟩]  -- LANE_STAT

/-- Registers of block 0x0200 (R549-R567). -/
def regBlock2 : List RegRow :=
  [⟨0x0200, 1, 1, .ro, .cp, 0x00000000, 0x0⟩,  -- SEQ_INFO
   ⟨0x0201, 1, 1, .ro, .cs, 0x00000000, 0x0⟩,  -- SEQ_CHECK
   ⟨0x0202, 1, 1, .rw, .cs, 0x0000003F, 0x0⟩,  -- TASK_SEL
   ⟨0x0203, 1, 1, .rw, .cs, 0xFC00000F, 0x0⟩,  -- TASK_CFG
   ⟨0x0204, 1, 1, .rw, .cs, 0x00FFFFFF, 0x0⟩,  -- TASK_PERIOD
   ⟨0x0205, 1, 1, .rw, .cs, 0x00FFFFFF, 0x0⟩,  -- TASK_PHASE
   ⟨0x0206, 1, 1, .rw, .cs, 0x00FFFFFF, 0x0⟩,  -- TASK_DEADLINE
   ⟨0x0207, 1, 1, .rw, .cs, 0x00FFFFFF, 0x0⟩,  -- TASK_MARGIN
   ⟨0x0208, 1, 1, .rw, .cs, 0x03FFFFFF, 0x0⟩,  -- TASK_STARVE
   ⟨0x0209, 1, 1, .rw, .cs, 0x00003F3F, 0x0⟩,  -- TASK_BIND
   ⟨0x020A, 1, 1, .rw, .cs, 0xFFFFFFFF, 0x0⟩,  -- TASK_TRIG
   ⟨0x020B, 1, 1, .rw, .cs, 0x001FFFFF, 0x0⟩,  -- TASK_ENTRY
   ⟨0x020C, 1, 1, .rw, .cs, 0x07FF03FF, 0x0⟩,  -- TASK_FRAME
   ⟨0x020D, 1, 1, .rw, .cs, 0xFFFFFFFF, 0x0⟩,  -- TASK_INGRP_LO
   ⟨0x020E, 1, 1, .rw, .cs, 0xFFFFFFFF, 0x0⟩,  -- TASK_INGRP_HI
   ⟨0x020F, 1, 1, .ro, .cd, 0x00000000, 0x0⟩,  -- SEQ_LAST_TWD
   ⟨0x0240, 64, 1, .ro, .cs, 0x00000000, 0x0⟩,  -- TASK_STAT
   ⟨0x0280, 64, 1, .rw, .cs, 0xF71F1F00, 0x0⟩]  -- INGRP_CFG

/-- Registers of block 0x0300 (R549-R567). -/
def regBlock3 : List RegRow :=
  [⟨0x0300, 1, 1, .ro, .cp, 0x00000000, 0x0⟩,  -- CAN_INFO
   ⟨0x0301, 1, 1, .ro, .cs, 0x00000000, 0x0⟩,  -- CAN_CHECK
   ⟨0x0302, 1, 1, .rw, .cs, 0x000003FF, 0x0⟩,  -- OWN_SEL
   ⟨0x0303, 1, 1, .rw, .cs, 0xFFFFFFC0, 0x0⟩,  -- OWN_BASE
   ⟨0x0304, 1, 1, .rw, .cs, 0xFFFFFFC0, 0x0⟩,  -- OWN_END
   ⟨0x0305, 1, 1, .rw, .cs, 0x000000FF, 0xFF⟩,  -- OWN_OWNER
   ⟨0x0306, 1, 1, .ro, .cd, 0x00000000, 0x0⟩,  -- CAN_POOL
   ⟨0x0307, 1, 1, .ro, .cd, 0x00000000, 0x0⟩,  -- CAN_CE_COUNT
   ⟨0x0308, 1, 1, .ro, .cd, 0x00000000, 0x0⟩,  -- CAN_UE_COUNT
   ⟨0x0309, 1, 1, .ro, .cd, 0x00000000, 0x0⟩,  -- CAN_LAST_ERR
   ⟨0x030A, 1, 1, .ro, .cd, 0x00000000, 0x0⟩,  -- CAN_UE_OPEN
   ⟨0x0340, 64, 1, .rw, .cs, 0x000FFFFF, 0x0⟩]  -- CAN_QUOTA

/-- Registers of block 0x0400 (R549-R567). -/
def regBlock4 : List RegRow :=
  [⟨0x0400, 1, 1, .ro, .cp, 0x00000000, 0x0⟩,  -- FRET_INFO
   ⟨0x0401, 1, 1, .ro, .cs, 0x00000000, 0x0⟩,  -- FRET_CHECK
   ⟨0x0402, 1, 1, .ro, .cd, 0x00000000, 0x0⟩,  -- FRET_QUEUE
   ⟨0x0403, 1, 1, .ro, .cd, 0x00000000, 0x0⟩,  -- FRET_MISS_COUNT
   ⟨0x0404, 1, 1, .ro, .cd, 0x00000000, 0x0⟩,  -- FRET_DROP_COUNT
   ⟨0x0405, 1, 1, .ro, .cd, 0x00000000, 0x0⟩,  -- FRET_ABORT_COUNT
   ⟨0x0410, 4, 8, .rw, .cs, 0xE0FFFF1F, 0x0⟩,  -- SHAFT_CFG
   ⟨0x0411, 4, 8, .rw, .cs, 0x001FFFFF, 0x0⟩,  -- SHAFT_COUNTS
   ⟨0x0412, 4, 8, .rw, .cs, 0xFF0FFFFF, 0x0⟩,  -- SHAFT_ZERO
   ⟨0x0413, 4, 8, .ro, .cd, 0x00000000, 0x0⟩,  -- SHAFT_STAT
   ⟨0x0414, 4, 8, .ro, .cd, 0x00000000, 0x0⟩,  -- SHAFT_POS_LO
   ⟨0x0415, 4, 8, .ro, .cd, 0x00000000, 0x0⟩,  -- SHAFT_POS_HI
   ⟨0x0416, 4, 8, .ro, .cd, 0x00000000, 0x0⟩,  -- SHAFT_VEL
   ⟨0x0417, 4, 8, .ro, .cd, 0x00000000, 0x0⟩,  -- SHAFT_ACC
   ⟨0x0430, 8, 1, .rw, .cs, 0xFFFFFFFF, 0x0⟩,  -- FRET_PORT
   ⟨0x0438, 1, 1, .rw, .cs, 0x0000007F, 0x0⟩,  -- ROWMAP_SEL
   ⟨0x0439, 1, 1, .rw, .cs, 0xFFFC1FFF, 0x0⟩]  -- ROWMAP_SEG

/-- Registers of block 0x0500 (R549-R567). -/
def regBlock5 : List RegRow :=
  [⟨0x0500, 1, 1, .ro, .cp, 0x00000000, 0x0⟩,  -- YL_INFO
   ⟨0x0501, 1, 1, .ro, .cs, 0x00000000, 0x0⟩,  -- YL_CHECK
   ⟨0x0502, 1, 1, .rw, .cs, 0xFFFF0F0F, 0x0⟩,  -- YL_CFG
   ⟨0x0503, 1, 1, .rw, .cs, 0xFFFFFFFF, 0x0⟩,  -- YL_RETIRE
   ⟨0x0504, 1, 1, .ro, .cd, 0x00000000, 0x0⟩,  -- FAB_TAGS
   ⟨0x0505, 1, 1, .ro, .cd, 0x00000000, 0x0⟩,  -- FAB_WAITS
   ⟨0x0506, 1, 1, .rw, .cs, 0x000000FF, 0x0⟩,  -- YL_STA_SEL
   ⟨0x0507, 1, 1, .rw, .cs, 0x87FF07FF, 0x0⟩,  -- YL_STA_CFG
   ⟨0x0508, 1, 1, .rw, .cs, 0xFFFFFFFF, 0x0⟩,  -- YL_STA_MAP
   ⟨0x0509, 1, 1, .rw, .cs, 0xFFFFFFFF, 0x0⟩,  -- YL_STA_TYPE
   ⟨0x0510, 8, 1, .rw, .cs, 0x80FFFF3F, 0x0⟩,  -- YL_PORT_CFG
   ⟨0x0518, 8, 1, .ro, .cd, 0x00000000, 0x0⟩,  -- YL_PORT_STAT
   ⟨0x0520, 8, 1, .rw, .cs, 0xFFFFF8FF, 0x0⟩,  -- YL_INJ_CFG
   ⟨0x0528, 8, 1, .rw, .cs, 0xFFFFFFFF, 0x0⟩]  -- YL_INJ_RATE

/-- Registers of block 0x0600 (R549-R567). -/
def regBlock6 : List RegRow :=
  [⟨0x0600, 1, 1, .ro, .cp, 0x00000000, 0x0⟩,  -- LOOP_INFO
   ⟨0x0601, 1, 1, .ro, .cs, 0x00000000, 0x0⟩,  -- LOOP_CHECK
   ⟨0x0602, 1, 1, .rw, .cs, 0x000000FF, 0x0⟩,  -- LOOP_SEL
   ⟨0x0603, 1, 1, .rw, .cs, 0xFFFF3F00, 0x0⟩,  -- LOOP_CFG
   ⟨0x0604, 1, 1, .rw, .cs, 0xFFFFFFFF, 0x0⟩,  -- LOOP_PV
   ⟨0x0605, 1, 1, .rw, .cs, 0xFFFFFFFF, 0x0⟩,  -- LOOP_SP
   ⟨0x0606, 1, 1, .rw, .cs, 0xFFFFFFFF, 0x0⟩,  -- LOOP_FF
   ⟨0x0607, 1, 1, .rw, .cs, 0xFFFFFFFF, 0x0⟩,  -- LOOP_OUT
   ⟨0x0608, 1, 1, .rw, .cs, 0xFFFFFFFF, 0x0⟩,  -- LOOP_CMD
   ⟨0x0609, 1, 1, .rw, .cs, 0xFFFFFFFF, 0x0⟩,  -- LOOP_BANK
   ⟨0x060A, 1, 1, .rw, .cs, 0xFFFFFFFF, 0x0⟩,  -- LOOP_AUX
   ⟨0x060B, 1, 1, .rw, .cs, 0xFFFFFFFF, 0x0⟩,  -- LOOP_SAFE
   ⟨0x060C, 1, 1, .ro, .cd, 0x00000000, 0x0⟩,  -- LOOP_STAT
   ⟨0x0610, 8, 1, .rw, .cs, 0x8001FFFF, 0x0⟩,  -- LOOP_CLASS
   ⟨0x0618, 1, 1, .rw, .cs, 0x000000FF, 0x0⟩,  -- GROUP_SEL
   ⟨0x0619, 1, 1, .rw, .cs, 0xC000000F, 0x0⟩,  -- GROUP_CFG
   ⟨0x061A, 1, 1, .rw, .cs, 0xFFFFFFFF, 0x0⟩,  -- GROUP_MEM_LO
   ⟨0x061B, 1, 1, .rw, .cs, 0xFFFFFFFF, 0x0⟩,  -- GROUP_MEM_HI
   ⟨0x061C, 1, 1, .rw, .cs, 0xFFFFFFFF, 0x0⟩,  -- GROUP_OUT
   ⟨0x061D, 1, 1, .rw, .cs, 0xFFFFFFFF, 0x0⟩,  -- GROUP_SAFE
   ⟨0x0620, 1, 1, .rw, .cs, 0xFFFFFFFF, 0x0⟩,  -- LOOP_CAPBUF
   ⟨0x0621, 1, 1, .rw, .cs, 0x003FFFFF, 0x0⟩,  -- LOOP_CAPLEN
   ⟨0x0622, 1, 1, .ro, .cd, 0x00000000, 0x0⟩]  -- LOOP_COUNT

/-- Registers of block 0x0700 (R549-R567). -/
def regBlock7 : List RegRow :=
  [⟨0x0700, 1, 1, .ro, .cp, 0x00000000, 0x0⟩,  -- FLD_INFO
   ⟨0x0701, 1, 1, .ro, .cs, 0x00000000, 0x0⟩,  -- FLD_CHECK
   ⟨0x0702, 1, 1, .rw, .cs, 0xFFFFFFFF, 0x0⟩,  -- FLD_CFG
   ⟨0x0703, 1, 1, .rw, .cs, 0xFFFFFFFF, 0x0⟩,  -- FLD_GUARD_SRC
   ⟨0x0704, 1, 1, .rw, .cs, 0xFFFFFFFF, 0x0⟩,  -- FLD_DUTY
   ⟨0x0705, 1, 1, .ro, .cd, 0x00000000, 0x0⟩,  -- BRIDGE_STAT
   ⟨0x0706, 1, 1, .ro, .cd, 0x00000000, 0x0⟩,  -- BRIDGE_ERR
   ⟨0x0707, 1, 1, .ro, .cd, 0x00000000, 0x0⟩,  -- FLD_FAULT_MAP
   ⟨0x0708, 1, 1, .ro, .cd, 0x00000000, 0x0⟩,  -- FLD_RETIRED_MAP
   ⟨0x0710, 32, 1, .rw, .cs, 0xFCFFFFFF, 0x0⟩,  -- FLD_CH
   ⟨0x0730, 32, 1, .rw, .cs, 0x00000FFF, 0x0⟩,  -- FLD_PWM
   ⟨0x0750, 32, 1, .ro, .cd, 0x00000000, 0x0⟩]  -- FLD_STAT

/-- Registers of block 0x0800 (R549-R567). -/
def regBlock8 : List RegRow :=
  [⟨0x0800, 1, 1, .ro, .cp, 0x00000000, 0x0⟩,  -- CBUS_INFO
   ⟨0x0801, 1, 1, .ro, .cs, 0x00000000, 0x0⟩,  -- CBUS_CHECK
   ⟨0x0802, 1, 1, .rw, .cs, 0x0000FFFF, 0x0⟩,  -- CBUS_RETIRE
   ⟨0x0810, 4, 8, .rw, .cs, 0xF8000000, 0x0⟩,  -- CBUS_CFG
   ⟨0x0811, 4, 8, .rw, .cs, 0xFFFFFFFC, 0x0⟩,  -- CBUS_NBT
   ⟨0x0812, 4, 8, .rw, .cs, 0xFFFFFFC0, 0x0⟩,  -- CBUS_DBT
   ⟨0x0813, 4, 8, .ro, .cd, 0x00000000, 0x0⟩,  -- CBUS_STAT
   ⟨0x0814, 4, 8, .ro, .cd, 0x00000000, 0x0⟩,  -- CBUS_RXCOUNT
   ⟨0x0815, 4, 8, .ro, .cd, 0x00000000, 0x0⟩,  -- CBUS_TXCOUNT
   ⟨0x0816, 4, 8, .ro, .cd, 0x00000000, 0x0⟩,  -- CBUS_ERR
   ⟨0x0817, 4, 8, .ro, .cd, 0x00000000, 0x0⟩]  -- CBUS_QUEUE

/-- Registers of block 0x0900 (R549-R567). -/
def regBlock9 : List RegRow :=
  [⟨0x0900, 1, 1, .ro, .cp, 0x00000000, 0x0⟩,  -- HOST_INFO
   ⟨0x0901, 4, 1, .ro, .cd, 0x00000000, 0x0⟩,  -- HOST_SLOT
   ⟨0x0905, 1, 1, .ro, .cd, 0x00000000, 0x0⟩,  -- PKG_STAT
   ⟨0x0906, 1, 1, .ro, .cd, 0x00000000, 0x0⟩,  -- PKG_VER_A
   ⟨0x0907, 1, 1, .ro, .cd, 0x00000000, 0x0⟩]  -- PKG_VER_B

/-- Registers of block 0x0A00 (R549-R567). -/
def regBlockA : List RegRow :=
  [⟨0x0A00, 1, 1, .ro, .cp, 0x00000000, 0x0⟩,  -- SAFE_INFO
   ⟨0x0A01, 1, 1, .rw, .cs, 0x0000FFFF, 0x0⟩,  -- SAFE_CFG
   ⟨0x0A02, 1, 1, .ro, .cs, 0x00000000, 0x0⟩,  -- SAFE_SCHECK
   ⟨0x0A03, 1, 1, .ro, .cs, 0x00000000, 0x0⟩,  -- SAFE_CHECK
   ⟨0x0A04, 1, 1, .ro, .cd, 0x00000000, 0x0⟩,  -- SAFE_STAGED
   ⟨0x0A05, 1, 1, .ro, .cd, 0x00000000, 0x0⟩,  -- SAFE_CONF_A
   ⟨0x0A06, 1, 1, .ro, .cd, 0x00000000, 0x0⟩,  -- SAFE_CONF_B
   ⟨0x0A07, 1, 1, .ro, .cd, 0x00000000, 0x0⟩,  -- SAFE_STAT
   ⟨0x0A08, 1, 1, .ro, .cd, 0x00000000, 0x0⟩,  -- SAFE_GCH
   ⟨0x0A09, 1, 1, .ro, .cd, 0x00000000, 0x0⟩,  -- SAFE_GSTOP_LO
   ⟨0x0A0A, 1, 1, .ro, .cd, 0x00000000, 0x0⟩]  -- SAFE_GSTOP_HI

/-- Registers of block 0x0B00 (R549-R567). -/
def regBlockB : List RegRow :=
  [⟨0x0B00, 1, 1, .ro, .cp, 0x00000000, 0x0⟩,  -- NV_INFO
   ⟨0x0B01, 1, 1, .ro, .cs, 0x00000000, 0x0⟩,  -- NV_CHECK
   ⟨0x0B02, 1, 1, .rw, .cs, 0x00000003, 0x0⟩,  -- NV_PROT
   ⟨0x0B03, 1, 1, .rw, .cs, 0x0000FFFF, 0x0⟩,  -- NV_WARM_CFG
   ⟨0x0B04, 1, 1, .rw, .cs, 0x0000000F, 0x0⟩,  -- NV_RET_SEL
   ⟨0x0B05, 1, 1, .rw, .cs, 0xFFFFFFC0, 0x0⟩,  -- NV_RET_BASE
   ⟨0x0B06, 1, 1, .rw, .cs, 0xFFFFFFC0, 0x0⟩,  -- NV_RET_END
   ⟨0x0B07, 1, 1, .ro, .cd, 0x00000000, 0x0⟩,  -- NV_PEND
   ⟨0x0B08, 1, 1, .ro, .cd, 0x00000000, 0x0⟩,  -- NV_CE_COUNT
   ⟨0x0B09, 1, 1, .ro, .cd, 0x00000000, 0x0⟩,  -- NV_UE_COUNT
   ⟨0x0B0A, 1, 1, .ro, .cd, 0x00000000, 0x0⟩,  -- WARM_STAT
   ⟨0x0B0B, 1, 1, .ro, .cd, 0x00000000, 0x0⟩,  -- WARM_SEQ
   ⟨0x0B0C, 1, 1, .ro, .cd, 0x00000000, 0x0⟩,  -- REC_NEWEST
   ⟨0x0B0D, 1, 1, .ro, .cd, 0x00000000, 0x0⟩]  -- REC_OLDEST

/-- Registers of block 0x0C00 (R549-R567). -/
def regBlockC : List RegRow :=
  [⟨0x0C00, 1, 1, .rw, .cd, 0x80001FFF, 0x7D0⟩,  -- SUPWD_CFG
   ⟨0x0C01, 1, 1, .key, .cd, 0x00000000, 0x0⟩,  -- SUPWD_KICK
   ⟨0x0C02, 1, 1, .key, .cd, 0x00000000, 0x0⟩,  -- SUPWD_DIS
   ⟨0x0C03, 1, 1, .key, .cp, 0x00000000, 0x0⟩,  -- SUPWD_LOCK
   ⟨0x0C04, 1, 1, .ro, .cd, 0x00000000, 0x0⟩,  -- SUPWD_STAT
   ⟨0x0C10, 1, 1, .ro, .cd, 0x00000000, 0x0⟩,  -- PWR_STAT
   ⟨0x0C11, 1, 1, .ro, .cp, 0x00000000, 0x0⟩,  -- RST_SOURCE
   ⟨0x0C12, 1, 1, .ro, .cp, 0x00000000, 0x0⟩,  -- OPS_SECONDS
   ⟨0x0C13, 1, 1, .ro, .cp, 0x00000000, 0x0⟩,  -- OPS_MS
   ⟨0x0C14, 1, 1, .ro, .cp, 0x00000000, 0x0⟩,  -- PWR_CYCLES
   ⟨0x0C15, 1, 1, .ro, .cd, 0x00000000, 0x0⟩,  -- CLK_STAT
   ⟨0x0C16, 1, 1, .ro, .cd, 0x00000000, 0x0⟩,  -- TB_LO
   ⟨0x0C17, 1, 1, .ro, .cd, 0x00000000, 0x0⟩,  -- TB_HI
   ⟨0x0C18, 1, 1, .rw, .cs, 0x00000007, 0x0⟩,  -- WAKE_CFG
   ⟨0x0C19, 1, 1, .ro, .cp, 0x00000000, 0x0⟩]  -- WAKE_STAT

/-- Registers of block 0x0D00 (R549-R567). -/
def regBlockD : List RegRow :=
  [⟨0x0D00, 1, 1, .ro, .cd, 0x00000000, 0x0⟩,  -- SVC_FW
   ⟨0x0D01, 1, 1, .ro, .cp, 0x00000000, 0x0⟩,  -- SVC_BOOT
   ⟨0x0D02, 1, 1, .ro, .cd, 0x00000000, 0x0⟩,  -- FW_STAT
   ⟨0x0D03, 1, 1, .ro, .cd, 0x00000000, 0x0⟩,  -- FW_REFRESH_DUE
   ⟨0x0D04, 1, 1, .ro, .cd, 0x00000000, 0x0⟩]  -- SVC_HS

/-- Whether a row holds the SRN. -/
def RegRow.has (r : RegRow) (srn : Nat) : Bool :=
  decide (r.lo ≤ srn) && decide ((srn - r.lo) % r.step = 0) && decide ((srn - r.lo) / r.step < r.n)

/-- The rows of a block. -/
def regBlock (b : Nat) : List RegRow :=
  match b with
  | 0x0 => regBlock0 | 0x1 => regBlock1 | 0x2 => regBlock2 | 0x3 => regBlock3 | 0x4 => regBlock4
  | 0x5 => regBlock5 | 0x6 => regBlock6 | 0x7 => regBlock7 | 0x8 => regBlock8 | 0x9 => regBlock9
  | 0xA => regBlockA | 0xB => regBlockB | 0xC => regBlockC | 0xD => regBlockD
  | _ => []

/-- The row of an SRN; none if it names no register (R550). -/
def regRow (srn : Nat) : Option RegRow := (regBlock (srn / 256)).find? (fun r => r.has srn)

/-- The reset value of a writable register. -/
def regReset (srn : Nat) : Word :=
  match srn with
  | 0x0013 => 0x001E0258
  | 0x0305 => 0xFF
  | _ => 0

/-- Key of entry `e` of a register in the register store. -/
def regKey (srn e : Nat) : Nat := 4096 * srn + e

/-- A writable register's value for entry `e`. -/
def rGet (c : Tab Word) (srn e : Nat) : Word := tabGet (regReset srn) c (regKey srn e)

/-- A writable register's value for entry `e` set. -/
def rSet (c : Tab Word) (srn e : Nat) (v : Word) : Tab Word := tabSet (regReset srn) (regKey srn e) v c

/-- The selector of a window register (R553). -/
def regSel (srn : Nat) : Option Nat :=
  if 0x0203 ≤ srn ∧ srn ≤ 0x020E then some 0x0202
  else if srn = 0x0113 then some 0x0112
  else if 0x0303 ≤ srn ∧ srn ≤ 0x0305 then some 0x0302
  else if srn = 0x0439 then some 0x0438
  else if 0x0507 ≤ srn ∧ srn ≤ 0x0509 then some 0x0506
  else if 0x0603 ≤ srn ∧ srn ≤ 0x060C then some 0x0602
  else if 0x0619 ≤ srn ∧ srn ≤ 0x061D then some 0x0618
  else if srn = 0x0B05 ∨ srn = 0x0B06 then some 0x0B04
  else none

/-- The entry on which an access to the register acts; none if its selector selects no entry (R553). -/
def regEntry (c : Tab Word) (srn : Nat) : Option Nat :=
  match regSel srn with
  | none => some 0
  | some 0x0618 => let v := (rGet c 0x0618 0).toNat; if v ≤ 31 then some v else none
  | some sel => some (rGet c sel 0).toNat

/-- `HOLD_CFG` as a write leaves it: out-of-range values are taken as the defaults (R60). -/
def holdCfgValue (v : Word) : Word :=
  let creep := fld v 16 10
  let limit := fld v 0 12
  put (if creep = 0 ∨ 600 < creep then 30 else creep) 16 10 ||| put (if limit = 0 ∨ 3600 < limit then 600 else limit) 0 12

/-- The register store after a write of `v` to a writable register: reserved bits stay 0 (R11, R12). -/
def rWrite (c : Tab Word) (srn : Nat) (v : Word) : Tab Word :=
  match regRow srn, regEntry c srn with
  | some r, some e => if r.acc == .rw then rSet c srn e (if srn = 0x0013 then holdCfgValue v else v &&& r.mask) else c
  | _, _ => c

/-! ## Settings with their defaults -/

/-- `TASK_CFG` of a task. -/
def tCfg (c : Tab Word) (t : Nat) : Word := rGet c 0x0203 t
/-- The task exists. -/
def tEnable (c : Tab Word) (t : Nat) : Bool := decide (t < 64) && wbit (tCfg c t) 31
/-- GUARD -/
def tGuard (c : Tab Word) (t : Nat) : Bool := wbit (tCfg c t) 30
/-- PAIRED -/
def tPaired (c : Tab Word) (t : Nat) : Bool := wbit (tCfg c t) 29
/-- BASIC -/
def tBasic (c : Tab Word) (t : Nat) : Bool := wbit (tCfg c t) 28
/-- DZ_TRAP -/
def tDzTrap (c : Tab Word) (t : Nat) : Bool := wbit (tCfg c t) 27
/-- EVENT -/
def tEvent (c : Tab Word) (t : Nat) : Bool := wbit (tCfg c t) 26
/-- PRIO -/
def tPrio (c : Tab Word) (t : Nat) : Nat := fld (tCfg c t) 0 4
/-- Period in us -/
def tPeriod (c : Tab Word) (t : Nat) : Nat := fld (rGet c 0x0204 t) 0 24
/-- Phase in us -/
def tPhase (c : Tab Word) (t : Nat) : Nat := fld (rGet c 0x0205 t) 0 24
/-- Deadline in us (R165). -/
def tDeadline (c : Tab Word) (t : Nat) : Nat :=
  orElse (fld (rGet c 0x0206 t) 0 24) (if tEvent c t then 20000 else tPeriod c t)
/-- Release margin in us (R165). -/
def tMargin (c : Tab Word) (t : Nat) : Nat := orElse (fld (rGet c 0x0207 t) 0 24) (tDeadline c t)
/-- Starvation bound in us (R165). -/
def tStarve (c : Tab Word) (t : Nat) : Nat :=
  orElse (fld (rGet c 0x0208 t) 0 26) (if tEvent c t then 10000 else 4 * tPeriod c t)
/-- Package lane of the first copy. -/
def tLane (c : Tab Word) (t : Nat) : Nat := fld (rGet c 0x0209 t) 0 6
/-- Package lane of the second copy. -/
def tTwin (c : Tab Word) (t : Nat) : Nat := fld (rGet c 0x0209 t) 8 6
/-- The package lanes of a task. -/
def tLanes (c : Tab Word) (t : Nat) : List Nat := if tPaired c t then [tLane c t, tTwin c t] else [tLane c t]
/-- Trigger source. -/
def tSource (c : Tab Word) (t : Nat) : Nat := fld (rGet c 0x020A t) 28 4
/-- Trigger argument. -/
def tArg (c : Tab Word) (t : Nat) : Nat := fld (rGet c 0x020A t) 16 12
/-- Minimum gap in us: values below 25 are taken as 25 (R196). -/
def tGap (c : Tab Word) (t : Nat) : Nat := max 25 (fld (rGet c 0x020A t) 0 16)
/-- Entry point. -/
def tEntry (c : Tab Word) (t : Nat) : BitVec 21 := BitVec.ofNat 21 (rGet c 0x020B t).toNat
/-- Scratch frame: first 64-byte unit and first unit above (R165). -/
def tFrame (c : Tab Word) (t : Nat) : Nat × Nat := (fld (rGet c 0x020C t) 0 10, fld (rGet c 0x020C t) 16 11)
/-- A task declares a group. -/
def tGroup (c : Tab Word) (t g : Nat) : Bool :=
  if g < 32 then wbit (rGet c 0x020D t) g else wbit (rGet c 0x020E t) (g - 32)
/-- The groups a task declares. -/
def tGroups (c : Tab Word) (t : Nat) : List Nat := (List.range 64).filter (tGroup c t)
/-- C of a task in ns (R305, R319). -/
def tWcet (c : Tab Word) (t : Nat) : Nat := 10 * (rGet c 0x0113 t).toNat
/-- The enabled tasks. -/
def tAll (c : Tab Word) : List Nat := (List.range 64).filter (tEnable c)

/-- Kind, port, first and last station of an input group. -/
def gKind (c : Tab Word) (g : Nat) : Nat := fld (rGet c (0x0280 + g) 0) 28 4
/-- Port of a kind 1 group. -/
def gPort (c : Tab Word) (g : Nat) : Nat := fld (rGet c (0x0280 + g) 0) 24 3
/-- First station. -/
def gFirst (c : Tab Word) (g : Nat) : Nat := fld (rGet c (0x0280 + g) 0) 16 5
/-- Last station. -/
def gLast (c : Tab Word) (g : Nat) : Nat := fld (rGet c (0x0280 + g) 0) 8 5

/-- Ownership entry: base address, end address, owner code (R200). -/
def ownEntry (c : Tab Word) (e : Nat) : Nat × Nat × Nat :=
  ((rGet c 0x0303 e).toNat, (rGet c 0x0304 e).toNat, fld (rGet c 0x0305 e) 0 8)
/-- The ownership entries in use, with their numbers. -/
def ownTable (c : Tab Word) : List (Nat × Nat × Nat × Nat) :=
  (c.filterMap fun kv =>
    if kv.1 / 4096 = 0x0305 then some (kv.1 % 4096, ownEntry c (kv.1 % 4096)) else none)
/-- The owner code of the line that holds address `a` (R200). -/
def ownerOf (c : Tab Word) (a : Nat) : Option Nat :=
  ((ownTable c).find? fun e => decide (e.2.1 ≤ a ∧ a < e.2.2.1)).map fun e => e.2.2.2
/-- Lines owned by an owner code. -/
def ownedLines (c : Tab Word) (o : Nat) : Nat :=
  ((ownTable c).filter fun e => e.2.2.2 == o).foldl (fun n e => n + (e.2.2.1 - e.2.1) / 64) 0
/-- Shadow quota of a task per copy (R206, R218). -/
def tQuota (c : Tab Word) (t : Nat) : Nat := orElse (fld (rGet c (0x0340 + t) 0) 0 16) (min 0xFFFF (ownedLines c t))
/-- Retain factor of a task (R206). -/
def tRetain (c : Tab Word) (t : Nat) : Nat := orElse (fld (rGet c (0x0340 + t) 0) 16 4) 1
/-- Lines reserved for a task (R206). -/
def tReserve (c : Tab Word) (t : Nat) : Nat := tQuota c t * ((if tPaired c t then 3 else 1) + tRetain c t)

/-- Shaft settings (R258). -/
def shOn (c : Tab Word) (n : Nat) : Bool := wbit (rGet c (0x0410 + 8 * n) 0) 31
/-- Referenced by the Z index. -/
def shRef (c : Tab Word) (n : Nat) : Bool := wbit (rGet c (0x0410 + 8 * n) 0) 30
/-- `SHAFT_CFGn.FILT`. -/
def shFilt (c : Tab Word) (n : Nat) : Nat := fld (rGet c (0x0410 + 8 * n) 0) 16 8
/-- `SHAFT_CFGn.INVERT`. -/
def shInv (c : Tab Word) (n : Nat) : Bool := wbit (rGet c (0x0410 + 8 * n) 0) 29
/-- Velocity window in ns. -/
def shWin (c : Tab Word) (n : Nat) : Nat := 10000 * orElse (fld (rGet c (0x0410 + 8 * n) 0) 8 8) 10
/-- Hysteresis exponent. -/
def shHyst (c : Tab Word) (n : Nat) : Nat := orElse (fld (rGet c (0x0410 + 8 * n) 0) 0 5) 12
/-- Counts per revolution. -/
def shN (c : Tab Word) (n : Nat) : Nat := fld (rGet c (0x0411 + 8 * n) 0) 0 21
/-- Reference count. -/
def shZero (c : Tab Word) (n : Nat) : Nat := fld (rGet c (0x0412 + 8 * n) 0) 0 20
/-- Index tolerance. -/
def shZtol (c : Tab Word) (n : Nat) : Nat := orElse (fld (rGet c (0x0412 + 8 * n) 0) 24 8) 2
/-- Row map segment: used, port, first, last, bytes. -/
def mapSeg (c : Tab Word) (m k : Nat) : Option (Nat × Nat × Nat × Nat) :=
  let w := rGet c 0x0439 (16 * k + m)
  if wbit w 31 then some (fld w 28 3, fld w 23 5, fld w 18 5, fld w 0 13) else none
/-- The used segments of a row map in segment order. -/
def mapSegs (c : Tab Word) (m : Nat) : List (Nat × Nat × Nat × Nat) := (List.range 8).filterMap (mapSeg c m)
/-- The stations of a row map, as (32 x port + station, offset, bytes) (R244). -/
def mapParts (c : Tab Word) (m : Nat) : List (Nat × Nat × Nat) :=
  (((mapSegs c m).flatMap fun g =>
      (List.range (g.2.2.1 + 1 - g.2.1)).map fun k => (32 * g.1 + g.2.1 + k, g.2.2.2)).foldl
    (fun (acc : Nat × List (Nat × Nat × Nat)) e => (acc.1 + e.2, acc.2 ++ [(e.1, acc.1, e.2)])) (0, [])).2
/-- The row length of a map in bytes. -/
def mapLen (c : Tab Word) (m : Nat) : Nat := (mapParts c m).foldl (fun n e => n + e.2.2) 0

/-- `YL_PORT_CFGp`. -/
def pCfg (c : Tab Word) (p : Nat) : Word := rGet c (0x0510 + p) 0
/-- The port is enabled. -/
def pOn (c : Tab Word) (p : Nat) : Bool := wbit (pCfg c p) 31
/-- Cycle length in ns (R270). -/
def pCycle (c : Tab Word) (p : Nat) : Nat := 31250 * orElse (fld (pCfg c p) 8 8) 256
/-- Stations on the line. -/
def pStations (c : Tab Word) (p : Nat) : Nat := fld (pCfg c p) 0 6
/-- Link-loss timeout in cycles. -/
def pLoss (c : Tab Word) (p : Nat) : Nat := orElse (fld (pCfg c p) 16 8) 4
/-- Lead time in ns (R246, R258). -/
def pLead (c : Tab Word) (p : Nat) : Nat := 1000 * orElse (fld (rGet c (0x0430 + p) 0) 16 16) 2000
/-- Guard window in ns: default twice the link cycle, rounded up to whole us (R258). -/
def pGuard (c : Tab Word) (p : Nat) : Nat :=
  1000 * orElse (fld (rGet c (0x0430 + p) 0) 0 16) ((2 * pCycle c p + 999) / 1000)
/-- Ports 2k and 2k+1 form a closed line (R287). -/
def pClosed (c : Tab Word) (p : Nat) : Bool := wbit (rGet c 0x0502 0) (8 + p / 2)
/-- EtherType. -/
def yEther (c : Tab Word) : Nat := orElse (fld (rGet c 0x0502 0) 16 16) 0x88B5
/-- Retries per transaction. -/
def yRetries (c : Tab Word) : Nat := if wbit (rGet c 0x0502 0) 3 then fld (rGet c 0x0502 0) 0 3 else 2
/-- Strikes that retire a station. -/
def yStrikes (c : Tab Word) : Nat := orElse (fld (rGet c 0x0503 0) 24 8) 32
/-- Strike window in s. -/
def yWindow (c : Tab Word) : Nat := orElse (fld (rGet c 0x0503 0) 16 8) 60
/-- Consecutive failed cycles that retire a station. -/
def yConsec (c : Tab Word) : Nat := orElse (fld (rGet c 0x0503 0) 12 4) 8
/-- Time without link that retires a port, in ns. -/
def yPortLoss (c : Tab Word) : Nat := 1000000 * orElse (fld (rGet c 0x0503 0) 0 12) 500
/-- `YL_STA_CFG` of station k = 32 x port + station. -/
def sOn (c : Tab Word) (k : Nat) : Bool := wbit (rGet c 0x0507 k) 31
/-- Output bytes. -/
def sOut (c : Tab Word) (k : Nat) : Nat := fld (rGet c 0x0507 k) 16 11
/-- Input bytes. -/
def sIn (c : Tab Word) (k : Nat) : Nat := fld (rGet c 0x0507 k) 0 11
/-- First address of the station's Q bytes. -/
def sQ (c : Tab Word) (k : Nat) : Nat := 0x10020000 + 2 * fld (rGet c 0x0508 k) 16 16
/-- First address of the station's I bytes. -/
def sI (c : Tab Word) (k : Nat) : Nat := 0x10000000 + 2 * fld (rGet c 0x0508 k) 0 16
/-- The enabled stations of a port, as keys. -/
def pStas (c : Tab Word) (p : Nat) : List Nat := ((List.range 32).map (32 * p + ·)).filter (sOn c)

/-- `LOOP_CFG` of a loop. -/
def lCfg (c : Tab Word) (n : Nat) : Word := rGet c 0x0603 n
/-- The loop exists. -/
def lOn (c : Tab Word) (n : Nat) : Bool := wbit (lCfg c n) 31
/-- Runs in CLEARING. -/
def lBasic (c : Tab Word) (n : Nat) : Bool := wbit (lCfg c n) 30
/-- Gain-scheduled. -/
def lSched (c : Tab Word) (n : Nat) : Bool := wbit (lCfg c n) 29
/-- Sample class. -/
def lClass (c : Tab Word) (n : Nat) : Nat := fld (lCfg c n) 24 3
/-- Held samples before FAULT. -/
def lHoldMax (c : Tab Word) (n : Nat) : Nat := orElse (fld (lCfg c n) 16 4) 4
/-- Address register k of a loop: 0 PV, 1 SP, 2 FF, 3 OUT, 4 CMD, 5 BANK, 6 AUX. -/
def lAddr (c : Tab Word) (n k : Nat) : Nat := (rGet c (0x0604 + k) n).toNat
/-- The enabled loops. -/
def lAll (c : Tab Word) : List Nat := (List.range 256).filter (lOn c)
/-- Class enable and period in ns. -/
def kOn (c : Tab Word) (k : Nat) : Bool := wbit (rGet c (0x0610 + k) 0) 31
/-- Period of a class in us. -/
def kPeriod (c : Tab Word) (k : Nat) : Nat := fld (rGet c (0x0610 + k) 0) 0 17
/-- Group enable. -/
def gpOn (c : Tab Word) (g : Nat) : Bool := wbit (rGet c 0x0619 g) 31
/-- Max-select. -/
def gpMax (c : Tab Word) (g : Nat) : Bool := wbit (rGet c 0x0619 g) 30
/-- Members of a group. -/
def gpMembers (c : Tab Word) (g : Nat) : List Nat :=
  ((List.range 8).map fun m => if m < 4 then fld (rGet c 0x061A g) (8 * m) 8 else fld (rGet c 0x061B g) (8 * (m - 4)) 8).take
    (fld (rGet c 0x0619 g) 0 4)
/-- The group a loop belongs to. -/
def groupOf (c : Tab Word) (n : Nat) : Option Nat :=
  (List.range 32).find? fun g => gpOn c g && (gpMembers c g).contains n

/-- `FLD_CHn`. -/
def fCfg (c : Tab Word) (n : Nat) : Word := rGet c (0x0710 + n) 0
/-- Mode code of a channel configuration. -/
def chMode (w : Word) : Nat := fld w 28 4
/-- Guard channel. -/
def chGuard (w : Word) : Bool := wbit w 27
/-- Safe value. -/
def chSafe (w : Word) : Bool := wbit w 26
/-- Process-safety budget in ms (R422). -/
def budgetMs (c : Tab Word) : Nat := orElse (fld (rGet c 0x0A01 0) 0 16) 100
/-- Hold limit in ms; none: unlimited (R362). -/
def chHold (c : Tab Word) (w : Word) : Option Nat :=
  let h := fld w 0 16
  if chGuard w then some (if h = 0 ∨ budgetMs c < h then budgetMs c else h)
  else if h = 0 then none else some h

/-- `CBUS_CFGc`. -/
def cCfg (c : Tab Word) (n : Nat) : Word := rGet c (0x0810 + 8 * n) 0

/-- Retained range e: first address, first address above; none if not in use. -/
def retRange (c : Tab Word) (e : Nat) : Option (Nat × Nat) :=
  let b := (rGet c 0x0B05 e).toNat
  let z := (rGet c 0x0B06 e).toNat
  if b < z then some (b, z) else none
/-- The retained ranges in use. -/
def retRanges (c : Tab Word) : List (Nat × Nat) := (List.range 16).filterMap (retRange c)
/-- The address lies in a retained range. -/
def inRetained (c : Tab Word) (a : Nat) : Bool := (retRanges c).any fun r => decide (r.1 ≤ a ∧ a < r.2)

end Sys2Proof.Machine
end

