-- ==== Sys2Proof/Machine/DevRegs.lean ====
section
/-! DEFINITION. Lookups in the state that everything uses, and the registers that a record's snapshot holds:
`DEV_STATE`, `DEV_FAULT`, `DEV_READY`, `PKG_STAT`, `BRIDGE_STAT` (R60, R415, R365, R457). -/
namespace Sys2Proof.Machine

/-- State code of R36. -/
def DevState.code : DevState → Nat
  | .off => 0 | .standby => 1 | .boot => 2 | .recovery => 3 | .setup => 4
  | .stop => 5 | .run => 6 | .hold => 7 | .clearing => 8

/-- Role code of R298. -/
def Role.code : Role → Nat
  | .bound => 0 | .spare => 1 | .awake => 2 | .testing => 3 | .retired => 4 | .spareTest => 5

/-- Role code of a slot (R387). -/
def HRole.code : HRole → Nat
  | .observer => 0 | .operator => 1 | .owner => 2

/-- Now, on the time base. -/
def State.now (s : State) : Nat := s.clk.tb
/-- Now, in ns of operating time. -/
def State.op (s : State) : Nat := s.clk.opNs
/-- Operating seconds (R511). -/
def State.opSec (s : State) : Nat := s.clk.opNs / 1000000000

/-- An unlisted lane: a spare that carries its own number (R299, R319). -/
def laneDef (n : Nat) : Lane := { acts := some n }
/-- Lane `n`. -/
def State.lane (s : State) (n : Nat) : Lane := tabGet (laneDef n) s.ln.lanes n
/-- Lane `n` changed by `f`. -/
def State.modLane (s : State) (n : Nat) (f : Lane → Lane) : State :=
  { s with ln := { s.ln with lanes := tabMod (laneDef n) n f s.ln.lanes } }
/-- A copy, by its key. -/
def State.copy (s : State) (k : Nat) : Option Copy := tabGet none s.ln.copies k
/-- A copy stored or removed. -/
def State.setCopy (s : State) (k : Nat) (c : Option Copy) : State :=
  { s with ln := { s.ln with copies := tabSet none k c s.ln.copies } }
/-- A task's state. -/
def State.task (s : State) (t : Nat) : TaskSt := tabGet {} s.seq.tasks t
/-- A task's state changed by `f`. -/
def State.modTask (s : State) (t : Nat) (f : TaskSt → TaskSt) : State :=
  { s with seq := { s.seq with tasks := tabMod {} t f s.seq.tasks } }
/-- The open instance of a task. -/
def State.inst (s : State) (t : Nat) : Option Inst := tabGet none s.seq.insts t
/-- The open instance of a task stored or removed. -/
def State.setInst (s : State) (t : Nat) (i : Option Inst) : State :=
  { s with seq := { s.seq with insts := tabSet none t i s.seq.insts } }
/-- An input group. -/
def State.group (s : State) (g : Nat) : Group := tabGet {} s.seq.groups g
/-- A shaft. -/
def State.shaft (s : State) (n : Nat) : Shaft := tabGet {} s.fret.shafts n
/-- A shaft changed by `f`. -/
def State.modShaft (s : State) (n : Nat) (f : Shaft → Shaft) : State :=
  { s with fret := { s.fret with shafts := tabMod {} n f s.fret.shafts } }
/-- A port. -/
def State.port (s : State) (p : Nat) : Port := tabGet {} s.yl.ports p
/-- A port changed by `f`. -/
def State.modPort (s : State) (p : Nat) (f : Port → Port) : State :=
  { s with yl := { s.yl with ports := tabMod {} p f s.yl.ports } }
/-- A station, by 32 x port + station. -/
def State.sta (s : State) (k : Nat) : Sta := tabGet {} s.yl.stas k
/-- A station changed by `f`. -/
def State.modSta (s : State) (k : Nat) (f : Sta → Sta) : State :=
  { s with yl := { s.yl with stas := tabMod {} k f s.yl.stas } }
/-- A loop. -/
def State.loop (s : State) (n : Nat) : LoopSt := tabGet {} s.lp.loops n
/-- A loop changed by `f`. -/
def State.modLoop (s : State) (n : Nat) (f : LoopSt → LoopSt) : State :=
  { s with lp := { s.lp with loops := tabMod {} n f s.lp.loops } }
/-- The latest up frame that the logic side took; a blank one before the first. -/
def Field.seen (f : Field) : UpFrame := f.lastUp.getD {}
/-- A channel as the logic side knows it (R23). -/
def State.seenChan (s : State) (n : Nat) : Chan := tabGet {} s.fld.view n
/-- A channel of the field die. -/
def State.chan (s : State) (n : Nat) : Chan := tabGet {} s.fld.chans n
/-- A field channel changed by `f`. -/
def State.modChan (s : State) (n : Nat) (f : Chan → Chan) : State :=
  { s with fld := { s.fld with chans := tabMod {} n f s.fld.chans } }
/-- A CAN channel. -/
def State.canCh (s : State) (n : Nat) : CanCh := tabGet {} s.cb.chs n
/-- A CAN channel changed by `f`. -/
def State.modCan (s : State) (n : Nat) (f : CanCh → CanCh) : State :=
  { s with cb := { s.cb with chs := tabMod {} n f s.cb.chs } }
/-- A host slot. -/
def State.slot (s : State) (n : Nat) : Slot := tabGet {} s.host.slots n
/-- A host slot changed by `f`. -/
def State.modSlot (s : State) (n : Nat) (f : Slot → Slot) : State :=
  { s with host := { s.host with slots := tabMod {} n f s.host.slots } }
/-- Something put on the wires. -/
def State.emit (s : State) (o : Out) : State := { s with out := s.out ++ [o] }

/-- The lane that carries package lane `x` (R299). -/
def State.carrier (s : State) (x : Nat) : Option Nat :=
  (List.range 40).find? fun n => (s.lane n).acts == some x && (s.lane n).role != .retired
    && (s.lane n).role != .spare && (s.lane n).role != .spareTest

/-- The lane that carries package lane `x`, whatever its role. -/
def State.carrierAny (s : State) (x : Nat) : Option Nat :=
  match s.carrier x with
  | some n => some n
  | none => (List.range 40).find? fun n => (s.lane n).acts == some x

/-- The grove of a lane (R25). -/
def grove (n : Nat) : Nat := n / 10

/-- The package lanes that enabled tasks name. -/
def boundLanes (c : Tab Word) : List Nat := ((tAll c).flatMap (tLanes c)).eraseDups

/-- A closed line (even port) carries inputs of a BASIC task (R49, R289). -/
def lineBasic (c : Tab Word) (p : Nat) : Bool :=
  (tAll c).any fun t => tBasic c t && (tGroups c t).any fun g => gKind c g == 1 && gPort c g / 2 == p / 2

/-- The port has link (R280). -/
def Port.link (p : Port) : Bool := p.state == 3 || p.state == 4

/-- A shadow line of the copy holds an unrepaired word (R217). -/
def Copy.shadowUe (c : Copy) : Bool := !c.ueWords.isEmpty

/-- Words unrepaired now (R217): in the areas, in the shadow lines of copies and in retained versions. -/
def State.ueOpen (s : State) : Nat :=
  s.can.bad.length
    + s.ln.copies.foldl (fun n c => match c.2 with | some x => n + x.ueWords.length | none => n) 0
    + s.can.retained.foldl (fun n r => n + r.ue.length) 0

/-- A field group is in use (R352). -/
def groupUsed (c : Tab Word) (g : Nat) : Bool := (List.range 8).any fun k => chMode (fCfg c (8 * g + k)) != 0

/-- VF0-VF3 present, as the latest valid up frame said. -/
def State.vfSeen (s : State) : BitVec 4 := s.fld.seen.vf

/-- `DEV_READY.FIELD` (R60, R352). -/
def readyField (s : State) : Bool :=
  s.fld.valid && (List.range 4).all fun g => !groupUsed s.cfg g || s.vfSeen.getLsbD g
/-- The confirmed value of the active slot. -/
def confActive (s : State) : Option Word := if s.pkg.active then s.safe.confB else s.safe.confA
/-- `DEV_READY.SAFETY` (R425). -/
def readySafety (s : State) : Bool := confActive s == some s.safe.check
/-- `DEV_READY.LINES` (R289). -/
def readyLines (s : State) : Bool :=
  (List.range 4).all fun k => !(pClosed s.cfg (2 * k) && lineBasic s.cfg (2 * k))
    || (s.port (2 * k)).link || (s.port (2 * k + 1)).link
/-- `DEV_READY.SPARE` (R60, R298). -/
def readySpare (s : State) : Bool :=
  (List.range 40).any fun n => (s.lane n).role == .spare || (s.lane n).role == .spareTest
/-- `DEV_READY.LANES` (R60, R299). -/
def readyLanes (s : State) : Bool :=
  ((boundLanes s.cfg).all fun x => (s.carrier x).isSome) &&
  ((tAll s.cfg).all fun t => !tPaired s.cfg t ||
    match s.carrier (tLane s.cfg t), s.carrier (tTwin s.cfg t) with
    | some a, some b => grove a != grove b
    | _, _ => false)

/-- `DEV_READY` bits 8 to 0 in that order (R60); 0 before the first entry to SETUP or STOP. -/
def readyBits (s : State) : List Bool :=
  [readyField s, readySafety s, readyLines s, s.svc.answering, s.ueOpen == 0, readySpare s, readyLanes s,
   s.dev.fault == 0, s.dev.pkgOk]

/-- Bits packed with the first element highest. -/
def packBits (l : List Bool) : Nat := l.foldl (fun n b => 2 * n + b2n b) 0

/-- States in which the main die runs a package or its guard tasks. -/
def DevState.served (d : DevState) : Bool :=
  d == .setup || d == .stop || d == .run || d == .hold || d == .clearing

/-- `DEV_READY` (R60). -/
def devReady (s : State) : Word :=
  if s.dev.state.served then BitVec.ofNat 32 (packBits (readyBits s)) else 0

/-- All readiness checks pass (R54). -/
def allReady (s : State) : Bool := (readyBits s).all (fun b => b)

/-- A transition falls on the present instant (R42). -/
def State.moving (s : State) : Bool := s.clk.lock && s.dev.lastMove == some s.now

/-- Operating time used up of a slot's owner lease: it does not run down in CLEARING, nor while an install pauses the
service core (R399, R478). -/
def leaseUsed (s : State) (x : Slot) : Nat :=
  match s.svc.install with
  | some (false, a) => a - x.leaseAt
  | _ => if s.dev.state == .clearing then s.op - (s.now - s.dev.lastMove.getD s.now) - x.leaseAt else s.op - x.leaseAt

/-- `DEV_STATE` (R60). -/
def devStateReg (s : State) : Word :=
  put s.dev.last.cause.toNat 16 8 ||| put s.dev.last.left.code 8 4 ||| put (b2n s.moving) 4 1 ||| put s.dev.state.code 0 4

/-- The header of the active package: that of the new one from the epoch of an exchange on (R409, R415). -/
def activeHdr (s : State) : Option Header :=
  match s.pkg.exch.run with
  | some (p, _) => if s.pkg.exch.epochPassed then some p.hdr else s.pkg.hdr
  | none => s.pkg.hdr

/-- A plan of an online exchange that `EXCHANGE` may run is held (R407, R426). -/
def planned (s : State) : Bool := match s.pkg.exch.plan with | some p => !p.unconfirmed | none => false

/-- `PKG_STAT` (R415). -/
def pkgStat (s : State) : Word :=
  let x := s.pkg.exch
  let ex := if x.run.isSome then (if x.epochPassed then 3 else 2) else if planned s then 1 else 0
  put (b2n s.pkg.active) 31 1 ||| put s.pkg.stA.toNat 28 3 ||| put s.pkg.stB.toNat 24 3 ||| put ex 22 2
  ||| put (packBits [(tabGet none s.pkg.keys 3).isSome, (tabGet none s.pkg.keys 2).isSome,
      (tabGet none s.pkg.keys 1).isSome, (tabGet none s.pkg.keys 0).isSome]) 16 4
  ||| (match activeHdr s with | some h => put (b2n h.online) 1 1 ||| put (b2n h.testPermit) 0 1 | none => 0)

/-- `BRIDGE_STAT` (R365). -/
def bridgeStat (s : State) : Word :=
  put (b2n s.fld.valid) 31 1 ||| put s.vfSeen.toNat 24 4
  ||| put (b2n s.fld.seen.hot) 23 1 ||| put s.fld.losses.toNat 0 16

end Sys2Proof.Machine
end

