-- ==== Sys2Proof/Machine/Recorder.lean ====
section
/-! DEFINITION. Raising interrupt causes (R392) and recording events (R456-R461). -/
namespace Sys2Proof.Machine

/-- The front end of a slot is a PCIe function (R384). -/
def Slot.pcie (x : Slot) : Bool := match x.front with | some f => decide (f < 4) | none => false

/-- The mask bit of a vector in the MSI-X table (R385, R387). -/
def Slot.vecMasked (x : Slot) (k : Nat) : Bool := (x.map.byte (0x200C + 16 * k)).getLsbD 0

/-- The MSI-X message of cause `k` (R392): sent while the function's MSI-X enable is set; a masked vector keeps it
pending (PRESUMED, the PCI Express standard, log entry 23); a QSPI slot sends none. -/
def sendIrq (s : State) (n k : Nat) : State :=
  let x := s.slot n
  if x.msixOn && x.pcie then
    (if x.vecMasked k then s.modSlot n fun x => { x with pba := x.pba ||| BitVec.ofNat 4 (1 <<< k) } else s.emit (.msix n k))
  else s

/-- Cause `k` of a slot goes to 1: its message is sent when the bit rises while it is unmasked (R392). -/
def raiseIrq (s : State) (slot k : Nat) : State :=
  let x := s.slot slot
  let m : BitVec 4 := BitVec.ofNat 4 (1 <<< k)
  let s1 := s.modSlot slot fun x => { x with
    pend := x.pend ||| m
    pendSet := (s.op, (if x.pendSet.1 = s.op then x.pendSet.2 else 0) ||| m) }
  if !x.pend.getLsbD k && x.mask.getLsbD k then sendIrq s1 slot k else s1

/-- A cause raised on every slot. -/
def raiseIrqAll (s : State) (k : Nat) : State := (List.range 4).foldl (fun s n => raiseIrq s n k) s

/-- One item of a record's contents, by the width of its kind (R458). -/
inductive RItem where
  | b1 (v : Nat)
  | b2 (v : Nat)
  | b4 (v : Nat)
  | b8 (v : Nat)
  | set (l : List Byte)
  deriving DecidableEq, Repr

/-- The width of an item and its alignment (R458). -/
def RItem.width : RItem → Nat × Nat
  | .b1 _ => (1, 1) | .b2 _ => (2, 2) | .b4 _ => (4, 4) | .b8 _ => (8, 8) | .set l => (l.length, 8)

/-- The bytes of an item. -/
def RItem.bytes : RItem → List Byte
  | .b1 v => leBytes 1 v | .b2 v => leBytes 2 v | .b4 v => leBytes 4 v | .b8 v => leBytes 8 v | .set l => l

/-- Items in order, each aligned to its width, in 64 bytes (R458). -/
def encodeItems (l : List RItem) : List Byte :=
  padTo 64 (l.foldl (fun acc i => acc ++ List.replicate ((i.width.2 - acc.length % i.width.2) % i.width.2) 0 ++ i.bytes) [])

/-- The events whose chapters merge repeated records, with the number of leading bytes of the contents that
name the object; 0: any record with the same code (R460 and the event tables). -/
def mergeBytes (code : Nat) : Option Nat :=
  match code with
  | 0x0103 | 0x0104 | 0x0205 | 0x0206 | 0x0207 | 0x0402 | 0x0407 | 0x0604 | 0x0703 | 0x0801 | 0x0806
  | 0x0902 | 0x0A07 | 0x0B05 => some 1
  | 0x0506 => some 2
  | 0x0707 => some 4
  | 0x0301 | 0x0303 | 0x0B01 | 0x0C05 | 0x0C06 | 0x0C07 | 0x0D08 => some 0
  | _ => none

/-- The newest record while it is buffered. -/
def newestBuf (s : State) : Option Rec := s.nv.buf.getLast?.filter fun r => r.seq == s.nv.newest

/-- The slot of a record (R461). -/
def recSlot (q : Word) : Nat := (q.toNat - 1) % 512

/-- The record of the newest SEQ, buffered or written. -/
def newestRec (s : State) : Option Rec :=
  match newestBuf s with
  | some r => some r
  | none => if s.nv.newest = 0 then none else tabGet none s.nv.recs (recSlot s.nv.newest)

/-- The SEQ after `n`: it wraps from 0xFFFF_FFFF to 1 (R457). -/
def nextSeq (n : Word) : Word := if n = 0xFFFFFFFF then 1 else n + 1

/-- The number of set cells of a counter (R447). -/
def Ctr.set (c : Ctr) : Nat := (List.range 256).countP fun k => c.cells.getLsbD k

/-- The value of a spread counter (R448). -/
def Ctr.value (c : Ctr) : Nat :=
  match (match c.hiA with | some h => some h | none => c.hiB) with
  | none => 0
  | some h => if c.tag = some h then h.toNat * 256 + c.set else h.toNat * 256

/-- The power-cycle count of R10, R512. -/
def State.cycles (s : State) : BitVec 24 := BitVec.ofNat 24 (tabGet ({} : Ctr) s.nv.ctrs 1).value

/-- Milliseconds within the operating second (R10). -/
def State.opMs (s : State) : BitVec 10 := BitVec.ofNat 10 (s.clk.opNs / 1000000 % 1000)

/-- A new record of an event at this instant (R457). -/
def makeRec (s : State) (code : Nat) (items : List RItem) : Rec :=
  { seq := nextSeq s.nv.newest, code := BitVec.ofNat 16 code, rep := 1, firstS := BitVec.ofNat 32 s.opSec,
    firstMs := s.opMs, cycles := s.cycles, state := BitVec.ofNat 4 s.dev.state.code,
    lastS := BitVec.ofNat 32 s.opSec, lastMs := s.opMs, contents := encodeItems items,
    snap := [devStateReg s, BitVec.ofNat 32 s.dev.fault.toNat, devReady s, pkgStat s, bridgeStat s],
    tb := s.now }

/-- The record of a REC with one more occurrence at this instant (R460). -/
def Rec.merged (r : Rec) (s : State) : Rec :=
  { r with rep := satInc r.rep, lastS := BitVec.ofNat 32 s.opSec, lastMs := s.opMs, raw := none }

/-- Whether an occurrence merges into the newest record (R460). -/
def mergesInto (r : Rec) (code : Nat) (items : List RItem) : Bool :=
  match mergeBytes code with
  | none => false
  | some n => r.code == BitVec.ofNat 16 code && r.contents.take n == (encodeItems items).take n

/-- A new record of an event put into the record buffer. -/
def addRec (s : State) (code : Nat) (items : List RItem) : State :=
  { s with nv := { s.nv with
      buf := s.nv.buf ++ [makeRec s code items]
      newest := nextSeq s.nv.newest } }

/-- One more occurrence merged into the newest record `r` (R460): the die keeps the image of a written record until its
rewrite. -/
def mergeRec (s : State) (r : Rec) : State :=
  if (newestBuf s).isSome then { s with nv := { s.nv with buf := s.nv.buf.dropLast ++ [r.merged s] } }
  else { s with nv := { s.nv with
    recs := tabSet none (recSlot r.seq) (some (r.merged s)) s.nv.recs
    dirty := if s.nv.dirty.any fun d => d.seq == r.seq then s.nv.dirty else s.nv.dirty ++ [r] } }

/-- A new record is buffered, or lost when 32 records are unwritten (R459). -/
def newRec (s : State) (code : Nat) (items : List RItem) : State :=
  if 32 ≤ s.nv.buf.length then { s with nv := { s.nv with overflow := s.nv.overflow + 1 } }
  else raiseIrqAll (addRec s code items) 2

/-- An event is recorded: merged into the newest record, or as a new record (R459, R460); a recorded occurrence raises cause 2
of every slot (R387). -/
def record (s : State) (code : Nat) (items : List RItem) : State :=
  match (newestRec s).filter fun r => mergesInto r code items with
  | some r => raiseIrqAll (mergeRec s r) 2
  | none => newRec s code items

/-- The 128 bytes that the fields of a record spell (R457). -/
def Rec.image (r : Rec) : List Byte :=
  let b := leBytes 4 r.seq.toNat ++ leBytes 2 r.code.toNat ++ leBytes 2 r.rep.toNat ++ leBytes 4 r.firstS.toNat
    ++ leBytes 2 r.firstMs.toNat ++ leBytes 3 r.cycles.toNat ++ leBytes 1 r.state.toNat ++ leBytes 2 0
    ++ leBytes 4 r.lastS.toNat ++ leBytes 2 r.lastMs.toNat ++ leBytes 6 0
    ++ (padTo 64 r.contents).take 64 ++ (r.snap.flatMap fun w => leBytes 4 w.toNat) ++ leBytes 8 r.tb
  b ++ leBytes 4 (crc32 b)

/-- The bytes that a record reads as (R436, R457, R460). -/
def Rec.bytes (r : Rec) : List Byte := r.raw.getD r.image

/-- The `CRC` of a record verifies (R457, R461). -/
def Rec.ok (r : Rec) : Bool :=
  match r.raw with
  | some b => leAt b 124 4 == crc32 (b.take 124)
  | none => true

end Sys2Proof.Machine
end

