-- ==== Sys2Proof/Machine/Ops.lean ====
section
/-! DEFINITION. The named operations that everything uses: time, the subsystems as functions of the state,
free values, Canopy addresses and reads (R198, R211-R213), the S area, and what a step answers. -/
namespace Sys2Proof.Machine

/-! ## What a command answers -/

/-- The answer of a command that leaves the TAP and the queue as they are: `t`, with both as in `s`. The TAP
is reached only by its own rows (R528), the queue only by `step`. -/
def answer (s t : State) : Host.Outcome State Fault Refusal :=
  .next { t with pending := s.pending, tap := s.tap }

/-- The answer of a TAP command or of a power-on reset: the queue as in `s`. -/
def answerTap (s t : State) : Host.Outcome State Fault Refusal :=
  .next { t with pending := s.pending }

/-! ## Statuses (R16) -/

/-- `DONE` -/
def stDone : Nat := 0x00
/-- `ABORTED` -/
def stAborted : Nat := 0x01
/-- `ABORT_LATE` -/
def stAbortLate : Nat := 0x02
/-- `NO_DELIVERY` -/
def stNoDelivery : Nat := 0x03
/-- `RETIRED` -/
def stRetired : Nat := 0x04
/-- `TIMEOUT` -/
def stTimeout : Nat := 0x05
/-- `DENIED` -/
def stDenied : Nat := 0x06
/-- `BAD_FORM` -/
def stBadForm : Nat := 0x07
/-- `CHECK_FAIL` -/
def stCheckFail : Nat := 0x08
/-- `BUSY` -/
def stBusy : Nat := 0x09
/-- `NOT_FOUND` -/
def stNotFound : Nat := 0x0A
/-- `PROTECTED` -/
def stProtected : Nat := 0x0B
/-- `STALE` -/
def stStale : Nat := 0x0C

/-! ## Time -/

/-- The supervisory watchdog counts: enabled, not suspended, and not in board test (R58, R485, R473). -/
def wdCounts (s : State) : Bool :=
  s.wd.enabled && !s.wd.suspended && !s.tap.testEn && s.dev.state != .off && s.dev.state != .standby

/-- The state after `dt` ns: the time base while the PLL is locked (R507), operating time and the field die's own
time while the main die is powered (R511, R362), the hold limit in HOLD (R48), the watchdog count (R483). -/
def elapse (dt : Nat) (s : State) : State :=
  { s with
    clk := { s.clk with
      tb := (if s.clk.lock then (s.clk.tb + dt) % 2 ^ 64 else s.clk.tb)
      opNs := (if s.dev.state == .off || s.dev.state == .standby then s.clk.opNs else s.clk.opNs + dt) }
    dev := { s.dev with holdLeft := (if s.dev.state == .hold then s.dev.holdLeft - dt else s.dev.holdLeft) }
    wd := { s.wd with count := (if wdCounts s then s.wd.count + dt else s.wd.count) }
    fld := { s.fld with dieNs := (if s.dev.state == .off || s.dev.state == .standby then s.fld.dieNs else s.fld.dieNs + dt) } }

/-! ## Subsystems changed by a function -/

/-- The device state changed. -/
def State.onDev (s : State) (f : Dev → Dev) : State := { s with dev := f s.dev }
/-- Clocks and supplies changed. -/
def State.onClk (s : State) (f : Clk → Clk) : State := { s with clk := f s.clk }
/-- The program store changed. -/
def State.onPs (s : State) (f : PStore → PStore) : State := { s with ps := f s.ps }
/-- The lanes changed. -/
def State.onLn (s : State) (f : Lanes → Lanes) : State := { s with ln := f s.ln }
/-- The sequencer changed. -/
def State.onSeq (s : State) (f : Seq → Seq) : State := { s with seq := f s.seq }
/-- The Canopy changed. -/
def State.onCan (s : State) (f : Canopy → Canopy) : State := { s with can := f s.can }
/-- The fret engine changed. -/
def State.onFret (s : State) (f : Fret → Fret) : State := { s with fret := f s.fret }
/-- The Yelx ports and the fabric changed. -/
def State.onYl (s : State) (f : Yelx → Yelx) : State := { s with yl := f s.yl }
/-- The loop engine changed. -/
def State.onLp (s : State) (f : Loops → Loops) : State := { s with lp := f s.lp }
/-- The bridge and the field die changed. -/
def State.onFld (s : State) (f : Field → Field) : State := { s with fld := f s.fld }
/-- The CAN ports changed. -/
def State.onCb (s : State) (f : Cans → Cans) : State := { s with cb := f s.cb }
/-- The host slots changed. -/
def State.onHost (s : State) (f : Hosts → Hosts) : State := { s with host := f s.host }
/-- Packages and exchange changed. -/
def State.onPkg (s : State) (f : Pkg → Pkg) : State := { s with pkg := f s.pkg }
/-- The safety record changed. -/
def State.onSafe (s : State) (f : Safe → Safe) : State := { s with safe := f s.safe }
/-- Parameter store and recorder changed. -/
def State.onNv (s : State) (f : Nv → Nv) : State := { s with nv := f s.nv }
/-- The service core changed. -/
def State.onSvc (s : State) (f : Svc → Svc) : State := { s with svc := f s.svc }
/-- The watchdog changed. -/
def State.onWd (s : State) (f : Wd → Wd) : State := { s with wd := f s.wd }
/-- One free value has been drawn. -/
def State.drawn (s : State) : State := { s with free := s.free + 1 }

/-- `f` applied where `b` holds. -/
def State.when (s : State) (b : Bool) (f : State → State) : State := if b then f s else s

/-! ## Canopy addresses -/

/-- The areas of R198. -/
inductive Area where
  | i | q | m | s | k | g | d | h | c
  deriving DecidableEq, Repr

/-- First address of an area. -/
def Area.base : Area → Nat
  | .i => 0x10000000 | .q => 0x10020000 | .m => 0x10040000 | .s => 0x10050000 | .k => 0x10060000
  | .g => 0x10080000 | .d => 0x11000000 | .h => 0x12000000 | .c => 0x13000000

/-- Size of an area in bytes. -/
def Area.size : Area → Nat
  | .i => 0x20000 | .q => 0x20000 | .m => 0x10000 | .s => 0x4000 | .k => 0x20000
  | .g => 0x10000 | .d => 0x400000 | .h => 0x40000 | .c => 0x140000

/-- Area code of `CAN_LAST_ERR` (R218). -/
def Area.code : Area → Nat
  | .i => 1 | .q => 2 | .m => 3 | .s => 4 | .k => 5 | .g => 6 | .d => 7 | .h => 8 | .c => 9

/-- The areas. -/
def Area.all : List Area := [.i, .q, .m, .s, .k, .g, .d, .h, .c]

/-- An address lies in an area. -/
def Area.has (x : Area) (a : Nat) : Bool := decide (x.base ≤ a ∧ a < x.base + x.size)

/-- The area of a lane-visible address (R198). -/
def areaOf (a : Nat) : Option Area := Area.all.find? fun x => x.has a

/-- An area whose lines can have an owner (R200). -/
def Area.owned : Area → Bool
  | .q | .m | .k | .g | .d | .h => true
  | _ => false

/-! ## The S area -/

/-- Strikes of a lane within `PAIR_CFG.WINDOW` operating seconds before now (R212, R319). -/
def laneStrikes (s : State) (n : Nat) : Nat :=
  let w := orElse (fld (rGet s.cfg 0x0111 0) 0 12) 3600
  ((s.lane n).strikes.filter fun a => decide (s.opSec ≤ a.toNat + w)).length

/-- A station counts as admitted (R283). -/
def Sta.admitted (x : Sta) : Bool := x.state == 2 || x.state == 3

/-- A station status byte with STALE as given (R212). -/
def staByte (s : State) (k : Nat) (valid stale : Bool) : Byte :=
  if sOn s.cfg k then
    let x := s.sta k
    BitVec.ofNat 8 (b2n (x.admitted && valid) + 2 * b2n stale + 4 * b2n (x.state == 4) + 8 * b2n (x.state == 3))
  else 0

/-- A group status byte (R212); 0 for a group of kind 0 (R194). -/
def groupByte (s : State) (g : Nat) (stale : Bool) : Byte :=
  if gKind s.cfg g = 0 then 0 else BitVec.ofNat 8 (b2n stale + 2 * b2n (!(s.group g).ever))

/-- `TASK_STAT.STOPPED`: stopped by CLEARING, or no longer released under R187 (R196). -/
def TaskSt.stopped (x : TaskSt) : Bool := x.cleared || x.gstop != 0

/-- A byte of the S area as it stands now (R211-R213). BOUND and SPARE follow the role: a woken stand-in reads neither, the
lane of a setup task reads BOUND (DEDUCED, log entry 86). -/
def sByte (s : State) (o : Nat) : Byte :=
  if o < 0x100 then staByte s o (s.sta o).valid false
  else if o < 0x108 then
    let p := o - 0x100
    if pOn s.cfg p then
      BitVec.ofNat 8 (b2n (s.port p).link + 2 * b2n ((s.port p).state == 5) + 4 * b2n (pClosed s.cfg p))
    else 0
  else if 0x110 ≤ o ∧ o < 0x138 then
    let n := o - 0x110
    let x := s.lane n
    BitVec.ofNat 8 (b2n (x.role == .bound) + 2 * b2n (x.role == .spare || x.role == .spareTest)
      + 4 * b2n (x.role == .retired) + 16 * laneStrikes s n)
  else if 0x140 ≤ o ∧ o < 0x180 then
    let t := o - 0x140
    let x := s.task t
    BitVec.ofNat 8 (b2n (tEnable s.cfg t) + 2 * b2n x.late + 4 * b2n x.aged + 8 * b2n x.stopped + 16 * b2n x.excess)
  else if 0x180 ≤ o ∧ o < 0x1C0 then groupByte s (o - 0x180) ((s.group (o - 0x180)).age != 0)
  else 0

/-- The S area as (address, byte) pairs: its listed part. -/
def sArea (s : State) : Mem :=
  (List.range 0x1C0).foldl (fun m o => m.setByte (0x10050000 + o) (sByte s o)) []

/-- A Canopy byte of the current version; an unrepaired word reads 0 (R72, R217). -/
def canByte (s : State) (a : Nat) : Byte :=
  if Area.s.has a then (if s.can.bad.contains (a / 4 * 4) then 0 else sByte s (a - 0x10050000))
  else if s.can.bad.contains (a / 4 * 4) then 0 else s.can.mem.byte a

/-- Consecutive Canopy bytes of the current version. -/
def canBytes (s : State) (a n : Nat) : List Byte := (List.range n).map fun k => canByte s (a + k)

/-- A word of the current version. -/
def canWord (s : State) (a : Nat) : Word := BitVec.ofNat 32 (ofLe (canBytes s a 4))

/-! ## Which tasks a state releases -/

/-- Whether the interaction matrix releases a task in the device's state (R56); a task table whose setup task has not
completed `DONE` releases none (R60, R166; DEDUCED, log entry 24). -/
def releasable (s : State) (t : Nat) : Bool :=
  s.dev.pkgOk && tEnable s.cfg t && (match s.dev.state with
    | .run => true
    | .stop | .hold => tGuard s.cfg t
    | .clearing => tGuard s.cfg t || tBasic s.cfg t
    | _ => false)

/-- The bound lanes of a task, as physical lanes (R299). -/
def taskCarriers (s : State) (t : Nat) : List Nat := (tLanes s.cfg t).filterMap s.carrierAny

/-- Pool lines allocated now: shadow lines and retained versions (R203, R204). The setup task draws none (R210). -/
def poolUsed (s : State) : Nat :=
  s.ln.copies.foldl (fun n c => match c.2 with
    | some x => if c.1 < 256 then n + x.shadow.length else n
    | none => n) 0 + s.can.retained.length

/-- The low-water mark of `CAN_POOL` brought up to date (R218). -/
def notePool (s : State) : State :=
  s.onCan fun c => { c with low := min c.low (32768 - poolUsed s) }

/-- Unrepaired words whose lines have returned to the pool are repaired: each is recorded, with the words that are still
unrepaired after it (R217, R219). -/
def ueReturned (s : State) : List (Nat × Word) → State
  | [] => s
  | w :: r => ueReturned (record s 0x0303 [.b4 w.2.toNat, .b4 (s.ueOpen + r.length)]) r

/-- The shadow lines of copy `k` return to the pool, and their unrepaired words are repaired (R217). -/
def ueBack (s : State) (k : Nat) : State :=
  match s.copy k with
  | some c => ueReturned (s.setCopy k (some { c with ueWords := [] })) c.ueWords
  | none => s

/-- No version needs the retained one any more (R204). -/
def Retained.idle (r : Retained) : Bool := r.need.isEmpty && r.rows.isEmpty

/-- A retained version returns to the pool when nothing needs it (R204, R217). -/
def freeRetained (s : State) : State :=
  let gone := (s.can.retained.filter Retained.idle).flatMap Retained.ue
  ueReturned (s.onCan fun c => { c with retained := c.retained.filter fun r => !r.idle }) gone

/-- Task `t`'s open instance no longer needs retained versions (R204). -/
def unneed (s : State) (t : Nat) : State :=
  freeRetained (s.onCan fun c => { c with retained := c.retained.map fun r => { r with need := r.need.filter (· != t) } })

end Sys2Proof.Machine
end

