-- ==== Sys2Proof/Machine/Sched.lean ====
section
/-! DEFINITION. Placement and ends of instances (R177-R180), triggers (R168-R170), the publication of committed
bytes to the current version and to the snapshots fixed at the same instant (R175, R204), Canopy errors as they
are counted (R215, R217). -/
namespace Sys2Proof.Machine

/-- The task of a copy key: 64 is the setup task, 65 the setup task of a staged run. -/
def keyTask (k : Nat) : Nat := k / 4

/-- The configuration under which a task runs: a staged setup task writes the staged one (R407). -/
def cfgOf (s : State) (t : Nat) : Tab Word :=
  if t = 65 then (match s.pkg.exch.staged with | some x => x.1 | none => s.cfg) else s.cfg

/-- Effective priority (R165, R177). -/
def effPrio (s : State) (t : Nat) (c : Copy) : Nat :=
  if 64 ≤ t then 14 else if tGuard s.cfg t then 15 else if c.aged then 14 else tPrio s.cfg t

/-- The instance of a copy is frozen in HOLD (R45). -/
def isFrozen (s : State) (t : Nat) : Bool :=
  match s.inst t with | some i => i.frozenAt.isSome | none => false

/-- The copies ready to run on a lane. -/
def readyOn (s : State) (n : Nat) : List (Nat × Copy) :=
  s.ln.copies.filterMap fun e => match e.2 with
    | some c => if c.lane = n && c.ended.isNone && !isFrozen s (keyTask e.1) then some (e.1, c) else none
    | none => none

/-- Release instant of the instance of a task. -/
def relOf (s : State) (t : Nat) : Nat := match s.inst t with | some i => i.rel | none => 0

/-- Whether copy `x` goes before copy `y`: greater effective priority, then earlier release, then lower task (R177). -/
def goesBefore (s : State) (x y : Nat × Copy) : Bool :=
  let a := keyTask x.1
  let b := keyTask y.1
  let ea := effPrio s a x.2
  let eb := effPrio s b y.2
  decide (eb < ea) || (ea == eb && (decide (relOf s a < relOf s b) || (relOf s a == relOf s b && decide (a < b))))

/-- The copy that goes first. -/
def bestOf (s : State) : List (Nat × Copy) → Option (Nat × Copy)
  | [] => none
  | x :: r => match bestOf s r with
    | none => some x
    | some y => if goesBefore s y x then some y else some x

/-- The stations of a kind 1 group. -/
def groupStas (c : Tab Word) (g : Nat) : List Nat :=
  if gKind c g = 1 then
    ((List.range (gLast c g + 1 - gFirst c g)).map fun k => 32 * gPort c g + gFirst c g + k).filter (sOn c)
  else []

/-- Bytes written into a memory. -/
def putAll (m : Mem) (b : List (Nat × Byte)) : Mem := b.foldl (fun m e => m.setByte e.1 e.2) m

/-- The S bytes that the declared groups of an instance fix, as offsets (R174, R213). -/
def Inst.heldS (c : Tab Word) (i : Inst) : List Nat := i.groups.flatMap fun g => groupStas c g.1 ++ [0x180 + g.1]

/-- An instance released at this very instant sees the S bytes as they stand now, but for those that its declared groups
fix (R205, R213). -/
def Inst.seesS (s : State) (i : Inst) : Inst :=
  if i.rel = s.now then
    let held := i.heldS s.cfg
    let now := ((List.range 0x1C0).filter fun o => !held.contains o).map fun o => (0x10050000 + o, canByte s (0x10050000 + o))
    { i with snap := putAll i.snap now }
  else i

/-- The open instances released at this very instant see the S bytes as they stand now (R205, R213). -/
def seeS (s : State) : State :=
  s.onSeq fun q => { q with insts := q.insts.map fun e => (e.1, if e.1 < 64 ∨ 128 ≤ e.1 then e.2.map (Inst.seesS s) else e.2) }

/-- A copy becomes aged: recorded, and marked in `TASK_STAT` (R177). -/
def ageCopy (s : State) (k : Nat) (c : Copy) : State :=
  let t := keyTask k
  let s := (s.setCopy k (some { c with aged := true })).modTask t fun x => { x with aged := true }
  record (seeS s) 0x0205 [.b1 t, .b1 c.lane, .b8 (relOf s t), .b8 s.now]

/-- A copy is due to be aged now: not a guard task, not aged, not started, past its starvation bound (R177). -/
def ageDue (s : State) (k : Nat) (c : Copy) : Bool :=
  match s.inst (keyTask k) with
  | some i => decide (keyTask k < 64) && !tGuard s.cfg (keyTask k) && !c.aged && !c.started && decide (i.starveAt < s.now)
  | none => false

/-- Lane `n` carries copy `k` from now on, or none; the window copy of a copy that resumes is to be filled again (R112). -/
def setRunning (s : State) (n : Nat) (k : Option Nat) : State :=
  let s := match k with
    | some k => (match s.copy k with | some c => s.setCopy k (some { c with winFull := false }) | none => s)
    | none => s
  s.modLane n fun x => { x with running := k }

/-- A copy that issues, or that stalls at an instruction which has had no effect yet, stands at a slot boundary (R32, R89,
R207). -/
def Stall.boundary : Stall → Bool
  | .none | .quota | .tag _ => true
  | _ => false

/-- The lane stands at a boundary at which it may switch: no load shadow is open (R89). -/
def Copy.mayYield (c : Copy) : Bool := c.loads.isEmpty && c.stall.boundary

/-- The copy stands where a transition stops it: it has ended, is frozen, is stalled beyond its quota, or stands at a
permitted boundary of its lane (R43, R45, R89). -/
def Copy.mayStop (c : Copy) : Bool := c.ended.isSome || c.stall == .quota || c.mayYield

/-- Lane `n` takes the best of its ready copies: at once if it is idle, by pre-emption at a permitted boundary
if the best has the greater effective priority (R177). -/
def chooseLane (s : State) (n : Nat) : State :=
  match bestOf s (readyOn s n) with
  | none =>
    match (s.lane n).running with
    | some k => if (s.copy k).isSome && isFrozen s (keyTask k) then s else setRunning s n none
    | none => s
  | some (k, c) =>
    match (s.lane n).running with
    | none => setRunning s n (some k)
    | some r =>
      match s.copy r with
      | none => setRunning s n (some k)
      | some rc =>
        if rc.ended.isSome || rc.lane != n then setRunning s n (some k)
        else if effPrio s (keyTask r) rc < effPrio s (keyTask k) c && rc.mayYield then setRunning s n (some k)
        else s

/-- The scheduling decision of a lane, with the ageing of its unstarted copies (R177). -/
def decideLane (s : State) (n : Nat) : State :=
  chooseLane ((readyOn s n).foldl (fun s e => if ageDue s e.1 e.2 then ageCopy s e.1 e.2 else s) s) n

/-- Decisions of several lanes. -/
def decideLanes (s : State) (l : List Nat) : State := l.foldl decideLane s

/-- The copies of a task: keys and copies. -/
def copiesOf (s : State) (t : Nat) : List (Nat × Copy) :=
  [4 * t, 4 * t + 1, 4 * t + 2].filterMap fun k => (s.copy k).map fun c => (k, c)

/-- A woken spare that ran a replay goes back to SPARE, unless it stands in for a lane (R308, R312). -/
def releaseSpare (s : State) (n : Nat) : State :=
  s.modLane n fun x => if x.role == .awake && x.standsFor.isNone then { x with role := .spare } else x

/-- The copies of a task are removed; their lanes decide again. -/
def dropCopies (s : State) (t : Nat) : State :=
  let cs := copiesOf s t
  let s := match s.inst t with
    | some i => match i.phase with | .waking n _ => releaseSpare s n | _ => s
    | none => s
  let s := cs.foldl (fun s e => (ueBack s e.1).setCopy e.1 none) s
  let s := cs.foldl (fun s e =>
    let s := s.modLane e.2.lane fun x => if x.running == some e.1 then { x with running := none } else x
    if e.1 % 4 = 2 then releaseSpare s e.2.lane else s) s
  decideLanes s (cs.map fun e => e.2.lane)

/-- The registers at the start of an instance (R62). -/
def startRegs (entry : BitVec 21) (sp : Nat) : Regs :=
  { g := (Vector.replicate 16 (0 : Word)).set 15 (BitVec.ofNat 32 sp), pc := entry }

/-- A fresh copy of a task's instance on a lane. -/
def freshCopy (s : State) (t n : Nat) : Copy :=
  { lane := n, regs := startRegs (tEntry s.cfg t) (64 * (tFrame s.cfg t).2), seed := s.free }

/-- The physical lane that runs copy `role` of a task. -/
def copyLane (s : State) (t role : Nat) : Nat :=
  let x := if role = 1 then tTwin s.cfg t else tLane s.cfg t
  (s.carrierAny x).getD x

/-- The copies of a task for one instance (R62, R299). -/
def copyRoles (s : State) (t : Nat) : List Nat := if tPaired s.cfg t then [0, 1] else [0]

/-- The copies of the open instance of a task stand on their lanes (R62, R177). -/
def placeCopies (s : State) (t : Nat) : State :=
  let rs := copyRoles s t
  let lanes := rs.map (copyLane s t)
  decideLanes (rs.foldl (fun s r => (s.setCopy (4 * t + r) (some (freshCopy s t (copyLane s t r)))).drawn) s) lanes

/-- The key of a task's instance that is released while an earlier one is open still: its copies come after those of the
earlier one, whose release instant goes before it on every lane (R167, R177; log entry 55). -/
def nextKey (t : Nat) : Nat := 128 + t

/-- The instance that a task has released behind the open one becomes the open one. -/
def startNext (s : State) (t : Nat) : State :=
  match s.inst (nextKey t) with
  | some i =>
    let s := (s.setInst (nextKey t) none).setInst t (some i)
    let s := s.onCan fun c => { c with
      retained := c.retained.map fun r => { r with need := r.need.map fun u => if u = nextKey t then t else u } }
    placeCopies s t
  | none => s

/-- Whether an entry belongs to instance `i` of a task. -/
def isOf (t : Nat) (i : Option Inst) (task : Nat) (num : Word) : Bool :=
  task == t && (match i with | some i => i.num == num | none => false)

/-- A task's open instance ends, with or without commit: its copies, its snapshot and its needs go (R176, R204). -/
def endInst (s : State) (t : Nat) : State :=
  let i := s.inst t
  let s := (dropCopies s t).setInst t none
  let s := s.onSeq fun q => { q with wins := q.wins.map fun w => if isOf t i w.task w.num then { w with isOpen := false } else w }
  startNext (unneed s t) t

/-- The instance that a task has released behind the open one is discarded (R43, R50). -/
def dropNext (s : State) (t : Nat) : State :=
  match s.inst (nextKey t) with
  | some i => unneed ((s.setInst (nextKey t) none).onSeq fun q => { q with
      wins := q.wins.filter fun w => !isOf t (some i) w.task w.num
      outs := q.outs.filter fun o => !isOf t (some i) o.task o.num }) (nextKey t)
  | none => s

/-- An instance that a transition stops: it ends, and neither its window nor its output release is decided (R190). -/
def stopInst (s : State) (t : Nat) : State :=
  let s := endInst (dropNext s t) t
  s.onSeq fun q => { q with wins := q.wins.filter (·.task != t), outs := q.outs.filter (·.task != t) }

/-- The write set of the open instance of a task has passed the compare gate, or needs none and has ended (R43). -/
def hasPassed (s : State) (t : Nat) : Bool :=
  match s.inst t with | some i => i.phase == .passed | none => false

/-- A copy is discarded and leaves its lane. -/
def dropCopy (s : State) (k : Nat) (c : Copy) : State :=
  let s := ((ueBack s k).setCopy k none).modLane c.lane fun x => if x.running == some k then { x with running := none } else x
  decideLane (if k % 4 = 2 then releaseSpare s c.lane else s) c.lane

/-- A copy executes a slot or a wait that no stop may cut: its lane runs it and it stands at no permitted boundary. -/
def midSlot (s : State) (e : Nat × Copy) : Bool :=
  (s.lane e.2.lane).running == some e.1 && !isFrozen s (keyTask e.1) && !e.2.mayStop

/-- An open instance is discarded: each copy at its next permitted boundary, at once where it stands at one; from
now on neither its window nor its output release is decided (R43 step 3, R50, R89, R190). -/
def stopOpen (s : State) (t : Nat) : State :=
  if (copiesOf s t).any (midSlot s) then
    let s := ((copiesOf s t).filter fun e => !midSlot s e).foldl (fun s e => dropCopy s e.1 e.2) s
    let s := match s.inst t with | some i => s.setInst t (some { i with stopDue := true }) | none => s
    s.onSeq fun q => { q with wins := q.wins.filter (·.task != t), outs := q.outs.filter (·.task != t) }
  else stopInst s t

/-- The tasks of a list stop: every open instance that has not passed its gate is discarded (R43 step 3, R50). -/
def stopTasks (s : State) (ts : List Nat) : State :=
  ts.foldl (fun s t =>
    let s := dropNext s t
    let s := if (s.inst t).isSome && !hasPassed s t then stopOpen s t else s
    s.modTask t fun x => { x with latched := false }) s

/-- Copy `k` has come to a permitted boundary, or has ended: it goes where a stop of its instance waits for it (R43, R50,
R89). -/
def stopCopy (s : State) (k : Nat) : State :=
  match s.inst (keyTask k), s.copy k with
  | some i, some c =>
    if i.stopDue && c.mayStop then
      (if (copiesOf s (keyTask k)).length ≤ 1 then stopInst s (keyTask k) else dropCopy s k c)
    else s
  | _, _ => s

/-! ## Triggers -/

/-- A trigger of one task is raised; it is discarded while the task is not armed (R168). -/
def raiseTrigger (s : State) (t source : Nat) : State :=
  if tEnable s.cfg t && tEvent s.cfg t && (s.task t).armed then
    s.onSeq fun q => { q with trigs := q.trigs ++ [{ task := t, source := BitVec.ofNat 4 source, at_ := s.now }] }
  else s

/-- One occurrence of a source triggers every event task that selects it (R170). -/
def raiseSource (s : State) (source : Nat) (sel : Nat → Bool) : State :=
  (List.range 64).foldl (fun s t =>
    if tEnable s.cfg t && tEvent s.cfg t && tSource s.cfg t == source && sel (tArg s.cfg t) then raiseTrigger s t source
    else s) s

/-- Task states at an entry to a state: armed where the state releases them; disarmed in STOP and SETUP (R168). -/
def armTasks (s : State) : State :=
  (tAll s.cfg).foldl (fun s t =>
    if releasable s t then s.modTask t fun x => { x with armed := true }
    else if s.dev.state == .stop || s.dev.state == .setup then s.modTask t fun x => { x with armed := false, latched := false }
    else s) s

/-! ## Publication of committed bytes -/

/-- I bytes of an input group lie at an address: its stations' input bytes, or I bytes 0-7 (R172). -/
def groupHas (c : Tab Word) (g a : Nat) : Bool :=
  match gKind c g with
  | 1 => (List.range (gLast c g + 1 - gFirst c g)).any fun k =>
      let x := 32 * gPort c g + gFirst c g + k
      sOn c x && decide (sI c x ≤ a ∧ a < sI c x + sIn c x)
  | 2 => decide (0x10000000 ≤ a ∧ a < 0x10000008)
  | _ => false

/-- An instance released at this very instant sees the bytes too, apart from the I bytes of its declared
groups, which R173 fixes (R175). -/
def Inst.sees (s : State) (b : List (Nat × Byte)) (i : Inst) : Inst :=
  if i.rel = s.now then
    { i with snap := putAll i.snap (b.filter fun x => !(i.groups.any fun g => groupHas s.cfg g.1 x.1)) }
  else i

/-! ## Versions -/

/-- Commit instant of the current version of a line. -/
def lineStamp (s : State) (line : Nat) : Nat := tabGet 0 s.can.stamp line

/-- The owner code of the lines that the fret engine holds. -/
def fretOwner : Nat := 0xFE

/-- Whether a copy of the open instance of a task has written the line. -/
def hasWritten (s : State) (line t : Nat) : Bool :=
  (copiesOf s t).any fun e => (tabGet none e.2.shadow line).isSome

/-- The tasks, other than the committing one, whose open instances read the version of a line that a commit
now replaces: released at or after it was committed and before now, and not having written the line (R204). -/
def needersOf (s : State) (line : Nat) (by_ : Option Nat) : List Nat :=
  s.seq.insts.filterMap fun e => match e.2 with
    | some i =>
      if some e.1 != by_ && decide (lineStamp s line ≤ i.rel ∧ i.rel < s.now) && !hasWritten s line e.1 then some e.1 else none
    | none => none

/-- A retained entry is the current version of a line. -/
def holdsNow (s : State) (line : Nat) (r : Retained) : Bool := r.line == line && r.ver == lineStamp s line

/-- The version of a line that a commit replaces becomes a retained version if an open instance needs it; one that the fret
engine holds already is needed as well (R204). -/
def retainLine (by_ : Option Nat) (s : State) (line : Nat) : State :=
  let need := needersOf s line by_
  let owner := match ownerOf s.cfg (64 * line) with | some o => o | none => 0xFF
  let kept (r : Retained) : Bool := holdsNow s line r && r.owner == fretOwner
  s.onCan fun c =>
    { c with
      retained := (if need.isEmpty then c.retained
        else if c.retained.any kept then c.retained.map fun r => if kept r then { r with need := need } else r
        else c.retained ++ [{ line := line, owner := owner, data := c.mem.line line, need := need, rows := [], ver := lineStamp s line }])
      stamp := tabSet 0 line s.now c.stamp }

/-- The fret engine holds the current version of a line for a row: one pool line for all rows that hold it (R245). -/
def holdLine (id : BitVec 16) (s : State) (line : Nat) : State :=
  let kept (r : Retained) : Bool := holdsNow s line r && r.owner == fretOwner
  notePool (s.onCan fun c => { c with
    retained := if c.retained.any kept then c.retained.map fun r => if kept r then { r with rows := r.rows ++ [id] } else r
      else c.retained ++ [{ line := line, owner := fretOwner, data := c.mem.line line, need := [], rows := [id], ver := lineStamp s line }] })

/-- The lines that a list of bytes touches, ascending. -/
def linesOf (b : List (Nat × Byte)) : List Nat := (b.map fun e => e.1 / 64).eraseDups

/-- Bytes become the current version at this instant (R33, R175, R204). The lines of a task's write set that `by_` names are
still allocated: its instance notes the pool when it ends (R218). -/
def publish (s : State) (by_ : Option Nat) (b : List (Nat × Byte)) : State :=
  let s := (linesOf b).foldl (retainLine by_) s
  let s := s.onCan fun c => { c with mem := putAll c.mem b }
  let s := s.onSeq fun q => { q with insts := q.insts.map fun e => (e.1, e.2.map (Inst.sees s b)) }
  s.when by_.isNone notePool

/-! ## Canopy errors -/

/-- `CAN_LAST_ERR` for a word of an area (R218). -/
def areaErr (ue : Bool) (finder a : Nat) : Word :=
  match areaOf a with
  | some x => put (b2n ue) 31 1 ||| put finder 28 3 ||| put x.code 24 4 ||| put ((a - x.base) / 4 * 4) 0 22
  | none => 0

/-- `CAN_LAST_ERR` for a word of the shadow pool: which pool line holds it is not stated, so its offset is a
free value (R218). -/
def poolErr (s : State) (ue : Bool) (finder a : Nat) : Word :=
  put (b2n ue) 31 1 ||| put finder 28 3 ||| put 0xA 24 4
    ||| put (((Config.freeWord s.free).toNat % 32768) * 64 + a % 64 / 4 * 4) 0 22

/-- `CAN_LAST_ERR` of an error. -/
def errWord (s : State) (loc : ErrLoc) (ue : Bool) (finder a : Nat) : Word :=
  match loc with
  | .area => areaErr ue finder a
  | _ => poolErr s ue finder a

/-- A corrected Canopy word: counted and recorded (R215). -/
def canCorrected (s : State) (loc : ErrLoc) (finder a : Nat) : State :=
  let w := errWord s loc false finder a
  let s := (s.onCan fun c => { c with ceCount := satInc c.ceCount, lastErr := w }).drawn
  record s 0x0301 [.b4 w.toNat, .b4 s.can.ceCount.toNat]

/-- The bytes of the word that holds `a`. -/
def wordCells (a : Nat) (w : Word) : List (Nat × Byte) :=
  (List.range 4).map fun j => (a / 4 * 4 + j, byteAt (leBytes 4 w.toNat) j)

/-- The snapshots of the instances that `sel` names read a word as `w`. -/
def snapWord (s : State) (a : Nat) (w : Word) (sel : Nat → Inst → Bool) : State :=
  s.onSeq fun q => { q with insts := q.insts.map fun e => (e.1, e.2.map fun i =>
    if sel e.1 i then { i with snap := putAll i.snap (wordCells a w) } else i) }

/-- The word at `a` of a line. -/
def wordPut (a : Nat) (w : Word) (d : BitVec 512) : BitVec 512 :=
  (wordCells a w).foldl (fun d x => lineSet d (x.1 % 64) x.2) d

/-- The word at `a` of a copy's shadow line. -/
def Copy.shadowWord (c : Copy) (a : Nat) (w : Word) : Copy :=
  { c with shadow := tabMod none (a / 64) (fun l => l.map fun x => { x with data := wordPut a w x.data }) c.shadow }

/-- A retained version of the line of `a`. -/
def isVersion (a ver : Nat) (r : Retained) : Bool := r.line == a / 64 && r.ver == ver

/-- A retained version of the line of `a` changed by `f`. -/
def modVersion (s : State) (a ver : Nat) (f : Retained → Retained) : State :=
  s.onCan fun c => { c with retained := c.retained.map fun r => cond (isVersion a ver r) (f r) r }

/-- The open copies that read the word at a place read it as `w` from now on (R72, R215). -/
def locWord (s : State) (loc : ErrLoc) (a : Nat) (w : Word) : State :=
  match loc with
  | .area =>
    let s := match s.copy 256 with | some c => s.setCopy 256 (some (c.shadowWord a w)) | none => s
    snapWord s a w fun _ i => decide (tabGet 0 s.can.stamp (a / 64) ≤ i.rel)
  | .shadow k => match s.copy k with | some c => s.setCopy k (some (c.shadowWord a w)) | none => s
  | .retained v =>
    let need := (s.can.retained.filter (isVersion a v)).flatMap fun r => r.need
    let s := modVersion s a v fun r => { r with data := wordPut a w r.data }
    snapWord s a w fun t _ => need.contains t

/-- A word joins a list of unrepaired words, once. -/
def addUe (a : Nat) (w : Word) (l : List (Nat × Word)) : List (Nat × Word) :=
  if l.any fun x => x.1 == a / 4 * 4 then l else l ++ [(a / 4 * 4, w)]

/-- An uncorrectable Canopy word: counted, recorded and held as unrepaired (R217), without the reaction of R49. -/
def canUncorrected (s : State) (loc : ErrLoc) (finder a : Nat) : State :=
  let w := errWord s loc true finder a
  let s := (s.onCan fun c => { c with ueCount := satInc c.ueCount, lastErr := w }).drawn
  let owner := match ownerOf s.cfg a with | some o => o | none => 0xFF
  let task := match loc with | .shadow k => k / 4 | _ => 0xFF
  let s := record s 0x0302 ([.b4 w.toNat, .b1 owner, .b1 task] ++ (match loc with | .area => [] | _ => [.b4 (a / 64 * 64)]))
  let s := match loc with
    | .area => s.onCan fun c => { c with
        bad := if c.bad.contains (a / 4 * 4) then c.bad else c.bad ++ [a / 4 * 4]
        finders := tabSet 0 (a / 4 * 4) finder c.finders }
    | .shadow k => match s.copy k with
      | some c => s.setCopy k (some { c with ueWords := addUe a w c.ueWords })
      | none => s
    | .retained v => modVersion s a v fun r => { r with ue := addUe a w r.ue }
  locWord s loc a 0

/-- Three or more wrong bits in a word that are not found as an uncorrectable error: corrected to a wrong value, and
counted, or not found at all. The device acts on the word as it has found it, which is a free value (R215). -/
def canWrong (s : State) (loc : ErrLoc) (finder a : Nat) (counted : Bool) : State :=
  let w := Config.freeWord s.free
  let s := s.drawn.when counted fun s => canCorrected s loc finder a
  let s := match loc with
    | .area => s.onCan fun c => { c with mem := putAll c.mem (wordCells a w) }
    | _ => s
  locWord s loc a w

/-- Words of a range are repaired by a full rewrite (R217). -/
def canRepair (s : State) (has : Nat → Bool) : State :=
  (s.can.bad.filter has).foldl (fun s a =>
    let w := areaErr true (tabGet 0 s.can.finders a) a
    let s := s.onCan fun c => { c with bad := c.bad.filter (· != a), finders := tabSet 0 a 0 c.finders }
    record s 0x0303 [.b4 w.toNat, .b4 s.ueOpen]) s

/-- The bytes hold every byte of the word at `a`. -/
def wholeWord (b : List (Nat × Byte)) (a : Nat) : Bool := (List.range 4).all fun k => b.any fun x => x.1 == a + k

/-- A write set of the loop engine or of a host slot commits: a word that it writes in full is repaired (R33, R217). -/
def publishWhole (s : State) (b : List (Nat × Byte)) : State := canRepair (publish s none b) (wholeWord b)

/-- The device writes input words: a group, or the bridge, repairs each word that it writes to (R217). -/
def publishInputs (s : State) (b : List (Nat × Byte)) : State :=
  canRepair (publish s none b) fun a => b.any fun x => x.1 / 4 * 4 == a

end Sys2Proof.Machine
end

