-- ==== Sys2Proof/Machine/Operands.lean ====
section
/-! DEFINITION. The operand forms of lane instructions: prefixes and joined fields (R84-R86, R108, R131),
decode faults (R132), and the memory accesses of a copy (R64-R72, R198-R203). -/
namespace Sys2Proof.Machine

/-! ## Fault codes (R93) -/

/-- `ILLEGAL` -/
def fcIllegal : Nat := 0x01
/-- `PREFIX` -/
def fcPrefix : Nat := 0x02
/-- `EXTCOUNT` -/
def fcExtCount : Nat := 0x03
/-- `REPCONFLICT` -/
def fcRepConflict : Nat := 0x04
/-- `PRIVILEGE` -/
def fcPrivilege : Nat := 0x05
/-- `ADDRESS` -/
def fcAddress : Nat := 0x06
/-- `ALIGN` -/
def fcAlign : Nat := 0x07
/-- `SCRATCH` -/
def fcScratch : Nat := 0x08
/-- `OWNERSHIP` -/
def fcOwnership : Nat := 0x09
/-- `DIVZERO` -/
def fcDivZero : Nat := 0x0A
/-- `LOOPDEPTH` -/
def fcLoopDepth : Nat := 0x0B
/-- `PSTORE_UE` -/
def fcPstoreUe : Nat := 0x0C
/-- `PC_RANGE` -/
def fcPcRange : Nat := 0x0D

/-! ## Prefixes and joined fields -/

/-- The payloads of the `EXT` words of a unit, first word first. -/
def extPayloads (p : List Pre) : List Nat :=
  p.filterMap fun x => match x with | .ext e => some e.toNat | .rep => none

/-- Number of `EXT` words. -/
def extCount (p : List Pre) : Nat := (extPayloads p).length

/-- Number of `REP` words. -/
def repCount (p : List Pre) : Nat := p.length - extCount p

/-- A field of `f` bits joined with the payloads, high first (R85). -/
def joined (p : List Pre) (own f : Nat) : Nat :=
  (extPayloads p).foldl (fun v e => 1024 * v + e) 0 * 2 ^ f + own

/-- The joined field, zero-extended (R85). -/
def joinZ (p : List Pre) (own f : Nat) : Word := BitVec.ofNat 32 (joined p own f)

/-- The joined field, sign-extended from its top bit (R85, R108). -/
def joinS (p : List Pre) (own f : Nat) : Word := signExt (joined p own f) (f + 10 * extCount p)

/-- What decoding needs to know of an instruction: its encoding is defined, it has an extendable field, it is
repeatable, it writes RC, RS or RD (R84, R86, R106). -/
structure Dec where
  legal : Bool := true
  ext : Bool := false
  rep : Bool := false
  writesRep : Bool := false
  deriving DecidableEq, Repr

/-- An `EXT` stands before a `REP`. -/
def extBeforeRep (p : List Pre) : Bool := (p.dropWhile (· == .rep)).contains .rep

/-- The decode fault of a unit: the first that applies in the order of R132. -/
def decodeFault (d : Dec) (p : List Pre) : Option Nat :=
  if !d.legal then some fcIllegal
  else if 3 < extCount p then some fcExtCount
  else if 0 < repCount p && d.writesRep then some fcRepConflict
  else if 1 < repCount p || extBeforeRep p || (0 < extCount p && !d.ext) || (0 < repCount p && !d.rep) then some fcPrefix
  else none

/-! ## Registers -/

/-- A general register. -/
def Copy.reg (c : Copy) (r : Nat) : Word := c.regs.g.toList.getD r 0

/-- A general register written. -/
def Copy.setReg (c : Copy) (r : Nat) (v : Word) : Copy :=
  { c with regs := { c.regs with g := c.regs.g.setIfInBounds r v } }

/-- The flags written. -/
def Copy.setFl (c : Copy) (f : BitVec 5) : Copy := { c with regs := { c.regs with fl := f } }

/-- RLO written. -/
def Copy.setRlo (c : Copy) (b : Bool) : Copy := { c with regs := { c.regs with rlo := b } }

/-! ## Levels and the tables that govern a copy -/

/-- The instance of a task belongs to the new version of an exchange under way. -/
def isNew (s : State) (t : Nat) : Bool := match s.inst t with | some i => i.newVer | none => false

/-- The ownership table that governs a task's stores (R69, R407, R412). -/
def ownCfg (s : State) (t : Nat) : Tab Word :=
  if t < 64 && isNew s t then (match s.pkg.exch.run with | some (p, _) => p.cfg | none => s.cfg) else cfgOf s t

/-- The scratch frame of a task in bytes: the whole scratch for the setup task (R71, R400). -/
def frameOf (s : State) (t : Nat) : Nat × Nat :=
  if 64 ≤ t then (0, 0x10000) else (64 * (tFrame s.cfg t).1, 64 * (tFrame s.cfg t).2)

/-- A task may store to the line of an address (R67, R69, R201). -/
def mayStore (s : State) (t a : Nat) : Bool :=
  match areaOf a with
  | some x => x.owned && (match ownerOf (ownCfg s t) a with
      | some o => if 64 ≤ t then true else o == t && (x != .g || tGuard s.cfg t)
      | none => false)
  | none => false

/-- An address of lane scratch. -/
def isScratch (a : Nat) : Bool := decide (a < 0x10000)

/-- The checks of an access of `n` bytes at `a`, in the order of R70; `store` adds the ownership check. -/
def checkAccess (s : State) (t a n : Nat) (store : Bool) : Option Nat :=
  if a % n ≠ 0 then some fcAlign
  else if isScratch a then
    (if (frameOf s t).1 ≤ a ∧ a + n ≤ (frameOf s t).2 then none else some fcScratch)
  else if (areaOf a).isNone then some fcAddress
  else if store && !mayStore s t a then some fcOwnership
  else none

/-! ## Reads and writes of a copy -/

/-- The byte of the version that the instance of a task reads (R68, R175). -/
def snapByte (s : State) (t a : Nat) : Byte := match s.inst t with | some i => i.snap.byte a | none => 0

/-- The byte that a load of copy `k` returns (R68, R71). -/
def copyByte (s : State) (k : Nat) (c : Copy) (a : Nat) : Byte :=
  if isScratch a then
    match tabGet none (s.lane c.lane).scratch a with
    | some b => b
    | none => Config.staleScratch c.seed a
  else match tabGet none c.shadow (a / 64) with
    | some x => lineByte x.data (a % 64)
    | none => snapByte s (keyTask k) a

/-- The bytes that a load of copy `k` returns. -/
def copyBytes (s : State) (k : Nat) (c : Copy) (a n : Nat) : List Byte := (List.range n).map fun j => copyByte s k c (a + j)

/-- A little-endian value that a load of copy `k` returns (R8). -/
def copyValue (s : State) (k : Nat) (c : Copy) (a n : Nat) : Nat := ofLe (copyBytes s k c a n)

/-- A fresh shadow line of copy `k`: the version that a load of the line returns (R203). -/
def freshLine (s : State) (k line : Nat) : Shadow :=
  { data := match s.inst (keyTask k) with | some i => i.snap.line line | none => 0, wrote := 0 }

/-- Bytes written into a shadow line from offset `o` on. -/
def Shadow.write (x : Shadow) : Nat → List Byte → Shadow
  | _, [] => x
  | o, b :: r => ({ data := lineSet x.data o b, wrote := x.wrote ||| BitVec.ofNat 64 (2 ^ o) } : Shadow).write (o + 1) r

/-- Bytes written into lane scratch. -/
def putScratch (m : Tab (Option Byte)) : Nat → List Byte → Tab (Option Byte)
  | _, [] => m
  | a, b :: r => putScratch (tabSet none a (some b) m) (a + 1) r

/-- Bytes put into a line from offset `o` on. -/
def linePut (x : BitVec 512) : Nat → List Byte → BitVec 512
  | _, [] => x
  | o, b :: r => linePut (lineSet x o b) (o + 1) r

/-- First byte of the bit window (R64). -/
def winBase (c : Copy) : Nat := c.regs.bw.toNat / 64 * 64

/-- A write by the instance to bytes of the window updates the window copy (R113). -/
def Copy.winPut (c : Copy) (a : Nat) (b : List Byte) : Copy :=
  if a / 64 = winBase c / 64 then { c with win := linePut c.win (a % 64) b } else c

/-- `CAN_POOL.LOW` with the shadow lines that a copy has now (R218). -/
def noteShadow (s : State) (k : Nat) (c : Copy) : State :=
  if k < 256 then s.onCan fun x => { x with low := min x.low (32768 - poolUsed (s.setCopy k (some c))) } else s

/-- Copy `k` stores bytes that lie within one line: into lane scratch, or into its shadow line (R69, R203).
None: it needs a shadow line beyond its quota (R207). -/
def copyStore (s : State) (k : Nat) (c : Copy) (a : Nat) (b : List Byte) : Option (State × Copy) :=
  if isScratch a then some (s.modLane c.lane fun x => { x with scratch := putScratch x.scratch a b }, c)
  else match tabGet none c.shadow (a / 64) with
    | some x => some (s, { c.winPut a b with shadow := tabPut (a / 64) (some (x.write (a % 64) b)) c.shadow })
    | none =>
      if k < 256 && decide (tQuota (ownCfg s (keyTask k)) (keyTask k) ≤ c.shadow.length) then none
      else
        let c := { c.winPut a b with shadow := tabPut (a / 64) (some ((freshLine s k (a / 64)).write (a % 64) b)) c.shadow }
        some (noteShadow s k c, c)

/-- Bytes at consecutive addresses stored line by line. -/
def copyStoreAll (s : State) (k : Nat) (c : Copy) : List (Nat × Byte) → Option (State × Copy)
  | [] => some (s, c)
  | (a, b) :: r => match copyStore s k c a [b] with
    | some (s, c) => copyStoreAll s k c r
    | none => none

/-- The byte and the bit that a joined bit index addresses (R110). -/
def bitPlace (c : Copy) (n : Word) : Nat × Fin 8 :=
  ((winBase c + n.toNat / 8) % 2 ^ 32, ⟨n.toNat % 8, Nat.mod_lt _ (by decide)⟩)

/-- Appends to the item stream of R303. -/
def Copy.item (c : Copy) (b : List Byte) : Copy := { c with items := c.items ++ b }

end Sys2Proof.Machine
end

