-- ==== Sys2Proof/Machine/LaneCore.lean ====
section
/-! DEFINITION. How a unit acts on its copy: flow of control and loop levels (R135-R147), load shadows
(R73-R77), repeated elements (R122, R148-R150), bit accesses (R109-R113), CRC steps (R151-R153) and
special registers (R127). -/
namespace Sys2Proof.Machine

/-- Where a unit leads. -/
inductive Flow where
  /-- to the next unit, after any loop end -/
  | seq
  /-- a taken branch, `BR` or `RET`: levels are abandoned (R144) -/
  | jump (t : BitVec 21)
  /-- `CALL`, `CALLR`: no level is abandoned -/
  | call (t : BitVec 21)
  /-- `LEAVE` with a level active -/
  | leave
  /-- `LOOP`: target, and for an entered body its end and count -/
  | loop (t : BitVec 21) (body : Option (BitVec 21 × Word))
  /-- a repeated unit with elements still to run -/
  | again
  /-- a bit unit that waits for the fill of the window copy -/
  | window (b : PendBit)
  /-- a bit unit outside the window copy that waits as a byte load does -/
  | bit (b : PendBit)
  /-- a store beyond the shadow quota (R207) -/
  | quota
  /-- a request that finds no free tag (R32) -/
  | tag (reserved : Bool)
  | halt
  | fault (code : Nat)
  deriving DecidableEq, Repr

/-- What a unit's own operation leaves. -/
structure Res where
  s : State
  c : Copy
  flow : Flow := .seq
  load : Option PendLoad := none

/-- An operation on the registers alone. -/
def pureUnit (f : Copy → Copy) (s : State) (_ : Nat) (c : Copy) : Res := { s := s, c := f c }

/-- An operation that only transfers control. -/
def flowUnit (f : Copy → Flow) (s : State) (_ : Nat) (c : Copy) : Res := { s := s, c := c, flow := f c }

/-! ## Loop levels -/

/-- LS of a level. -/
def Regs.lsAt (r : Regs) (k : Nat) : BitVec 21 := r.ls.toList.getD k 0
/-- LE of a level. -/
def Regs.leAt (r : Regs) (k : Nat) : BitVec 21 := r.le.toList.getD k 0
/-- LC of a level. -/
def Regs.lcAt (r : Regs) (k : Nat) : Word := r.lc.toList.getD k 0

/-- The loop depth set. -/
def Regs.atDepth (r : Regs) (k : Nat) : Regs := { r with depth := Fin.ofNat 5 k }

/-- The loop end of the innermost level, and of those that share its end word (R142, R143), for a unit of `n`
words that begins at `first`. -/
def loopEnd : Nat → BitVec 21 → Nat → Regs → Regs
  | 0, _, _, r => r
  | f + 1, first, n, r =>
    if r.depth.val = 0 then r
    else
      let k := r.depth.val - 1
      if (r.leAt k - first).toNat < n then
        if r.lcAt k ≤ 1 then loopEnd f first n (r.atDepth k)
        else { r with lc := r.lc.setIfInBounds k (r.lcAt k - 1), pc := r.lsAt k }
      else r

/-- A word address lies in the body of a level. -/
def Regs.inBody (r : Regs) (k : Nat) (a : BitVec 21) : Bool := decide (r.lsAt k ≤ a ∧ a ≤ r.leAt k)

/-- Levels abandoned by a transfer from `a` to `t` (R144). -/
def abandon : Nat → BitVec 21 → BitVec 21 → Regs → Regs
  | 0, _, _, r => r
  | f + 1, a, t, r =>
    if r.depth.val = 0 then r
    else
      let k := r.depth.val - 1
      if r.inBody k a && !r.inBody k t then abandon f a t (r.atDepth k) else r

/-- A level opened at the present depth (R141). -/
def Regs.open_ (r : Regs) (start last : BitVec 21) (count : Word) : Regs :=
  let d := r.depth.val
  { r with
    ls := r.ls.setIfInBounds d start
    le := r.le.setIfInBounds d last
    lc := r.lc.setIfInBounds d count
    depth := Fin.ofNat 5 (min 4 (d + 1)) }

/-- The registers after a completed unit of `n` words at `first`, by its flow (R137-R147). -/
def Regs.go (r : Regs) (first : BitVec 21) (n : Nat) (f : Flow) : Regs :=
  let own := first + BitVec.ofNat 21 (n - 1)
  let next := first + BitVec.ofNat 21 n
  match f with
  | .seq => loopEnd 5 first n { r with pc := next }
  | .jump t => { abandon 5 own t r with pc := t }
  | .call t => { r with pc := t }
  | .leave => { r.atDepth (r.depth.val - 1) with pc := r.leAt (r.depth.val - 1) + 1 }
  | .loop t b =>
    let r := { abandon 5 own t r with pc := t }
    match b with
    | some (e, cnt) => r.open_ t e cnt
    | none => r
  | .halt => { r.atDepth 0 with pc := next }
  | .again | .window _ | .bit _ | .quota | .tag _ | .fault _ => r

/-! ## Load shadows -/

/-- One slot of every load shadow passes; values whose shadow ends now and that have arrived are written (R73, R74). -/
def tickLoads (c : Copy) : Copy :=
  let ls := c.loads.map fun l => { l with left := l.left - 1 }
  let c := ls.foldl (fun c l => if l.left = 0 && l.arrived then c.setReg l.dst.toNat l.val else c) c
  let rest := ls.filter fun l => !(l.left == 0 && l.arrived)
  { c with loads := rest, stall := if rest.any (fun l => l.left == 0) then .load else .none }

/-- A load issued by the unit joins the shadows. -/
def addLoad (c : Copy) (l : Option PendLoad) : Copy :=
  match l with | some l => { c with loads := c.loads ++ [l] } | none => c

/-- Whether a flow ends the slot of its unit. -/
def Flow.completes : Flow → Bool
  | .again | .window _ | .bit _ | .quota | .tag _ | .fault _ => false
  | _ => true

/-- The copy after a unit's operation: control, load shadows (R73-R77), stalls. -/
def Res.after (x : Res) (first : BitVec 21) (n : Nat) : Copy :=
  match x.flow with
  | .window b => { x.c with stall := .window b }
  | .bit b => { x.c with stall := .bit b }
  | .quota => { x.c with stall := .quota }
  | .tag r => { x.c with stall := .tag r }
  | .halt => { x.c with regs := x.c.regs.go first n .halt, loads := [] }
  | f => if f.completes then addLoad (tickLoads { x.c with regs := x.c.regs.go first n f }) x.load else x.c

/-! ## Repeated elements -/

/-- What one element of a string or CRC instruction leaves. -/
inductive Elem where
  | ok (s : State) (c : Copy)
  | fault (code : Nat)
  | quota

/-- RC counted down. -/
def Copy.rcDown (c : Copy) : Copy := { c with regs := { c.regs with rc := c.regs.rc - 1 } }

/-- At most `n` elements while RC is not 0 (R148, R149). -/
def repeatUnit (f : State → Nat → Copy → Elem) (k : Nat) : Nat → State → Copy → Res
  | 0, s, c => { s := s, c := c, flow := if c.regs.rc = 0 then .seq else .again }
  | n + 1, s, c =>
    if c.regs.rc = 0 then { s := s, c := c }
    else match f s k c with
      | .ok s c => repeatUnit f k n s c.rcDown
      | .fault x => { s := s, c := c, flow := .fault x }
      | .quota => { s := s, c := c, flow := .quota }

/-- A string or CRC unit: one element, or the elements of its `REP` (R122, R148). -/
def elemUnit (p : List Pre) (run : Nat) (f : State → Nat → Copy → Elem) (s : State) (k : Nat) (c : Copy) : Res :=
  if repCount p = 0 then
    match f s k c with
    | .ok s c => { s := s, c := c }
    | .fault x => { s := s, c := c, flow := .fault x }
    | .quota => { s := s, c := c, flow := .quota }
  else repeatUnit f k run s c

/-- RS and RD advanced. -/
def Copy.advance (c : Copy) (rs rd : Nat) : Copy :=
  { c with regs := { c.regs with rs := c.regs.rs + BitVec.ofNat 32 rs, rd := c.regs.rd + BitVec.ofNat 32 rd } }

/-- One element of `MOVSB`, `MOVSH` or `MOVSW` with units of `n` bytes (R121, R122). -/
def movsElem (n : Nat) (s : State) (k : Nat) (c : Copy) : Elem :=
  let t := keyTask k
  match checkAccess s t c.regs.rs.toNat n false with
  | some x => .fault x
  | none => match checkAccess s t c.regs.rd.toNat n true with
    | some x => .fault x
    | none => match copyStore s k c c.regs.rd.toNat (copyBytes s k c c.regs.rs.toNat n) with
      | some (s, c) => .ok s (c.advance n n)
      | none => .quota

/-- One element of `FILLW` (R121). -/
def fillElem (g : Nat) (s : State) (k : Nat) (c : Copy) : Elem :=
  match checkAccess s (keyTask k) c.regs.rd.toNat 4 true with
  | some x => .fault x
  | none => match copyStore s k c c.regs.rd.toNat (leBytes 4 (c.reg g).toNat) with
    | some (s, c) => .ok s (c.advance 0 4)
    | none => .quota

/-! ## CRC -/

/-- W of CM (R151). -/
def crcWidth (cm : Word) : Nat := fld cm 0 5 + 1

/-- One CRC step over a unit of `u` bits (R152). -/
def crcStep (c : Copy) (data u : Nat) : Copy :=
  let cm := c.regs.cm
  let w := crcWidth cm
  let d := if wbit cm 9 then revBits u data else data
  { c with regs := { c.regs with ca := BitVec.ofNat 32 (crcUnit w c.regs.cp.toNat u d c.regs.ca.toNat) } }

/-- `CRCI` (R153). -/
def crcInit (c : Copy) : Copy :=
  { c with regs := { c.regs with ca := if wbit c.regs.cm 8 then BitVec.ofNat 32 (2 ^ crcWidth c.regs.cm - 1) else 0 } }

/-- The result of `CRCF` (R153). -/
def crcFinal (c : Copy) : Word :=
  let w := crcWidth c.regs.cm
  let v := c.regs.ca.toNat % 2 ^ w
  let v := if wbit c.regs.cm 10 then revBits w v else v
  BitVec.ofNat 32 (if wbit c.regs.cm 11 then 2 ^ w - 1 - v else v)

/-- One element of `CRCMB`, `CRCMH` or `CRCMW` with units of `n` bytes (R154). -/
def crcmElem (n : Nat) (s : State) (k : Nat) (c : Copy) : Elem :=
  match checkAccess s (keyTask k) c.regs.rs.toNat n false with
  | some x => .fault x
  | none => .ok s ((crcStep c (copyValue s k c c.regs.rs.toNat n) (8 * n)).advance n 0)

/-! ## Bit accesses -/

/-- The effect of bit operation `op` of R109 on the bit of a byte that reads `v`: RLO, and the byte to be written. -/
def bitEffect (op : BitVec 3) (rlo : Bool) (v : Byte) (b : Fin 8) : Bool × Option Byte :=
  let x := v.getLsbD b.val
  let one : Byte := v ||| BitVec.ofNat 8 (2 ^ b.val)
  let zero : Byte := v &&& ~~~ BitVec.ofNat 8 (2 ^ b.val)
  match op.toNat with
  | 0 => (x, none)
  | 1 => (!x, none)
  | 2 => (rlo && x, none)
  | 3 => (rlo && !x, none)
  | 4 => (rlo || x, none)
  | 5 => (rlo, some (if rlo then one else zero))
  | 6 => (rlo, if rlo then some one else none)
  | _ => (rlo, if rlo then some zero else none)

/-- The byte that a bit access reads: of the window copy where it is filled from the Canopy, else as a byte load (R112,
R113). -/
def bitByte (s : State) (k : Nat) (c : Copy) (a : Nat) : Byte :=
  if !isScratch a && c.winFull && a / 64 == winBase c / 64 then lineByte c.win (a % 64) else copyByte s k c a

/-- The access of a bit operation, its checks made (R65). -/
def bitAct (s : State) (k : Nat) (c : Copy) (op : BitVec 3) (a : Nat) (b : Fin 8) : Res :=
  let (r, w) := bitEffect op c.regs.rlo (bitByte s k c a) b
  match w with
  | none => { s := s, c := c.setRlo r }
  | some v => match copyStore s k c a [v] with
    | some (s, c) => { s := s, c := c.setRlo r }
    | none => { s := s, c := c, flow := .quota }

/-- A unit of class 00: the checks of the byte, the fill of the window copy, the access; a Canopy byte outside the
window copy is waited for as a byte load is (R109-R113). -/
def bitUnit (op : BitVec 3) (p : List Pre) (n : BitVec 9) (s : State) (k : Nat) (c : Copy) : Res :=
  let (a, b) := bitPlace c (joinZ p n.toNat 9)
  match checkAccess s (keyTask k) a 1 (decide (5 ≤ op.toNat)) with
  | some x => { s := s, c := c, flow := .fault x }
  | none =>
    let wait : PendBit := { op := op, addr := BitVec.ofNat 32 a, bit := b, words := p.length + 1 }
    if isScratch a then bitAct s k { c with winFull := c.winFull || a / 64 == winBase c / 64 } op a b
    else if a / 64 != winBase c / 64 then { s := s, c := c, flow := .bit wait }
    else if c.winFull then bitAct s k c op a b
    else { s := s, c := c, flow := .window wait }

/-! ## Loads and stores -/

/-- A load of `n` bytes into `d` from `gb` plus the joined offset (R125, R126). -/
def loadUnit (p : List Pre) (d b : BitVec 4) (n : Nat) (signed : Bool) (s : State) (k : Nat) (c : Copy) : Res :=
  let a := c.reg b.toNat + joinS p 0 0
  match checkAccess s (keyTask k) a.toNat n false with
  | some x => { s := s, c := c, flow := .fault x }
  | none =>
    let v := copyValue s k c a.toNat n
    let w := if signed then signExt v (8 * n) else BitVec.ofNat 32 v
    { s := s, c := c, load := some { dst := d, val := w, addr := a, left := 2, arrived := isScratch a.toNat, size := n, signed := signed } }

/-- A store of `n` bytes of `gs` (R125). -/
def storeUnit (p : List Pre) (g b : BitVec 4) (n : Nat) (s : State) (k : Nat) (c : Copy) : Res :=
  let a := c.reg b.toNat + joinS p 0 0
  match checkAccess s (keyTask k) a.toNat n true with
  | some x => { s := s, c := c, flow := .fault x }
  | none => match copyStore s k c a.toNat (leBytes n (c.reg g.toNat).toNat) with
    | some (s, c) => { s := s, c := c }
    | none => { s := s, c := c, flow := .quota }

/-! ## Special registers -/

/-- A special-register number of R127 is assigned. -/
def srLegal (n : BitVec 5) : Bool := srNamed n

/-- `MFS` (R127). -/
def srRead (r : Regs) (n : BitVec 5) : Word :=
  match n.toNat with
  | 0 => b2w r.rlo
  | 1 => r.fl.setWidth 32
  | 2 => r.bw
  | 3 => r.rc
  | 4 => r.rs
  | 5 => r.rd
  | 6 => r.cp
  | 7 => r.ca
  | 8 => r.cm
  | m =>
    if m < 0x14 then (r.lsAt (m - 0x10)).setWidth 32
    else if m < 0x18 then (r.leAt (m - 0x14)).setWidth 32
    else r.lcAt (m - 0x18)

/-- `MTS` on the registers (R127, R151). -/
def srWrite (r : Regs) (n : BitVec 5) (v : Word) : Regs :=
  match n.toNat with
  | 0 => { r with rlo := wbit v 0 }
  | 1 => { r with fl := v.setWidth 5 }
  | 2 => { r with bw := v }
  | 3 => { r with rc := v }
  | 4 => { r with rs := v }
  | 5 => { r with rd := v }
  | 6 => { r with cp := v }
  | 7 => { r with ca := v }
  | 8 => { r with cm := v &&& 0x00000F1F }
  | m =>
    if m < 0x14 then { r with ls := r.ls.setIfInBounds (m - 0x10) (v.setWidth 21) }
    else if m < 0x18 then { r with le := r.le.setIfInBounds (m - 0x14) (v.setWidth 21) }
    else { r with lc := r.lc.setIfInBounds (m - 0x18) v }

/-- `MTS`; a write of BW has the window copy filled anew (R112). -/
def mtsOn (n : BitVec 5) (g : Nat) (c : Copy) : Copy :=
  { c with
    regs := srWrite c.regs n (c.reg g)
    winFull := c.winFull && n != 2 }

end Sys2Proof.Machine
end

