-- ==== Sys2Proof/Machine/Fabric.lean ====
section
/-! DEFINITION. The tags of the transaction fabric (R31, R32, R274). -/
namespace Sys2Proof.Machine

/-- The tag that a request holds. -/
def TagSt.held : TagSt → List Nat
  | .has g => [g]
  | _ => []

/-- The request goes ahead: it waits for no tag. -/
def TagSt.ready : TagSt → Bool
  | .wait _ => false
  | _ => true

/-- Tags in use: of frames of the ports, of deliveries and SAFE frames on the bridge, and of requests to the parameter
store (R31). -/
def tagsUsed (s : State) : List Nat :=
  s.yl.trans.map (·.tag) ++ s.yl.waits.flatMap (·.tag.held) ++ s.fld.safeTag.held ++ s.fld.changeQ.flatMap (·.tag.held)
    ++ s.nv.userW.flatMap (·.tag.held) ++ s.nv.incW.flatMap (·.2.held)

/-- The free tags of a range (R32). -/
def freeTags (s : State) (reserved : Bool) : List Nat :=
  let u := tagsUsed s
  ((List.range 512).filter fun t => decide (480 ≤ t) == reserved).filter fun t => !u.contains t

/-- A request draws a tag, any one of the free tags of its range, or waits for one (R31, R32). -/
def drawTag (s : State) (reserved : Bool) : State × TagSt :=
  let l := freeTags s reserved
  if l.isEmpty then (s.onYl fun y => { y with waitCount := satInc y.waitCount }, .wait reserved)
  else (s.drawn.onYl fun y => { y with peak := max y.peak ((tagsUsed s).length + 1) },
    .has (l.getD ((Config.freeWord s.free).toNat % l.length) 0))

/-- Requests complete with a status: the tags that they held are free, and each remembers its last status (R16, R31). -/
def endTags (s : State) (l : List TagSt) (st : Nat) : State :=
  s.onYl fun y => { y with ended := (l.flatMap TagSt.held).foldl (fun m g => tabSet none g (some st) m) y.ended }

/-- A request that is issued and completes within one step holds a tag for that step alone. -/
def passTag (s : State) (reserved : Bool) (st : Nat) : State :=
  let (s, g) := drawTag s reserved
  endTags s [g] st

/-- Transactions that `sel` names end with a status, and with them the frames of theirs that have not started; their tags
are free (R31). -/
def endTrans (s : State) (sel : Trans → Bool) (st : Nat) : State :=
  let gone := s.yl.trans.filter sel
  s.onYl fun y => { y with
    trans := y.trans.filter fun t => !sel t
    plan := y.plan.filter fun d => !(gone.any fun t => some (BitVec.ofNat 9 t.tag) == d.frame.tag)
    ended := gone.foldl (fun m t => tabSet none t.tag (some st) m) y.ended }

/-- Frames that wait, and that `sel` names, end with a status (R31). -/
def endWaits (s : State) (sel : YWait → Bool) (st : Nat) : State :=
  let gone := s.yl.waits.filter sel
  endTags (s.onYl fun y => { y with waits := y.waits.filter fun w => !sel w }) (gone.map (·.tag)) st

/-- A request that waits can draw its tag now. -/
def TagSt.grantable (t : TagSt) (s : State) : Bool :=
  match t with | .wait r => !(freeTags s r).isEmpty | _ => false

/-- The range of the tags of a task's requests (R32). -/
def taskTags (c : Tab Word) (t : Nat) : Bool := decide (t < 64) && tGuard c t

end Sys2Proof.Machine
end

