-- ==== Sys2Proof/Machine/FretMath.lean ====
section
/-! DEFINITION. Positions, velocities, interpolation and projection of a shaft (R221, R225-R228, R236), and the
reading of a fret entry (R233). Times are ns, v and a are in au/us and au/us^2. -/
namespace Sys2Proof.Machine

/-- The angle of count k in au (R221). -/
def countAngle (n k : Nat) : Nat := k * 2 ^ 24 / n

/-- The 40-bit position of a shaft's anchor (R9, R221). -/
def anchorPos (c : Tab Word) (sh : Nat) (x : Shaft) : Nat :=
  x.rev.toNat * 2 ^ 24 + countAngle (max 1 (shN c sh)) x.cnt

/-- ns as us. -/
def usOf (ns : Int) : Rat := (ns : Rat) / 1000

/-- A velocity or acceleration as fixed point with `f` fractional bits; between two values the choice is free (R253, R258). -/
def fixedOf (q : Rat) (f : Nat) : Word :=
  let x := q * ((2 ^ f : Nat) : Rat)
  BitVec.ofInt 32 (if (x.floor : Rat) = x then x.floor else if Config.roundUp x then x.floor + 1 else x.floor)

/-- The distance to the next count position beyond the anchor, forward and in reverse (R227). -/
def countSpan (c : Tab Word) (sh : Nat) (x : Shaft) (fwd : Bool) : Nat :=
  let n := max 1 (shN c sh)
  if fwd then countAngle n (x.cnt + 1) - countAngle n x.cnt
  else if x.cnt = 0 then 2 ^ 24 - countAngle n (n - 1) else countAngle n x.cnt - countAngle n (x.cnt - 1)

/-- The interpolated position at instant t, rounded towards the anchor and held short of the next count (R227). -/
def interpPos (c : Tab Word) (sh : Nat) (x : Shaft) (t : Nat) : Nat :=
  let u := usOf ((t : Int) - (x.t1 : Int))
  let q := x.v * u + x.acc * u * u / 2
  let fwd := decide (0 ≤ q)
  let m : Int := (if fwd then q else -q).floor
  let lim : Int := (countSpan c sh x fwd : Int) - 1
  let m := if m < lim then m else lim
  let m := if m < 0 then 0 else m
  (((anchorPos c sh x : Int) + (if fwd then m else -m)) % (2 ^ 40 : Int)).toNat

/-- Whether the projected motion has reached distance `d` > 0 after `n` ns: v n + a n^2 / 2 >= d. -/
def reached (v a d : Rat) (n : Nat) : Bool := decide (d ≤ v * usOf n + a * usOf n * usOf n / 2)

/-- The least n in [lo, hi] at which `f` holds, for an `f` that stays true once it is true. -/
def leastIn (f : Nat → Bool) : Nat → Nat → Nat → Nat
  | 0, _, hi => hi
  | k + 1, lo, hi =>
    if hi ≤ lo then hi
    else
      let m := (lo + hi) / 2
      if f m then leastIn f k lo m else leastIn f k (m + 1) hi

/-- ns from the anchor to the projected crossing of a distance d > 0 in the direction of positive v (R228). -/
def projectFwd (v a d : Rat) : Option Nat :=
  let top : Nat := 2 ^ 62
  if a = 0 then (if v ≤ 0 then none else some ((1000 * d / v).ceil.toNat))
  else if a < 0 then
    if v ≤ 0 then none
    else
      let vert := (1000 * (-v / a)).floor.toNat
      if reached v a d vert then some (leastIn (reached v a d) 64 0 vert)
      else if reached v a d (vert + 1) then some (vert + 1) else none
  else
    let start := if v < 0 then (1000 * (-v / a)).ceil.toNat else 0
    some (leastIn (reached v a d) 64 start top)

/-- The projected crossing instant of a signed distance from the anchor, in whole ns; none: infinite (R228). -/
def projectInstant (x : Shaft) (d : Int) : Option Nat :=
  if d = 0 then some x.t1
  else if 0 < d then (projectFwd x.v x.acc d).map (x.t1 + ·)
  else (projectFwd (-x.v) (-x.acc) (-d)).map (x.t1 + ·)

/-- The distance of R236 at a position: signed 40 bits, or signed 24 bits for a REPEAT entry. -/
def FretE.dist (e : FretE) (pos : Nat) : Int :=
  if e.repeats then toSigned (pos % 2 ^ 24 + 2 ^ 24 - e.target.toNat % 2 ^ 24) 24
  else toSigned (pos + 2 ^ 40 - e.target.toNat) 40

/-- The projected crossing instant of an entry's target. -/
def FretE.projected (c : Tab Word) (x : Shaft) (e : FretE) : Option Nat :=
  projectInstant x (-(e.dist (anchorPos c e.shaft.val x)))

/-- d lies on the entry's approach side (R236). -/
def FretE.approach (e : FretE) (d : Int) : Bool :=
  match e.dir.toNat with
  | 0 => decide (d < 0)
  | 1 => decide (0 < d)
  | _ => d != 0

/-- The entry's approach side is d < 0. -/
def FretE.fromBelow (e : FretE) : Bool :=
  match e.dir.toNat with | 0 => true | 1 => false | _ => e.sideNeg

/-- A change of distance between two evaluations is no wrap of the signed angle (R238). -/
def FretE.near (e : FretE) (d0 d1 : Int) : Bool :=
  !e.repeats || decide ((d1 - d0).natAbs < 2 ^ 23)

/-- The change of d from d0 to d1 is a crossing of the entry (R238). -/
def FretE.crosses (e : FretE) (d0 d1 : Int) : Bool :=
  e.near d0 d1 && (if e.fromBelow then decide (d0 < 0) && decide (0 ≤ d1) else decide (0 < d0) && decide (d1 ≤ 0))

/-- The change of d is a crossing in the direction opposite to the approach side (R238). -/
def FretE.crossesBack (e : FretE) (d0 d1 : Int) : Bool :=
  e.near d0 d1 && (if e.fromBelow then decide (0 < d0) && decide (d1 ≤ 0) else decide (d0 < 0) && decide (0 ≤ d1))

/-- d lies on the approach side by at least the hysteresis (R239). -/
def FretE.rearms (e : FretE) (h d : Int) : Bool :=
  match e.dir.toNat with
  | 0 => decide (d ≤ -h)
  | 1 => decide (h ≤ d)
  | _ => decide (h ≤ (d.natAbs : Int))

/-- A 16-byte fret entry read field by field (R233). -/
def fretOf (task : Nat) (b : List Byte) : FretE :=
  let b5 := (byteAt b 5).toNat
  let b6 := (byteAt b 6).toNat
  { task := task, target := BitVec.ofNat 40 (leAt b 0 5), dir := BitVec.ofNat 2 (b5 / 64),
    shaft := ⟨b5 / 16 % 4, Nat.mod_lt _ (by decide)⟩, kind := BitVec.ofNat 4 b5, lateFire := decide (b6 / 2 % 2 = 1),
    repeats := decide (b6 % 2 = 1), sub := byteAt b 7, key := wordAt b 8, word := wordAt b 12 }

/-- `SHAFT_STATn` (R258). -/
def shaftStat (s : State) (n : Nat) : Word :=
  let x := s.shaft n
  let va : Rat := if x.v < 0 then -x.v else x.v
  let rpm := (va * 60000000 / 16777216).floor.toNat
  let strikes := (x.strikes.filter fun t => decide (s.op ≤ t + 60000000000)).length
  put (b2n (shOn s.cfg n && s.dev.state != .setup)) 31 1 ||| put (b2n x.referenced) 30 1 ||| put (b2n x.fault) 29 1
  ||| put (b2n x.stopped) 28 1 ||| put (b2n x.backward) 27 1 ||| put (b2n x.wire) 26 1 ||| put (min strikes 3) 24 2
  ||| put (min rpm 0xFFFF) 0 16

/-- The interpolated position now; in shaft fault the position holds (R223). -/
def shaftPos (s : State) (n : Nat) : Nat :=
  let x := s.shaft n
  if x.fault then x.holdPos else interpPos s.cfg n x s.now

/-- A configured shaft is at or above its creep speed, or in shaft fault (R44, R224). -/
def atCreep (s : State) (n : Nat) : Bool :=
  let x := s.shaft n
  let va : Rat := if x.v < 0 then -x.v else x.v
  shOn s.cfg n && (x.fault || decide ((fld (rGet s.cfg 0x0013 0) 16 10 : Rat) ≤ va * 60000000 / 16777216))

end Sys2Proof.Machine
end

