-- ==== Sys2Proof/Machine/OutOps.lean ====
section
/-! DEFINITION. How outputs go safe and come back: SAFE bridge frames (R43, R50, R354, R355), ADM SAFE and ADM
RELEASE ranges (R281, R286), CAN frames that are dropped, and the work of rows that go. -/
namespace Sys2Proof.Machine

/-- The port at which a line's stations are configured: the even one of a closed line (R287). -/
def homePort (c : Tab Word) (p : Nat) : Nat := if pClosed c p then p / 2 * 2 else p

/-- The other port of a pair. -/
def pairPort (p : Nat) : Nat := if p % 2 = 0 then p + 1 else p - 1

/-- The best state of the ports of a line (R280): 4 UP, 3 ADMITTING, else no link. -/
def lineState (s : State) (p : Nat) : Nat :=
  let st (q : Nat) : Nat := (s.port q).state.toNat
  if st p == 4 || (pClosed s.cfg p && st (pairPort p) == 4) then 4
  else if st p == 3 || (pClosed s.cfg p && st (pairPort p) == 3) then 3
  else 0

/-- A port of the line has link. -/
def lineLinked (s : State) (p : Nat) : Bool := (s.port p).link || (pClosed s.cfg p && (s.port (pairPort p)).link)

/-- A Q byte as the bridge and the ports present it: of a task's range as at its last output release, of any
other range the current version (R183). -/
def shownByte (s : State) (a : Nat) : Byte :=
  match ownerOf s.cfg a with
  | some o => if o < 64 && !s.can.bad.contains (a / 4 * 4) then s.seq.shown.byte a else canByte s a
  | none => canByte s a

/-- Consecutive presented bytes. -/
def shownBytes (s : State) (a n : Nat) : List Byte := (List.range n).map fun k => shownByte s (a + k)

/-- A presented word. -/
def shownWord (s : State) (a : Nat) : Word := BitVec.ofNat 32 (ofLe (shownBytes s a 4))

/-- A set of channels as a word. -/
def chanMask (sel : Nat → Bool) : Word :=
  (List.range 32).foldl (fun m k => if sel k then setBit m k true else m) 0

/-- The non-guard channels in use. -/
def nonGuardMask (c : Tab Word) : Word := chanMask fun k => chMode (fCfg c k) != 0 && !chGuard (fCfg c k)
/-- The guard channels. -/
def guardMask (c : Tab Word) : Word := chanMask fun k => chGuard (fCfg c k)

/-- The owner of Q bytes 0-7, which the non-guard channels follow (R354). -/
def fieldOwner (c : Tab Word) : Option Nat := ownerOf c 0x10020000
/-- The owner of the guard source (R354). -/
def guardOwner (c : Tab Word) : Option Nat := ownerOf c (rGet c 0x0703 0).toNat

/-- Half `h` of a mask of channels. -/
def halfMask (m : Word) (h : Bool) : BitVec 16 := BitVec.ofNat 16 (m.toNat >>> (if h then 16 else 0))

/-- A SAFE bridge frame falls due for the channels of a mask, with a reserved tag; changes of those channels that wait are
withdrawn (R32, R43, R243). -/
def safeFrame (s : State) (m : Word) : State :=
  let strip (c : Change) : Change := { c with mask := c.mask &&& ~~~ (halfMask m c.half) }
  let (s, g) := if s.fld.safeDue.isSome then (s, s.fld.safeTag) else drawTag s true
  let (kept, gone) := (s.fld.changeQ.map strip).partition fun c => c.mask != 0
  endTags (s.onFld fun f => { f with
    safeDue := some (f.safeDue.getD 0 ||| m)
    safeTag := g
    startDue := true
    changeQ := kept }) (gone.map (·.tag)) stAborted

/-- The parts of a station's Q bytes that lie in lines whose owner `sel` names, as (offset, length) (R281). -/
def staRanges (c : Tab Word) (k : Nat) (sel : Option Nat → Bool) : List (Nat × Nat) :=
  let lo := sQ c k
  let hi := lo + sOut c k
  let segs := (List.range (hi / 64 + 1 - lo / 64)).filterMap fun j =>
    let a := max lo (64 * (lo / 64 + j))
    let b := min hi (64 * (lo / 64 + j) + 64)
    if a < b && sel (ownerOf c a) then some (a - lo, b - a) else none
  segs.foldl (fun acc r => match acc.getLast? with
    | some (o, n) => if o + n = r.1 then acc.dropLast ++ [(o, n + r.2)] else acc ++ [r]
    | none => [r]) []

/-- The guard ranges of a station: at most 8 (R281). -/
def guardRanges (c : Tab Word) (k : Nat) : List (Nat × Nat) :=
  (staRanges c k fun o => match o with | some t => tGuard c t && decide (t < 64) | none => false).take 8

/-- The keys of the stations that are sent frames: enabled, admitted, on a line of which a port is UP. -/
def liveStas (s : State) : List Nat :=
  (List.range 256).filter fun k => sOn s.cfg k && (s.sta k).admitted && lineState s (k / 32) == 4

/-- The key of the station that a frame goes to. -/
def YFrame.key (f : YFrame) : Nat := 32 * f.port.toNat + f.sta.toNat

/-- The ranges that an ADM SAFE or RELEASE names (R269). -/
def frameRanges (b : List Byte) : List (Nat × Nat) :=
  (List.range (leAt b 0 4)).map fun i => (leAt b (4 + 4 * i) 2, leAt b (6 + 4 * i) 2)

/-- A RELEASE frame names the output bytes of a station in a line of Q. -/
def namesLine (c : Tab Word) (k : Nat) (b : List Byte) (line : Nat) : Bool :=
  let o := max (sQ c k) (64 * line) - sQ c k
  (frameRanges b).any fun r => decide (r.1 ≤ o ∧ o < r.1 + r.2)

/-- The RELEASE frames to a station that are not acknowledged are withdrawn, since an ADM SAFE goes to it: what they name is
not released, and is released anew where R286 still asks for it (R43, R50, R286). -/
def withdrawReleases (s : State) (k : Nat) : State :=
  let isT (t : Trans) : Bool := t.frame.key == k && t.for_ == .release
  let isW (w : YWait) : Bool := w.frame.key == k && w.for_ == .release
  let bodies := (s.yl.trans.filter isT).map (·.frame.body) ++ (s.yl.waits.filter isW).map (·.frame.body)
  (endWaits (endTrans s isT stAborted) isW stAborted).modSta k fun x => { x with
    released := x.released.filter fun l => !(bodies.any fun b => namesLine s.cfg k b l) }

/-- ADM SAFE falls due for a station, for more ranges, and the lines that `safe` names do not count as released. -/
def admSafe (s : State) (k : Nat) (due : Option (List (Nat × Nat)) → Option (List (Nat × Nat))) (safe : Nat → Bool) : State :=
  (withdrawReleases s k).modSta k fun x => { x with
    safeDue := due x.safeDue
    released := x.released.filter fun l => !safe l }

/-- ADM SAFE falls due on every port that is up, for every non-guard byte (R43 step 2, R269). -/
def admSafeAll (s : State) : State :=
  (liveStas s).foldl (fun s k => admSafe s k (fun _ => some []) fun _ => true) s

/-- Ranges join those for which ADM SAFE is due; an empty list means every non-guard byte. -/
def addSafe (r : List (Nat × Nat)) (due : Option (List (Nat × Nat))) : Option (List (Nat × Nat)) :=
  match due with
  | some [] => some []
  | some l => some (l ++ r)
  | none => some r

/-- ADM SAFE falls due for the output ranges whose owner `sel` names (R50, R187). -/
def admSafeOwned (s : State) (sel : Nat → Bool) : State :=
  (liveStas s).foldl (fun s k =>
    let r := staRanges s.cfg k fun o => match o with | some t => sel t | none => false
    if r.isEmpty then s
    else admSafe s k (addSafe r) fun l => match ownerOf s.cfg (64 * l) with | some t => sel t | none => false) s

/-- ADM SAFE falls due for the output bytes of an unrepaired Q word of a non-guard owner: the ports present their safe values
until the line's owner commits it anew (R217, R286; log entry 80). -/
def admSafeWord (s : State) (a : Nat) : State :=
  if (match ownerOf s.cfg a with | some o => decide (o < 64) && tGuard s.cfg o | none => true) then s
  else (liveStas s).foldl (fun s k =>
    let lo := max (a / 4 * 4) (sQ s.cfg k)
    let hi := min (a / 4 * 4 + 4) (sQ s.cfg k + sOut s.cfg k)
    if hi ≤ lo then s
    else admSafe s k (addSafe [(lo - sQ s.cfg k, hi - lo)]) fun l => l == a / 64) s

/-- CAN frames of a task that are not on the bus are dropped (R419). -/
def canDrop (s : State) (t : Nat) : State :=
  (List.range 4).foldl (fun s n => s.modCan n fun x => { x with
    queue := x.queue.filter (·.task != t)
    onBus := x.onBus.map fun f => { f with last := f.last || f.task == t } }) s

/-- Nothing more is streamed for a row, and its retained lines are freed (R251, R256). -/
def dropRow (s : State) (id : BitVec 16) : State :=
  let isRow (f : TransFor) : Bool := match f with | .row i _ _ => i == id | _ => false
  let s := endWaits s (fun w => isRow w.for_) stAborted
  freeRetained (s.onCan fun c => { c with retained := c.retained.map fun r => { r with rows := r.rows.filter (· != id) } })

/-- Entries that have not fired and that `sel` names are removed (R43 step 4, R256). -/
def cancelFrets (s : State) (sel : FretE → Bool) : State :=
  let gone (e : FretE) : Bool := sel e && !(e.fired && !e.repeats)
  let s := (s.fret.queue.filter gone).foldl (fun s e => match e.row with | some r => dropRow s r.id | none => s) s
  s.onFret fun f => { f with queue := f.queue.filter fun e => !gone e }

end Sys2Proof.Machine
end

