-- ==== Sys2Proof/Machine/SeqOps.lean ====
section
/-! DEFINITION. Releases: the snapshot of an instance (R173-R176), its copies (R62, R299), its instants
(R167, R183, R185, R305), and the arrival of input groups (R172). -/
namespace Sys2Proof.Machine

/-- us as ns. -/
def usNs (n : Nat) : Nat := 1000 * n

/-- The I bytes of an input group, as address ranges. -/
def groupSpan (c : Tab Word) (g : Nat) : List (Nat × Nat) :=
  match gKind c g with
  | 1 => (List.range (gLast c g + 1 - gFirst c g)).filterMap fun k =>
      let x := 32 * gPort c g + gFirst c g + k
      if sOn c x then some (sI c x, sI c x + sIn c x) else none
  | 2 => [(0x10000000, 0x10000008)]
  | _ => []

/-- `m` with the ranges of a group taken from `src`. -/
def overlayGroup (c : Tab Word) (g : Nat) (src m : Mem) : Mem :=
  (groupSpan c g).foldl (fun m r => m.copyRange src r.1 r.2) m

/-- The bytes of a group as they stand now. -/
def groupImage (s : State) (g : Nat) : Mem := overlayGroup s.cfg g s.can.mem []

/-- The snapshot of a declared group differs from its expected cycle, or it never arrived (R174); before any entry to RUN
as well (DEDUCED, log entry 85). -/
def groupStale (s : State) (g : Nat) : Bool := let x := s.group g; x.age != 0 || !x.ever

/-- The S bytes of a declared group as the instance reads them (R174, R213). -/
def groupSBytes (s : State) (g : Nat) : List (Nat × Byte) :=
  let x := s.group g
  let st := groupStale s g
  ((groupStas s.cfg g).map fun k => (0x10050000 + k, staByte s k (x.ever && x.got.contains k) st))
    ++ [(0x10050180 + g, groupByte s g st)]

/-- The declared groups of a task that have a kind (R194). -/
def declared (s : State) (t : Nat) : List Nat := (tGroups s.cfg t).filter fun g => gKind s.cfg g != 0

/-- The Canopy as an instance released now reads it (R173-R175); a declared group that no entry to RUN and no arrival has
given an image reads 0 (DEDUCED, log entry 85). -/
def snapshotOf (s : State) (t : Nat) : Mem :=
  let m := s.can.mem.copyRange (sArea s) 0x10050000 0x10054000
  let m := (declared s t).foldl (fun m g => overlayGroup s.cfg g (s.group g).img m) m
  let m := (declared s t).foldl (fun m g => putAll m (groupSBytes s g)) m
  s.can.bad.foldl (fun m a => putAll m ((List.range 4).map fun j => (a + j, 0))) m

/-- The shafts as an instance takes them (R257). -/
def shaftSnaps (s : State) : List ShaftSnap :=
  (List.range 4).map fun n =>
    { pos := BitVec.ofNat 40 (shaftPos s n), stat := BitVec.ofNat 8 (fld (shaftStat s n) 24 8), vel := fixedOf (s.shaft n).v 16 }

/-- A new open instance of a task released at `a`. -/
def makeInst (s : State) (t a : Nat) : Inst :=
  let dl := usNs (tDeadline s.cfg t)
  { num := (s.task t).num + 1, rel := a, due := a + dl, outAt := a + usNs (tMargin s.cfg t),
    starveAt := a + usNs (tStarve s.cfg t), lateAt := a + dl - (tWcet s.cfg t + 2000 + 800),
    snap := snapshotOf s t, groups := (declared s t).map fun g => (g, groupStale s g, (s.group g).age),
    shafts := shaftSnaps s, newVer := (s.task t).switched }

/-- The release of a task at the present instant (R167, R169, R568): behind an earlier instance that is open still, its
copies wait for the end of that one. -/
def release (s : State) (t : Nat) : State :=
  let a := s.now
  let i := makeInst s t a
  let behind := (s.inst t).isSome
  let lanes := (copyRoles s t).map (copyLane s t)
  let s := (s.setInst (if behind then nextKey t else t) (some i)).modTask t fun x => { x with num := i.num, lastRel := some a }
  let s := s.onSeq fun q => { q with
    outs := q.outs ++ [{ task := t, num := i.num, at_ := i.outAt }]
    wins := q.wins ++ [{ task := t, num := i.num, due := i.due, chk := false, isOpen := true, lanes := lanes, pcs := [] }] }
  if behind then s else placeCopies s t

/-- A skipped release (R171). -/
def skipRelease (s : State) (t : Nat) : State := s.modTask t fun x => { x with skips := satInc x.skips }

/-- A declared group of the instances released at this very instant takes the cycle that ends now (R173). -/
def Inst.regroup (s : State) (g : Nat) (i : Inst) : Inst :=
  if i.rel = s.now && (i.groups.any fun x => x.1 == g) then
    { i with
      groups := i.groups.map fun x => if x.1 = g then (g, groupStale s g, (s.group g).age) else x
      snap := putAll (overlayGroup s.cfg g (s.group g).img i.snap) (groupSBytes s g) }
  else i

/-- A cycle of an input group ends: complete, with the stations that delivered, or not (R172, R173). The age of a group that
has not arrived since the entry to RUN counts the cycles since then (DEDUCED, log entry 85). -/
def groupCycle (s : State) (g : Nat) (complete : Bool) (got : List Nat) : State :=
  let s := s.onSeq fun q => { q with groups := tabMod {} g (fun x =>
    if complete then { ever := true, age := 0, img := groupImage s g, got := got, cur := true }
    else { x with cur := false, age := min (x.age + 1) 0xFFFFFFFF }) q.groups }
  let s := s.onSeq fun q => { q with insts := q.insts.map fun e => (e.1, e.2.map (Inst.regroup s g)) }
  if complete then raiseSource s 0x1 fun a => a % 64 == g else s

/-- At an entry to RUN no group has arrived yet, and its bytes read as they stand (R174). -/
def groupsEnterRun (s : State) : State :=
  s.onSeq fun q => { q with groups := (List.range 64).foldl (fun m g =>
    tabSet {} g (if gKind s.cfg g = 0 then {} else { ever := false, age := 0, img := groupImage s g, got := [], cur := (s.group g).cur }) m) [] }

/-- The answer of a command that may change S bytes. -/
def answerS (s t : State) : Host.Outcome State Fault Refusal := answer s (seeS t)

/-- No read point of a link cycle, a bridge frame or a loop sample has been taken at this instant: a commit that completes
now is still included in it (R34). -/
def readOpen (s : State) : Bool := s.seq.readAt != some s.now

/-- A commit of the task may complete now: a read point of this instant that has been taken would have included it
(R34), and commits of one instant take effect in ascending order of task ID (R182, R235). A command that comes out of
this order does nothing (log entry 18). -/
def commitInOrder (s : State) (t : Nat) : Bool :=
  readOpen s && !((List.range 64).any fun u => decide (t < u) && (s.task u).lastCommit == some s.now)

end Sys2Proof.Machine
end

