-- ==== Sys2Proof/Machine/Checks.lean ====
section
/-! DEFINITION. The setup checks: the task table (R166), ownership and quotas (R202), frets (R259), links (R296),
loops (R344), field channels (R366), CAN (R382), safety (R431) and the parameter store (R466). Each block answers
the first failing check with the index concerned; of two parties to a conflict the later-numbered one is named
(DEDUCED, see the assumption log). -/
namespace Sys2Proof.Machine

/-- A failing check: its number and the index concerned. -/
abbrev Failed := Option (Nat × Nat)

/-- Check `n` over indices: the first that fails it. -/
def failsAt (n : Nat) (l : List Nat) (bad : Nat → Bool) : Failed := (l.find? bad).map fun i => (n, i)

/-- The first failing check of a list. -/
def firstFailed : List Failed → Failed
  | [] => none
  | some f :: _ => some f
  | none :: r => firstFailed r

/-- The one area that holds the addresses from `b` to `e - 1`; none if they are none, or leave it. -/
def oneArea (b e : Nat) : Option Area :=
  match areaOf b with
  | some x => if b < e ∧ e ≤ x.base + x.size then some x else none
  | none => none

/-- Elements of a list, each with those before it: the first that clashes with an earlier one. -/
def firstClash {α : Type} (clash : α → α → Bool) : List α → List α → Option α
  | _, [] => none
  | seen, x :: r => if seen.any fun y => clash y x then some x else firstClash clash (seen ++ [x]) r

/-! ## Tasks (R166) -/

/-- Check 3. -/
def badCyclic (c : Tab Word) (t : Nat) : Bool :=
  !tEvent c t && !(decide (25 ≤ tPeriod c t ∧ tPeriod c t ≤ 10000000 ∧ tPhase c t < tPeriod c t
    ∧ 1 ≤ tDeadline c t ∧ tDeadline c t ≤ tPeriod c t))
/-- Check 4. -/
def badEvent (c : Tab Word) (t : Nat) : Bool :=
  tEvent c t && (!decide (1 ≤ tDeadline c t ∧ tDeadline c t ≤ 10000000) || decide (0xC ≤ tSource c t)
    || (tSource c t == 2 && tArg c t / 256 % 4 == 0))
/-- Check 6, on carriers (R299). `TWIN` is tested of a paired task only, as no other task uses it (R165; DEDUCED, log
entry 88). -/
def badLanes (s : State) (c : Tab Word) (t : Nat) : Bool :=
  let g (x : Nat) : Nat := grove ((s.carrierAny x).getD x)
  (tLanes c t).any (fun x => decide (39 < x)) || (tPaired c t && g (tLane c t) == g (tTwin c t))
/-- Check 7: the first task with whose lanes a grove has more than 8 bound lanes. -/
def groveFull (c : Tab Word) (t : Nat) : Bool :=
  let ls := (((tAll c).filter (· ≤ t)).flatMap (tLanes c)).eraseDups
  (List.range 4).any fun g => decide (8 < (ls.filter fun x => grove x == g).length)
/-- Check 8. -/
def laneClash (c : Tab Word) (t u : Nat) : Bool :=
  tGuard c t != tGuard c u && (tLanes c t).any fun x => (tLanes c u).contains x
/-- Check 9. -/
def frameClash (c : Tab Word) (t u : Nat) : Bool :=
  let a := tFrame c t
  let b := tFrame c u
  !(tGuard c t && tGuard c u) && ((tLanes c t).any fun x => (tLanes c u).contains x)
    && decide (a.1 < a.2 ∧ b.1 < b.2 ∧ a.1 < b.2 ∧ b.1 < a.2)
/-- An input group in use: declared by an enabled task, or of a kind other than 0. -/
def groupInUse (c : Tab Word) (g : Nat) : Bool := gKind c g != 0 || (tAll c).any fun t => tGroup c t g

/-- R166, with the code range of the package. -/
def checkTasks (s : State) (c : Tab Word) (code : List (Nat × Nat)) : Failed :=
  let ts := tAll c
  firstFailed
    [failsAt 1 ts fun t => !tGuard c t && decide (13 < tPrio c t),
     failsAt 2 ts fun t => tGuard c t && !tPaired c t,
     failsAt 3 ts (badCyclic c),
     failsAt 4 ts (badEvent c),
     failsAt 5 ts fun t => tMargin c t == 0 || decide (tDeadline c t < tMargin c t),
     failsAt 6 ts (badLanes s c),
     failsAt 7 ts (groveFull c),
     (firstClash (laneClash c) [] ts).map fun t => (8, t),
     (firstClash (frameClash c) [] ts).map fun t => (9, t),
     failsAt 10 ts fun t => decide ((tFrame c t).2 ≤ (tFrame c t).1),
     failsAt 11 ts fun t => !code.any fun r => decide (r.1 ≤ (tEntry c t).toNat ∧ (tEntry c t).toNat < r.2),
     failsAt 12 (List.range 64) fun g => groupInUse c g && (decide (2 < gKind c g) || decide (gLast c g < gFirst c g))]

/-! ## Ownership (R202) -/

/-- R202. Check 8 names the first task at which the running sum exceeds the limit (DEDUCED, log entry 86). -/
def checkCanopy (c : Tab Word) : Failed :=
  let es := (ownTable c).map fun e => e.1
  let b (e : Nat) : Nat := (ownEntry c e).1
  let z (e : Nat) : Nat := (ownEntry c e).2.1
  let o (e : Nat) : Nat := (ownEntry c e).2.2
  let area (e : Nat) : Option Area := oneArea (b e) (z e)
  firstFailed
    [failsAt 1 es fun e => !(decide (o e ≤ 0x40) || decide (0x44 ≤ o e ∧ o e ≤ 0x47)),
     failsAt 2 es fun e => match area e with | some x => !x.owned | none => true,
     (firstClash (fun x y => decide (b x < z y ∧ b y < z x)) [] es).map fun e => (3, e),
     failsAt 4 es fun e => decide (o e < 64) && !tEnable c (o e),
     failsAt 5 es fun e => area e == some .g && !(decide (o e < 64) && tGuard c (o e)),
     failsAt 6 es fun e => o e == 0x40 && !(area e == some .q || area e == some .m || area e == some .d),
     failsAt 7 es fun e => decide (0x44 ≤ o e ∧ o e ≤ 0x47) && area e != some .h,
     failsAt 8 (tAll c) fun t => decide (32256 < ((tAll c).filter (· ≤ t)).foldl (fun n u => n + tReserve c u) 0)]

/-! ## Frets (R259) -/

/-- The ports that used segments of row maps name. -/
def mapPorts (c : Tab Word) : List Nat :=
  ((List.range 16).flatMap fun m => (mapSegs c m).map fun g => g.1).eraseDups
/-- Segment `i` = map x 8 + segment. -/
def segAt (c : Tab Word) (i : Nat) : Option (Nat × Nat × Nat × Nat) := mapSeg c (i / 8) (i % 8)
/-- Bytes of a map up to and with its segment `i`. -/
def mapTotal (c : Tab Word) (i : Nat) : Nat :=
  ((List.range (i % 8 + 1)).filterMap (mapSeg c (i / 8))).foldl (fun n g => n + (g.2.2.1 + 1 - g.2.1) * g.2.2.2) 0
/-- A station of segment `i` stands in an earlier segment of the map (check 5). -/
def segTwice (c : Tab Word) (i : Nat) : Bool :=
  match segAt c i with
  | some g => (List.range (i % 8)).any fun j => match mapSeg c (i / 8) j with
    | some h => h.1 == g.1 && decide (h.2.1 ≤ g.2.2.1 ∧ g.2.1 ≤ h.2.2.1)
    | none => false
  | none => false

/-- R259. -/
def checkFret (c : Tab Word) : Failed :=
  let sh := (List.range 4).filter (shOn c)
  let seg := (List.range 128).filter fun i => (segAt c i).isSome
  firstFailed
    [failsAt 1 sh fun n => !decide (16 ≤ shN c n ∧ shN c n ≤ 1048576) || decide (shN c n ≤ shZero c n),
     failsAt 2 sh fun n => !decide (4 ≤ shHyst c n ∧ shHyst c n ≤ 20) || decide (1000000 < shWin c n),
     failsAt 3 ((List.range 8).filter fun p => (mapPorts c).contains p) fun p =>
       decide (pGuard c p < 2 * pCycle c p) || decide (pLead c p ≤ pGuard c p),
     failsAt 4 seg fun i => match segAt c i with
       | some g => decide (g.2.2.1 < g.2.1) || g.2.2.2 == 0 || decide (4096 < mapTotal c i)
       | none => false,
     failsAt 5 seg (segTwice c),
     failsAt 6 seg fun i => match segAt c i with | some g => !pOn c g.1 | none => false]

/-! ## Links (R296) -/

/-- Wire time of a frame with `len` payload bytes, in ns (R265). -/
def wireTime (len : Nat) : Nat := (max (len + 38) 64 + 20) * 8
/-- The port on which a port's stations are configured (R287). -/
def staPort (c : Tab Word) (p : Nat) : Nat := if pClosed c p then p / 2 * 2 else p
/-- Fixed load of a port in ns (R273, R289). -/
def fixedLoad (c : Tab Word) (p : Nat) : Nat :=
  let q := staPort c p
  let named := (mapPorts c).any fun m => staPort c m == q
  wireTime (if named then 528 else 16) + ((List.range 4).filter (shOn c)).length * wireTime 24
    + (pStas c q).foldl (fun n k =>
        let w := wireTime (sOut c k)
        let r := wireTime (16 + sIn c k)
        n + (if pClosed c p then w + r else max w r)) 0
/-- Two stations' image bytes overlap. -/
def imageClash (c : Tab Word) (x y : Nat) : Bool :=
  decide (0 < sIn c x ∧ 0 < sIn c y ∧ sI c x < sI c y + sIn c y ∧ sI c y < sI c x + sIn c x)
    || decide (0 < sOut c x ∧ 0 < sOut c y ∧ sQ c x < sQ c y + sOut c y ∧ sQ c y < sQ c x + sOut c x)
/-- A station's bytes leave their area or overlap bytes 0-7 of it. -/
def imageBad (c : Tab Word) (k : Nat) : Bool :=
  (decide (0 < sIn c k) && (decide (0x10020000 < sI c k + sIn c k) || decide (sI c k < 0x10000008)))
    || (decide (0 < sOut c k) && (decide (0x10040000 < sQ c k + sOut c k) || decide (sQ c k < 0x10020008)))
/-- Check 4 for a port. -/
def closedBad (c : Tab Word) (p : Nat) : Bool :=
  pClosed c p && p % 2 == 0 && (pCfg c p &&& 0x8000FF3F) != (pCfg c (p + 1) &&& 0x8000FF3F)

/-- R296. -/
def checkYelx (c : Tab Word) (testPermit : Bool) : Failed :=
  let st := (List.range 256).filter (sOn c)
  let ports := List.range 8
  firstFailed
    [failsAt 1 st fun k => !pOn c (k / 32) || decide (pStations c (k / 32) ≤ k % 32),
     failsAt 2 st fun k => decide (1464 < sIn c k) || decide (1480 < sOut c k),
     firstFailed [failsAt 3 st (imageBad c), (firstClash (imageClash c) [] st).map fun k => (3, k)],
     firstFailed [failsAt 4 ports (closedBad c), failsAt 4 st fun k => pClosed c (k / 32) && k / 32 % 2 == 1],
     failsAt 5 (ports.filter (pOn c)) fun p => decide (8 * pCycle c p < 10 * fixedLoad c p),
     if yEther c < 0x0600 then some (6, 0) else none,
     failsAt 7 ports fun p => wbit (rGet c (0x0520 + p) 0) 31 && !testPermit,
     failsAt 8 (List.range 256) fun k => !sOn c k && (List.range 16).any fun m => (mapParts c m).any fun x => x.1 == k]

/-! ## Loops (R344) -/

/-- Enabled loops of a class. -/
def classLoops (c : Tab Word) (k : Nat) : Nat := ((lAll c).filter fun n => lClass c n == k).length
/-- M_k of R322. -/
def loopsTo (c : Tab Word) (k : Nat) : Nat := ((lAll c).filter fun n => lClass c n ≤ k).length
/-- A class breaks R321. -/
def classBad (c : Tab Word) (k : Nat) : Bool :=
  kOn c k && (!decide (25 ≤ kPeriod c k ∧ kPeriod c k ≤ 100000)
    || (List.range k).any fun j => kOn c j && (decide (kPeriod c k ≤ kPeriod c j) || kPeriod c k % kPeriod c j != 0))
/-- A class breaks R323. -/
def classOver (c : Tab Word) (k : Nat) : Bool :=
  kOn c k && (decide (1000 * kPeriod c k < 200 + 150 * loopsTo c k) || (kPeriod c k == 25 && decide (32 < classLoops c k)))
/-- Evaluations per us over all classes. -/
def loopRate (c : Tab Word) : Rat :=
  ((List.range 8).filter (kOn c)).foldl (fun r k => r + (classLoops c k : Rat) / (kPeriod c k : Rat)) 0
/-- An address that the loop engine can use: a multiple of 4 in I, Q, M, K, G, D or H; 0 where unused. -/
def loopAddrOk (a : Nat) : Bool :=
  a == 0 || (a % 4 == 0 && match areaOf a with | some .s => false | some .c => false | some _ => true | none => false)
/-- The addresses in use of a loop: FF only with feed-forward. -/
def loopAddrs (c : Tab Word) (n : Nat) : List Nat :=
  ((List.range 7).filter fun k => k != 2 || wbit (lCfg c n) 28).map (lAddr c n)
/-- A line that the loop engine owns, or no address. -/
def loopOwns (c : Tab Word) (a : Nat) : Bool := a == 0 || ownerOf c a == some 0x40
/-- The capture buffer: its lines. -/
def capLines (c : Tab Word) : List Nat :=
  (List.range ((fld (rGet c 0x0621 0) 0 22 + 63) / 64)).map fun j => (rGet c 0x0620 0).toNat + 64 * j
/-- Check 6 of a group. -/
def groupBad (c : Tab Word) (g : Nat) : Bool :=
  let ms := gpMembers c g
  gpOn c g && (fld (rGet c 0x0619 g) 0 4 == 0 || decide (8 < fld (rGet c 0x0619 g) 0 4)
    || ms.any (fun n => !lOn c n)
    || (match ms with | n :: r => r.any fun m => lClass c m != lClass c n || lBasic c m != lBasic c n | [] => false)
    || (List.range g).any fun h => gpOn c h && ms.any fun n => (gpMembers c h).contains n)

/-- R344. -/
def checkLoops (c : Tab Word) : Failed :=
  let ls := lAll c
  let ks := List.range 8
  let gs := (List.range 32).filter (gpOn c)
  let cap := fld (rGet c 0x0621 0) 0 22
  firstFailed
    [firstFailed [failsAt 1 ks (classBad c), failsAt 1 ls fun n => !kOn c (lClass c n)],
     firstFailed [failsAt 2 ks (classOver c), if (512 / 100 : Rat) < loopRate c then some (2, 0) else none],
     firstFailed [failsAt 3 ls (fun n => !(loopAddrs c n).all loopAddrOk || lAddr c n 5 % 64 != 0),
       failsAt 3 gs fun g => !loopAddrOk (rGet c 0x061C g).toNat,
       if cap ≠ 0 ∧ !(loopAddrOk (rGet c 0x0620 0).toNat) then some (3, 0) else none],
     firstFailed [failsAt 4 ls (fun n => !loopOwns c (lAddr c n 3) || !loopOwns c (lAddr c n 6) || (lAddr c n 6 != 0 && !loopOwns c (lAddr c n 6 + 63))),
       failsAt 4 gs fun g => !loopOwns c (rGet c 0x061C g).toNat,
       if (capLines c).all (fun a => loopOwns c a && loopOwns c (a + 63)) then none else some (4, 0)],
     failsAt 5 ls fun n => lSched c n && decide (16 < (ls.filter fun m => decide (m ≤ n) && lSched c m).length),
     failsAt 6 gs (groupBad c)]

/-! ## Field channels (R366) -/

/-- R366. -/
def checkField (c : Tab Word) : Failed :=
  let ch := List.range 32
  let w := rGet c 0x0702 0
  let test := orElse (fld w 12 8) 20
  let rb := orElse (fld w 0 12) 300
  let src := (rGet c 0x0703 0).toNat
  let duty := (rGet c 0x0704 0).toNat
  let dutyOk := duty % 64 == 0 && (match areaOf duty with | some .q => true | some .m => true | some .d => true | _ => false)
  firstFailed
    [failsAt 1 ch fun n => decide (5 < chMode (fCfg c n)),
     firstFailed [failsAt 2 ch fun n => decide (60000 < fld (fCfg c n) 0 16),
       if test < 10 ∨ 100 < test ∨ rb < 20 ∨ 4000 < rb then some (2, 0) else none],
     failsAt 3 ch fun n => chGuard (fCfg c n) && chMode (fCfg c n) != 3,
     failsAt 4 ch fun n => chGuard (fCfg c n) && !(src % 8 == 0 && areaOf src == some .g),
     failsAt 5 ch fun n => chMode (fCfg c n) == 4 && !dutyOk,
     failsAt 6 ch fun n =>
       let hz := orElse (fld (rGet c (0x0730 + n) 0) 0 12) 500
       decide (hz < 10) || decide (2000 < hz)]

/-! ## CAN (R382) -/

/-- Nominal bit time of a channel in channel clock periods (R370). -/
def nominalBit (c : Tab Word) (n : Nat) : Nat :=
  let w := rGet c (0x0811 + 8 * n) 0
  (fld w 24 8 + 1) * (1 + (fld w 16 8 + 1) + (fld w 9 7 + 1))
/-- Data bit time. -/
def dataBit (c : Tab Word) (n : Nat) : Nat :=
  let w := rGet c (0x0812 + 8 * n) 0
  (fld w 27 5 + 1) * (1 + (fld w 22 5 + 1) + (fld w 18 4 + 1))

/-- R382. -/
def checkCan (c : Tab Word) : Failed :=
  let ch := (List.range 4).filter fun n => wbit (cCfg c n) 31
  let nb (n : Nat) : Word := rGet c (0x0811 + 8 * n) 0
  let db (n : Nat) : Word := rGet c (0x0812 + 8 * n) 0
  let fd (n : Nat) : Bool := wbit (cCfg c n) 28
  firstFailed
    [failsAt 1 ch fun n => fld (nb n) 16 8 == 0 || fld (nb n) 9 7 == 0 || decide (nominalBit c n < 80),
     failsAt 2 ch fun n => fd n && (decide (dataBit c n < 10) || decide (nominalBit c n < dataBit c n)),
     failsAt 3 ch fun n => decide (fld (nb n) 9 7 < fld (nb n) 2 7) || decide (fld (db n) 18 4 < fld (db n) 14 4),
     failsAt 4 ch fun n => fd n && decide (dataBit c n < 80) && !wbit (db n) 13]

/-! ## Safety (R431) and the parameter store (R466) -/

/-- R431. -/
def checkSafety (c : Tab Word) : Failed :=
  firstFailed
    [if 60000 < fld (rGet c 0x0A01 0) 0 16 then some (1, 0) else none,
     failsAt 2 (List.range 32) fun n => chGuard (fCfg c n) && chSafe (fCfg c n),
     failsAt 3 ((tAll c).filter (tGuard c)) fun t =>
       decide (1000 * budgetMs c < (if tEvent c t then tGap c t else tPeriod c t) + tDeadline c t),
     failsAt 4 ((List.range 256).filter (sOn c)) fun k =>
       !(guardRanges c k).isEmpty && decide (1000000 * budgetMs c < pLoss c (k / 32) * pCycle c (k / 32))]

/-- R466. -/
def checkNv (c : Tab Word) : Failed :=
  let es := (List.range 16).filter fun e => (retRange c e).isSome
  let r (e : Nat) : Nat × Nat := (retRange c e).getD (0, 0)
  let per := orElse (fld (rGet c 0x0B03 0) 0 16) 1000
  firstFailed
    [failsAt 1 es fun e => match oneArea (r e).1 (r e).2 with
       | some .m => false | some .k => false | some .g => false | some .d => false | _ => true,
     (firstClash (fun x y => decide ((r x).1 < (r y).2 ∧ (r y).1 < (r x).2)) [] es).map fun e => (2, e),
     failsAt 3 es fun e => decide (256 < (es.filter (· ≤ e)).foldl (fun n x => n + ((r x).2 - (r x).1) / 64) 0),
     if per < 10 ∨ 60000 < per then some (4, 0) else none]

/-! ## The chain -/

/-- The nine blocks in order, each with its fault code. -/
def setupChecks (s : State) (c : Tab Word) (code : List (Nat × Nat)) (testPermit : Bool) : List (Nat × Failed) :=
  [(0x20, checkTasks s c code), (0x21, checkCanopy c), (0x22, checkFret c), (0x23, checkYelx c testPermit),
   (0x24, checkLoops c), (0x25, checkField c), (0x26, checkCan c), (0x27, checkSafety c), (0x28, checkNv c)]

/-- The first block that fails: fault code, check, index. -/
def firstBlock : List (Nat × Failed) → Option (Nat × Nat × Nat)
  | [] => none
  | (_, none) :: r => firstBlock r
  | (k, some f) :: _ => some (k, f)

/-- A check register: FAIL, the index at bit `lo`, the check number. -/
def checkWord (lo : Nat) (f : Nat × Nat) : Word := 0x80000000 ||| put f.2 lo 10 ||| put f.1 0 8

/-- The check register of a failing block is written. -/
def noteCheck (s : State) (code : Nat) (f : Nat × Nat) : State :=
  match code with
  | 0x20 => s.onSeq fun q => { q with check := checkWord 16 f }
  | 0x21 => s.onCan fun q => { q with check := checkWord 16 f }
  | 0x22 => s.onFret fun q => { q with check := checkWord 16 f }
  | 0x23 => s.onYl fun q => { q with check := checkWord 8 f }
  | 0x24 => s.onLp fun q => { q with check := checkWord 8 f }
  | 0x25 => s.onFld fun q => { q with check := checkWord 8 f }
  | 0x26 => s.onCb fun q => { q with check := checkWord 8 f }
  | 0x27 => s.onSafe fun q => { q with schk := checkWord 8 f }
  | _ => s.onNv fun q => { q with check := checkWord 8 f }

end Sys2Proof.Machine
end

