-- ==== Sys2Proof/Machine/HostOps.lean ====
section
/-! DEFINITION. Completions (R388, R389), the slot map's bytes (R387), and commands that complete later. -/
namespace Sys2Proof.Machine

/-- A completion entry (R388). -/
def cplEntry (cid : BitVec 16) (st op : Nat) (v0 v1 v2 : Nat) : List Byte :=
  leBytes 2 cid.toNat ++ leBytes 1 st ++ leBytes 1 op ++ leBytes 4 v0 ++ leBytes 4 v1 ++ leBytes 4 v2

/-- The completion queue of a slot is full (R387). -/
def Slot.cplFull (x : Slot) : Bool := (x.cplTail + 1) % 32 == x.cplHead

/-- An entry put into the completion queue. -/
def Slot.putCpl (x : Slot) (e : List Byte) : Slot :=
  { x with map := x.map.putBytes (0x1800 + 16 * (x.cplTail % 32)) e, cplTail := (x.cplTail + 1) % 32 }

/-- A command's completion: its entry is written, or waits for space, and cause 0 is raised (R389). -/
def complete (s : State) (n : Nat) (cid : BitVec 16) (op st v0 v1 v2 : Nat) : State :=
  let e := cplEntry cid st op v0 v1 v2
  if (s.slot n).cplFull || !(s.slot n).owed.isEmpty then s.modSlot n fun x => { x with owed := x.owed ++ [e] }
  else raiseIrq (s.modSlot n fun x => x.putCpl e) n 0

/-- Entries that waited are written while there is space. -/
def payOwed (s : State) (n : Nat) : State :=
  (s.slot n).owed.foldl (fun s e =>
    if (s.slot n).cplFull then s
    else raiseIrq (s.modSlot n fun x => { x.putCpl e with owed := x.owed.drop 1 }) n 0) s

/-- The long commands (R389). -/
def longOps : List Nat := [0x40, 0x42, 0x46, 0x47, 0x44, 0x45, 0x30, 0x03]

/-- A slot's long command has ended (R389). -/
def longEnd (s : State) (n : Nat) (cid : BitVec 16) : State :=
  s.modSlot n fun x => { x with long := if x.long = some cid then none else x.long }

/-- One started command completes; a slot reset has discarded the completion of one that is not live (R389, R393). -/
def finishWait (st v0 v1 v2 : Nat) (s : State) (w : Wait) : State :=
  let s := s.when (longOps.contains w.op.toNat) fun s => longEnd s w.slot w.cid
  s.when w.live fun s => complete s w.slot w.cid w.op.toNat st (if v0 = 0 then w.val0.toNat else v0) v1 v2

/-- The started commands that `sel` names complete (R389). -/
def finishWaits (s : State) (sel : Wait → Bool) (st v0 v1 v2 : Nat) : State :=
  let due := s.host.waits.filter sel
  let s := s.onHost fun h => { h with waits := h.waits.filter fun w => !sel w }
  due.foldl (finishWait st v0 v1 v2) s

/-- Items of a record from (bytes, value) pairs. -/
def itemsOf (l : List (Nat × Nat)) : List RItem :=
  l.map fun e => if e.1 = 1 then .b1 e.2 else if e.1 = 2 then .b2 e.2 else .b4 e.2

/-- The events that the effect of the commands named by `sel` records, when it takes place. -/
def waitEvents (s : State) (sel : Wait → Bool) : State :=
  (s.host.waits.filter fun w => sel w && w.ev != 0).foldl (fun s w => record s w.ev (itemsOf w.items)) s

end Sys2Proof.Machine
end

