-- ==== Sys2Proof/Machine/ExchOps.lean ====
section
/-! DEFINITION. The switch of tasks in an online exchange (R408-R413): changed lines, the write set of a switch
instant with the matching of K-area instances, held tasks, the end of the exchange. -/
namespace Sys2Proof.Machine

/-- The layout record that covers a line (R400). -/
def layoutAt (l : List Layout) (a : Nat) : Option Layout := l.find? fun r => decide (r.base ≤ a ∧ a < r.end_)

/-- A line is changed between two versions (R408). -/
def changedLine (c0 : Tab Word) (l0 : List Layout) (c1 : Tab Word) (l1 : List Layout) (a : Nat) : Bool :=
  ownerOf c0 a != ownerOf c1 a ||
    (match layoutAt l0 a, layoutAt l1 a with
     | some x, some y => x.hash != y.hash
     | none, none => false
     | _, _ => true)

/-- The line addresses of the ownership entries of a task. -/
def linesOwned (c : Tab Word) (t : Nat) : List Nat :=
  ((ownTable c).filter fun e => e.2.2.2 == t).flatMap fun e => (List.range ((e.2.2.1 - e.2.1) / 64)).map fun k => e.2.1 + 64 * k

/-- The layout of the active package. -/
def activeLayout (s : State) : List Layout := match s.pkg.hdr with | some h => h.layout | none => []

/-- Size of a K-area record by its kind code: timers and counters 16 bytes, edge detectors 4 (R214). -/
def kSize (kind : Nat) : Nat := if kind = 8 ∨ kind = 9 then 4 else 16

/-- A kind of the table of R214 whose alignment an offset has: timers and counters 16 bytes, edge detectors 4. -/
def kFits (kind o : Nat) : Bool :=
  if kind = 8 ∨ kind = 9 then o % 4 == 0 else decide (1 ≤ kind ∧ kind ≤ 6) && o % 16 == 0

/-- The records of a K line: offset, ID and kind. A record with ID 0 is free; one of a kind that R214 gives 16 bytes is passed
over whole (log entry 81). -/
def kRecords (l : List Byte) : List (Nat × Nat × Nat) :=
  let rec go : Nat → Nat → List (Nat × Nat × Nat)
    | 0, _ => []
    | n + 1, o =>
      if 64 ≤ o then []
      else
        let id := leAt l o 2
        let kind := (byteAt l (o + 2)).toNat
        if !kFits kind o then go n (o + 4)
        else if id = 0 then go n (o + kSize kind)
        else (o, id, kind) :: go n (o + kSize kind)
  go 16 0

/-- The lines that the ownership table assigns. -/
def assignedLines (c : Tab Word) : List Nat :=
  (ownTable c).flatMap fun e => (List.range ((e.2.2.1 - e.2.1) / 64)).map fun k => e.2.1 + 64 * k

/-- The K record with an ID in the committed old version, whoever owns its line (R411). -/
def oldRecord (s : State) (id : Nat) : Option (Nat × Nat) :=
  ((assignedLines s.cfg).filter fun a => Area.k.has a).findSome? fun a =>
    ((kRecords (canBytes s a 64)).find? fun r => r.2.1 == id).map fun r => (a + r.1, r.2.2)

/-- A new K record after the switch, from its staged bytes and the old record (R411): its bytes, and the kind
of the old record where it differs. -/
def kMatch (s : State) (staged : List Byte) (id kind : Nat) : List Byte × Option Nat :=
  let n := kSize kind
  let part (old : List Byte) (keep : Nat → Bool) : List Byte :=
    (List.range n).map fun k => if keep k then byteAt old k else byteAt staged k
  match oldRecord s id with
  | some (a, k0) =>
    let old := canBytes s a n
    if k0 != kind then (staged, some k0)
    else if kind = 8 ∨ kind = 9 then
      ((List.range n).map fun k => if k = 3 then (byteAt staged 3 &&& 0xFE) ||| (byteAt old 3 &&& 1) else byteAt staged k, none)
    else if kind ≤ 3 then (part old fun k => k == 3 || decide (8 ≤ k), none)
    else (part old fun k => k == 3 || decide (8 ≤ k ∧ k < 12), none)
  | none =>
    if (kind = 8 ∨ kind = 9) ∧ (byteAt staged 3).toNat < 128 then
      ((List.range n).map fun k => if k = 3 then byteAt staged 3 ||| 0x40 else byteAt staged k, none)
    else (staged, none)

/-- The staged content of a changed K line after R411, with the records whose kind changed. -/
def kLine (s : State) (staged : List Byte) : List Byte × List (Nat × Nat × Nat) :=
  (kRecords staged).foldl (fun acc r =>
    let (b, k0) := kMatch s ((staged.drop r.1).take (kSize r.2.2)) r.2.1 r.2.2
    (acc.1.take r.1 ++ b ++ acc.1.drop (r.1 + b.length),
     match k0 with | some k => acc.2 ++ [(r.2.1, k, r.2.2)] | none => acc.2)) (staged, [])

/-- The table entries of a task in the new version take effect (R407, R409). -/
def installTask (p : Plan) (s : State) (t : Nat) : State :=
  let c := (List.range 13).foldl (fun c k => rSet c (0x0202 + k) t (if k = 0 then 0 else rGet p.cfg (0x0202 + k) t)) s.cfg
  let c := rSet (rSet c 0x0113 t (rGet p.cfg 0x0113 t)) (0x0340 + t) 0 (rGet p.cfg (0x0340 + t) 0)
  { s with cfg := rSet c 0x0202 0 (rGet s.cfg 0x0202 0) }

/-- The lines that tasks own in the old version only are set to 0 (R409). -/
def goneBytes (s : State) (p : Plan) (ts : List Nat) : List (Nat × Byte) :=
  ((ts.flatMap fun t => linesOwned s.cfg t).filter fun a => (ownerOf p.cfg a).isNone).flatMap fun a =>
    (List.range 64).map fun k => (a + k, (0 : Byte))

/-- The lines of tasks that own them in the old version only are set to 0, with no other write (R409). -/
def zeroGone (s : State) (p : Plan) (ts : List Nat) : State := publish s none (goneBytes s p ts)

/-- The switch of tasks at this instant: one write set of their new lines (R409, R411), and their table entries. -/
def switchTasks (s : State) (p : Plan) (ts : List Nat) : State :=
  let new := ts.flatMap fun t => (linesOwned p.cfg t).map fun a => (t, a)
  let ch := new.filter fun x => changedLine s.cfg (activeLayout s) p.cfg p.hdr.layout x.2
  let parts := ch.map fun x =>
    let staged := p.mem.bytes x.2 64
    (x.2, if Area.k.has x.2 then kLine s staged else (staged, []))
  let bytes := (parts.flatMap fun x => (List.range 64).map fun k => (x.1 + k, byteAt x.2.1 k)) ++ goneBytes s p ts
  let s := publish s none bytes
  let s := (parts.flatMap fun x => x.2.2).foldl (fun s k => record s 0x090C [.b2 k.1, .b1 k.2.1, .b1 k.2.2]) s
  ts.foldl (fun s t =>
    (installTask p s t).modTask t fun x => { x with
      switched := true
      heldAt := none
      armed := x.armed || tEvent p.cfg t }) s

/-- The tasks of the new version that have not switched yet. -/
def unswitched (s : State) (p : Plan) : List Nat := (tAll p.cfg).filter fun t => !(s.task t).switched

/-- The tasks of the coordinated set that have not switched yet switch together at this instant, the S of the exchange, with
their holds (R410, R413). -/
def switchHeld (s : State) (p : Plan) : State :=
  let ts := (unswitched s p).filter p.coord.contains
  let held := ts.map fun t => match (s.task t).heldAt with | some a => s.now - a | none => 0
  if ts.isEmpty then s
  else (switchTasks s p ts).onPkg fun k => { k with exch := { k.exch with
    switchAt := some s.now
    longestHold := held.foldl max k.exch.longestHold } }

/-- The exchange ends when every task has switched and no old instance is open (R412); the lines of removed tasks are set
to 0 (R409). -/
def exchCheckDone (s : State) : State :=
  match s.pkg.exch.run with
  | some (p, _) =>
    if s.pkg.exch.epochPassed && (unswitched s p).isEmpty
        && s.seq.insts.all fun e => match e.2 with | some i => i.newVer || decide (64 ≤ e.1 ∧ e.1 < 128) | none => true then
      let x := s.pkg.exch
      let s := zeroGone s p (List.range 64)
      let s := record s 0x090A [.b8 (x.switchAt.getD 0), .b4 (x.longestHold / 1000)]
      let s := { s with cfg := p.cfg }
      let s := s.onPkg fun k => { k with
        hdr := some p.hdr
        exch := { k.exch with run := none, epochPassed := false, switchAt := none, longestHold := 0 } }
      let s := s.onSeq fun q => { q with tasks := q.tasks.map fun e => (e.1, { e.2 with switched := false }) }
      finishWaits s (fun w => w.for_ == .exchange) stDone 0 0 0
    else s
  | none => s

/-- The coordinated tasks switch together at S: their cyclic tasks are released, which is their release of this instant
(R410). -/
def switchCoord (s : State) (p : Plan) : State :=
  p.coord.foldl (fun s t =>
    if tEvent s.cfg t then s else release (s.modTask t fun x => { x with lastDue := some s.now }) t) (switchHeld s p)

/-- A coordinated task arrives: it is held, and when it is the last, all switch, which may end the exchange (R410, R412). -/
def arrive (s : State) (p : Plan) (t : Nat) : State :=
  let s := s.modTask t fun x => { x with heldAt := some s.now }
  if p.coord.all fun u => (s.task u).heldAt.isSome then exchCheckDone (switchCoord s p) else s

/-- An exchange that has not reached its epoch ends `ABORTED` (R413). -/
def exchAbort (s : State) (cause : Nat) : State :=
  let s := record s 0x090B [.b1 cause]
  let s := s.onPkg fun k => { k with exch := { k.exch with run := none, plan := none } }
  finishWaits s (fun w => w.for_ == .exchange) stAborted 0 0 0

/-- A staged run ends without a plan: its lane is SPARE again and its command completes (R407). -/
def stagedEnd (s : State) (st v2 : Nat) : State :=
  if s.pkg.exch.staged.isSome then
    let s := endInst s 65
    let s := s.modLane s.pkg.exch.stagedLane fun x => if x.role == .awake then { x with role := .spare } else x
    let s := s.onPkg fun k => { k with exch := { k.exch with staged := none } }
    finishWaits s (fun w => w.for_ == .plan) st 0 0 v2
  else s

/-- What a state transition does to the exchange: a plan lapses; before the epoch the exchange is aborted;
after it every task that has not switched switches (R407, R413). -/
def exchTransition (s : State) (fromRun : Bool) : State :=
  let s := stagedEnd s stDenied 3
  let s := s.onPkg fun k => { k with exch := { k.exch with plan := none } }
  match s.pkg.exch.run with
  | some (p, _) =>
    if s.pkg.exch.epochPassed then
      let s := switchTasks s p ((unswitched s p).filter fun t => !p.coord.contains t)
      exchCheckDone (switchHeld s p)
    else if fromRun then exchAbort s 2 else s
  | none => s

end Sys2Proof.Machine
end

