-- ==== Sys2Proof/Machine/FretOps.lean ====
section
/-! DEFINITION. The fret queue: entry, judging, firing, rows and cancellation (R231-R256), and encoder errors
and references (R222, R223, R230, R231). -/
namespace Sys2Proof.Machine

/-- A fired entry that is consumed once its change, or its row, is behind it. -/
def FretE.used (e : FretE) : Bool := !(e.fired && !e.repeats)

/-- Entries in use (`FRET_QUEUE`). -/
def fretUsed (s : State) : Nat := (s.fret.queue.filter FretE.used).length

/-- A timed change is handed to the bridge with a tag, and a down frame falls due (R31, R242, R350). -/
def sendChange (s : State) (t : Nat) (c : Change) : State :=
  let m : Word := BitVec.ofNat 32 (c.mask.toNat <<< (if c.half then 16 else 0))
  let (s, g) := drawTag s (taskTags s.cfg t)
  s.onFld fun f => { f with
    changeQ := f.changeQ ++ [{ c with tag := g }]
    startDue := true
    relDue := f.relDue ||| (if f.valid then m &&& (match f.lastUp with | some u => u.expired | none => 0) else 0) }

/-- The change of an OUT entry with a stamp. -/
def outChange (e : FretE) (op : Nat) (id : BitVec 4) (stamp : Nat) (atFrame : Bool) : Change :=
  { op := BitVec.ofNat 2 op, id := id, half := e.sub.getLsbD 0, mask := BitVec.ofNat 16 (fld e.word 16 16),
    values := BitVec.ofNat 16 (fld e.word 0 16), stamp := stamp, atFrame := atFrame }

/-- The hand-off of an OUT entry: its firing (R241, R242). -/
def handOff (s : State) (e : FretE) (stamp : Nat) (atFrame : Bool) : State × FretE :=
  let id := s.fret.nextChange
  let s := s.onFret fun f => { f with nextChange := f.nextChange + 1 }
  (sendChange s e.task (outChange e 1 id stamp atFrame), { e with fired := true, armed := false, change := some (id, stamp) })

/-- A fired entry that is not REPEAT is consumed (R240). -/
def spend (s : State) (e : FretE) : State := s.onFret fun f => { f with spent := f.spent ++ [(e.task, e.key)] }

/-- A TRIG entry fires (R233, R241). -/
def fireTrig (s : State) (e : FretE) : State × FretE :=
  (raiseTrigger s (e.sub.toNat % 64) 0xA, { e with fired := true, armed := false })

/-- A late entry that is removed (R237). -/
def fretLate (s : State) (e : FretE) (d : Int) : State :=
  let s := s.onFret fun f => { f with lateCount := satInc f.lateCount }
  record s 0x0402 [.b1 e.shaft.val, .b1 e.task, .b4 e.key.toNat, .b8 e.target.toNat, .b8 (BitVec.ofInt 64 d).toNat]

/-- An entry judged at queue entry, or at the first reference of its shaft: armed, or late (R232, R237, R238).
None: it is removed. -/
def judge (s : State) (e : FretE) : State × Option FretE :=
  let d := e.dist (shaftPos s e.shaft.val)
  let e := { e with judged := true, lastD := d }
  if e.approach d then (s, some { e with armed := true, sideNeg := decide (d < 0) })
  else if e.repeats then (s, some e)
  else if e.lateFire && decide (d.natAbs < 2 ^ 24) && e.kind != 2 then
    if e.kind = 1 then let (s, e) := handOff s e s.now true; (s, some e)
    else (spend (fireTrig s e).1 e, none)
  else
    let s := fretLate s e d
    (match e.row with | some r => dropRow s r.id | none => s, none)

/-- A list of entries judged in order. -/
def judgeAll (s : State) : List FretE → State × List FretE
  | [] => (s, [])
  | e :: r =>
    let (s, o) := judge s e
    let (s, l) := judgeAll s r
    (s, match o with | some e => e :: l | none => l)

/-- Bits of ROW entries in the queue that target a revolution field of a shaft (R235). -/
def rowBits (s : State) (e : FretE) : Nat :=
  (s.fret.queue.filter fun x => x.kind == 2 && x.used && x.shaft == e.shaft && x.target.toNat >>> 24 == e.target.toNat >>> 24).foldl
    (fun n x => match x.row with | some r => n + 8 * r.data.length | none => n) 0

/-- The row of a ROW entry at its commit: retired and SAFE_HELD stations are excluded (R244, R245, R247). -/
def makeRow (s : State) (e : FretE) : RowSt :=
  let m := e.sub.toNat % 16
  let parts := (mapParts s.cfg m).filter fun p => let x := (s.sta p.1).state; x != 4 && x != 3
  { id := s.fret.nextRow, parts := parts, data := canBytes s e.word.toNat (mapLen s.cfg m), commitAt := s.now }

/-- The entry of a row. -/
def rowEntry (s : State) (id : BitVec 16) : Option FretE :=
  s.fret.queue.find? fun e => match e.row with | some r => r.id == id | none => false

/-- The row of an id changed by `f`. -/
def modRow (s : State) (id : BitVec 16) (f : RowSt → RowSt) : State :=
  s.onFret fun q => { q with queue := q.queue.map fun e => match e.row with
    | some r => if r.id = id then { e with row := some (f r) } else e
    | none => e }

/-- A row whose stations have all confirmed is armed: the firing instant of its entry (R241, R249), which comes no earlier than
the reference of its shaft (R232). -/
def armRow (s : State) (id : BitVec 16) : State :=
  match rowEntry s id with
  | none => s
  | some e =>
    match e.row with
    | none => s
    | some r =>
      if r.armed || !e.judged || !(r.parts.all fun p => p.2.2 ≤ tabGet 0 r.acked p.1) then s
      else
        let s := dropRow s id
        s.onFret fun q => { q with queue := q.queue.map fun x =>
          if x.num = e.num then { x with fired := true, row := some { r with armed := true, reports := r.parts.map (·.1) } } else x }

/-- The entry of the queue with a number becomes `o`, or goes. -/
def putEntry (s : State) (num : Nat) (o : Option FretE) : State :=
  s.onFret fun f => { f with queue := f.queue.flatMap fun x => if x.num = num then o.toList else [x] }

/-- Entries of a shaft that has just been referenced are judged; a row that its stations have confirmed by then is armed
(R232, R249). -/
def judgeShaft (s : State) (sh : Nat) : State :=
  let s := s.fret.queue.foldl (fun s e =>
    if e.shaft.val = sh && !e.judged then
      let (s, o) := judge s e
      putEntry s e.num o
    else s) s
  s.fret.queue.foldl (fun s e => match e.row with | some r => if e.shaft.val = sh then armRow s r.id else s | none => s) s

/-- The lines of the buffer of a ROW entry of `n` bytes. -/
def bufferLines (e : FretE) (n : Nat) : List Nat :=
  let a := e.word.toNat
  if n = 0 then [] else (List.range ((a + n - 1) / 64 + 1 - a / 64)).map (a / 64 + ·)

/-- A ROW entry gets its row, and the fret engine holds the lines of its buffer (R245). -/
def rowEnter (s : State) (e : FretE) : State × FretE :=
  let r := makeRow s e
  let s := s.onFret fun f => { f with nextRow := f.nextRow + 1 }
  ((bufferLines e r.data.length).foldl (holdLine r.id) s, { e with row := some r })

/-- An entry enters the queue at its commit (R235); a row without a station is confirmed at once (R249). -/
def fretEnter (s : State) (e : FretE) : State :=
  let drop (why : Nat) : State :=
    record (s.onFret fun f => { f with dropCount := satInc f.dropCount }) 0x0403 [.b1 e.task, .b4 e.key.toNat, .b1 why]
  if 65536 ≤ fretUsed s then drop 1
  else if e.kind = 2 && decide (262144 < rowBits s e + 8 * mapLen s.cfg (e.sub.toNat % 16)) then drop 2
  else
    let e := { e with num := s.fret.nextNum }
    let s := s.onFret fun f => { f with nextNum := f.nextNum + 1 }
    let (s, e) := if e.kind = 2 then rowEnter s e else (s, e)
    let (s, o) := if (s.shaft e.shaft.val).referenced then judge s e else (s, some e)
    let s := s.onFret fun f => { f with queue := f.queue ++ (match o with | some x => [x] | none => []) }
    match e.row with | some r => if r.parts.isEmpty then armRow s r.id else s | none => s

/-- A cancellation takes effect at its commit (R255): it counts what has fired, also what is consumed already. A REPEAT entry
counts as ABORTED whether it has fired or not, and goes at once (DESIGN CHOICE, log entry 90). -/
def fretCancel (s : State) (task : Nat) (key : Word) : State :=
  let mine (e : FretE) : Bool := e.task == task && e.key == key
  let late := (s.fret.queue.filter fun e => mine e && e.fired && !e.repeats).length + (s.fret.spent.filter (· == (task, key))).length
  let gone := (s.fret.queue.filter fun e => mine e && !(e.fired && !e.repeats)).length
  let s := cancelFrets s mine
  let s := s.onFret fun f => { f with
    aborted := satAdd f.aborted gone
    abortLate := satAdd f.abortLate late
    spent := f.spent.filter (· != (task, key)) }
  record s 0x0404 [.b1 task, .b4 key.toNat, .b4 gone, .b4 late]

/-! ## Rows -/

/-- A row that is missed: counted, recorded, and the tasks of source 0x4 triggered (R251). -/
def rowMissed (s : State) (e : FretE) (r : RowSt) : State :=
  let open_ := (r.parts.filter fun p => !(p.2.2 ≤ tabGet 0 r.acked p.1)).map (·.1)
  let bits := (List.range 32).map fun j => BitVec.ofNat 8 (((List.range 8).map fun b => b2n (open_.contains (8 * j + b)) * 2 ^ b).foldl (· + ·) 0)
  let s := dropRow s r.id
  let s := s.onFret fun f => { f with
    missCount := satInc f.missCount
    queue := f.queue.filter fun x => x.num != e.num }
  let s := record s 0x0401 [.b1 e.shaft.val, .b1 e.task, .b4 e.key.toNat, .b8 e.target.toNat, .set bits]
  raiseSource s 0x4 fun a => a.testBit e.shaft.val

/-- The deadline of a row: its projected crossing less the guard window, the earliest over the ports of its map (R250);
none while its shaft is not referenced (R232). -/
def rowDeadline (s : State) (e : FretE) : Option Nat :=
  let x := s.shaft e.shaft.val
  if x.referenced then
    (e.projected s.cfg x).map (· - ((mapParts s.cfg (e.sub.toNat % 16)).map fun p => pGuard s.cfg (p.1 / 32)).foldl max 0)
  else none

/-- The deadlines of the rows that are not confirmed, evaluated afresh (R250). -/
def rowDeadlines (s : State) : State :=
  s.onFret fun q => { q with queue := q.queue.map fun e => match e.row with
    | some r => if r.armed then e else { e with row := some { r with deadline := rowDeadline s e } }
    | none => e }

/-! ## Evaluation -/

/-- d lies on the side from which an armed entry is crossed (R236). -/
def FretE.before (e : FretE) (d : Int) : Bool := if e.fromBelow then decide (d < 0) else decide (0 < d)

/-- The stamp of an armed OUT entry that fires at this evaluation: its projected crossing where that lies no more than 10 us
ahead, from the approach side (R238); a target that has been crossed with no projected crossing behind it takes the
evaluation instant, for which the spec names no stamp (DESIGN CHOICE, log entry 87) (R242). -/
def outStamp (s : State) (e : FretE) (d : Int) (crossed : Bool) : Option Nat :=
  let x := s.shaft e.shaft.val
  match e.projected s.cfg x with
  | some t =>
    if crossed then some (min t s.now)
    else if e.before d && e.before (e.dist (anchorPos s.cfg e.shaft.val x)) && decide (t ≤ s.now + 10000) then some t
    else none
  | none => if crossed then some s.now else none

/-- One entry at an evaluation at position `pos` (R238-R242): the state, and the entry unless it is consumed. -/
def evalEntry (s : State) (pos : Nat) (e : FretE) : State × Option FretE :=
  let d := e.dist pos
  let d0 := e.lastD
  let e1 := { e with lastD := d }
  let stampLeft := match e.change with | some (_, t) => decide (s.now < t) | none => false
  if e.fired && !e.repeats then
    match e.row with
    | some r =>
      if !r.crossed && e.crosses d0 d then (s, some { e1 with row := some { r with crossed := true } })
      else if r.crossed && r.reports.isEmpty then (spend s e, none)
      else (s, some e1)
    | none => if stampLeft then (s, some e1) else (spend s e, none)
  else if e.armed then
    let passed := (s, some (if e.crossesBack d0 d then { e1 with armed := false } else e1))
    if e.kind = 1 then
      match outStamp s e d (e.crosses d0 d) with
      | some t => let (s, e) := handOff s e1 t false; (s, some e)
      | none => passed
    else if e.crosses d0 d then
      if e.kind = 2 then
        match e.row with
        | some r => (rowMissed s e r, none)
        | none => (s, none)
      else
        let (s, e2) := fireTrig s e1
        if e.repeats then (s, some e2) else (spend s e, none)
    else passed
  else if e.rearms ((2 ^ shHyst s.cfg e.shaft.val : Nat) : Int) d && !stampLeft then
    (s, some { e1 with armed := true, sideNeg := decide (d < 0) })
  else (s, some e1)

/-- The entry of the queue with a number, as it stands now. -/
def entryNow (s : State) (num : Nat) : Option FretE := s.fret.queue.find? fun e => e.num == num

/-- All entries of referenced shafts evaluated in queue order (R232, R238, R241). -/
def evalAll (s : State) : State :=
  s.fret.queue.foldl (fun s e =>
    let x := s.shaft e.shaft.val
    match (entryNow s e.num).filter FretE.judged with
    | some e =>
      if x.referenced && !x.fault && shOn s.cfg e.shaft.val then
        let (s, o) := evalEntry s (shaftPos s e.shaft.val) e
        putEntry s e.num o
      else s
    | none => s) s

/-- At a count edge, changes whose stamp is still to come are projected again (R242). Where the crossing has become infinite
without a reversal the stamp stands (DESIGN CHOICE, log entry 90). -/
def reproject (s : State) (sh : Nat) (reversed : Bool) : State :=
  s.fret.queue.foldl (fun s e =>
    match e.change with
    | some (id, t) =>
      if e.shaft.val = sh && decide (s.now < t) && (entryNow s e.num).isSome then
        if reversed then putEntry (sendChange s e.task (outChange e 3 id t false)) e.num (some { e with change := none })
        else match e.projected s.cfg (s.shaft sh) with
          | some n =>
            if 25 < ((n : Int) - (t : Int)).natAbs then
              putEntry (sendChange s e.task (outChange e 2 id n false)) e.num (some { e with change := some (id, n) })
            else s
          | none => s
      else s
    | none => s) s

/-! ## Encoder errors and references -/

/-- A shaft enters shaft fault (R223): its position holds. -/
def shaftFault (s : State) (n : Nat) : State :=
  let p := shaftPos s n
  let s := s.modShaft n fun x => { x with fault := true, v := 0, acc := 0, holdPos := p }
  let x := s.shaft n
  let s := record s 0x0408 [.b1 n, .b1 x.lastKind.toNat, .b8 p]
  let s := (s.fret.queue.filter fun e => e.shaft.val == n && e.used).foldl (fun s e =>
    match e.row with | some r => rowMissed s e r | none => s) s
  cancelFrets s fun e => e.shaft.val == n

/-- An encoder error: one strike; the third within 60 s of operating time is a shaft fault (R222, R223). -/
def encError (s : State) (n kind : Nat) : State :=
  let s := s.modShaft n fun x => { x with
    strikes := (x.strikes.filter fun t => decide (s.op ≤ t + 60000000000)) ++ [s.op]
    lastKind := BitVec.ofNat 8 kind }
  let x := s.shaft n
  let s := record s 0x0407 [.b1 n, .b1 kind, .b4 x.cnt, .b4 x.strikes.length]
  if 3 ≤ x.strikes.length && !x.fault then shaftFault s n else s

/-- The next count and revolution in a direction (R221). -/
def Shaft.moved (x : Shaft) (n : Nat) (fwd : Bool) : Shaft :=
  if fwd then (if x.cnt + 1 = n then { x with cnt := 0, rev := x.rev + 1 } else { x with cnt := x.cnt + 1 })
  else (if x.cnt = 0 then { x with cnt := n - 1, rev := x.rev - 1 } else { x with cnt := x.cnt - 1 })

/-- Signed count difference to the reference count, nearest way round (R231). -/
def zeroDiff (n cnt z : Nat) : Int :=
  let d : Int := (z : Int) - (cnt : Int)
  if (n : Int) < 2 * d then d - n else if 2 * d < -(n : Int) then d + n else d

/-- A count moved by a correction, the revolution with it. -/
def Shaft.corrected (x : Shaft) (n : Nat) (d : Int) : Shaft :=
  let k := (x.cnt : Int) + d
  if k < 0 then { x with cnt := (k + n).toNat, rev := x.rev - 1 }
  else if (n : Int) ≤ k then { x with cnt := (k - n).toNat, rev := x.rev + 1 }
  else { x with cnt := k.toNat }

/-- A reference edge (R230, R231). The index of a shaft with `REF` = 0 is a reference edge as well (DEDUCED, log entry 87);
in shaft fault, where the position holds, an index mismatch is found and nothing is corrected. The count that `ENC_ERROR`
carries is the one that the correction leaves (DESIGN CHOICE, log entry 90). -/
def referenceEdge (s : State) (n : Nat) : State :=
  let x := s.shaft n
  let s := s.modShaft n fun x => { x with zArmed := false }
  if !x.referenced then
    if x.fault then s
    else
      let s := record s 0x0409 [.b1 n, .b4 x.cnt]
      judgeShaft (s.modShaft n fun x => { x with cnt := shZero s.cfg n, rev := 0, referenced := true }) n
  else
    let d := zeroDiff (shN s.cfg n) x.cnt (shZero s.cfg n)
    let s := if x.fault then s else s.modShaft n fun x => x.corrected (shN s.cfg n) d
    if shZtol s.cfg n < d.natAbs then encError s n 3 else s

/-- Forward is A leading B, unless inverted (R220): the direction of a change of one input. -/
def edgeForward (inv a0 a1 b1 : Bool) : Bool :=
  let f := if a0 != a1 then a1 != b1 else a1 == b1
  if inv then !f else f

end Sys2Proof.Machine
end

