-- ==== Sys2Proof/Machine/LoopLaw.lean ====
section
/-! DEFINITION. The control law of one loop (R324-R332): inputs, coefficient banks, the schedule, the law of
R327 up to its candidate and its completion, and the output formats of R326. -/
namespace Sys2Proof.Machine

/-- A coefficient bank (R325). -/
structure Bank where
  kp : Word
  ki : Word
  kd : Word
  ad : Word
  beta : Word
  gamma : Word
  kff : Word
  umin : Word
  umax : Word
  rmax : Word
  dead : Word
  ys : Word
  yo : Word
  us : Word
  uo : Word
  bumpless : Bool
  deriving DecidableEq, Repr

/-- The bank at an address (R325). -/
def bankAt (s : State) (a : Nat) : Bank :=
  let w (k : Nat) : Word := canWord s (a + 4 * k)
  { kp := w 0, ki := w 1, kd := w 2, ad := w 3, beta := w 4, gamma := w 5, kff := w 6, umin := w 7, umax := w 8,
    rmax := w 9, dead := w 10, ys := w 11, yo := w 12, us := w 13, uo := w 14, bumpless := wbit (w 15) 0 }

/-- A valid bank (R325). -/
def Bank.valid (b : Bank) : Bool :=
  [b.kp, b.ki, b.kd, b.ad, b.beta, b.gamma, b.kff, b.umin, b.umax, b.rmax, b.dead, b.ys, b.yo, b.us, b.uo].all fFin
  && fLe b.umin b.umax && fLe 0 b.ad && fLt b.ad 0x3F800000 && fLe 0 b.rmax && fLe 0 b.dead

/-- The larger of two binary32 values. -/
def fMax (x y : Word) : Word := if fLt x y then y else x
/-- The smaller of two binary32 values. -/
def fMin (x y : Word) : Word := if fLt y x then y else x
/-- x held between two limits. -/
def fClamp (x lo hi : Word) : Word := if fLt x lo then lo else if fLt hi x then hi else x

/-- A process value as binary32 (R326). -/
def rawValue (s : State) (fmt a : Nat) : Word :=
  let h := ofLe (canBytes s a 2)
  match fmt with
  | 0 => canWord s a
  | 1 => fOfInt (toSigned h 16)
  | 2 => fOfInt h
  | _ => fOfInt (canWord s a).toInt

/-- An integer held between two limits. -/
def clampInt (i lo hi : Int) : Int := if i < lo then lo else if hi < i then hi else i

/-- The bytes of an output value u in a format, scaled by a bank (R326). -/
def outValue (b : Bank) (fmt : Nat) (u : Word) : List Byte :=
  let x := fAdd (fMul b.us u) b.uo
  let i := (fToInt x).1.toInt
  match fmt with
  | 0 => leBytes 4 x.toNat
  | 1 => leBytes 2 (BitVec.ofInt 16 (clampInt i (-32768) 32767)).toNat
  | 2 => leBytes 2 (BitVec.ofInt 16 (clampInt i 0 65535)).toNat
  | _ => leBytes 4 (fToInt x).1.toNat

/-- Bytes with their addresses; an address register of 0 is unused and takes none (R343). -/
def atAddr (a : Nat) (l : List Byte) : List (Nat × Byte) :=
  if a = 0 then [] else (List.range l.length).map fun k => (a + k, byteAt l k)

/-- Address registers of a loop (R343). -/
def aPv : Nat := 0
/-- `LOOP_SP` -/
def aSp : Nat := 1
/-- `LOOP_FF` -/
def aFf : Nat := 2
/-- `LOOP_OUT` -/
def aOut : Nat := 3
/-- `LOOP_CMD` -/
def aCmd : Nat := 4
/-- `LOOP_BANK` -/
def aBank : Nat := 5
/-- `LOOP_AUX` -/
def aAux : Nat := 6
/-- `LOOP_SAFE` of a loop. -/
def lSafe (c : Tab Word) (n : Nat) : Word := rGet c 0x060B n
/-- `PV_FMT` -/
def lPvFmt (c : Tab Word) (n : Nat) : Nat := fld (lCfg c n) 22 2
/-- `OUT_FMT` -/
def lOutFmt (c : Tab Word) (n : Nat) : Nat := fld (lCfg c n) 20 2
/-- Address of a loop's bank k, or of the bank of region k of a scheduled loop (R325, R331). -/
def lBankAddr (c : Tab Word) (n k : Nat) : Nat :=
  if lSched c n then lAddr c n aBank + 64 * (1 + k) else lAddr c n aBank + 64 * k
/-- The bytes that write value u of a loop with bank k. -/
def lWrite (s : State) (n k : Nat) (u : Word) : List (Nat × Byte) :=
  atAddr (lAddr s.cfg n aOut) (outValue (bankAt s (lBankAddr s.cfg n k)) (lOutFmt s.cfg n) u)
/-- The bytes that write a loop's safe value, formatted with bank 0 (R343). -/
def lWriteSafe (s : State) (n : Nat) : List (Nat × Byte) := lWrite s n 0 (lSafe s.cfg n)

/-- The process value's group did not arrive complete in the latest cycle at the read point (R330). -/
def pvStale (s : State) (n : Nat) : Bool :=
  wbit (lCfg s.cfg n) 27 && !(s.group (fld (lCfg s.cfg n) 8 6)).cur

/-- The schedule of a scheduled loop: hysteresis, breakpoints and the schedule variable, or none where the line
breaks its layout (R331). -/
def schedLine (s : State) (n : Nat) : Option (Word × List Word × Word) :=
  let a := lAddr s.cfg n aBank
  let r := (canWord s a).toNat
  let h := canWord s (a + 4)
  let bs := (List.range (r - 1)).map fun m => canWord s (a + 8 + 4 * m)
  let sa := (canWord s (a + 36)).toNat
  let v := canWord s sa
  if r < 1 || 8 < r || !fFin h || !fLe 0 h || !(bs.all fFin) || !((List.range (r - 2)).all fun m => fLt (bs.getD m 0) (bs.getD (m + 1) 0))
      || sa % 4 != 0 || (areaOf sa).isNone || !fFin v then none
  else some (h, bs, v)

/-- The region at a state reset: the j with b(j) <= s < b(j + 1) (R332). -/
def regionAt (bs : List Word) (v : Word) : Nat := (bs.filter fun b => fLe b v).length

/-- The region moves by one while its condition holds, at most `fuel` times (R332). -/
def regionMove (h : Word) (bs : List Word) (v : Word) : Nat → Nat → Nat
  | 0, j => j
  | fuel + 1, j =>
    if decide (j < bs.length) && fLe (fAdd (bs.getD j 0) h) v then regionMove h bs v fuel (j + 1)
    else if decide (0 < j) && fLt v (fSub (bs.getD (j - 1) 0) h) then regionMove h bs v fuel (j - 1)
    else j

/-- A state reset (R327, R332): no bumpless event is owed after it but that of the first AUTO sample (R329). -/
def LoopSt.cleared (s : State) (n : Nat) (x : LoopSt) : LoopSt :=
  { x with
    i := 0, d := 0, uPrev := lSafe s.cfg n, held := 0, wPrev := none, bank := none, sat := false, intHeld := false
    bump := false
    region := if lSched s.cfg n then (match schedLine s n with | some (_, bs, v) => regionAt bs v | none => 0) else 0 }

/-- The region of a scheduled loop in this sample and its schedule variable; none where the line breaks its
layout (R331, R332). -/
def schedRegion (s : State) (n : Nat) (x : LoopSt) : Option (Nat × Word) :=
  match schedLine s n with
  | some (h, bs, v) => some (regionMove h bs v 8 (min x.region bs.length), v)
  | none => none

/-- A sample of a loop as far as its candidate v (R327, R333). -/
structure LoopEv where
  st : LoopSt
  bk : Nat
  bank : Bank
  manual : Option Word
  r : Word
  y : Word
  e : Word
  p : Word
  d : Word
  ff : Word
  /-- a bumpless event occurs in this sample -/
  bump : Bool
  /-- it is the first AUTO sample after OFF or FAULT, with `BUMPLESS` = 0: i stays 0 (R329) -/
  first : Bool
  di : Word
  v : Word
  deriving DecidableEq, Repr

/-- What a sample of a loop comes to before its output is formed. -/
inductive LoopOut where
  | safe (st : LoopSt) (r y : Word)
  | held (st : LoopSt) (r y : Word)
  | fault (reason : Nat) (r y : Word)
  | go (e : LoopEv)
  deriving DecidableEq, Repr

/-- The command word's mode: 3 is taken as OFF (R324). -/
def cmdMode (s : State) (n : Nat) : Nat := let m := fld (canWord s (lAddr s.cfg n aCmd)) 0 2; if m = 3 then 0 else m

/-- The evaluation of R327 up to the candidate v; `inj` is the setpoint injection. -/
def loopEval (s : State) (n : Nat) (inj : Word) : LoopOut :=
  let c := s.cfg
  let x := s.loop n
  let mode := cmdMode s n
  let sch : Option (Nat × Word) := if lSched c n then schedRegion s n x else some (0, 0)
  let bk := match sch with
    | some (j, _) => if lSched c n then j else fld (canWord s (lAddr c n aCmd)) 2 1
    | none => 0
  let b := bankAt s (lBankAddr c n bk)
  let r := canWord s (lAddr c n aSp)
  let y := fAdd (fMul b.ys (rawValue s (lPvFmt c n) (lAddr c n aPv))) b.yo
  let f := if wbit (lCfg c n) 28 then canWord s (lAddr c n aFf) else 0
  if mode = 0 || x.mode = 3 then
    .safe { LoopSt.cleared s n x with mode := if mode = 0 then 0 else 3, selected := false, rested := true } r y
  else if sch.isNone then .fault 4 r y
  else if pvStale s n || !fFin y || !fFin r || !fFin f then
    if lHoldMax c n ≤ x.held + 1 then .fault (if pvStale s n then 1 else 2) r y
    else .held { x with held := x.held + 1, mode := BitVec.ofNat 2 mode, sat := false, intHeld := false, selected := false } r y
  else if !b.valid then .fault 3 r y
  else
    let r := fAdd r inj
    let e0 := fSub r y
    let e := if fLe (fAbs e0) b.dead then 0 else e0
    let w := fSub (fMul b.gamma r) y
    let p := fMul b.kp (fSub (fMul b.beta r) y)
    let wp := x.wPrev.getD w
    let d := fAdd (fMul b.ad x.d) (fMul b.kd (fSub w wp))
    let ff := fMul b.kff f
    let auto := mode == 2
    let moved := match x.bank with | some k => k != bk | none => false
    let fresh := x.bank.isNone
    let di := fMul b.ki e
    let first := auto && x.rested && !b.bumpless && !x.bump
    let v := fAdd (fAdd (fAdd (fAdd p x.i) di) d) ff
    .go { st := { x with held := 0, d := d, wPrev := some w, bank := some bk, region := (if lSched c n then bk else 0), mode := BitVec.ofNat 2 mode,
                         lastR := r, lastY := y, rested := false },
          bk := bk, bank := b, manual := if auto then none else some (canWord s (lAddr c n aCmd + 4)),
          r := r, y := y, e := e, p := p, d := d, ff := ff,
          bump := auto && (x.bump || ((moved || fresh) && b.bumpless)), first := first,
          di := if first then 0 else di, v := v }

/-- The rest of R327 for an evaluated loop: `uPrev` is the previous output, `inj` the output injection. Answers
the new state and u. -/
def loopFinish (e : LoopEv) (uPrev inj : Word) : LoopSt × Word :=
  let b := e.bank
  let rl := fLt 0 b.rmax
  let lo := if rl then fMax b.umin (fSub uPrev b.rmax) else b.umin
  let hi := if rl then fMin b.umax (fAdd uPrev b.rmax) else b.umax
  let sum (i : Word) : Word := fAdd (fAdd (fAdd e.p i) e.d) e.ff
  let back (u : Word) : Word := fSub (fSub (fSub u e.p) e.d) e.ff
  let (i, u, heldInt) : Word × Word × Bool := match e.manual with
    | some m => let u := fClamp m lo hi; (back u, u, false)
    | none =>
      if e.bump then let i := back uPrev; (i, fClamp (sum i) lo hi, false)
      else
        let v := fAdd (fAdd (fAdd (fAdd e.p e.st.i) e.di) e.d) e.ff
        let stop := (fLt hi v && fLt 0 e.di) || (fLt v lo && fLt e.di 0)
        let i := fAdd e.st.i (if stop then 0 else e.di)
        (i, fClamp (sum i) lo hi, stop)
  let u1 := fClamp (fAdd u inj) b.umin b.umax
  ({ e.st with
     i := i, uPrev := u1, intHeld := heldInt, sat := fOrd u lo == some 0 || fOrd u hi == some 0,
     bump := if e.manual.isNone then false else e.st.bump }, u1)

/-- A member that is not selected tracks the group output (R333); it has no u of its own, so SAT reads 0 (log entry 62). -/
def loopTrack (e : LoopEv) (u : Word) : LoopSt :=
  { e.st with i := fSub (fSub (fSub u e.p) e.d) e.ff, uPrev := u, selected := false, intHeld := false, sat := false }

end Sys2Proof.Machine
end

