-- ==== Sys2Proof/Machine/LoopOps.lean ====
section
/-! DEFINITION. The loop engine's shared operations: relay tunes (R334-R336), captures (R338-R340), selector
groups (R333), and how the engine stops (R341). -/
namespace Sys2Proof.Machine

/-- A loop event triggers the tasks of source 0x8 (R337). -/
def loopEvent (s : State) (n : Nat) : State := raiseSource s 0x8 fun a => a.testBit 11 || a % 256 == n

/-- Entry of a loop to FAULT: no write, and the control state stands until the next sample (R327, R330). -/
def loopFault (s : State) (n reason : Nat) (r y : Word) : State :=
  let s := s.modLoop n fun x =>
    { x with
      mode := 3, reason := BitVec.ofNat 8 reason, sat := false, intHeld := false, selected := false
      held := if reason = 3 then 0 else if reason = 4 then x.held else x.held + 1
      tune := none, bump := false, rested := true }
  let s := s.onLp fun l => { l with faults := satInc l.faults }
  loopEvent (record s 0x0601 [.b1 n, .b1 reason, .b4 y.toNat, .b4 r.toNat]) n

/-! ## Tunes -/

/-- The 64-byte result line of a tune (R336). -/
def auxLine (s : State) (n st : Nat) (w : List Word) : List (Nat × Byte) :=
  atAddr (lAddr s.cfg n aAux) (padTo 64 (leBytes 4 st ++ w.flatMap fun x => leBytes 4 x.toNat))

/-- A number of the spec as binary32. -/
def fNum (q : Rat) : Word := fRound false q

/-- Ku, Tu, a and the bank values of a finished tune (R334, R335). -/
def tuneResult (c : Tab Word) (n : Nat) (t : Tune) : List Word :=
  let tu := fDiv (fOfInt ((((t.switches.getLast?).getD 0 : Int) - (t.switches.getD 2 0 : Int)))) (fMul (fNum 1000) (fOfInt t.cycles))
  let a := fMul (fNum (1 / 2)) (fSub t.ymax t.ymin)
  let ku := fDiv (fMul (fNum 4) (fAbs t.dr)) (fMul (fNum piRat) (fSqrt (fSub (fMul a a) (fMul t.eps t.eps))))
  let h := fOfInt (kPeriod c (lClass c n))
  let m := t.rule.toNat
  let kp := fMul (if m = 0 then fNum (6 / 10) else if m = 1 then fNum (45 / 100) else fNum (2 / 10)) ku
  let ti := if m = 1 then fDiv tu (fNum (12 / 10)) else fDiv tu (fNum 2)
  let td := if m = 0 then fDiv tu (fNum 8) else if m = 1 then 0 else fDiv tu (fNum 3)
  let nh := fMul (fNum 10) h
  let kps := if t.dr.msb then fNeg kp else kp
  let ki := fDiv (fMul kps h) ti
  let den := fAdd td nh
  let ad := if m = 1 then 0 else fDiv td den
  let kd := if m = 1 then 0 else fDiv (fMul (fMul kps td) (fNum 10)) den
  [ku, tu, a, kps, ki, kd, ad]

/-- A tune of a loop has ended with a status: counted, recorded, and a loop event (R336, R337). -/
def tuneEnded (s : State) (n st : Nat) (ku tu : Word) : State :=
  let s := if st = stDone then s.onLp fun l => { l with tunes := satInc l.tunes } else s
  loopEvent (record s 0x0602 [.b1 n, .b1 st, .b4 ku.toNat, .b4 tu.toNat]) n

/-- A tune of the loop has its result in a sample write set that is still to commit. -/
def tunePending (s : State) (n : Nat) : Bool := s.lp.pend.any fun w => w.tunes.any fun t => t.1 == n

/-- The start of a relay tune: the status at its start, `DONE` where it starts (R334, R336). The loop is in the mode of its
command word unless it is in FAULT; a change of that word's MODE aborts the tune (DEDUCED, log entry 62). -/
def tuneStart (s : State) (n rule cycles : Nat) (dr eps : Word) (limitMs : Nat) : State × Nat :=
  let x := s.loop n
  let refuse (st : Nat) : State × Nat := (tuneEnded s n st 0 0, st)
  if (groupOf s.cfg n).isSome || cmdMode s n == 0 || x.mode == 3 then refuse stDenied
  else if x.tune.isSome || tunePending s n || (match s.lp.cap with | some c => c.loop == n | none => false) then refuse stBusy
  else
    let t : Tune := { rule := BitVec.ofNat 2 rule, cycles := cycles, dr := dr, eps := eps,
                      mode := BitVec.ofNat 2 (cmdMode s n),
                      limitNs := 1000000 * limitMs, startAt := s.now }
    (s.modLoop n fun x => { x with tune := some t }, stDone)

/-- A tune of a loop that stops ends at once; its result line is committed (R336, R341). -/
def tuneEndNow (s : State) (n st : Nat) : State :=
  let s := s.modLoop n fun x => { x with tune := none, bump := true }
  tuneEnded (publishWhole s (auxLine s n st [])) n st 0 0

/-- The running tune of a loop is to end with a status in the loop's next sample (R336). -/
def tuneEndsAs (s : State) (n st : Nat) : State :=
  s.modLoop n fun x => { x with tune := x.tune.map fun t => { t with ending := some st } }

/-- A tune whose end waits in this write set ends `ABORTED` instead: its result line and its status (R19, R336). -/
def LoopWs.abortTune (s : State) (n : Nat) (w : LoopWs) : LoopWs :=
  if (w.tunes.any fun t => t.1 == n) then
    { w with
      aux := (w.aux.filter fun a => a.1 != n) ++ [(n, auxLine s n stAborted [])]
      tunes := w.tunes.map fun t => if t.1 = n then (n, stAborted, 0, 0) else t }
  else w

/-- An abort of the tune of a loop: the status of the abort request (R19, R336). Before the commit point the tune
ends `ABORTED` in the sample write set that holds its status. -/
def tuneAbort (s : State) (n : Nat) : State × Nat :=
  if (s.loop n).tune.isSome then (tuneEndsAs s n stAborted, stDone)
  else if tunePending s n then (s.onLp fun l => { l with pend := l.pend.map (LoopWs.abortTune s n) }, stDone)
  else (s, stAbortLate)

/-- The bias of a tune at this sample: u_prev at its first read point (R334). -/
def Tune.biasAt (t : Tune) (e : LoopEv) : Word := if t.begun then t.bias else e.st.uPrev

/-- The relay's two outputs lie in the limits of the bank; a tune that begins requires it (R336). -/
def Tune.fits (t : Tune) (e : LoopEv) : Bool :=
  let inside (u : Word) : Bool := fLe e.bank.umin u && fLe u e.bank.umax
  t.begun || (inside (fAdd (t.biasAt e) t.dr) && inside (fSub (t.biasAt e) t.dr))

/-- A sample of a tuning loop that has been evaluated: the new loop state, the output, the result line if one is
written, and the tune's end (R334, R336). The first output of b + dr counts as a rising switch, as in the case of
R341. -/
def tuneSample (s : State) (n : Nat) (t : Tune) (e : LoopEv) :
    LoopSt × Word × Option (List (Nat × Byte)) × Option (Nat × Word × Word) :=
  let b := t.biasAt e
  let side := if fLt t.eps e.e then some true else if fLt e.e (fNeg t.eps) then some false else t.side
  let u := match side with | some true => fAdd b t.dr | some false => fSub b t.dr | none => e.st.uPrev
  let rising := side == some true && t.side != some true
  let sw := if rising then t.switches ++ [s.now] else t.switches
  let count := sw.length
  let fresh := rising && count == 3
  let ymin := if fresh || count < 3 then e.y else fMin t.ymin e.y
  let ymax := if fresh || count < 3 then e.y else fMax t.ymax e.y
  let t1 : Tune := { t with begun := true, bias := b, side := side, switches := sw, ymin := ymin, ymax := ymax }
  let st : LoopSt := { e.st with uPrev := u, tune := some t1, sat := false, intHeld := false }
  if rising && 3 + t.cycles ≤ count then
    let r := tuneResult s.cfg n t1
    let st : LoopSt := { st with tune := none, bump := true }
    if fLe (r.getD 2 0) t.eps then (st, u, some (auxLine s n stCheckFail []), some (stCheckFail, 0, 0))
    else (st, u, some (auxLine s n stDone r), some (stDone, r.getD 0 0, r.getD 1 0))
  else (st, u, if t.begun then none else some (auxLine s n 0xFF []), none)

/-! ## Captures -/

/-- First address of the capture buffer and its length. -/
def capBuf (c : Tab Word) : Nat × Nat := ((rGet c 0x0620 0).toNat, fld (rGet c 0x0621 0) 0 22)

/-- The header line of a capture (R339). -/
def capHeader (s : State) (c : Cap) (st count : Nat) : List (Nat × Byte) :=
  atAddr (capBuf s.cfg).1 (padTo 64 (leBytes 4 st ++ leBytes 4 c.loop ++ leBytes 8 c.firstAt
    ++ leBytes 4 (kPeriod s.cfg (lClass s.cfg c.loop)) ++ leBytes 4 c.dec ++ leBytes 4 (c.form.toNat + 16 * b2n c.atSp)
    ++ leBytes 4 c.amp.toNat ++ leBytes 4 c.par.toNat ++ leBytes 4 count))

/-- The injected signal at the present index (R338). -/
def capSignal (c : Cap) : Word :=
  let k := c.k
  let p := c.par.toNat
  match c.form.toNat with
  | 1 => if p ≤ k then c.amp else 0
  | 2 => if k % p < p / 2 then c.amp else fNeg c.amp
  | 3 => if c.lfsr.getLsbD 8 then c.amp else fNeg c.amp
  | 4 => fMul c.amp (fSine k p)
  | _ => 0

/-- The index of a capture advanced by one sample, and its PRBS register every K samples (R338). -/
def Cap.advance (c : Cap) : Cap :=
  { c with
    k := c.k + 1
    lfsr := if (c.k + 1) % c.par.toNat = 0 then (c.lfsr <<< 1) ||| (if c.lfsr.getLsbD 8 != c.lfsr.getLsbD 4 then 1 else 0) else c.lfsr }

/-- The injection of the capture into a loop: at the setpoint and at the output. -/
def capInject (s : State) (n : Nat) : Word × Word :=
  match s.lp.cap with
  | some c => if c.loop = n && c.form != 0 then (if c.atSp then (capSignal c, 0) else (0, capSignal c)) else (0, 0)
  | none => (0, 0)

/-- A capture has ended with a status (R337, R340). -/
def capEnded (s : State) (n st count : Nat) : State := loopEvent (record s 0x0603 [.b1 n, .b1 st, .b4 count]) n

/-- The capture buffer holds that many records (R340). -/
def capRoom (s : State) (records : Nat) : Bool := decide (64 + 16 * records ≤ (capBuf s.cfg).2)

/-- The start of a capture: the status at its start (R338, R340). -/
def capStart (s : State) (n form : Nat) (atSp : Bool) (dec : Nat) (amp par : Word) (records : Nat) : State × Nat :=
  let permit := match activeHdr s with | some h => h.testPermit | none => false
  if !capRoom s records then (capEnded s n stBadForm 0, stBadForm)
  else if form != 0 && !fZero amp && !permit then (capEnded s n stDenied 0, stDenied)
  else if s.lp.cap.isSome then (capEnded s n stBusy 0, stBusy)
  else
    let c : Cap := { loop := n, form := BitVec.ofNat 4 form, atSp := atSp, dec := max 1 dec, amp := amp,
                     par := par, records := records }
    (s.onLp fun l => { l with cap := some c }, stDone)

/-- An abort of the capture of a loop: the status of the abort request (R19, R340). -/
def capAbort (s : State) (n : Nat) : State × Nat :=
  match s.lp.cap with
  | some c =>
    if c.loop = n then
      let s := s.onLp fun l => { l with
        cap := none
        capDone := 0
        pend := l.pend.map fun w => { w with capEnds := none, capHead := [] } }
      (capEnded (publishWhole s (capHeader s c stAborted 0)) n stAborted 0, stDone)
    else (s, stAbortLate)
  | none => (s, stAbortLate)

/-- One sample of the captured loop: its record; the header with, in the final block, the last record; and the
capture that ends with it (R339, R340). -/
def capSample (s : State) (n : Nat) (r y u : Word) : State × List (Nat × Byte) × List (Nat × Byte) × Option (Nat × Nat) :=
  match s.lp.cap with
  | some c =>
    if c.loop != n || c.records ≤ c.done && c.begun then (s, [], [], none)
    else
      let c1 : Cap := if c.begun then c else { c with begun := true, firstAt := s.now }
      let head := if c.begun then [] else capHeader s c1 0xFF 0
      let takes := c1.done < c1.records && c1.k % c1.dec = 0
      let rec_ := if takes then atAddr ((capBuf s.cfg).1 + 64 + 16 * c1.done)
          (leBytes 4 c1.k ++ leBytes 4 r.toNat ++ leBytes 4 y.toNat ++ leBytes 4 u.toNat) else []
      let c2 := { c1 with done := c1.done + b2n takes }
      let ends := c2.records ≤ c2.done
      let s := s.onLp fun l => { l with cap := some c2.advance }
      if ends then (s, [], rec_ ++ capHeader s c2 stDone c2.records, some (n, c2.records)) else (s, rec_, head, none)
  | none => (s, [], [], none)

/-! ## One class sample -/

/-- What a class sample has gathered so far. -/
structure LoopAcc where
  s : State
  bytes : List (Nat × Byte) := []
  tunes : List (Nat × Nat × Word × Word) := []
  aux : List (Nat × List (Nat × Byte)) := []
  capEnds : Option (Nat × Nat) := none
  capHead : List (Nat × Byte) := []
  /-- evaluated members of groups that are not yet resolved -/
  members : List (Nat × LoopOut) := []

/-- Bytes added to the write set. -/
def LoopAcc.add (a : LoopAcc) (b : List (Nat × Byte)) : LoopAcc := { a with bytes := a.bytes ++ b }

/-- The capture sees a sample of loop `n`. -/
def LoopAcc.capture (a : LoopAcc) (n : Nat) (r y u : Word) : LoopAcc :=
  let (s, b, h, e) := capSample a.s n r y u
  { a with s := s, bytes := a.bytes ++ b, capHead := a.capHead ++ h, capEnds := a.capEnds.orElse fun _ => e }

/-- The tune of loop `n` ends in this sample with a status and no results; the loop resumes its mode with a
bumpless event (R336). -/
def LoopAcc.endTune (a : LoopAcc) (n st : Nat) : LoopAcc :=
  { a with
    s := a.s.modLoop n fun x => { x with tune := none, bump := true }
    tunes := a.tunes ++ [(n, st, 0, 0)]
    aux := a.aux ++ [(n, auxLine a.s n st [])] }

/-- A region change is recorded (R332). -/
def LoopAcc.region (a : LoopAcc) (n : Nat) (e : LoopEv) : LoopAcc :=
  let x := a.s.loop n
  if lSched a.s.cfg n && x.region != e.st.region then
    { a with s := record a.s 0x0604 [.b1 n, .b1 x.region, .b1 e.st.region, .b4 ((schedRegion a.s n x).getD (0, 0)).2.toNat] }
  else a

/-- The status with which the tune of a loop ends at this sample before the law is run: an abort or the duration
limit, a change of `MODE`, or an entry to FAULT (R336; the fault: log entry 62). -/
def tuneStops (s : State) (n : Nat) (o : LoopOut) : Option Nat :=
  match (s.loop n).tune with
  | some t =>
    match t.ending with
    | some st => some st
    | none =>
      if BitVec.ofNat 2 (cmdMode s n) != t.mode then some stAborted
      else
        match o with
        | .fault _ _ _ => some stAborted
        | .go e => if t.fits e then none else some stBadForm
        | _ => none
  | none => none

/-- A loop that is in no group completes its sample (R327, R330, R334). -/
def LoopAcc.single (a : LoopAcc) (n : Nat) : LoopAcc :=
  let (isp, iout) := capInject a.s n
  let o := loopEval a.s n isp
  let a := match tuneStops a.s n o with | some st => a.endTune n st | none => a
  let x := a.s.loop n
  match o with
  | .safe st r y => ({ a with s := a.s.modLoop n fun _ => { st with tune := x.tune } }.add (lWriteSafe a.s n)).capture n r y (lSafe a.s.cfg n)
  | .held st r y => { a with s := a.s.modLoop n fun _ => { st with tune := x.tune, bump := x.bump } }.capture n r y x.uPrev
  | .fault k r y => { a with s := loopFault a.s n k r y }.capture n r y x.uPrev
  | .go e =>
    let a := a.region n e
    match x.tune with
    | some t =>
      let (st, u, line, fin) := tuneSample a.s n t e
      let a := { a with
        s := a.s.modLoop n fun _ => st
        tunes := a.tunes ++ (match fin with | some f => [(n, f)] | none => [])
        aux := a.aux ++ (match line with | some l => [(n, l)] | none => []) }
      (a.add (lWrite a.s n e.bk u)).capture n e.r e.y u
    | none =>
      let e := { e with bump := e.bump || (e.manual.isNone && x.bump), st := { e.st with tune := none, bump := x.bump } }
      let (st, u) := loopFinish e e.st.uPrev iout
      ({ a with s := a.s.modLoop n fun _ => st }.add (lWrite a.s n e.bk u)).capture n e.r e.y u

/-- The selected member: the AUTO member with the smallest v, or the largest; ties to the lowest number (R333). -/
def groupPick (max_ : Bool) : List (Nat × LoopEv) → Option (Nat × LoopEv)
  | [] => none
  | m :: r => match groupPick max_ r with
    | none => some m
    | some b => if (if max_ then fLt m.2.v b.2.v else fLt b.2.v m.2.v) then some b else some m

/-- A group is resolved after its highest-numbered member (R333). A member in AUTO that is held supplies no candidate, and
keeps MANUAL members from supplying u: the group writes nothing then. `GROUP_SAFE` is formatted with bank 0 and `OUT_FMT`
of the lowest-numbered member, `GROUP_OUT` with `OUT_FMT` of the selected one (DESIGN CHOICE, log entry 92). -/
def LoopAcc.group (a : LoopAcc) (g : Nat) : LoopAcc :=
  let c := a.s.cfg
  let ms := a.members.filter fun m => (gpMembers c g).contains m.1
  let a := { a with members := a.members.filter fun m => !(gpMembers c g).contains m.1 }
  let evs : List (Nat × LoopEv) := ms.filterMap fun m => match m.2 with | .go e => some (m.1, e) | _ => none
  let held := ms.any fun m => match m.2 with | .held _ _ _ => true | _ => false
  let heldAuto := ms.any fun m => match m.2 with | .held st _ _ => st.mode == 2 | _ => false
  let up := tabGet (0 : Word) a.s.lp.groupU g
  let up := if a.s.lp.groupSeen.contains g then up else rGet c 0x061D g
  let low := ((gpMembers c g).foldl min 255)
  let chosen : Option (Nat × LoopEv) := match groupPick (gpMax c g) (evs.filter fun e => e.2.manual.isNone) with
    | some m => some m
    | none => if heldAuto then none else (evs.filter fun e => e.2.manual.isSome).head?
  let a := ms.foldl (fun (a : LoopAcc) (m : Nat × LoopOut) => match m.2 with
    | .safe st r y => ({ a with s := a.s.modLoop m.1 fun _ => st }).capture m.1 r y (lSafe c m.1)
    | .held st r y => ({ a with s := a.s.modLoop m.1 fun _ => st }).capture m.1 r y (a.s.loop m.1).uPrev
    | .fault k r y => ({ a with s := loopFault a.s m.1 k r y }).capture m.1 r y (a.s.loop m.1).uPrev
    | .go e => a.region m.1 e) a
  match chosen with
  | some (n, e) =>
    let (st, u) := loopFinish e up (capInject a.s n).2
    let a := { a with s := a.s.modLoop n fun _ => { st with selected := true } }
    let a := (evs.filter fun m => m.1 != n).foldl (fun a m =>
      { a with s := a.s.modLoop m.1 fun _ => loopTrack m.2 u }) a
    let a := evs.foldl (fun a m => a.capture m.1 m.2.r m.2.y u) a
    { a with s := a.s.onLp fun l => { l with groupU := tabSet 0 g u l.groupU, groupSeen := if l.groupSeen.contains g then l.groupSeen else g :: l.groupSeen } }.add
      (atAddr (rGet c 0x061C g).toNat (outValue e.bank (lOutFmt c n) u))
  | none =>
    if held then evs.foldl (fun a m =>
      { a with s := a.s.modLoop m.1 fun _ => loopTrack m.2 up }.capture m.1 m.2.r m.2.y up) a
    else
      let u := rGet c 0x061D g
      { a with s := a.s.onLp fun l => { l with groupU := tabSet 0 g u l.groupU, groupSeen := if l.groupSeen.contains g then l.groupSeen else g :: l.groupSeen } }.add
        (atAddr (rGet c 0x061C g).toNat (outValue (bankAt a.s (lBankAddr c low 0)) (lOutFmt c low) u))

/-- One loop of a class sample, in its turn (R322, R333). -/
def LoopAcc.loop (a : LoopAcc) (n : Nat) : LoopAcc :=
  match groupOf a.s.cfg n with
  | none => a.single n
  | some g =>
    let o := loopEval a.s n (capInject a.s n).1
    let a := { a with members := a.members ++ [(n, o)] }
    if (gpMembers a.s.cfg g).all (· ≤ n) then a.group g else a

/-- The loops sample in this state (R341). -/
def loopRuns (s : State) (n : Nat) : Bool :=
  lOn s.cfg n && (match s.dev.state with
    | .run => true
    | .hold => !wbit (rGet s.cfg 0x0015 0) 1
    | .clearing => lBasic s.cfg n
    | _ => false)

/-- Enabled loops in classes 0 to k. -/
def loopsUpTo (c : Tab Word) (k : Nat) : Nat := ((lAll c).filter fun n => decide (lClass c n ≤ k) && kOn c (lClass c n)).length

/-- A sample write set takes effect: its bytes, and the tunes and the capture that end with it (R322, R336, R340). -/
def loopWsCommit (s : State) (w : LoopWs) : State :=
  let all := w.bytes ++ (w.aux.flatMap fun a => a.2) ++ w.capHead
  let s := publishWhole s all
  let s := s.modTask 64 fun x => { x with live := true, lastCommit := some s.now }
  let s := w.tunes.foldl (fun s t => tuneEnded s t.1 t.2.1 t.2.2.1 t.2.2.2) s
  match w.capEnds with
  | some (n, k) => capEnded (s.onLp fun l => { l with cap := none, capDone := k }) n stDone k
  | none => s

/-- A sample write set is discarded: the tunes and the capture that would have ended with it end `ABORTED`
(R19, R341). -/
def loopWsDrop (s : State) (w : LoopWs) : State :=
  let s := w.tunes.foldl (fun s t => tuneEndNow s t.1 stAborted) s
  match w.capEnds with
  | some (n, _) => (capAbort s n).1
  | none => s

/-- The sample write sets that are due commit, the others are discarded (R341). -/
def loopFlush (s : State) : State :=
  let due := s.lp.pend.filter fun w => w.at_ ≤ s.now
  let late := s.lp.pend.filter fun w => !decide (w.at_ ≤ s.now)
  late.foldl loopWsDrop ((due.foldl loopWsCommit s).onLp fun l => { l with pend := [] })

/-- Tunes and captures of the loops named are aborted (R341). -/
def loopAborts (s : State) (sel : Nat → Bool) : State :=
  let s := (lAll s.cfg).foldl (fun s n => if sel n && (s.loop n).tune.isSome then tuneEndNow s n stAborted else s) s
  match s.lp.cap with
  | some c => if sel c.loop then (capAbort s c.loop).1 else s
  | none => s

/-- The safe bytes of the outputs of the loops named, in one write set (R341). -/
def loopSafeBytes (s : State) (sel : Nat → Bool) : List (Nat × Byte) :=
  let c := s.cfg
  ((lAll c).flatMap fun n => if sel n && (groupOf c n).isNone then lWriteSafe s n else []) ++
  ((List.range 32).flatMap fun g =>
    let low := (gpMembers c g).foldl min 255
    if gpOn c g && sel low then
      atAddr (rGet c 0x061C g).toNat (outValue (bankAt s (lBankAddr c low 0)) (lOutFmt c low) (rGet c 0x061D g))
    else [])

/-- The loops named stop with their outputs at their safe values (R43 step 5, R50, R341). The commands of one instant are
ordered by the queue: what a transition queued after a reader of the same ns commits counts as a later commit (log entry
17). -/
def loopStop (s : State) (sel : Nat → Bool) : State :=
  let s := loopAborts (loopFlush s) sel
  let s := publishWhole s (loopSafeBytes s sel)
  (lAll s.cfg).foldl (fun s n => if sel n then s.modLoop n fun x => { LoopSt.cleared s n x with mode := if x.mode = 3 then 3 else 0, selected := false } else s) s

/-- The entry to HOLD with `LOOPS_HOLD` = 1 (R341). -/
def loopFreeze (s : State) : State := loopAborts (loopFlush s) fun _ => true

/-- The entry to RUN other than from HOLD: a state reset of every loop (R341). -/
def loopEnterRun (s : State) : State :=
  let s := (lAll s.cfg).foldl (fun s n => s.modLoop n fun x => LoopSt.cleared s n x) s
  s.onLp fun l => { l with groupU := [], groupSeen := [], after := s.now }

end Sys2Proof.Machine
end

