-- ==== Sys2Proof/Machine/Trans.lean ====
section
/-! DEFINITION. Transitions between the states that run a package (R37-R59): the move itself, the stop sequence,
CLEARING, HOLD and RESUME, the entry to RUN, guard stops (R419), and the reaction to Canopy errors (R217). -/
namespace Sys2Proof.Machine

/-- Bits of `DEV_FAULT` (R60). -/
def bTwd : Nat := 0
/-- `GUARD_VOTE` -/
def bGuardVote : Nat := 1
/-- `G_UE` -/
def bGUe : Nat := 2
/-- `NO_SPARE` -/
def bNoSpare : Nat := 3
/-- `CANOPY_UE` -/
def bCanopyUe : Nat := 4
/-- `VOTE3` -/
def bVote3 : Nat := 5
/-- `SVC_LOSS` -/
def bSvcLoss : Nat := 6
/-- `LINE_LOSS` -/
def bLineLoss : Nat := 7

/-- A bit of `DEV_FAULT` is set. -/
def setFault (s : State) (b : Nat) : State :=
  let m : BitVec 8 := BitVec.ofNat 8 (1 <<< b)
  s.onDev fun d => { d with
    fault := d.fault ||| m
    faultSet := (s.op, (if d.faultSet.1 = s.op then d.faultSet.2 else 0) ||| m) }

/-- Leaving CLEARING, the owner lease goes on from where it stood at the entry (R399). -/
def leasesKept (s : State) : State :=
  if s.dev.state == .clearing then
    s.onHost fun h => { h with slots := h.slots.map fun e => (e.1, { e.2 with leaseAt := s.op - leaseUsed s e.2 }) }
  else s

/-- One transition of R37: the state, its bookkeeping, the `STATE_CHANGE` record and cause 1 of every slot. A
cause that R37 does not list for the present state changes nothing. The boot ROM itself records a power-on and a wake,
after it has counted the power cycle (R450). -/
def moveTo (s : State) (cause : Nat) (to_ : DevState) : State :=
  if h : moveOk (BitVec.ofNat 8 cause) s.dev.state to_ = true then
    let d1 : Dev := { s.dev with
      last := { cause := BitVec.ofNat 8 cause, left := s.dev.state, entered := to_, ok := h }
      lastMove := some s.now
      trans := s.dev.trans + 1
      holdLeft := if to_ = .hold then 1000000000 * fld (rGet s.cfg 0x0013 0) 0 12 else 0 }
    let s1 : State := { leasesKept s with dev := d1 }
    let s1 := if cause = 0x01 ∨ cause = 0x02 then s1
      else record s1 0x0001 [.b1 s.dev.state.code, .b1 to_.code, .b1 cause, .b4 d1.fault.toNat]
    seeS (armTasks (raiseIrqAll s1 1))
  else s

/-- RUN, HOLD or CLEARING. -/
def isRunning (s : State) : Bool := s.dev.state == .run || s.dev.state == .hold || s.dev.state == .clearing

/-- The enabled tasks that are not guard tasks. -/
def nonGuardTasks (c : Tab Word) : List Nat := (tAll c).filter fun t => !tGuard c t

/-- Outputs of tasks wait for their first commit (R59). -/
def notLive (s : State) (ts : List Nat) : State := ts.foldl (fun s t => s.modTask t fun x => { x with live := false }) s

/-- The stop sequence (R43). -/
def stopSequence (s : State) (cause : Nat) : State :=
  let fromRun := s.dev.state == .run
  let s := safeFrame s (nonGuardMask s.cfg)
  let s := admSafeAll s
  let s := stopTasks s (nonGuardTasks s.cfg)
  let s := cancelFrets s fun _ => true
  let s := (nonGuardTasks s.cfg).foldl canDrop s
  let s := loopStop s fun _ => true
  let s := notLive s (64 :: nonGuardTasks s.cfg)
  moveTo (exchTransition s fromRun) cause .stop

/-- A guard task becomes guard-stopped (R419): kind 1 miss, 2 overrun, 3 vote or no spare, 4 G error. -/
def guardStop (s : State) (t kind bit : Nat) : State :=
  let s := s.when (guardOwner s.cfg == some t) fun s => safeFrame s (guardMask s.cfg)
  let s := canDrop (admSafeOwned s fun o => o == t) t
  let s := s.modTask t fun x => { x with
    gstop := x.gstop ||| BitVec.ofNat 8 (1 <<< bit)
    live := false
    latched := false }
  record (seeS s) 0x0A01 [.b1 t, .b1 kind]

/-- The task watchdog supervises a task in this state (R56). -/
def supervised (s : State) (t : Nat) : Bool :=
  match s.dev.state with
  | .run => true
  | .hold => true
  | .stop => tGuard s.cfg t
  | .clearing => tGuard s.cfg t || tBasic s.cfg t
  | _ => false

/-- The check-in window of a task that closes now without a commit (R185, R189). -/
def winDue (s : State) (t : Nat) : Option Win :=
  s.seq.wins.find? fun w => w.task == t && decide (w.due ≤ s.now) && !(w.isOpen && (isFrozen s t || (w.due == s.now && hasPassed s t)))

/-- PCs of the lanes of an instance at the close of its window: of its copies, or as they stood at its end (R186). -/
def winPcs (s : State) (w : Win) : List (BitVec 21) :=
  if w.isOpen then (copiesOf s w.task).map fun e => e.2.regs.pc else w.pcs

/-- Lanes of an instance as a record holds them (R458): lane, twin, replay lane, 0xFF for none. -/
def laneItems (l : List Nat) : List RItem := (List.range 3).map fun k => .b1 (l.getD k 0xFF)

/-- The lanes of a window. -/
def winLanes (s : State) (w : Win) : List Nat := if w.isOpen then (copiesOf s w.task).map fun e => e.2.lane else w.lanes

/-- A verdict other than good, without its transition (R185-R187, R419). -/
def verdict (s : State) (w : Win) : State :=
  let t := w.task
  let overran := w.chk
  let s := s.onSeq fun q => { q with
    wins := q.wins.erase w
    lastTwd := 0x80000000 ||| put (if overran then 2 else 1) 29 2 ||| put t 16 6 }
  let s := s.modTask t fun x => if overran then { x with overrun := true } else { x with miss := true }
  let s := record s (if overran then 0x0202 else 0x0201)
    ([.b1 t, .b4 w.num.toNat] ++ laneItems (winLanes s w) ++ (winPcs s w).map fun p => .b4 p.toNat)
  if tGuard s.cfg t then guardStop s t (if overran then 2 else 1) bTwd else s

/-- The window of a task that closes now is decided, where the task is supervised (R56, R185). -/
def decideWin (s : State) (t : Nat) : State :=
  match winDue s t with
  | some w => if supervised s t then verdict s w else s.onSeq fun q => { q with wins := q.wins.erase w }
  | none => s

/-- A STOP trigger is taken at this instant with its fault bit, if any: from RUN, HOLD and CLEARING the stop sequence;
elsewhere the bit alone (R37, R187, R419). -/
def stopNow (s : State) (cause : Nat) (bit : Option Nat) : State :=
  let s := match bit with | some b => setFault s b | none => s
  if isRunning s then stopSequence s cause else s

/-- A supervised window closes at this instant without a commit. -/
def twdDue (s : State) : Bool := (List.range 64).any fun t => (winDue s t).isSome && supervised s t

/-- Every window that closes at this instant is decided, and cause 0x0F is taken, if a miss or an overrun is due (R41,
R186). -/
def judgeTwd (s : State) : State :=
  if twdDue s then stopNow ((List.range 64).foldl decideWin s) 0x0F (some bTwd) else s

/-- The STOP triggers that time alone brings about at this instant are taken before any other: task-watchdog misses and
overruns, then the limit of HOLD (R41). -/
def judgeStops (s : State) : State :=
  let s := judgeTwd s
  if s.dev.state == .hold && s.dev.holdLeft == 0 then stopNow s 0x15 none else s

/-- A STOP trigger takes its place in the order of R41: after the misses and overruns of its instant, and one that comes
behind cause 0x15 after the limit of HOLD; it is then evaluated in the state that those have left (R42). -/
def takeStop (s : State) (cause : Nat) (bit : Option Nat) : State :=
  stopNow (if cause = 0x16 then judgeStops s else judgeTwd s) cause bit

/-- An instance with its deadline and straggler instant moved by the time it was frozen (R46, R305). -/
def Inst.thawed (i : Inst) (now : Nat) : Inst :=
  match i.frozenAt with
  | some f => { i with due := i.due + (now - f), lateAt := i.lateAt + (now - f), frozenAt := none }
  | none => i

/-- Frozen instances continue, their deadlines and windows with the elapsed time kept (R47). -/
def thaw (s : State) : State :=
  let frozen (w : Win) : Option Nat :=
    (([s.inst w.task, s.inst (nextKey w.task)].filterMap id).find? fun i => i.num == w.num).bind fun i => i.frozenAt
  let s := s.onSeq fun q => { q with
    insts := q.insts.map fun e => (e.1, e.2.map fun i => i.thawed s.now)
    wins := q.wins.map fun w => match (if w.isOpen then frozen w else none) with
      | some f => { w with due := w.due + (s.now - f) }
      | none => w }
  decideLanes s (List.range 40)

/-- The tasks that CLEARING stops (R50). -/
def clearedTasks (c : Tab Word) : List Nat := (tAll c).filter fun t => !tGuard c t && !tBasic c t

/-- The entry to CLEARING (R50); `item` names the task or area that caused it. -/
def enterClearing (s : State) (item : Nat) : State :=
  let ts := clearedTasks s.cfg
  let s := stopTasks s ts
  let s := cancelFrets s fun e => ts.contains e.task
  let s := ts.foldl canDrop s
  let s := s.when (match fieldOwner s.cfg with | some o => ts.contains o | none => false) fun s => safeFrame s (nonGuardMask s.cfg)
  let s := admSafeOwned s fun o => ts.contains o
  let s := loopStop s fun n => !lBasic s.cfg n
  let s := notLive s ts
  let s := ts.foldl (fun s t => s.modTask t fun x => { x with cleared := true }) s
  let fromRun := s.dev.state == .run
  let s := record s 0x0006 [.b4 s.dev.fault.toNat, .b1 item]
  thaw (moveTo (exchTransition s fromRun) 0x17 .clearing)

/-- A CLEARING entry condition with its fault bit (R49, R52, R53): the STOP triggers of its instant go before it (R41),
and it is evaluated in the state that they have left (R42). -/
def clearCond (s : State) (bit item : Nat) : State :=
  let s := judgeStops s
  match s.dev.state with
  | .run | .hold => enterClearing (setFault s bit) item
  | .stop | .setup => let s := setFault s bit; record s 0x0007 [.b4 (1 <<< bit)]
  | .clearing => let s := setFault s bit; record s 0x0006 [.b4 s.dev.fault.toNat, .b1 item]
  | _ => s

/-- The entry to HOLD (R45): instances freeze that have a running copy or await their replay; one whose compare is due
completes it. -/
def enterHold (s : State) : State :=
  let open_ (t : Nat) : Bool := (copiesOf s t).any fun e => e.2.ended.isNone
  let awaits (i : Inst) : Bool := match i.phase with | .waitSpare _ => true | .waking _ _ => true | _ => false
  let s := s.onSeq fun q => { q with insts := q.insts.map fun e => (e.1, e.2.map fun i =>
    if (decide (e.1 < 64) && !tGuard s.cfg e.1 && i.phase != .passed && (open_ e.1 || awaits i))
        || (decide (128 ≤ e.1) && !tGuard s.cfg (e.1 - 128)) then { i with frozenAt := some s.now } else i) }
  let s := s.when (wbit (rGet s.cfg 0x0015 0) 1) loopFreeze
  moveTo (exchTransition s true) 0x13 .hold

/-- `RESUME` (R47). -/
def resumeRun (s : State) : State :=
  let s := thaw (s.onSeq fun q => { q with after := s.now })
  moveTo (exchTransition s false) 0x14 .run

/-- The entry to RUN from SETUP, STOP or CLEARING (R37, R59, R167, R174, R341). -/
def enterRun (s : State) (cause : Nat) : State :=
  let waits := match s.dev.state with
    | .clearing => clearedTasks s.cfg
    | .stop => 64 :: nonGuardTasks s.cfg
    | _ => 64 :: tAll s.cfg
  let s := notLive s waits
  let s := (tAll s.cfg).foldl (fun s t => s.modTask t fun x => { x with cleared := false }) s
  let s := loopEnterRun (groupsEnterRun s)
  let s := s.onSeq fun q => { q with after := s.now }
  moveTo (exchTransition s false) cause .run

/-- The reaction to an uncorrectable Canopy error of a word outside or inside G (R217, R419). -/
def ueReact (s : State) (loc : ErrLoc) (finder a : Nat) : State :=
  let s := canUncorrected s loc finder a
  match loc with
  | .area =>
    if Area.g.has a then
      let s := match ownerOf s.cfg a with
        | some t => if t < 64 && tGuard s.cfg t then guardStop s t 4 bGUe else s
        | none => s
      takeStop s 0x11 (some bGUe)
    else clearCond (s.when (Area.q.has a) fun s => admSafeWord s a) bCanopyUe (0x80 + (match areaOf a with | some x => x.code | none => 0))
  | _ => clearCond s bCanopyUe 0x8A

/-- What a reader of a Canopy word, a check or a scrub finds in it (R215, R217). -/
def readFound (s : State) (loc : ErrLoc) (finder a : Nat) (e : Ecc) : State :=
  match e with
  | .none => s
  | .corrected => canCorrected s loc finder a
  | .uncorrectable => ueReact s loc finder a
  | .wrong counted => canWrong s loc finder a counted

/-- One word error found by a check or a scrub (R215, R217). -/
def foundError (s : State) (finder : Nat) (e : EccErr) : State := readFound s e.loc finder e.addr e.ecc

end Sys2Proof.Machine
end

