-- ==== Sys2Proof/Machine/FieldOps.lean ====
section
/-! DEFINITION. The bridge and the field channels: what the logic side presents (R350, R354, R356), what the field
die does with a frame (R351, R355, R359, R361, R363), faults, strikes and retirement (R358, R360). -/
namespace Sys2Proof.Machine

/-! ## The logic side -/

/-- The owner's outputs follow its releases in this state (R56, R59). -/
def ownerFollows (s : State) (o : Nat) : Bool :=
  let x := s.task o
  x.live && x.gstop == 0 && (match s.dev.state with
    | .run | .hold => true
    | .clearing => !x.cleared
    | .stop => decide (o < 64) && tGuard s.cfg o
    | _ => false)

/-- Address of a channel's halfword in the duty line (R356). -/
def dutyAddr (s : State) (k : Nat) : Nat := (rGet s.cfg 0x0704 0).toNat + 2 * k

/-- The duty of a PWM channel lies in an unrepaired Q word: the channel is presented at its safe value (R217). -/
def dutyLost (s : State) (k : Nat) : Bool :=
  chMode (fCfg s.cfg k) == 4 && Area.q.has (dutyAddr s k) && s.can.bad.contains (dutyAddr s k / 4 * 4)

/-- The value and the test request that the logic side presents for a channel (R354, R217). -/
def presented (s : State) (k : Nat) : Bool × Bool :=
  let w := fCfg s.cfg k
  if chGuard w then
    let a := (rGet s.cfg 0x0703 0).toNat
    match guardOwner s.cfg with
    | some o =>
      if ownerFollows s o then
        (if s.can.bad.contains a then chSafe w else (s.seq.shownG.word a).getLsbD k,
         (s.seq.shownG.word (a + 4)).getLsbD k && !s.can.bad.contains (a + 4))
      else (chSafe w, false)
    | none => (chSafe w, false)
  else
    match fieldOwner s.cfg with
    | some o =>
      if ownerFollows s o then
        (if s.can.bad.contains 0x10020000 || dutyLost s k then chSafe w else (shownWord s 0x10020000).getLsbD k,
         (shownWord s 0x10020004).getLsbD k && !s.can.bad.contains 0x10020004)
      else (chSafe w, false)
    | none => (chSafe w, false)

/-- A channel that is no guard channel is presented at its safe value (R56, R217). -/
def presentsSafe (s : State) : Bool :=
  match fieldOwner s.cfg with
  | some o => !ownerFollows s o || s.can.bad.contains 0x10020000
  | none => true

/-- The duty of a channel in the duty line, at most 10,000; a safe value of 1 is presented with the full duty, on
continuously (R356). -/
def dutyOf (s : State) (k : Nat) : BitVec 16 :=
  if (presentsSafe s || dutyLost s k) && chSafe (fCfg s.cfg k) then 10000
  else BitVec.ofNat 16 (min 10000 (ofLe (canBytes s (dutyAddr s k) 2)))

/-- The duty item of a frame: the first PWM channel whose duty has changed, or has not been sent since its
configuration (R356). -/
def dutyItem (s : State) : Option (Nat × BitVec 16) :=
  ((List.range 32).find? fun k => chMode (fCfg s.cfg k) == 4 && tabGet none s.fld.dutySent k != some (dutyOf s k)).map
    fun k => (k, dutyOf s k)

/-- The type of the next down frame (R350). -/
def nextType (s : State) : DownType :=
  if s.dev.state == .boot || s.dev.state == .recovery || s.dev.state == .setup then .idle
  else if s.fld.safeDue.isSome && s.fld.safeTag.ready then .safe
  else if !s.fld.cfgDue.isEmpty then .config
  else if s.fld.relDue != 0 then .release
  else .refresh

/-- The change that goes next: the first of the queue, once it has its tag (R32, R347). -/
def headChange (f : Field) : Option Change := f.changeQ.head?.filter fun c => c.tag.ready

/-- The next down frame (R347). -/
def buildFrame (s : State) : DownFrame :=
  let f := s.fld
  let base : DownFrame := { type := nextType s, seq := f.downSeq + 1, time := s.now }
  let vals := chanMask fun k => (presented s k).1
  match nextType s with
  | .idle => base
  | .safe => { base with values := vals, mask := f.safeDue.getD 0 }
  | .release => { base with values := vals, mask := f.relDue }
  | .config =>
    let n := f.cfgDue.head?.getD 0
    { base with cfg := some (BitVec.ofNat 5 n, fCfg s.cfg n, rGet s.cfg (0x0730 + n) 0, rGet s.cfg 0x0702 0) }
  | .refresh =>
    { base with
      values := vals
      mask := chanMask fun k => (presented s k).2
      duty := (dutyItem s).map fun d => (BitVec.ofNat 5 d.1, d.2)
      change := (headChange f).map fun c => if c.atFrame then { c with stamp := s.now, atFrame := false } else c }

/-- The first 28 bytes of a frame followed by its check value (R346). -/
def withCheck (b : List Byte) : List Byte := b ++ leBytes 4 (crc32c b)

/-- The code of a type of down frame (R347). -/
def DownType.code : DownType → Nat
  | .refresh => 1
  | .safe => 2
  | .config => 3
  | .idle => 4
  | .release => 5

/-- The 32 bytes of a down frame (R346, R347); reserved bytes are 0. -/
def DownFrame.bytes (d : DownFrame) : List Byte :=
  let head (v ch duty : Nat) := leBytes 1 (16 * d.type.code + d.seq.toNat) ++ leBytes 1 (128 * v + ch) ++ leBytes 2 duty ++ leBytes 4 d.time
  withCheck (match d.type, d.cfg with
    | .config, some (n, w, p, f) =>
      head 0 0 0 ++ leBytes 4 w.toNat ++ leBytes 4 p.toNat ++ leBytes 4 f.toNat ++ leBytes 1 n.toNat ++ leBytes 7 0
    | _, _ =>
      (match d.duty with | some (k, v) => head 1 k.toNat v.toNat | none => head 0 0 0)
      ++ leBytes 4 d.values.toNat ++ leBytes 4 d.mask.toNat
      ++ (match d.change with
        | some c => leBytes 4 c.stamp ++ leBytes 2 c.mask.toNat ++ leBytes 2 c.values.toNat
            ++ leBytes 1 (16 * c.id.toNat + 8 * b2n c.half + c.op.toNat) ++ leBytes 3 0
        | none => leBytes 12 0))

/-- The 32 bytes of an up frame (R346, R348); reserved bytes are 0. -/
def UpFrame.bytes (u : UpFrame) : List Byte :=
  withCheck (leBytes 1 (0x80 + u.seq.toNat) ++ leBytes 1 (u.vf.toNat + 16 * b2n u.hot) ++ leBytes 2 u.pending.toNat
    ++ leBytes 4 u.input.toNat ++ leBytes 4 u.readback.toNat ++ leBytes 4 u.edge.toNat ++ leBytes 4 u.fault.toNat
    ++ leBytes 4 u.expired.toNat ++ leBytes 1 u.repCh.toNat ++ leBytes 1 u.repKind.toNat ++ leBytes 2 0)

/-- A frame is on the wire: one frame lasts 1.28 us (R346). -/
def wireBusy (s : State) : Bool := s.fld.wire.any fun x => decide (s.fld.dieNs < x.at_ + 1280)

/-- The tags that a down frame completes: of the SAFE frame itself, or of the delivery that it carries (R31, R32). -/
def frameTags (s : State) (d : DownFrame) : List TagSt :=
  match d.type with
  | .safe => [s.fld.safeTag]
  | .refresh => if d.change.isSome then (s.fld.changeQ.take 1).map (·.tag) else []
  | _ => []

/-- A down frame goes onto the wire: a read point (R34, R350). -/
def sendFrame (s : State) : State :=
  let d := buildFrame s
  let s := endTags s (frameTags s d) stDone
  let s := s.onFld fun f =>
    let f := { f with
      wire := f.wire ++ [{ frame := d, at_ := f.dieNs }]
      downSeq := d.seq
      startDue := decide (d.type = .config) && decide (1 < f.cfgDue.length) }
    match d.type with
    | .safe => { f with safeDue := none, safeTag := .no, startDue := !f.cfgDue.isEmpty }
    | .config => { f with cfgDue := f.cfgDue.drop 1 }
    | .release => { f with relDue := 0 }
    | .refresh => { f with
        changeQ := if d.change.isSome then f.changeQ.drop 1 else f.changeQ
        dutySent := match d.duty with | some (k, v) => tabSet none k.toNat (some v) f.dutySent | none => f.dutySent }
    | .idle => f
  (s.onSeq fun q => { q with readAt := some s.now }).emit (.bridge d.bytes)

/-- The bridge works: the main die is powered, and its clock is locked or it is in BOOT, where the first IDLE frame
starts within 20 us of the reset, before the lock (R350, R509, R510; DEDUCED, log entry 22). -/
def bridgeOn (s : State) : Bool := s.dev.state != .off && s.dev.state != .standby && (s.clk.lock || s.dev.state == .boot)

/-- A start falls due: the frame is sent, or waits for the frame on the wire (R350). -/
def frameStart (s : State) : State :=
  if wireBusy s then s.onFld fun f => { f with startDue := true } else sendFrame s

/-- The input groups of kind 2 end a cycle (R172). -/
def fieldGroups (s : State) (ok : Bool) : State :=
  ((List.range 64).filter fun g => gKind s.cfg g == 2).foldl (fun s g => groupCycle s g ok []) s

/-! ## The field die -/

/-- The mode in effect on a channel (R353, R361). -/
def Chan.mode (x : Chan) : Nat := if x.active then chMode x.cfg else 0
/-- An output channel: OUT, PWM or FRET. -/
def Chan.isOut (x : Chan) : Bool := x.mode == 3 || x.mode == 4 || x.mode == 5
/-- An input channel. -/
def Chan.isIn (x : Chan) : Bool := x.mode == 1 || x.mode == 2

/-- The driver follows the channel's value unless something keeps it off: `power` says that its group has VF and that
the channels are not de-energised (R358-R361, R363). -/
def Chan.drive (x : Chan) (power : Bool) (now : Nat) : Chan :=
  let on := x.isOut && x.value && !x.retired && x.fault == 0 && power && !(x.test.isSome && x.value)
  if on = x.driver then x else { x with driver := on, readback := on, swAt := now }

/-- The PWM frequency of a channel (R365). -/
def Chan.hz (x : Chan) : Nat := orElse (fld x.pwm 0 12) 500

/-- A PWM channel is on at instant `t` of its periods: a phase shorter than 5 us is not produced (R356). -/
def Chan.phaseOn (x : Chan) (t : Nat) : Bool :=
  let d := if x.dutyAt ≤ t then x.dutyNew else x.duty
  let on := 100000 * d.toNat
  let short (n : Nat) : Bool := decide (n < 5000 * x.hz)
  if short on then false
  else if short (1000000000 - on) then true
  else decide ((t - x.pwmAt) * x.hz % 1000000000 < on)

/-- The level that the driver of a channel puts on its pad at instant `t` (R353, R356). -/
def Chan.level (x : Chan) (t : Nat) : Bool := x.driver && (x.mode != 4 || x.cont || x.phaseOn t)

/-- A duty item received: it takes effect at the start of the next period; until then a driver that is on continuously stays
on (R356). -/
def Chan.newDuty (x : Chan) (v : BitVec 16) (t : Nat) : Chan :=
  let k := (t - x.pwmAt) * x.hz / 1000000000
  { x with
    duty := if x.cont then 10000 else if x.dutyAt ≤ t then x.dutyNew else x.duty
    dutyNew := v
    dutyAt := x.pwmAt + ((k + 1) * 1000000000 + x.hz - 1) / x.hz
    cont := false }

/-- The channel has power: its group has VF, and the channels are not de-energised (R358, R361). -/
def chanPower (s : State) (k : Nat) : Bool := !s.fld.vfLost.getLsbD (k / 8) && !s.fld.idle

/-- VF of a channel's group is present. -/
def vfOk (s : State) (k : Nat) : Bool := !s.fld.vfLost.getLsbD (k / 8)

/-- A channel changed by `f`, its driver brought up to date. -/
def onChan (s : State) (k : Nat) (f : Chan → Chan) : State := s.modChan k fun x => (f x).drive (chanPower s k) s.fld.dieNs

/-- What the field die has to tell the logic side (R23). -/
def State.tell (s : State) (n : News) : State := s.onFld fun f => { f with news := f.news ++ [n] }

/-- Strikes that retire a channel and their window in s (R360, R365). -/
def fldStrikes (w : Word) : Nat × Nat := (orElse (fld w 28 4) 3, orElse (fld w 20 8) 60)
/-- The dark-test time in ns (R359, R365). -/
def fldTest (s : State) : Nat := 10000 * orElse (fld s.fld.fldCfg 12 8) 20

/-- Strikes of a channel in the window that ends now. -/
def Chan.recent (x : Chan) (w : Word) (op : Nat) : List Nat :=
  x.strikes.filter fun t => decide (op ≤ t + 1000000000 * (fldStrikes w).2)

/-- A fault of a channel at the field die: driver off, a strike where the kind gives one, and retirement at the limit; the
logic side learns of both. The loss of VF is a state of the group and leaves a fault of another kind to run its time (R358,
R360). -/
def chanFault (s : State) (k kind : Nat) (strike : Bool) : State :=
  let l := (s.chan k).recent s.fld.fldCfg s.op ++ (if strike then [s.op] else [])
  let s := onChan s k fun x =>
    { x with
      fault := if kind = 5 then x.fault else BitVec.ofNat 8 kind
      faultAt := if kind = 5 then x.faultAt else s.fld.dieNs
      lastKind := BitVec.ofNat 8 kind
      test := none
      strikes := l }
  let s := s.onFld fun f => { f with rep := (BitVec.ofNat 8 k, BitVec.ofNat 8 kind) }
  let s := s.tell (.fault k (BitVec.ofNat 8 kind) l.length)
  if strike && decide ((fldStrikes s.fld.fldCfg).1 ≤ l.length) && !(s.chan k).retired then
    (onChan s k fun x => { x with retired := true, input := false }).tell (.retired k (BitVec.ofNat 8 kind))
  else s

/-- The value of a channel set at instant `t`: a PWM channel that comes on begins its first period (R356). -/
def Chan.put (x : Chan) (v : Bool) (t : Nat) : Chan :=
  if v && !x.value && x.mode = 4 then { x with value := v, pwmAt := t, duty := x.dutyNew, dutyAt := t } else { x with value := v }

/-- A channel takes its safe value (R355, R356, R362). -/
def Chan.safe (x : Chan) : Chan := { x with value := chSafe x.cfg, cont := decide (x.mode = 4) && chSafe x.cfg }

/-- A received configuration takes effect, with no duty yet received for it (R361). -/
def Chan.activate (x : Chan) : Chan :=
  match x.newCfg with
  | some (w, p, h) => { x with
      newCfg := none
      cfg := w
      pwm := p
      hold := h
      active := true
      value := chSafe w && chMode w != 1 && chMode w != 2
      dutyNew := 0
      duty := 0
      cont := decide (chMode w = 4) && chSafe w }
  | none => x

/-- A channel takes its presented value: not a FRET channel, not one that has expired (R355, R363). -/
def Chan.take (x : Chan) (v : Bool) (t : Nat) : Chan :=
  if x.mode = 3 || x.mode = 4 then (if x.expired then x.safe else { x.put v t with cont := x.cont && v }) else x

/-- A test-request bit: a rising one starts a dark test on an OUT or FRET channel without a fault (R359). -/
def Chan.request (x : Chan) (r power : Bool) (now : Nat) : Chan :=
  let starts := r && power && !x.testReq && (x.mode == 3 || x.mode == 5) && x.fault == 0 && !x.retired
  { x with testReq := r, test := if starts then some now else x.test }

/-- The channels of a change as a word. -/
def Change.channels (c : Change) : Word := BitVec.ofNat 32 (c.mask.toNat <<< (if c.half then 16 else 0))
/-- The values of a change as a word. -/
def Change.vals (c : Change) : Word := BitVec.ofNat 32 (c.values.toNat <<< (if c.half then 16 else 0))

/-- A change is applied to the FRET channels it names (R355). -/
def applyChange (s : State) (c : Change) : State :=
  (List.range 32).foldl (fun s k =>
    if c.channels.getLsbD k then onChan s k fun x =>
      if x.mode = 5 && !x.expired then { x with value := c.vals.getLsbD k, safeHeld := false } else x
    else s) s

/-- How far the instant of a stamp lies ahead of instant `t`, from the bits of the time base that a frame carries (R347). -/
def ahead (stamp t : Nat) : Int := toSigned ((stamp + 2 ^ 32 - t % 2 ^ 32) % 2 ^ 32) 32

/-- The time counter of the field die (R351). -/
def dieClock (s : State) : Nat := s.fld.dieTime + (s.fld.dieNs - s.fld.dieLastEnd)

/-- Insertion into the order in which changes take effect: by stamp, then by arrival (R355). -/
def insertChange (t : Nat) (c : Change) : List Change → List Change
  | [] => [c]
  | h :: r => if ahead c.stamp t < ahead h.stamp t then c :: h :: r else h :: insertChange t c r

/-- The held changes whose stamp has come at instant `t`, in the order in which they take effect (R355). -/
def dueChanges (s : State) (t : Nat) : List Change :=
  (s.fld.timed.filter fun c => decide (ahead c.stamp t ≤ 0)).foldl (fun l c => insertChange t c l) []

/-- Held changes are applied in their order. -/
def applyHeld (s : State) (l : List Change) : State :=
  l.foldl (fun s c => applyChange (s.onFld fun f => { f with timed := f.timed.erase c }) c) s

/-- A change arrives at instant `t` to be held; one that comes after its stamp, or for which there is no room, is applied
at once, which the logic side will learn and record (R355). -/
def holdChange (s : State) (c : Change) (t : Nat) : State :=
  if ahead c.stamp t < 0 || 16 ≤ s.fld.timed.length then
    applyChange (s.tell (.late c.channels c.stamp t)) c
  else s.onFld fun f => { f with timed := f.timed ++ [c] }

/-- A timed change arrives at the field die at instant `t` (R355): a replacement or a withdrawal acts on a held change
whose stamp lies at least 1 us ahead. -/
def takeChange (s : State) (c : Change) (t : Nat) : State :=
  let mine (h : Change) : Bool := h.id == c.id && decide (1000 ≤ ahead h.stamp t)
  let without (s : State) : State := s.onFld fun f => { f with timed := f.timed.filter fun h => !mine h }
  match c.op.toNat with
  | 1 => holdChange s c t
  | 2 => if s.fld.timed.any mine then holdChange (without s) { c with op := 1 } t else s
  | 3 => without s
  | _ => s

/-- A SAFE frame at the field die: the channels of its mask take their safe values, tests end, and changes of
those channels are withdrawn (R355, R359). -/
def takeSafe (s : State) (m : Word) : State :=
  let strip (c : Change) : Change := { c with mask := c.mask &&& ~~~ (halfMask m c.half) }
  let s := s.onFld fun f => { f with timed := (f.timed.map strip).filter fun c => c.mask != 0 }
  (List.range 32).foldl (fun s k => onChan s k fun x =>
    let x := { x with test := none }
    if m.getLsbD k && x.isOut then { x.safe with safeHeld := x.mode == 5 } else x) s

/-- A fault is present on a channel: of kinds 1 to 4, or the loss of the VF of its group (R358). -/
def chanFaulty (s : State) (k : Nat) : Bool := (s.chan k).fault != 0 || ((s.chan k).mode != 0 && !vfOk s k)

/-- The up frame that answers a valid down frame (R348); `hot` says that the field die is above its temperature limit. -/
def upFrame (s : State) (seq : BitVec 4) (hot : Bool) : UpFrame :=
  let ch (f : Chan → Bool) : Word := chanMask fun k => f (s.chan k)
  { seq := seq, vf := ~~~ s.fld.vfLost, hot := hot,
    pending := BitVec.ofNat 16 (s.fld.timed.foldl (fun n c => n ||| 2 ^ c.id.toNat) 0),
    input := ch fun x => x.isIn && x.input && !x.retired,
    readback := ch fun x => x.isOut && (if x.mode = 4 then x.level s.fld.dieNs else x.readback),
    edge := ch fun x => x.edge, fault := chanMask (chanFaulty s), expired := ch fun x => x.expired,
    repCh := s.fld.rep.1, repKind := s.fld.rep.2 }

/-- Every channel is de-energised while IDLE frames come; a channel takes its next value from a later frame (R350, R361). -/
def dieIdle (s : State) : State :=
  (List.range 32).foldl (fun s k => onChan s k fun x => { x with value := false, cont := false })
    (s.onFld fun f => { f with idle := true })

/-- The channels are no longer de-energised. -/
def dieWakes (s : State) : State := s.onFld fun f => { f with idle := false }

/-- The received configuration takes effect (R361). A channel whose group has no VF then has the fault of kind 5 (R492). -/
def dieConfigs (s : State) : State :=
  let new := (List.range 32).filter fun k => (s.chan k).newCfg.isSome
  let s := s.onFld fun f => { f with fldCfg := f.newFldCfg.getD f.fldCfg, newFldCfg := none }
  let s := new.foldl (fun s k => onChan s k Chan.activate) s
  (new.filter fun k => (s.chan k).mode != 0 && !vfOk s k).foldl (fun s k => chanFault s k 5 false) s

/-- The effect of a valid down frame that ends at instant `t` on the channels (R347, R351). The hold limit of a guard channel
is bounded by the budget of the package that configures it (R362). -/
def dieActs (s : State) (d : DownFrame) (t : Nat) : State :=
  let each (s : State) (f : Nat → Chan → Chan) : State := (List.range 32).foldl (fun s k => onChan s k (f k)) s
  let n := s.fld.dieNs
  match d.type with
  | .idle => dieIdle s
  | .config =>
    match d.cfg with
    | some (k, w, p, f) =>
      (s.modChan k.toNat fun x => { x with newCfg := some (w, p, chHold s.cfg w) }).onFld fun q => { q with newFldCfg := some f }
    | none => s
  | .refresh =>
    let s := dieConfigs (dieWakes s)
    let s := each s fun k x => (x.take (d.values.getLsbD k) n).request (d.mask.getLsbD k) (vfOk s k) n
    let s := match d.duty with | some (k, v) => s.modChan k.toNat fun x => x.newDuty v n | none => s
    (match d.change with | some c => takeChange s c t | none => s)
  | .safe => takeSafe (each (dieConfigs (dieWakes s)) fun k x => x.take (d.values.getLsbD k) n) d.mask
  | .release =>
    each (dieWakes s) fun k x =>
      (if d.mask.getLsbD k then { x with expired := false, cont := false } else x).take (d.values.getLsbD k) n

/-- A retired channel leaves retirement (R360). -/
def Chan.readmit (x : Chan) : Chan := if x.retired then { x with retired := false, strikes := [], fault := 0 } else x

/-- The channels of a mask leave retirement in a table of channels. -/
def readmitIn (m : Word) (v : Tab Chan) : Tab Chan :=
  (List.range 32).foldl (fun v k => if m.getLsbD k then tabMod {} k Chan.readmit v else v) v

/-- The channels that the logic side has readmitted leave retirement, as the next valid frame tells the field die (R360). -/
def dieReadmits (s : State) : State :=
  s.onFld fun f => { f with chans := readmitIn f.readmits f.chans, readmits := 0 }

/-- The channels of a mask leave retirement for the logic side at once, whatever an up frame on its way shows of them; the
field die learns of it with the next valid frame (R360, R364). -/
def logicReadmits (f : Field) (m : Word) : Field :=
  { f with
    readmits := f.readmits ||| m
    view := readmitIn m f.view
    answers := f.answers.map fun a => { a with view := readmitIn m a.view } }

/-- What an up frame shows of the channels: each with the level of its driver at that instant. -/
def chanView (s : State) : Tab Chan :=
  s.fld.chans.foldl (fun v e => tabSet {} e.1 { e.2 with driver := e.2.level s.fld.dieNs } v) []

/-- A down frame that has ended reaches the field die: `ok` when its check value verifies (R349, R351). The held changes
whose stamp came before that end have taken effect. Whether the die is above its temperature limit is free (R541). -/
def dieTakes (s : State) (x : Flight) (ok : Bool) : State :=
  let d := x.frame
  let s := s.onFld fun f => { f with wire := f.wire.drop 1 }
  if ok && s.fld.dieSeq != some d.seq then
    let s := applyHeld s (dueChanges s (s.fld.dieTime + (x.at_ + 1280 - s.fld.dieLastEnd)))
    let s := s.onFld fun f => { f with
      dieSeq := some d.seq
      dieLastEnd := x.at_ + 1280
      dieTime := d.time + 1280
      silent := false }
    let s := dieActs (dieReadmits s) d (d.time + 1280)
    let u := upFrame s d.seq (Config.freeBit s.free)
    let v := chanView s
    let s := (List.range 32).foldl (fun s k => s.modChan k fun x => { x with edge := false }) s
    (s.drawn.onFld fun f => { f with
      answers := f.answers ++ [{ frame := some u, at_ := x.at_, view := v, news := f.news }] }).emit (.bridgeUp u.bytes)
  else s.onFld fun f => { f with answers := f.answers ++ [{ frame := none, at_ := x.at_ }] }

/-! ## Supervision -/

/-- The channels of a group that are in use. -/
def groupChans (s : State) (g : Nat) : List Nat :=
  ((List.range 8).map (8 * g + ·)).filter fun k => (s.chan k).mode != 0

/-- Readmission of a field channel (R360): its status in the order of R18, with the record of R364; `by_` is the task or
slot. -/
def chanReadmit (s : State) (k : Nat) (may : Bool) (by_ : Nat) : State × Nat :=
  let st := if !may then stDenied else if !(s.seenChan k).retired then stNotFound else stDone
  let s := if st = stDone then s.onFld fun f => logicReadmits f (setBit 0 k true) else s
  (record s 0x0705 [.b1 k, .b1 st, .b1 by_], st)

/-- `SAFE_GCH`: guard channels with no fault present and not retired (R420, R433). -/
def guardUsable (s : State) : Word :=
  chanMask fun k => chGuard (fCfg s.cfg k) && !s.fld.seen.fault.getLsbD k && !(s.seenChan k).retired

/-- What the field die tells is recorded (R355, R358, R360). -/
def tellNews (s : State) (n : News) : State :=
  match n with
  | .fault k kind l => record s 0x0703 [.b1 k, .b1 kind.toNat, .b4 l]
  | .retired k kind => record s 0x0704 [.b1 k, .b1 kind.toNat]
  | .late m stamp t => record s 0x0707 [.b4 m.toNat, .b8 stamp, .b8 t]

/-- The logic side learns what came with a valid up frame: the state of the channels, and each piece of news that no earlier
frame has told it (R23). -/
def learn (s : State) (a : Answer) : State :=
  let s := s.onFld fun f => { f with view := a.view }
  a.news.foldl (fun s n =>
    if s.fld.news.contains n then tellNews (s.onFld fun f => { f with news := f.news.erase n }) n else s) s

end Sys2Proof.Machine
end

