-- ==== Sys2Proof/Machine/SysRegs.lean ====
section
/-! DEFINITION. The value that a read of each of the 595 system registers returns (R549-R567 and the register
tables of the chapters). -/
namespace Sys2Proof.Machine

/-! ## Warm images and recorder numbers that registers report -/

/-- Sequence number a is newer than b (R440). -/
def seqNewer (a b : Word) : Bool := let d := (a - b).toNat; decide (1 ≤ d ∧ d < 2 ^ 31)

/-- The newest valid warm image: false A, true B; slot A where both have the same sequence (R455). -/
def newestWarm (s : State) : Option Bool :=
  match s.nv.warmA.valid, s.nv.warmB.valid with
  | true, true => some (seqNewer s.nv.warmB.seq s.nv.warmA.seq)
  | true, false => some false
  | false, true => some true
  | false, false => none

/-- A warm image by slot. -/
def State.warm (s : State) (b : Bool) : Warm := if b then s.nv.warmB else s.nv.warmA

/-- SEQ has wrapped (R457): a record older than the newest one has a larger SEQ. -/
def recWrapped (s : State) : Bool :=
  let old (r : Rec) : Bool := decide (s.nv.newest.toNat < r.seq.toNat) && seqNewer s.nv.newest r.seq
  s.nv.buf.any old || s.nv.recs.any fun e => match e.2 with | some r => old r | none => false

/-- The oldest SEQ reported: the later of newest - 511 and the clear mark (R461); 0 without a record. No SEQ lies before 1
until SEQ has wrapped, and none is 0 (R457). -/
def recOldest (s : State) : Word :=
  if s.nv.newest = 0 then 0
  else
    let far := s.nv.newest - 511
    let lo : Word := if far != 0 && (decide (512 ≤ s.nv.newest.toNat) || recWrapped s) then far else 1
    if s.nv.clearMark = 0 then lo else if seqNewer s.nv.clearMark lo then s.nv.clearMark else lo

/-! ## Modes and small status words -/

/-- The mode in effect of a CAN channel (R371): 0 off, 1 normal, 2 restricted, 3 loopback. -/
def canMode (s : State) (n : Nat) : Nat :=
  let w := cCfg s.cfg n
  if !(wbit w 31) || (s.canCh n).retired || !s.dev.state.served then 0
  else
    let m := fld w 29 2
    if m = 1 && (s.dev.state == .setup || !s.dev.pkgOk) then 2 else m

/-- Strikes of a CAN channel within its window (R379, R381). -/
def canStrikes (s : State) (n : Nat) : List Nat :=
  let w := orElse (fld (rGet s.cfg 0x0802 0) 0 8) 60
  (s.canCh n).strikes.filter fun t => decide (s.op ≤ t + 1000000000 * w)

/-- `LANE_STATn` (R319). -/
def laneStat (s : State) (n : Nat) : Word :=
  let x := s.lane n
  put x.role.code 29 3 ||| put x.cause.toNat 24 3 ||| put (x.acts.getD 0x3F) 16 6 ||| put (min x.life.toNat 255) 8 8
  ||| put (min (laneStrikes s n) 3) 0 2

/-- A map of the lanes lo to lo + n - 1 that are retired; a lane under its `READMIT` test has the role TESTING and reads
0 (R298, R319; DEDUCED, log entry 88). -/
def retiredMap (s : State) (lo n : Nat) : Word :=
  (List.range n).foldl (fun m k => if (s.lane (lo + k)).role == .retired then setBit m k true else m) 0

/-- `TASK_STATn` (R196). -/
def taskStat (s : State) (t : Nat) : Word :=
  let x := s.task t
  put x.fault.toNat 24 8 ||| put x.skips.toNat 16 8
  ||| put (packBits [x.excess, x.late, x.aged, x.stopped, x.overrun, x.miss, (s.inst t).isSome, tEnable s.cfg t]) 0 8

/-- `YL_PORT_STATp` (R295). -/
def portStat (s : State) (p : Nat) : Word :=
  let ks := (List.range 32).map (32 * p + ·)
  put (s.port p).state.toNat 28 4 ||| put (ks.filter fun k => (s.sta k).admitted).length 18 6
  ||| put (min 0xFFFF (ks.foldl (fun m k => max m ((s.sta k).rtt.toNat / 10)) 0)) 0 16

/-- `LOOP_STAT` of a loop (R343). -/
def loopStat (s : State) (n : Nat) : Word :=
  let x := s.loop n
  put x.mode.toNat 30 2 ||| put (b2n x.tune.isSome) 29 1
  ||| put (match s.lp.cap with | some c => b2n (c.loop == n) | none => 0) 28 1
  ||| put (packBits [x.sat, x.intHeld, x.selected]) 25 3 ||| put (x.bank.getD 0) 24 1 ||| put x.held 16 8
  ||| put x.region 8 3 ||| put x.reason.toNat 0 8

/-- `FLD_STATn` (R365): what the latest valid up frame says; and the items for which an up frame has no place, as the field
die holds them. -/
def chanStat (s : State) (k : Nat) : Word :=
  let x := s.seenChan k
  let u := s.fld.seen
  put x.mode 28 4
  ||| put (packBits [x.retired, u.fault.getLsbD k, u.expired.getLsbD k, chGuard (fCfg s.cfg k)]) 24 4
  ||| put (min 15 (x.recent (rGet s.cfg 0x0702 0) s.op).length) 16 4 ||| put x.lastKind.toNat 8 8
  ||| put (packBits [u.readback.getLsbD k, u.input.getLsbD k, x.driver]) 0 3

/-- `CBUS_STATc` (R381). -/
def canStat (s : State) (n : Nat) : Word :=
  let x := s.canCh n
  let st := if x.retired then 5 else if canMode s n = 0 then 0 else x.err.toNat
  put st 29 3 ||| put (canMode s n) 27 2 ||| put (min 7 (canStrikes s n).length) 24 3 ||| put x.recv.toNat 16 8 ||| put x.tec.toNat 0 9

/-- Whole seconds of owner lease left (R387, R399, R415); 0 for a slot that is not OWNER. -/
def leaseLeft (s : State) (x : Slot) : Nat :=
  if x.role = .owner then (60000000000 - leaseUsed s x + 999999999) / 1000000000 else 0

/-- The front end of a slot is up (R415). -/
def slotUp (s : State) (x : Slot) : Bool :=
  match x.front with
  | some f => if f < 4 then x.pcieUp else (match x.qspiAt with | some a => decide (s.op ≤ a + 1000000000) | none => false)
  | none => false

/-- `HOST_SLOTn` (R415). -/
def slotStat (s : State) (n : Nat) : Word :=
  let x := s.slot n
  put (b2n x.front.isSome) 31 1 ||| put (b2n (slotUp s x)) 30 1 ||| put x.role.code 28 2 ||| put x.base.code 26 2
  ||| put (x.front.getD 7) 20 4 ||| put (leaseLeft s x) 0 16

/-- A lockout runs (R429). -/
def lockedOut (s : State) : Bool := decide (s.opSec < s.safe.lockEnd.toNat)

/-- `SAFE_STAT` (R433). -/
def safeStat (s : State) : Word :=
  put (packBits [s.safe.confA.isSome, s.safe.confB.isSome, readySafety s, s.safe.password.isSome, lockedOut s,
    s.pkg.exch.plan.isSome]) 26 6 ||| put (min 0xFFFF s.safe.logCount.toNat) 0 16

/-- The guard-stopped tasks lo to lo + 31 (R433). -/
def gstopMap (s : State) (lo : Nat) : Word := chanMask fun k => (s.task (lo + k)).gstop != 0

/-- The issue letter of the running firmware; 0 in RECOVERY (R60, R489). -/
def fwIssue (s : State) : Nat := if s.dev.state == .recovery then 0 else s.svc.issue.toNat

/-- The module serial number as it reads (R438). -/
def serialNow (s : State) : Nat := if s.nv.identOk then Config.serial.toNat else 0

/-- Timeout of the supervisory watchdog in ms (R483, R488): values outside 1-8,000 are taken as 8,000. -/
def wdMs (v : BitVec 13) : Nat := if v.toNat = 0 ∨ 8000 < v.toNat then 8000 else v.toNat

/-- `SUPWD_STAT` (R488). -/
def wdStat (s : State) : Word :=
  put (packBits [s.wd.enabled, s.wd.suspended, s.wd.clkXfo, s.wd.monOk]) 28 4
  ||| put ((wdMs s.wd.timeout * 1000000 - s.wd.count) / 1000000) 0 13

/-- `RST_SOURCE` (R513). -/
def rstSource (s : State) : Word :=
  put (b2n s.clk.noLock) 31 1 ||| put s.clk.rstClock.toNat 5 3 ||| put s.clk.rstSlot.toNat 3 2 ||| put s.clk.rstSrc.toNat 0 3

/-- `FW_STAT` (R489). -/
def fwStat (s : State) : Word :=
  put s.svc.cap.state.toNat 30 2 ||| put (packBits [s.svc.cap.loader, s.svc.install.isSome, s.svc.refresh.running]) 27 3
  ||| put s.svc.cap.pause 0 16

/-! ## The reader, block by block -/

/-- Registers of blocks 0x0000 and 0x0100 that are not RW. -/
def roBlock01 (s : State) (srn : Nat) : Word :=
  match srn with
  | 0x0000 => 0x5E709632
  | 0x0001 => 0x4100 ||| BitVec.ofNat 32 (fwIssue s)
  | 0x0002 => BitVec.ofNat 32 (serialNow s)
  | 0x0003 => BitVec.ofNat 32 (serialNow s / 2 ^ 32)
  | 0x0004 => if s.nv.identOk then BitVec.ofNat 32 Config.pciVendor.toNat else 0
  | 0x0010 => devStateReg s
  | 0x0011 => devReady s
  | 0x0012 => BitVec.ofNat 32 s.dev.fault.toNat
  | 0x0014 => BitVec.ofNat 32 ((s.dev.holdLeft + 999999999) / 1000000000)
  | 0x0016 => s.dev.trans
  | 0x0100 => 0x04080000
  | 0x0101 => s.ps.ceCount
  | 0x0102 => BitVec.ofNat 32 s.ps.ueCount.toNat
  | 0x0103 => s.ps.lastErr
  | 0x0110 => 0x280408B4
  | 0x0114 => retiredMap s 0 32
  | 0x0115 => retiredMap s 32 8
  | 0x0116 => put s.ln.replays.toNat 16 16 ||| put s.ln.vote3.toNat 8 8 ||| put s.ln.stragglers.toNat 0 8
  | _ => laneStat s (srn - 0x0120)

/-- Registers of blocks 0x0200 and 0x0300 that are not RW. -/
def roBlock23 (s : State) (srn : Nat) : Word :=
  match srn with
  | 0x0200 => 0x40400D10
  | 0x0201 => s.seq.check
  | 0x020F => s.seq.lastTwd
  | 0x0300 => 0x80000400
  | 0x0301 => s.can.check
  | 0x0306 => put (32768 - poolUsed s) 16 16 ||| put s.can.low 0 16
  | 0x0307 => s.can.ceCount
  | 0x0308 => BitVec.ofNat 32 s.can.ueCount.toNat
  | 0x0309 => s.can.lastErr
  | 0x030A => BitVec.ofNat 32 s.ueOpen
  | _ => taskStat s (srn - 0x0240)

/-- Registers of block 0x0400 that are not RW. -/
def roBlock4 (s : State) (srn : Nat) : Word :=
  let n := (srn - 0x0410) / 8
  match srn with
  | 0x0400 => 0x0410400A
  | 0x0401 => s.fret.check
  | 0x0402 => BitVec.ofNat 32 (fretUsed s)
  | 0x0403 => s.fret.missCount
  | 0x0404 => put s.fret.lateCount.toNat 16 16 ||| put s.fret.dropCount.toNat 0 16
  | 0x0405 => put s.fret.abortLate.toNat 16 16 ||| put s.fret.aborted.toNat 0 16
  | _ =>
    match srn % 8 with
    | 3 => shaftStat s n
    | 4 => BitVec.ofNat 32 (shaftPos s n)
    | 5 => BitVec.ofNat 32 (shaftPos s n / 2 ^ 32)
    | 6 => fixedOf (s.shaft n).v 16
    | _ => fixedOf (s.shaft n).acc 24

/-- Registers of blocks 0x0500 and 0x0600 that are not RW. -/
def roBlock56 (s : State) (srn : Nat) : Word :=
  match srn with
  | 0x0500 => 0x08200200
  | 0x0501 => s.yl.check
  | 0x0504 => put s.yl.peak 16 10 ||| put (tagsUsed s).length 0 10
  | 0x0505 => s.yl.waitCount
  | 0x0600 => 0x10082010
  | 0x0601 => s.lp.check
  | 0x060C => loopStat s (rGet s.cfg 0x0602 0).toNat
  | 0x0622 => put s.lp.faults.toNat 16 16 ||| put s.lp.tunes.toNat 0 16
  | _ => portStat s (srn - 0x0518)

/-- Registers of block 0x0700 that are not RW. -/
def roBlock7 (s : State) (srn : Nat) : Word :=
  match srn with
  | 0x0700 => 0x2004100A
  | 0x0701 => s.fld.check
  | 0x0705 => bridgeStat s
  | 0x0706 => s.fld.errs
  | 0x0707 => s.fld.seen.fault
  | 0x0708 => chanMask fun k => (s.seenChan k).retired
  | _ => chanStat s (srn - 0x0750)

/-- Registers of block 0x0800 that are not RW. -/
def roBlock8 (s : State) (srn : Nat) : Word :=
  let n := (srn - 0x0810) / 8
  match srn with
  | 0x0800 => 0x04401000
  | 0x0801 => s.cb.check
  | _ =>
    match srn % 8 with
    | 3 => canStat s n
    | 4 => (s.canCh n).rxCount
    | 5 => (s.canCh n).txCount
    | 6 => put (s.canCh n).errFrames.toNat 16 16 ||| put (s.canCh n).busOffs.toNat 0 16
    | _ => put (s.canCh n).peak 16 7 ||| put ((s.canCh n).queue.length + b2n (s.canCh n).onBus.isSome) 0 7

/-- Registers of blocks 0x0900 and 0x0A00 that are not RW. -/
def roBlock9A (s : State) (srn : Nat) : Word :=
  match srn with
  | 0x0900 => 0x04200010
  | 0x0905 => pkgStat s
  | 0x0906 => if s.pkg.stA.toNat ≤ 1 then 0 else s.pkg.verA
  | 0x0907 => if s.pkg.stB.toNat ≤ 1 then 0 else s.pkg.verB
  | 0x0A00 => 0x27101010
  | 0x0A02 => s.safe.schk
  | 0x0A03 => s.safe.check
  | 0x0A04 => s.safe.staged
  | 0x0A05 => s.safe.confA.getD 0
  | 0x0A06 => s.safe.confB.getD 0
  | 0x0A07 => safeStat s
  | 0x0A08 => guardUsable s
  | 0x0A09 => gstopMap s 0
  | 0x0A0A => gstopMap s 32
  | _ => slotStat s (srn - 0x0901)

/-- Registers of blocks 0x0B00 to 0x0D00 that are not RW. -/
def roBlockBD (s : State) (srn : Nat) : Word :=
  match srn with
  | 0x0B00 => 0x04002010
  | 0x0B01 => s.nv.check
  | 0x0B07 => put s.nv.peak 16 7 ||| put s.nv.userW.length 0 7
  | 0x0B08 => s.nv.ceCount
  | 0x0B09 => s.nv.ueCount
  | 0x0B0A => put (b2n s.nv.restored) 31 1 ||| put (b2n s.nv.restSlotB) 30 1 ||| put s.nv.saveReason.toNat 27 3
      ||| put s.nv.skipped.toNat 16 8 ||| put s.nv.saveLines.toNat 0 9
  | 0x0B0B => match newestWarm s with | some b => (s.warm b).seq | none => 0
  | 0x0B0C => s.nv.newest
  | 0x0B0D => recOldest s
  | 0x0C01 | 0x0C02 => 0
  | 0x0C03 => b2w s.wd.lock
  | 0x0C04 => wdStat s
  | 0x0C10 => put (b2n s.clk.warn) 31 1 ||| put s.clk.rides.toNat 0 16
  | 0x0C11 => rstSource s
  | 0x0C12 => BitVec.ofNat 32 s.opSec
  | 0x0C13 => BitVec.ofNat 32 s.opMs.toNat
  | 0x0C14 => BitVec.ofNat 32 (tabGet ({} : Ctr) s.nv.ctrs 1).value
  | 0x0C15 => put (packBits [s.clk.lock, s.clk.xfo, s.clk.lfo, s.clk.refclk]) 28 4
  | 0x0C16 => BitVec.ofNat 32 s.now
  | 0x0C17 => BitVec.ofNat 32 (s.now / 2 ^ 32)
  | 0x0C19 => BitVec.ofNat 32 s.clk.wakeStat.toNat
  | 0x0D00 => put (fwIssue s) 24 8 ||| put s.svc.build.toNat 0 24
  | 0x0D01 => put (b2n s.clk.recoveryReq) 31 1 ||| put (b2n s.tap.testEn) 30 1
  | 0x0D02 => fwStat s
  | 0x0D03 => s.svc.refresh.due
  | _ => put (b2n (s.dev.state.served && s.svc.answering)) 31 1 ||| put s.svc.losses.toNat 0 16

/-- A register that is not RW, by block. -/
def roReg (s : State) (srn : Nat) : Word :=
  match srn / 256 with
  | 0x0 | 0x1 => roBlock01 s srn
  | 0x2 | 0x3 => roBlock23 s srn
  | 0x4 => roBlock4 s srn
  | 0x5 | 0x6 => roBlock56 s srn
  | 0x7 => roBlock7 s srn
  | 0x8 => roBlock8 s srn
  | 0x9 | 0xA => roBlock9A s srn
  | _ => roBlockBD s srn

/-- `SUPWD_CFG` as it reads: as last written, or as in effect (R488). -/
def wdCfg (s : State) : Word :=
  match s.wd.next with
  | some w => w
  | none => put (b2n s.wd.clkXfo) 31 1 ||| put s.wd.timeout.toNat 0 13

/-- A RW register as it reads; a window that selects no entry reads 0 (R553). -/
def rwReg (s : State) (c : Tab Word) (srn : Nat) : Word :=
  if srn = 0x0C00 then wdCfg s
  else match regEntry c srn with
    | some e => rGet c srn e
    | none => 0

/-- A read of a system register: the writable ones from the register store `c`, which for a staged setup task is
the staged one (R552), every other one live; none where the SRN names no register (R550). -/
def sysReg (s : State) (c : Tab Word) (srn : Nat) : Option Word :=
  (regRow srn).map fun r => if r.acc == .rw then rwReg s c srn else roReg s srn

end Sys2Proof.Machine
end

