-- ==== Sys2Proof/Machine/CanOps.lean ====
section
/-! DEFINITION. The operations of the CAN channels: ring entries (R372, R373), the transmit queue (R375-R377),
error states, bus-off and retirement (R378, R379), and the calls of R380 at commit. -/
namespace Sys2Proof.Machine

/-- Data bytes of a frame, from `DLC` (R372). -/
def dlcLen (f : CanFrame) : Nat :=
  if f.rtr then 0
  else match f.dlc.toNat with
    | 9 => if f.fdf then 12 else 8 | 10 => if f.fdf then 16 else 8 | 11 => if f.fdf then 20 else 8
    | 12 => if f.fdf then 24 else 8 | 13 => if f.fdf then 32 else 8 | 14 => if f.fdf then 48 else 8
    | 15 => if f.fdf then 64 else 8
    | n => n

/-- A ring entry of 80 bytes (R372). -/
def ringEntry (stamp : Nat) (f : CanFrame) (echo : Bool) (seq : BitVec 16) : List Byte :=
  let n := dlcLen f
  leBytes 8 stamp
    ++ leBytes 4 (put (b2n f.fdf) 31 1 ||| put (b2n f.rtr) 30 1 ||| put (b2n f.ide) 29 1 ||| put f.id.toNat 0 29).toNat
    ++ leBytes 1 (64 * b2n echo + 32 * b2n f.esi + 16 * b2n f.brs + f.dlc.toNat)
    ++ leBytes 1 n ++ leBytes 2 seq.toNat ++ padTo 64 ((f.data.take n).take 64)

/-- Consecutive addresses with their bytes. -/
def cellsAt (a : Nat) (l : List Byte) : List (Nat × Byte) := (List.range l.length).map fun k => (a + k, byteAt l k)

/-- A frame goes into the ring of channel `n`: one write set of the channel, and the trigger of source 0x3 (R373). -/
def ringStore (s : State) (n stamp : Nat) (f : CanFrame) (echo : Bool) : State :=
  let q := (s.canCh n).seq
  let a := 0x13000000 + n * 0x50000 + 80 * (q.toNat % 4096)
  let s := publish s none (cellsAt a (ringEntry stamp f echo q))
  let s := canRepair s fun w => decide (a ≤ w ∧ w < a + 80)
  let s := s.modCan n fun x => { x with seq := x.seq + 1, rxCount := satInc x.rxCount }
  raiseSource s 0x3 fun arg => arg % 4 == n

/-- A channel takes part in traffic: error-active or error-passive (R378). -/
def CanCh.live (x : CanCh) : Bool := x.err == 1 || x.err == 2

/-- The error state that the counters of ISO 11898-1 give a channel that is not bus-off. -/
def errOf (tec : BitVec 9) (recv : Byte) : BitVec 3 := if 127 < tec.toNat ∨ 127 < recv.toNat then 2 else 1

/-- A frame is dropped: recorded with the reason of R375. -/
def txDropped (s : State) (n : Nat) (f : TxFrame) (reason : Nat) : State :=
  record s 0x0806 [.b1 n, .b1 f.task, .b4 f.key.toNat, .b1 reason]

/-- The device state offers the frames of a task (R377). -/
def offered (s : State) (t : Nat) : Bool :=
  match s.dev.state with
  | .run => true
  | .hold | .stop => tGuard s.cfg t
  | .clearing => tGuard s.cfg t || tBasic s.cfg t
  | _ => false

/-- The arbitration field of a frame as a number: the smaller one wins. -/
def arbKey (f : CanFrame) : Nat :=
  let id := f.id.toNat
  let r := b2n (f.rtr && !f.fdf)
  if f.ide then id / 2 ^ 18 * 2 ^ 21 + 2 ^ 20 + 2 ^ 19 + id % 2 ^ 18 * 2 + r
  else id % 2 ^ 11 * 2 ^ 21 + r * 2 ^ 20

/-- The offered frame that wins arbitration against the others, the first of equals (R376). -/
def txBest (s : State) : List TxFrame → Option TxFrame
  | [] => none
  | x :: r =>
    match txBest s r with
    | none => if offered s x.task then some x else none
    | some y => if offered s x.task && decide (arbKey x.frame ≤ arbKey y.frame) then some x else some y

/-- A list without its first element equal to `f`. -/
def dropFirst (f : TxFrame) : List TxFrame → List TxFrame
  | [] => []
  | x :: r => if x = f then r else x :: dropFirst f r

/-- A frame goes back to its place in the queue: frames with identical arbitration fields go in queue order (R376). -/
def requeue (f : TxFrame) (q : List TxFrame) : List TxFrame :=
  (q.takeWhile fun x => decide (x.pos < f.pos)) ++ f :: q.dropWhile fun x => decide (x.pos < f.pos)

/-- The attempt on the bus fails: the frame goes back to the queue, or goes (R375 reason 4, R376, R377). -/
def txFailed (s : State) (n : Nat) : State :=
  match (s.canCh n).onBus with
  | none => s
  | some f =>
    let s := s.modCan n fun x => { x with onBus := none }
    match f.aborted with
    | some k => record s 0x0807 [.b1 n, .b1 f.task, .b4 f.key.toNat, .b4 (k + 1), .b4 0]
    | none =>
      if f.oneShot then txDropped s n f 4
      else if f.last then s
      else s.modCan n fun x => { x with queue := requeue f x.queue }

/-- Channel `n` is retired: its queue is emptied, each frame counting as dropped for reason 3 (R379). -/
def canRetire (s : State) (n : Nat) : State :=
  let x := s.canCh n
  let gone := (match x.onBus with | some f => [f] | none => []) ++ x.queue
  let s := s.modCan n fun x => { x with queue := [], onBus := none, retired := true }
  let s := gone.foldl (fun s f => txDropped s n f 3) s
  record s 0x0804 [.b1 n, .b4 gone.length]

/-- A bus-off: one strike, retirement at the limit, automatic recovery if configured (R378, R379). -/
def busOff (s : State) (n : Nat) : State :=
  let l := canStrikes s n ++ [s.op]
  let s := s.modCan n fun x => { x with
    err := 3
    busOffs := satInc x.busOffs
    busOffAt := s.now
    strikes := l }
  let s := record s 0x0802 [.b1 n, .b4 l.length]
  if orElse (fld (rGet s.cfg 0x0802 0) 8 8) 3 ≤ l.length then canRetire s n
  else if wbit (cCfg s.cfg n) 27 then s.modCan n fun x => { x with err := 4 }
  else s

/-- The 80-byte entry at an address, as committed, as a frame with its `ONESHOT` and `ECHO` flags (R372, R375). -/
def entryFrame (b : List Byte) : CanFrame × Bool × Bool :=
  let w := wordAt b 8
  let c := (byteAt b 12).toNat
  let f : CanFrame :=
    { fdf := wbit w 31, rtr := wbit w 30, ide := wbit w 29, id := BitVec.ofNat 29 w.toNat,
      esi := c.testBit 5, brs := c.testBit 4, dlc := BitVec.ofNat 4 c, data := [] }
  ({ f with data := (b.drop 16).take (dlcLen f) }, c.testBit 7, c.testBit 6)

/-- An entry breaks the format (R375 reason 2). -/
def badFrame (s : State) (n : Nat) (f : CanFrame) : Bool :=
  (f.fdf && !wbit (cCfg s.cfg n) 28) || (f.rtr && f.fdf) || ((f.brs || f.esi) && !f.fdf)
    || (!f.ide && decide (2 ^ 11 ≤ f.id.toNat))

/-- `CBUS_SEND` at commit (R375). -/
def canSend (s : State) (t n a : Nat) (key : Word) : State :=
  let (f, one, echo) := entryFrame (canBytes s a 80)
  let x : TxFrame := { frame := f, oneShot := one, echo := echo, task := t, key := key }
  if badFrame s n f then txDropped s n x 2
  else if canMode s n = 0 ∨ canMode s n = 2 then txDropped s n x 3
  else if 64 ≤ (s.canCh n).queue.length + b2n (s.canCh n).onBus.isSome then txDropped s n x 1
  else s.modCan n fun c =>
    let c := { c with queue := c.queue ++ [{ x with pos := c.nextPos }], nextPos := c.nextPos + 1 }
    { c with peak := max c.peak (c.queue.length + b2n c.onBus.isSome) }

/-- `CBUS_ABORT` at commit: the frames of the task with the key (R376). -/
def canAbort (s : State) (t n : Nat) (key : Word) : State :=
  let hit (f : TxFrame) : Bool := f.task == t && f.key == key
  let k := ((s.canCh n).queue.filter hit).length
  let s := s.modCan n fun x => { x with queue := x.queue.filter fun f => !hit f }
  match (s.canCh n).onBus with
  | some f =>
    if hit f && f.aborted.isNone then s.modCan n fun x => { x with onBus := some { f with aborted := some k } }
    else record s 0x0807 [.b1 n, .b1 t, .b4 key.toNat, .b4 k, .b4 0]
  | none => record s 0x0807 [.b1 n, .b1 t, .b4 key.toNat, .b4 k, .b4 0]

/-- `CBUS_RECOVER` at commit (R380). -/
def canRecover (s : State) (n : Nat) : State :=
  if (s.canCh n).err = 3 && !(s.canCh n).retired then s.modCan n fun x => { x with err := 4 } else s

/-- Readmission of a channel: its status, recorded (R379, R380). -/
def canReadmit (s : State) (n by_ : Nat) : State × Nat :=
  let st := if (s.canCh n).retired then stDone else stNotFound
  let s := if st = stDone then
      s.modCan n fun x => { x with retired := false, strikes := [], tec := 0, recv := 0, err := 1 }
    else s
  (record s 0x0805 [.b1 n, .b1 st, .b1 by_], st)

/-- A frame whose place is gone: it completes on the bus, and gets no further attempt. -/
def TxFrame.ends (f : TxFrame) : TxFrame := { f with last := true }

/-- The CAN channels at an entry to SETUP (R373, R377, R379); a frame on the bus completes. -/
def canEnterSetup (s : State) : State :=
  (List.range 4).foldl (fun s n => s.modCan n fun x =>
    let x := { x with queue := [], onBus := x.onBus.map TxFrame.ends, seq := 1 }
    if x.retired then { x with retired := false, strikes := [], tec := 0, recv := 0, err := 1 } else x)
    (s.onCb fun c => { c with check := 0 })

end Sys2Proof.Machine
end

