-- ==== Sys2Proof/Machine/NvRecords.lean ====
section
/-! DEFINITION. Two-copy records (R439-R441), the system records and their payloads (R318, R442, R443), and spread
counters (R447-R449). -/
namespace Sys2Proof.Machine

/-! ## Two-copy records -/

/-- The copy taken on a read (R440): true B; none where the record is absent. -/
def NvRec.taken (r : NvRec) : Option Bool :=
  match r.a.valid, r.b.valid with
  | true, true => some (seqNewer r.b.seq r.a.seq)
  | true, false => some false
  | false, true => some true
  | false, false => none

/-- A copy by name. -/
def NvRec.copy (r : NvRec) (b : Bool) : NvCopy := if b then r.b else r.a

/-- A copy replaced. -/
def NvRec.setCopy (r : NvRec) (b : Bool) (c : NvCopy) : NvRec := if b then { r with b := c } else { r with a := c }

/-- The payload of a record that is present. -/
def NvRec.payload (r : NvRec) : Option (List Byte) := r.taken.map fun b => (r.copy b).data

/-- The copy that a write fills (R441): the one not taken; copy A of an absent record. -/
def NvRec.target (r : NvRec) : Bool := match r.taken with | some b => !b | none => false

/-- The sequence number of the next write (R441). -/
def NvRec.nextSeq (r : NvRec) : Word := match r.taken with | some b => (r.copy b).seq + 1 | none => 1

/-- A write up to its commit point (R441): the copy that it fills is not valid. -/
def NvRec.begun (r : NvRec) (d : List Byte) : NvRec :=
  r.setCopy r.target { valid := false, blank := false, seq := (r.copy r.target).seq, data := d }

/-- A write at its commit point (R441). -/
def NvRec.written (r : NvRec) (d : List Byte) : NvRec :=
  r.setCopy r.target { valid := true, blank := false, seq := r.nextSeq, data := d }

/-- What the first read of a record after a device reset records (R440). -/
def readRecord (s : State) (id : Nat) (r : NvRec) : State :=
  if r.a.valid && r.b.valid && r.a.seq == r.b.seq && r.a.data != r.b.data then record s 0x0B03 [.b2 id, .b4 r.a.seq.toNat]
  else if r.taken.isNone && !(r.a.blank && r.b.blank) && !s.nv.lostSaid.contains id then
    record (s.onNv fun n => { n with lostSaid := id :: n.lostSaid }) 0x0B04 [.b2 id]
  else s

/-! ## System records -/

/-- Slot record, key record, package record, lane record, safety record, clear mark (R442). -/
def sysIds : List Nat := [0xF001, 0xF002, 0xF003, 0xF004, 0xF005, 0xF006]

/-- A system record. -/
def sysRec (s : State) (id : Nat) : NvRec := tabGet {} s.nv.sys id

/-- Payload lengths (R442). -/
def sysLen (id : Nat) : Nat :=
  match id with
  | 0xF001 => 16 | 0xF002 => 264 | 0xF003 => 32 | 0xF004 => 496 | 0xF005 => 608 | _ => 8

/-- Payloads of absent records (R384, R442). -/
def sysDefault (id : Nat) : List Byte :=
  if id = 0xF001 then [0, 1, 0, 0, 1, 0, 0, 0, 4, 1, 0, 0, 5, 0, 0, 0] else List.replicate (sysLen id) 0

/-- The payload of the package record (R442). -/
def pkgPayload (k : Pkg) : List Byte :=
  leBytes 1 (b2n k.active) ++ leBytes 1 k.stA.toNat ++ leBytes 1 k.stB.toNat ++ leBytes 1 0 ++ leBytes 4 k.verA.toNat
    ++ leBytes 4 k.verB.toNat ++ leBytes 1 k.keyA.toNat ++ leBytes 1 k.keyB.toNat ++ leBytes 18 0

/-- Word `k` of a list. -/
def wordsAt (l : List Word) (k : Nat) : Nat := (l.getD k 0).toNat

/-- The lane counts as retired: it is, or its readmission still runs its test (R317, R318). -/
def Lane.shut (x : Lane) : Bool :=
  x.role == .retired || (match x.test with | some (.readmit _ _ _, _) => true | _ => false)

/-- The payload of the lane record (R318). -/
def lanePayload (s : State) : List Byte :=
  leBytes 5 ((List.range 40).foldl (fun m n => if (s.lane n).shut then m + 2 ^ n else m) 0) ++ leBytes 11 0
    ++ (List.range 40).flatMap fun n =>
      let x := s.lane n
      leBytes 4 (wordsAt x.strikes 0) ++ leBytes 4 (wordsAt x.strikes 1) ++ leBytes 1 x.cause.toNat ++ leBytes 1 0 ++ leBytes 2 x.life.toNat

/-- The payload of the safety record (R443). -/
def safePayload (x : Safe) : List Byte :=
  let (salt, key) := x.password.getD (List.replicate 16 0, List.replicate 32 0)
  (padTo 16 salt).take 16 ++ (padTo 32 key).take 32
    ++ leBytes 4 (b2n x.password.isSome + 2 * b2n x.confA.isSome + 4 * b2n x.confB.isSome)
    ++ leBytes 4 (x.confA.getD 0).toNat ++ leBytes 4 (x.confB.getD 0).toNat ++ leBytes 4 x.lockEnd.toNat
    ++ leBytes 4 (wordsAt x.fails 0) ++ leBytes 4 (wordsAt x.fails 1) ++ leBytes 4 (wordsAt x.fails 2)
    ++ leBytes 4 x.logCount.toNat ++ (List.range 16).flatMap (fun i => (padTo 32 (tabGet [] x.log i)).take 32) ++ leBytes 16 0

/-- The safety record that a payload spells, in place of the one held. -/
def safeOf (x : Safe) (b : List Byte) : Safe :=
  let f := (byteAt b 48).toNat
  { x with
    password := if f.testBit 0 then some (b.take 16, (b.drop 16).take 32) else none
    confA := if f.testBit 1 then some (wordAt b 52) else none
    confB := if f.testBit 2 then some (wordAt b 56) else none
    lockEnd := wordAt b 60
    fails := [wordAt b 64, wordAt b 68, wordAt b 72].filter (· != 0)
    logCount := wordAt b 76
    log := (List.range 16).foldl (fun m i =>
      let e := (b.drop (80 + 32 * i)).take 32
      if e.all (· == 0) then m else tabSet [] i e m) [] }

/-- The keys that a key record spells (R399, R442). -/
def keysOf (b : List Byte) : Tab (Option (List Byte)) :=
  (List.range 4).foldl (fun m k =>
    if (byteAt b 0).getLsbD k then tabSet none k (some ((b.drop (8 + 64 * k)).take 64)) m else m) []

/-- The slots that a slot record binds (R384, R442); everything else of a slot as after a reset. -/
def slotsOf (b : List Byte) : Tab Slot :=
  (List.range 4).foldl (fun m n =>
    let code := (byteAt b (4 * n)).toNat
    let base : HRole := if byteAt b (4 * n + 1) = 1 then .operator else .observer
    tabSet {} n { front := if code = 7 then none else some code, base := base, role := base } m) []

/-- The lane state that a lane record spells (R318). -/
def laneOf (b : List Byte) (n : Nat) : Lane :=
  let o := 16 + 12 * n
  let r := (byteAt b (n / 8)).getLsbD (n % 8)
  { role := if r then .retired else .spare
    acts := if r then none else some n
    cause := byteAt b (o + 8)
    strikes := [wordAt b o, wordAt b (o + 4)].filter (· != 0)
    life := BitVec.ofNat 16 (leAt b (o + 10) 2) }

/-- The package record read (R442). -/
def pkgOf (k : Pkg) (b : List Byte) : Pkg :=
  { k with
    active := (byteAt b 0).getLsbD 0
    stA := BitVec.ofNat 3 (byteAt b 1).toNat
    stB := BitVec.ofNat 3 (byteAt b 2).toNat
    verA := wordAt b 4
    verB := wordAt b 8
    keyA := byteAt b 12
    keyB := byteAt b 13 }

/-- The content that the next write of a record starts from: what is being written, or what is held. -/
def sysStaged (s : State) (id : Nat) : List Byte :=
  let r := sysRec s id
  if s.nv.sysW.contains (BitVec.ofNat 16 id) then (r.copy r.target).data else r.payload.getD (sysDefault id)

/-- The write of a system record begins; its commit point is `SYSTEM_RECORD_WRITE` (R441, R442). -/
def stageSys (s : State) (id : Nat) (d : List Byte) : State :=
  let k := BitVec.ofNat 16 id
  s.onNv fun n => { n with
    sys := tabMod {} id (fun r => r.begun d) n.sys
    sysW := if n.sysW.contains k then n.sysW else n.sysW ++ [k] }

/-- The lane record falls due (R318). -/
def laneRecordDue (s : State) : State := stageSys s 0xF004 (lanePayload s)

/-- The package record falls due (R404, R405). -/
def pkgRecordDue (s : State) : State := stageSys s 0xF003 (pkgPayload s.pkg)

/-- The payload that the write in hand commits: lane and package records as they stand now. -/
def sysCommitData (s : State) (id : Nat) : List Byte :=
  match id with
  | 0xF003 => pkgPayload s.pkg
  | 0xF004 => lanePayload s
  | _ => sysStaged s id

/-- Space has returned in the record buffer: the occurrences lost meanwhile are recorded (R459). -/
def overflowSaid (s : State) : State :=
  if 0 < s.nv.overflow ∧ s.nv.buf.length < 32 then record (s.onNv fun n => { n with overflow := 0 }) 0x0B0D [.b4 s.nv.overflow]
  else s

/-- What the commit of a system record makes effective. A new clear mark discards the older records, those that are still
buffered among them (R463). -/
def sysEffect (s : State) (id : Nat) (d : List Byte) : State :=
  match id with
  | 0xF002 => s.onPkg fun k => { k with keys := keysOf d }
  | 0xF005 => s.onSafe fun x => { safeOf x d with fails := x.fails }
  | 0xF006 =>
    let old (r : Rec) : Bool := seqNewer (wordAt d 0) r.seq
    overflowSaid (s.onNv fun n => { n with
      clearMark := wordAt d 0
      recs := n.recs.filter fun e => match e.2 with | some r => !old r | none => false
      buf := n.buf.filter fun r => !old r
      dirty := n.dirty.filter fun r => !old r })
  | _ => s

/-- The state, `VERSION` and signing key of a package slot set (R442). -/
def Pkg.setSlot (k : Pkg) (b : Bool) (st : Nat) (ver : Word) (key : Byte) : Pkg :=
  if b then { k with stB := BitVec.ofNat 3 st, verB := ver, keyB := key }
  else { k with stA := BitVec.ofNat 3 st, verA := ver, keyA := key }

/-- The load that `PKG_CLOSE` verified becomes LOADED, at the commit of the package record (R404). -/
def closeLoad (s : State) : State :=
  match s.pkg.load with
  | some l =>
    match l.closing with
    | some (v, k) =>
      record (s.onPkg fun p => { p.setSlot l.slotB 2 v k with load := none }) 0x0904 [.b1 (b2n l.slotB), .b4 v.toNat, .b1 k.toNat]
    | none => s
  | none => s

/-- A system record reaches its commit point, and the commands that wait for it complete (R441, R442). -/
def commitSys (s : State) (id : Nat) : State :=
  let s := if id = 0xF003 then closeLoad s else s
  let d := sysCommitData s id
  let s := s.onNv fun n => { n with
    sys := tabMod {} id (fun r => r.written d) n.sys
    sysW := n.sysW.filter (· != BitVec.ofNat 16 id) }
  let mine (w : Wait) : Bool := w.for_ == .sysRecord (BitVec.ofNat 16 id)
  finishWaits (waitEvents (sysEffect s id d) mine) mine stDone 0 0 0

/-- The package record is written at the instant of its effect: a reset that follows finds it (R404, R413; DESIGN CHOICE, log
entry 97). -/
def pkgRecordNow (s : State) : State := commitSys (pkgRecordDue s) 0xF003

/-! ## Spread counters -/

/-- The high value of a counter (R448): 0 where neither word is valid. -/
def Ctr.high (c : Ctr) : Word := match c.hiA with | some h => h | none => c.hiB.getD 0

/-- The lowest clear cell is set. -/
def Ctr.tick (c : Ctr) : Ctr := { c with cells := c.cells ||| (c.cells + 1) }

/-- A carry repaired to the high value `h` (R449), and the first cell set after it: the first `n` of the 36 writes, which are
the two high words, the 32 words of cells, the tag and the cell. -/
def Ctr.repair (c : Ctr) (h : Word) (n : Nat) : Ctr :=
  { hiA := if 1 ≤ n then some h else c.hiA
    hiB := if 2 ≤ n then some h else c.hiB
    cells := if 36 ≤ n then 1 else c.cells >>> (8 * min 32 (n - 2)) <<< (8 * min 32 (n - 2))
    tag := if 35 ≤ n then some h else c.tag }

/-- The high value that the next increment of a counter repairs a carry to (R449); none where it only sets a cell. -/
def Ctr.carry (c : Ctr) : Option Word :=
  if c.tag = some c.high then (if c.cells = BitVec.allOnes 256 then some (c.high + 1) else none) else some c.high

/-- Every cell is set and the high value is the last one: an increment has no effect (R449). -/
def Ctr.full (c : Ctr) : Bool := c.tag == some c.high && c.cells == BitVec.allOnes 256 && c.high == 0xFFFFFFFF

/-- An increment of which the first `n` of its 36 or 1 writes have been made (R437, R449). -/
def Ctr.part (c : Ctr) (n : Nat) : Ctr :=
  if c.full then c
  else match c.carry with
    | some h => c.repair h n
    | none => if n = 0 then c else c.tick

/-- A whole increment (R449). -/
def Ctr.inc (c : Ctr) : Ctr := c.part 36

/-- Counter `k` has no valid high word, and this has not been recorded since the device reset (R448). -/
def ctrLost (s : State) (k : Nat) : Bool :=
  let c : Ctr := tabGet {} s.nv.ctrs k
  c.hiA.isNone && c.hiB.isNone && !s.nv.lostSaid.contains (0xE000 + k)

/-- The loss of counter `k` is recorded (R448). -/
def sayLost (k : Nat) (s : State) : State :=
  record (s.onNv fun n => { n with lostSaid := (0xE000 + k) :: n.lostSaid }) 0x0B04 [.b2 (0xE000 + k)]

/-- What the read of a counter records (R448). -/
def readCounter (s : State) (k : Nat) : State := s.when (ctrLost s k) (sayLost k)

/-- Counter `k` is read and incremented (R448, R449); the count comes before the records (R450). -/
def bumpCtr (s : State) (k : Nat) : State :=
  let c : Ctr := tabGet {} s.nv.ctrs k
  let lost := ctrLost s k
  let s := (s.onNv fun n => { n with ctrs := tabSet {} k c.inc n.ctrs }).when lost (sayLost k)
  match (if c.full then none else c.carry) with
  | some h => record s 0x0B07 [.b2 k, .b4 c.high.toNat, .b4 h.toNat]
  | none => s

end Sys2Proof.Machine
end

