-- ==== Sys2Proof/Machine/NvOps.lean ====
section
/-! DEFINITION. What the service core does with the parameter store: warm images (R451-R455), recorder writes
(R459, R460), user records (R444-R446), scrubbing (R436), flushes and losses (R437, R570), and loading at BOOT
(R438, R440, R442, R444, R450, R461). -/
namespace Sys2Proof.Machine

/-! ## Warm images -/

/-- Layout hash that the active package gives a line (R451). -/
def activeHash (s : State) (a : Nat) : Word := match layoutAt (match activeHdr s with | some h => h.layout | none => []) a with | some r => r.hash | none => 0

/-- The lines of a list of ranges, in stored order. -/
def rangeLines (l : List (Nat × Nat × Word)) : List Nat := l.flatMap fun r => (List.range r.2.1).map fun k => r.1 + 64 * k

/-- The slot that a save fills (R452): true B. -/
def warmTarget (s : State) : Bool := match newestWarm s with | some b => !b | none => false

/-- The next save sequence; an image with sequence 0 is not valid (R451, R452). -/
def warmNextSeq (s : State) : Word :=
  match newestWarm s with
  | some b => if (s.warm b).seq = 0xFFFFFFFF then 1 else (s.warm b).seq + 1
  | none => 1

/-- The image of a save at this instant (R451, R452). -/
def warmImage (s : State) (reason : Nat) : Warm :=
  let ranges := (retRanges s.cfg).map fun r => (r.1, (r.2 - r.1) / 64, activeHash s r.1)
  let ls := rangeLines ranges
  { hdrOk := true
    seq := warmNextSeq s
    ops := BitVec.ofNat 32 s.opSec
    cycles := BitVec.ofNat 32 (tabGet ({} : Ctr) s.nv.ctrs 1).value
    tb := s.now
    version := (match activeHdr s with | some h => h.version | none => 0)
    slotB := s.pkg.active
    reason := BitVec.ofNat 8 reason
    ranges := ranges
    lines := (List.range ls.length).foldl (fun m k => tabSet 0 k (lineOf (canBytes s (ls.getD k 0) 64)) m) [] }

/-- An image slot replaced. -/
def setWarm (s : State) (b : Bool) (w : Warm) : State :=
  s.onNv fun n => if b then { n with warmB := w } else { n with warmA := w }

/-- The recorder as the die holds it: a merged record as it was last written (R460). -/
def dieRecs (n : Nv) : Tab (Option Rec) :=
  n.dirty.foldl (fun m r => tabSet none (recSlot r.seq) (some r) m) n.recs

/-- The save or flush that may still be running: it takes at most 250 us (R437, R454). -/
def savingNow (s : State) : Option Saving :=
  s.nv.saving.filter fun v => decide (s.op < v.startOp + 250000) && decide (s.now < v.startTb + 250000)

/-- A slot into which the first `k` stored lines of image `w` have been written when the write stopped: header bytes 0-7 are
0, so that the slot is not valid (R452). -/
def Warm.part (old w : Warm) (k : Nat) : Warm :=
  { old with
    hdrOk := false
    seq := 0
    lost := old.lost.filter fun i => decide (k ≤ i)
    lines := (List.range k).foldl (fun m i => tabSet 0 i (tabGet 0 w.lines i) m) old.lines }

/-- The copy of the newest image into the other slot stops after `k` lines (R453). -/
def copyPart (s : State) (k : Nat) : State :=
  match newestWarm s with
  | some b => setWarm s (!b) ((s.warm !b).part (s.warm b) k)
  | none => s

/-- A save of reason 1, 2 or 3 abandons a copy or a save of reason 4 that runs (R453). Whether one still runs, and how far it
has come, is free. -/
def abandonSave (s : State) : State :=
  let w := Config.freeWord s.free
  let k := fld w 8 8
  let s := s.drawn
  match (savingNow s).filter fun v => v.reason == 4 with
  | some v =>
    match v.slot with
    | some (b, old) => if wbit w 0 then setWarm s b (old.part (s.warm b) k) else s.when (wbit w 1) fun s => copyPart s k
    | none => s
  | none => s.when (s.nv.copyDue && wbit w 1) fun s => copyPart s k

/-- A save reaches its commit point (R452-R454); its duration is a free value. -/
def warmSave (s : State) (reason : Nat) : State :=
  let s := passTag (s.when (reason != 4) abandonSave) true stDone
  let b := warmTarget s
  let w := warmImage s reason
  let old := s.warm b
  let n := ((List.range (rangeLines w.ranges).length).filter fun k =>
    tabGet 0 w.lines k != tabGet 0 old.lines k || old.lost.contains k).length
  let t := (Config.freeWord s.free).toNat
  let s := (setWarm s b w).drawn
  let s := s.onNv fun v => { v with
    saveReason := BitVec.ofNat 3 reason
    saveLines := BitVec.ofNat 9 n
    copyDue := true
    saveFrom := some s.now
    saveWait := none
    saving := some { reason := BitVec.ofNat 8 reason, startOp := s.op, startTb := s.now, slot := some (b, old), recs := dieRecs v } }
  if reason = 4 then s else record s 0x0B08 [.b1 reason, .b4 w.seq.toNat, .b4 n, .b4 t]

/-- A save falls due: it draws a reserved tag, or waits for one (R32). -/
def saveDue (s : State) (reason : Nat) : State :=
  if (freeTags s true).isEmpty then (drawTag s true).1.onNv fun n => { n with saveWait := some reason }
  else warmSave s reason

/-- The copy of the saved image into the other slot (R453). -/
def warmCopyOver (s : State) : State :=
  let s := match newestWarm s with
    | some b => setWarm s (!b) (s.warm b)
    | none => s
  s.onNv fun v => { v with copyDue := false, saving := none }

/-- The restore at an entry to SETUP (R455): the state, and the lines of the image's retained ranges, those of a skipped range
among them. -/
def warmRestore (s : State) : State × List Nat :=
  match newestWarm s with
  | none =>
    let s := record s 0x0B0B [.b1 (b2n s.nv.warmA.hdrOk), .b1 (b2n s.nv.warmB.hdrOk)]
    (s.onNv fun v => { v with restored := false, restSlotB := false, skipped := 0 }, [])
  | some b =>
    let w := s.warm b
    let skip (r : Nat × Nat × Word) : Bool := r.2.2 != activeHash s r.1
    let all := rangeLines w.ranges
    let keep := rangeLines (w.ranges.filter fun r => !skip r)
    let s := (w.ranges.filter skip).foldl (fun s r =>
      record s 0x0B0A [.b4 r.1, .b4 r.2.2.toNat, .b4 (activeHash s r.1).toNat]) s
    let s := (List.range all.length).foldl (fun s k =>
      let a := all.getD k 0
      if keep.contains a then s.onCan fun c => { c with mem := c.mem.putLine (a / 64) (tabGet 0 w.lines k) } else s) s
    let s := record s 0x0B09 [.b1 (b2n b), .b4 w.seq.toNat, .b4 keep.length, .b4 w.version.toNat]
    (s.onNv fun v => { v with
      restored := true
      restSlotB := b
      skipped := BitVec.ofNat 8 (w.ranges.filter skip).length }, all)

/-- The period of reason 4 begins at the first entry to STOP, RUN, HOLD or CLEARING after a device reset (R454). -/
def firstServed (s : State) : State :=
  s.onNv fun v => { v with saveFrom := match v.saveFrom with | some t => some t | none => some s.now }

/-! ## Recorder -/

/-- The oldest buffered record is written to its slot; occurrences lost meanwhile are recorded (R459, R461). -/
def recorderStep (s : State) : State :=
  match s.nv.buf with
  | [] => s
  | r :: rest =>
    overflowSaid (s.onNv fun n => { n with
      buf := rest
      recs := tabSet none (recSlot r.seq) (some r) n.recs })

/-- The merged records as their rewrites leave them (R460). -/
def rewrites (n : Nv) : List Rec := n.dirty.filterMap fun d => tabGet none n.recs (recSlot d.seq)

/-- The recorder flush: every merged record is rewritten and every buffered record is written (R454, R460). A flush after a
save, or of a power warning, may still be running (R437, R497). -/
def recorderFlush (s : State) : State :=
  let lost := decide (0 < s.nv.overflow)
  let work := rewrites s.nv ++ s.nv.buf
  let s := (List.range 34).foldl (fun s _ => recorderStep s) s
  let more := if lost then (newestRec s).toList else []
  s.onNv fun n => { n with
    dirty := []
    saving := n.saving.map fun v => { v with work := v.work ++ work ++ more } }

/-- A flush that no save begins (R454, R495). -/
def flushAlone (s : State) : State :=
  recorderFlush (s.onNv fun n => { n with saving := some { reason := 0, startOp := s.op, startTb := s.now, recs := dieRecs n } })

/-- The newest valid record that the die holds: its SEQ, 0 if none (R461). -/
def newestWritten (n : Nv) : Word :=
  n.recs.foldl (fun q e => match e.2 with
    | some r => if r.ok && (q == 0 || seqNewer r.seq q) then r.seq else q
    | none => q) 0

/-! ## User records -/

/-- A user record as held. -/
def userRec (s : State) (r : Nat) : NvRec := tabGet {} s.nv.user r

/-- A user record is written up to its commit point, and the mirror with it (R441, R444). -/
def userWritten (s : State) (w : UserW) : State :=
  let x := (userRec s w.rno).written w.data
  let seq := match x.taken with | some b => (x.copy b).seq | none => 1
  s.onNv fun n => { n with
    user := tabSet {} w.rno x n.user
    mirror := tabSet none w.rno (some (seq, w.data)) n.mirror }

/-- Record `r` is protected against a write from USER or GUARD level (R445). -/
def nvProtected (s : State) (r : Nat) : Bool :=
  match fld (rGet s.cfg 0x0B02 0) 0 2 with
  | 0 => false | 1 => decide (768 ≤ r) | 2 => decide (512 ≤ r) | _ => true

/-- A write that ends other than `DONE` (R446). -/
def userFailed (s : State) (w : UserW) (st : Nat) : State :=
  record s 0x0B05 [.b1 w.task, .b2 w.rno, .b4 w.key.toNat, .b1 st]

/-- A committed `NV_WRITE` (R445, R446). -/
def userQueue (s : State) (w : UserW) : State :=
  if !w.setup && nvProtected s w.rno then userFailed s w stProtected
  else if 64 ≤ s.nv.userW.length then userFailed s w stBusy
  else
    let (s, g) := drawTag s (taskTags s.cfg w.task)
    s.onNv fun n => { n with
      userW := n.userW ++ [{ w with tag := g }]
      peak := max n.peak (n.userW.length + 1) }

/-! ## Order of the service core (R437) -/

/-- A counter increment that holds its tag waits. -/
def incReady (s : State) : Bool := s.nv.incW.any (·.2.ready)

/-- User-record writes have their turn: no system record and no counter waits (R437). -/
def userTurn (s : State) : Bool := s.nv.sysW.isEmpty && !incReady s

/-- A pending user-record write completes `DONE` (R31, R446). -/
def userDone (s : State) (w : UserW) : State :=
  endTags (userWritten (s.onNv fun n => { n with userW := n.userW.erase w }) w) [w.tag] stDone

/-- The oldest user-record write that holds its tag completes (R32). -/
def userStep (s : State) : State :=
  match s.nv.userW.find? (·.tag.ready) with
  | none => s
  | some w => userDone s w

/-- A committed `NV_ABORT` (R464). Whether the write in hand has come to its commit-point word is free: it then completes
`DONE`. -/
def userAbort (s : State) (t rno : Nat) (key : Word) : State :=
  let hit (w : UserW) : Bool := w.task == t && w.rno == rno && w.key == key
  let late := (s.nv.userW.find? (·.tag.ready)).filter fun w => hit w && userTurn s && wbit (Config.freeWord s.free) 0
  let s := s.drawn
  let s := match late with | some w => userDone s w | none => s
  let gone := s.nv.userW.filter hit
  let s := endTags (s.onNv fun n => { n with userW := n.userW.filter fun w => !hit w }) (gone.map (·.tag)) stAborted
  let s := gone.foldl (fun s w => userFailed s w stAborted) s
  record s 0x0B06 [.b1 t, .b2 rno, .b4 key.toNat, .b4 gone.length, .b4 late.toList.length]

/-- The oldest counter increment that holds its tag completes (R31, R32). -/
def counterStep (s : State) : State :=
  match s.nv.incW.find? (·.2.ready) with
  | none => s
  | some k => endTags (bumpCtr (s.onNv fun n => { n with incW := n.incW.erase k }) k.1) [k.2] stDone

/-- No request of the parameter store waits for a tag any more. -/
def untagged (n : Nv) : Nv :=
  { n with
    userW := n.userW.map fun w => { w with tag := .no }
    incW := n.incW.map fun k => (k.1, .no) }

/-- Everything that the service core holds unwritten is written, in the order of R437 (R570). -/
def flushAll (s : State) : State :=
  let s := (recorderFlush s).onNv untagged
  let s := s.nv.sysW.foldl (fun s id => commitSys s id.toNat) s
  let s := (List.range s.nv.incW.length).foldl (fun s _ => counterStep s) s
  let s := (List.range s.nv.userW.length).foldl (fun s _ => userStep s) s
  recorderFlush s

/-- A record over what its slot held, of which the first `k` words have been written (R437, R460). -/
def Rec.onto (r : Rec) (old : Option Rec) (k : Nat) : Option Rec :=
  let b := match old with | some x => x.bytes | none => List.replicate 128 0
  let m := r.image.take (8 * k) ++ b.drop (8 * k)
  if m == b then old else if m == r.image then some r else some { r with raw := some m }

/-- A record written into the recorder, its first `k` words only. -/
def recPart (m : Tab (Option Rec)) (r : Rec) (k : Nat) : Tab (Option Rec) :=
  tabSet none (recSlot r.seq) (r.onto (tabGet none m (recSlot r.seq)) k) m

/-- The recorder once a flush has written `n` records of its list and `k` words of the next one. -/
def flushPart (v : Saving) (n k : Nat) : Tab (Option Rec) :=
  let m := (v.work.take n).foldl (fun m r => recPart m r 16) v.recs
  match v.work[n]? with
  | some r => recPart m r k
  | none => m

/-- The service core stops within its save or flush (R437, R452): the save not begun, the save under way, or the flush after
so many records; which of them is free. Whether it had completed is answered beside the state. -/
def cutSave (s : State) (v : Saving) : State × Bool :=
  let w := Config.freeWord s.free
  let n := fld w 16 16 % (v.work.length + 3)
  let s := s.drawn
  let s := match v.slot with
    | some (b, old) => if n = 0 then setWarm s b old else if n = 1 then setWarm s b (old.part (s.warm b) (fld w 8 8)) else s
    | none => s
  if n = v.work.length + 2 then (s, true)
  else (s.onNv fun x => { x with recs := if n ≤ 1 then v.recs else flushPart v (n - 2) (fld w 0 4), dirty := [] }, false)

/-- What the service core may have been writing, and how a stop within that write leaves it: the copy of an image, a merged
record, a buffered record, a counter, a user record (R437, R441, R449, R453, R460). -/
def cutWorks (s : State) (k : Nat) : List (State → State) :=
  let rw (r : Rec) (s : State) : State := s.onNv fun n => { n with recs := recPart n.recs r (k % 16) }
  (if s.nv.copyDue then [fun s => copyPart s k] else [])
    ++ (rewrites s.nv).map rw ++ (s.nv.buf.take 1).map rw
    ++ ((s.nv.incW.find? (·.2.ready)).toList.map fun i s =>
      s.onNv fun n => { n with ctrs := tabMod ({} : Ctr) i.1 (fun c => c.part (k % 37)) n.ctrs })
    ++ ((s.nv.userW.find? (·.tag.ready)).toList.map fun w s =>
      s.onNv fun n => { n with user := tabMod {} w.rno (fun r => r.begun w.data) n.user })

/-- The service core stops at once: no write of its or one of them, which is free, is under way. -/
def cutWork (s : State) : State :=
  let w := Config.freeWord s.free
  let l := cutWorks s (fld w 8 8)
  let s := s.drawn.onNv fun n => { n with recs := dieRecs n, dirty := [] }
  (l.getD (fld w 16 16 % (l.length + 1)) id) s

/-- What a loss of power, and a reset that stops the service core at once, leave of its work (R437, R497, R570). -/
def nvCut (s : State) : State :=
  let (s, done) := match savingNow s with
    | some v => cutSave s v
    | none => (s, true)
  let s := s.when done cutWork
  s.onNv fun n => { n with
    dirty := []
    buf := []
    overflow := 0
    userW := []
    incW := []
    sysW := []
    newest := newestWritten n }

/-- A reset by command waits for the pending writes and not for the copy of an image, which it may cut off (R453, R570). -/
def copyCut (s : State) : State :=
  let w := Config.freeWord s.free
  s.drawn.when (s.nv.copyDue && wbit w 0) fun s => copyPart s (fld w 8 8)

/-- The volatile part of the service core's state after a device reset (R465). -/
def nvReset (n : Nv) : Nv :=
  { n with
    mirror := []
    peak := 0
    lostSaid := []
    ceCount := 0
    ueCount := 0
    check := 0
    restored := false
    restSlotB := false
    skipped := 0
    saveReason := 0
    saveLines := 0
    copyDue := false
    saving := none
    saveWait := none
    saveFrom := none }

/-! ## Scrubbing (R436) -/

/-- A copy of a two-copy record is invalid. -/
def NvRec.spoil (r : NvRec) (b : Bool) : NvRec := r.setCopy b { r.copy b with valid := false }

/-- Copy A of each system record (R442). -/
def sysBase (id : Nat) : Nat :=
  match id with
  | 0xF001 => 0x1000 | 0xF002 => 0x1400 | 0xF003 => 0x1800 | 0xF004 => 0x1C00 | 0xF005 => 0x2000 | _ => 0x2800

/-- Bytes of one copy of a system record (R439). -/
def sysCopyLen (id : Nat) : Nat := (16 + sysLen id + 7) / 8 * 8

/-- A counter with the word at offset `o` lost (R436, R447, R448). -/
def Ctr.spoil (c : Ctr) (o : Nat) : Ctr :=
  if o < 8 then { c with hiA := none }
  else if o < 16 then { c with hiB := none }
  else if o < 24 then { c with tag := none }
  else if o < 32 then c
  else { c with cells := c.cells &&& ~~~((0xFF : BitVec 256) <<< ((o - 32) / 8 * 8)) }

/-- An image slot with the word at offset `o` lost (R436, R451): a word that belongs to no part of the image loses nothing. -/
def Warm.spoil (w : Warm) (o : Nat) : Warm :=
  let n := (rangeLines w.ranges).length
  if o < 0x140 then { w with hdrOk := false }
  else
    let hit : List Nat := if o < 0x540 then [(o - 0x140) / 4, (o - 0x140) / 4 + 1] else [(o - 0x540) / 64]
    { w with lost := w.lost ++ hit.filter fun i => decide (i < n) && !w.lost.contains i }

/-- A record with the word at offset `o` uncorrectable: it is returned as read, and what that word reads as is free (R436). -/
def Rec.spoil (r : Rec) (o : Nat) (x y : Word) : Rec :=
  { r with raw := some (r.bytes.take o ++ leBytes 4 x.toNat ++ leBytes 4 y.toNat ++ r.bytes.drop (o + 8)) }

/-- The region of an uncorrectable word treats it as R436 says. -/
def nvSpoil (s : State) (a : Nat) : State :=
  if a < 0x1000 then s.onNv fun n => { n with identLost := n.identLost || decide (a < 24) }
  else if a < 0x4000 then
    sysIds.foldl (fun s id =>
      let o := a - sysBase id
      if sysBase id ≤ a && o < 2 * sysCopyLen id then
        s.onNv fun n => { n with sys := tabMod {} id (fun r => r.spoil (decide (sysCopyLen id ≤ o))) n.sys }
      else s) s
  else if a < 0x7000 then
    let c := (a - 0x4000) / 288
    if c < 34 then s.onNv fun n => { n with ctrs := tabMod {} c (fun x => x.spoil ((a - 0x4000) % 288)) n.ctrs } else s
  else if a < 0xB800 then s.onNv fun n => { n with warmA := n.warmA.spoil (a - 0x7000) }
  else if a < 0x10000 then s.onNv fun n => { n with warmB := n.warmB.spoil (a - 0xB800) }
  else if a < 0x20000 then
    let x := Config.freeWord s.free
    let y := Config.freeWord (s.free + 1)
    s.drawn.drawn.onNv fun n => { n with
      recs := tabMod none ((a - 0x10000) / 128) (fun r => r.map fun r => r.spoil (a % 128) x y) n.recs }
  else s.onNv fun n => { n with
    user := tabMod {} ((a - 0x20000) / 128 % 1024) (fun r => r.spoil (decide (64 ≤ a % 128))) n.user }

/-- One word error found in the parameter store (R436). -/
def nvError (s : State) (a : Nat) (ue : Bool) : State :=
  let a := a / 8 * 8
  if ue then
    let s := record (s.onNv fun n => { n with ueCount := satInc n.ueCount }) 0x0B02 [.b4 a]
    nvSpoil s a
  else
    let s := s.onNv fun n => { n with ceCount := satInc n.ceCount }
    record s 0x0B01 [.b4 a, .b4 s.nv.ceCount.toNat]

/-! ## Loading at BOOT -/

/-- The payload that a system record gives at BOOT, its default where it is absent (R442). -/
def sysLoad (s : State) (id : Nat) : List Byte := (sysRec s id).payload.getD (sysDefault id)

/-- The taken copies of user records: sequence numbers and data. -/
def mirrorOf (u : Tab NvRec) : Tab (Option (Word × List Byte)) :=
  u.filterMap fun e => e.2.taken.map fun b => (e.1, some ((e.2.copy b).seq, (e.2.copy b).data))

/-- The user records are read into the mirror (R444). -/
def loadMirror (s : State) : State :=
  let s := s.nv.user.foldl (fun s e => readRecord s e.1 e.2) s
  s.onNv fun n => { n with mirror := mirrorOf n.user }

/-- The lanes that a lane record spells (R318). -/
def lanesOf (b : List Byte) : Tab Lane := (List.range 40).foldl (fun m n => tabSet (laneDef n) n (laneOf b n) m) []

/-- The system records are read and take effect (R318, R384, R399, R440, R442, R443). -/
def loadSystem (s : State) : State :=
  let s := sysIds.foldl (fun s id => readRecord s id (sysRec s id)) s
  { s with
    host := { s.host with slots := slotsOf (sysLoad s 0xF001) }
    pkg := { pkgOf s.pkg (sysLoad s 0xF003) with keys := keysOf (sysLoad s 0xF002) }
    ln := { s.ln with lanes := lanesOf (sysLoad s 0xF004) }
    safe := safeOf s.safe (sysLoad s 0xF005)
    nv := { s.nv with clearMark := wordAt (sysLoad s 0xF006) 0 } }

/-- The counters that BOOT reads (R448). -/
def readBootCounters (s : State) : State := readCounter (readCounter s 0) 1

/-- Operating seconds at BOOT (R450): the larger of 60 x counter 0 and what the newest valid warm image holds. -/
def bootSeconds (s : State) : Nat :=
  max (60 * (tabGet ({} : Ctr) s.nv.ctrs 0).value) (match newestWarm s with | some b => (s.warm b).ops.toNat | none => 0)

/-- The identity record is checked (R438). -/
def loadIdentity (s : State) : State :=
  let s := s.onNv fun n => { n with identOk := !n.identLost }
  if s.nv.identOk then s else record s 0x0B0E []

end Sys2Proof.Machine
end

