-- ==== Sys2Proof/Machine/YelxWire.lean ====
section
/-! DEFINITION. Yelx frames on the wire: layout (R264-R267), wire time (R265), counters (R294), fault injection
on what a port sends (R293), and what makes a received frame valid (R263). -/
namespace Sys2Proof.Machine

/-- The address of port `p`, in order of transmission, from `ID_SERIAL_LO` and `ID_SERIAL_HI`, which read 0 where
the identity record fails its check (R264, R438). -/
def portAddr (s : State) (p : Nat) : List Byte :=
  let n := if s.nv.identOk then Config.serial.toNat else 0
  let lo := n % 2 ^ 32
  let hi := n / 2 ^ 32
  [0x02, byteOf lo 3, byteOf lo 2, byteOf lo 1, byteOf lo 0, BitVec.ofNat 8 (hi % 32 * 8 + p)]

/-- The 16-byte Yelx header (R266). -/
def YFrame.header (f : YFrame) : List Byte :=
  [BitVec.ofNat 8 (0x10 + f.type.toNat),
   BitVec.ofNat 8 (128 * b2n f.up + 64 * b2n f.line + 32 * b2n f.odd + 16 * b2n f.retry),
   BitVec.ofNat 8 (32 * f.port.toNat + f.sta.toNat), f.sub]
  ++ leBytes 2 f.seq.toNat ++ leBytes 2 (match f.tag with | some t => 0x8000 + t.toNat | none => 0)
  ++ leBytes 4 f.cycle.toNat ++ leBytes 2 f.body.length ++ [f.hop, 0]

/-- Header, payload and inner check value (R265, R267). -/
def YFrame.inner (f : YFrame) : List Byte :=
  let b := f.header ++ f.body
  b ++ leBytes 4 (crc32c b)

/-- An Ethernet frame from port `p` with its FCS (R264, R265). -/
def etherFrame (s : State) (p : Nat) (client : List Byte) : List Byte :=
  let b := List.replicate 6 0xFF ++ portAddr s p ++ [byteOf (yEther s.cfg) 1, byteOf (yEther s.cfg) 0] ++ padTo 46 client
  b ++ leBytes 4 (crc32 b)

/-- Wire time of a frame with `n` payload bytes, in ns (R265). -/
def wireNs (n : Nat) : Nat := (max (n + 38) 64 + 20) * 8

/-- Time from the start of a frame to its SFD: seven octets of preamble (DEDUCED, log entry 26). -/
def sfdNs : Nat := 56

/-- A counter of R294 advanced. -/
def ylCountUp (s : State) (p i : Nat) : State :=
  s.onYl fun y => { y with counts := tabMod 0 (16 * p + i) satInc y.counts }

/-- Bytes leave a port. -/
def ylSend (s : State) (p : Nat) (b : List Byte) : State := (ylCountUp s p 0).emit (.yelx p b)

/-! ## Fault injection (R293) -/

/-- `YL_INJ_CFGp`. -/
def injCfg (s : State) (p : Nat) : Word := rGet s.cfg (0x0520 + p) 0

/-- The injection unit of port `p` selects a frame of this direction, type and station. -/
def injMatch (s : State) (p : Nat) (rx : Bool) (type sta : Nat) : Bool :=
  let w := injCfg s p
  (match activeHdr s with | some h => h.testPermit | none => false)
    && wbit w 31 && wbit w 27 == rx && (wbit w 26 || fld w 21 5 == sta)
    && decide (1 ≤ type ∧ type ≤ 10) && wbit w (10 + type)

/-- The action on a matching frame, if the unit acts on it. -/
def injAct (s : State) (p : Nat) : Option Nat :=
  let rate := rGet s.cfg (0x0528 + p) 0
  let x := s.port p
  if (x.injSeen + 1) % orElse (fld rate 16 16) 1 = 0 && (fld rate 0 16 == 0 || decide (x.injDone < fld rate 0 16))
      && decide (fld (injCfg s p) 28 3 < 4) then some (fld (injCfg s p) 28 3) else none

/-- A matching frame is counted, and so is an injection. -/
def injNote (s : State) (p : Nat) (acts : Bool) : State :=
  let s := s.modPort p fun x => { x with injSeen := x.injSeen + 1, injDone := x.injDone + b2n acts }
  if acts then ylCountUp s p 10 else s

/-- A frame held: until the instant `at_`, or for 0 until the next frame of its direction. -/
def injHold (s : State) (p at_ : Nat) (b : List Byte) (rx : Bool) : State :=
  s.modPort p fun x => { x with injHeld := x.injHeld ++ [(at_, b, rx)] }

/-- A frame with bit 0 of the Yelx byte that `PARAM` names inverted; `n` Yelx bytes follow the Ethernet header. -/
def injCorrupt (w : Word) (n : Nat) (b : List Byte) : List Byte :=
  let k := 14 + min (fld w 0 8) (n - 1)
  b.take k ++ [byteAt b k ^^^ 1] ++ b.drop (k + 1)

/-- Frames that wait for the next one in the sending direction follow it. -/
def injFlush (s : State) (p : Nat) : State :=
  let isDue (e : Nat × List Byte × Bool) : Bool := e.1 == 0 && !e.2.2
  let due := (s.port p).injHeld.filter isDue
  let s := s.modPort p fun x => { x with injHeld := x.injHeld.filter fun e => !isDue e }
  due.foldl (fun s e => ylSend s p e.2.1) s

/-- A frame that starts at instant `a` is sent on port `p`, through its injection unit. -/
def ylEmit (s : State) (p : Nat) (f : YFrame) (a : Nat) : State :=
  let b := etherFrame s p f.inner
  if injMatch s p false f.type.toNat f.sta.toNat then
    let act := injAct s p
    let s := injNote s p act.isSome
    match act with
    | some 0 => s
    | some 1 => injFlush (ylSend s p (etherFrame s p ((injCorrupt (injCfg s p) (f.body.length + 20) b).drop 14 |>.take (f.body.length + 20)))) p
    | some 2 => injHold s p 0 b false
    | some 3 => injHold s p (a + 1000 * fld (injCfg s p) 0 8) b false
    | _ => injFlush (ylSend s p b) p
  else injFlush (ylSend s p b) p

/-- A frame that starts at instant `a` is sent on the line of port `p`: on a closed line both copies at the same instant
(R288). -/
def lineEmit (s : State) (p : Nat) (f : YFrame) (byPos : Bool) (a : Nat) : State :=
  let f := { f with port := BitVec.ofNat 3 (homePort s.cfg p), hop := if byPos then f.sta.setWidth 8 else 0 }
  if pClosed s.cfg p then
    let e := p / 2 * 2
    let s := if (s.port e).link then ylEmit s e { f with line := true } a else s
    if (s.port (e + 1)).link then
      ylEmit s (e + 1) { f with
        line := true
        odd := true
        hop := if byPos then BitVec.ofNat 8 (pStations s.cfg e - 1 - f.sta.toNat) else 0 } a
    else s
  else if (s.port p).link then ylEmit s p f a else s

/-! ## Received frames -/

/-- What a received frame turns out to be (R263). -/
inductive RxKind where
  | fcs
  | discard
  | inner
  /-- a frame of the device itself that has come round a closed line -/
  | own
  | good (f : YFrame)
  deriving DecidableEq, Repr

/-- The frame that the Yelx bytes of a good frame spell. -/
def yParse (y : List Byte) : YFrame :=
  let b1 := byteAt y 1
  let t := leAt y 6 2
  { type := BitVec.ofNat 4 (byteAt y 0).toNat, up := b1.getLsbD 7, line := b1.getLsbD 6, odd := b1.getLsbD 5,
    retry := b1.getLsbD 4, port := BitVec.ofNat 3 ((byteAt y 2).toNat / 32), sta := BitVec.ofNat 5 (byteAt y 2).toNat,
    sub := byteAt y 3, seq := BitVec.ofNat 16 (leAt y 4 2),
    tag := if t.testBit 15 then some (BitVec.ofNat 9 t) else none, cycle := BitVec.ofNat 32 (leAt y 8 4),
    hop := byteAt y 14, body := (y.drop 16).take (leAt y 12 2) }

/-- The FCS of a frame fails. -/
def fcsBad (b : List Byte) : Bool :=
  let n := b.length - 4
  b.drop n != leBytes 4 (crc32 (b.take n))

/-- The checks of R263 after the FCS, in its order. -/
def rxKind (s : State) (p : Nat) (b : List Byte) : RxKind :=
  let c := s.cfg
  let ty := ofBe ((b.drop 12).take 2)
  let y := (b.take (b.length - 4)).drop 14
  let dst := b.take 6
  let src := (b.drop 6).take 6
  let len := leAt y 12 2
  let type := (byteAt y 0).toNat % 16
  if 1518 < b.length || b.length < 18 || ty == 0x8100 || ty == 0x88A8 then .discard
  else if ty != yEther c then .discard
  else if pClosed c p && (src == portAddr s p || src == portAddr s (pairPort p)) then .own
  else if dst != portAddr s p && !(pClosed c p && dst == portAddr s (pairPort p)) then .discard
  else if (byteAt y 0).toNat / 16 != 1 || type == 0 || 10 < type || y.length < 20 + len then .discard
  else if (y.drop (16 + len)).take 4 != leBytes 4 (crc32c (y.take (16 + len))) then .inner
  else .good (yParse y)

end Sys2Proof.Machine
end

