-- ==== Sys2Proof/Machine/YelxOps.lean ====
section
/-! DEFINITION. Transactions of the Yelx ports (R274-R278), stations and their states (R281-R286), admission
(R282), time synchronisation (R290), port states (R280) and closed lines (R287-R289). -/
namespace Sys2Proof.Machine

/-- Payload length of the longest response to a request (R269). -/
def respLen (c : Tab Word) (k : Nat) : TransFor → Nat
  | .imgw => 16 + sIn c k
  | .mbx _ => 1480
  | .sync => 24
  | .discover => 20
  | _ => 4

/-- The time from the start of an attempt to the instant by which its response is due (R276). -/
def spanNs (s : State) (f : YFrame) (x : TransFor) : Nat :=
  wireNs f.body.length + (s.sta f.key).rtt.toNat + 2000 + wireNs (respLen s.cfg f.key x) + 1000

/-- The end of the running cycle of a port. -/
def cycleEnd (s : State) (p : Nat) : Option Nat := (s.port p).t0.map fun t => t + pCycle s.cfg p

/-- A frame draws from the reserved tags: ADM SAFE alone (R274). -/
def YWait.reserved (w : YWait) : Bool := w.for_ == .safe

/-- The frame kinds addressed by position (R266, R282). -/
def TransFor.byPos : TransFor → Bool
  | .discover | .admission _ => true
  | _ => false

/-- The sequence number that a station's counter holds once the frame has been sent: `SEQ_BASE` of an ADMIT,
else the frame's own (R275). -/
def seqAfter (f : YFrame) (x : TransFor) (q : BitVec 16) : BitVec 16 :=
  match x with
  | .admission _ | .readmit _ => BitVec.ofNat 16 (leAt f.body 2 2)
  | _ => q

/-- A SYNC REQ leaves: its SFD is T1 (R290). -/
def noteSync (s : State) (d : Depart) : State :=
  if d.for_ = .sync then s.modSta d.frame.key fun x => { x with syncT1 := d.at_ + sfdNs } else s

/-- The streaming of a row on a port starts: recorded where it is late, with the time from the projected crossing to this
start (R246, R260). -/
def rowStarts (s : State) (id : BitVec 16) (p a : Nat) : State :=
  match (rowEntry s id).bind fun e => e.row.bind fun r => (r.leadOpen.find? fun x => x.1 == p).map fun x => (e, x.2) with
  | some (e, c) =>
    let s := modRow s id fun r => { r with leadOpen := r.leadOpen.filter (fun x => x.1 != p), leadSaid := p :: r.leadSaid }
    record s 0x0405 [.b1 e.shaft.val, .b4 e.key.toNat, .b1 p, .b8 (BitVec.ofInt 64 ((a : Int) - (c : Int))).toNat]
  | none => s

/-- The first fragment of a row leaves: its streaming starts. -/
def noteRow (s : State) (d : Depart) : State :=
  match d.for_ with
  | .row id 0 _ => rowStarts s id (d.frame.key / 32) d.at_
  | _ => s

/-- A planned frame starts: a new one takes the next sequence number of its station (R272, R275). -/
def depart (s : State) (d : Depart) : State :=
  let k := d.frame.key
  let n := wireNs d.frame.body.length
  let s := noteRow s d
  let s := s.modPort d.port fun x => { x with wireTo := d.at_ + n }
  if d.frame.retry then lineEmit (noteSync s d) d.port d.frame d.for_.byPos d.at_
  else
    let q := (s.sta k).seqTo + 1
    let f : YFrame := { d.frame with seq := q, cycle := (s.port d.port).cycle }
    let s := s.modSta k fun x => { x with
      seqTo := seqAfter f d.for_ q
      syncSeq := if d.for_ = .sync then some q else x.syncSeq
      discoverAt := if d.for_ = .discover then d.at_ else x.discoverAt }
    let s := s.onYl fun y => { y with trans := y.trans.map fun t => if some (BitVec.ofNat 9 t.tag) = f.tag then { t with frame := f } else t }
    lineEmit (noteSync s d) d.port f d.for_.byPos d.at_

/-- The frames of a port whose start has come leave, in order. -/
def departs (s : State) (p : Nat) : State :=
  let isDue (d : Depart) : Bool := d.port == p && decide (d.at_ ≤ s.now)
  let due := s.yl.plan.filter isDue
  due.foldl depart (s.onYl fun y => { y with plan := y.plan.filter fun d => !isDue d })

/-- The frames of every port whose start has come leave. -/
def departAll (s : State) : State := (List.range 8).foldl departs s

/-- Insertion into the plan of a port, by start. -/
def insertDepart (d : Depart) : List Depart → List Depart
  | [] => [d]
  | h :: r => if h.port = d.port ∧ d.at_ < h.at_ then d :: h :: r else h :: insertDepart d r

/-- The start of a frame at `a` is planned. -/
def plan (s : State) (d : Depart) : State :=
  let s := s.modPort d.port fun x => { x with busyTo := max x.busyTo (d.at_ + wireNs d.frame.body.length) }
  departs (s.onYl fun y => { y with plan := insertDepart d y.plan }) d.port

/-- The first attempt of a transaction with tag `g` starts at `a`; a wait for the tag within the cycle has cost it a retry
(R31, R32, R274). -/
def startTrans (s : State) (w : YWait) (g a cost : Nat) : State :=
  let f : YFrame := { w.frame with tag := some (BitVec.ofNat 9 g) }
  let s := s.onYl fun y => { y with
    trans := y.trans ++ [{ tag := g, frame := f, for_ := w.for_, firstAt := a, sentAt := some a, retries := cost }] }
  plan s { at_ := a, port := w.port, frame := f, for_ := w.for_ }

/-- The step of R272 in which a frame has its place. -/
def TransFor.step : TransFor → Nat
  | .safe => 3
  | .imgw => 4
  | .row _ _ _ => 5
  | .mbx _ => 7
  | .sync | .syncSet => 8
  | .discover | .admission _ | .release | .retire | .readmit _ => 6

/-- A planned frame keeps its place before a first attempt of step `n`: it is a retry, or of that step or an earlier one
(R272). -/
def Depart.before (d : Depart) (n : Nat) : Bool := d.frame.retry || decide (d.for_.step ≤ n)

/-- The earliest instant at which a port can start a first attempt of step `n`: what is on the wire has ended, and the planned
frames that keep their places have gone; a retry goes where a frame of step 3 would (R272). -/
def slotAt (s : State) (p n : Nat) : Nat :=
  (s.yl.plan.filter fun d => d.port == p && d.before n).foldl (fun a d => max a (d.at_ + wireNs d.frame.body.length))
    (max s.now (s.port p).wireTo)

/-- The frame may be sent in this state of the line and of the device (R280). -/
def mayGo (s : State) (w : YWait) : Bool :=
  match w.for_ with
  | .imgw => decide (3 ≤ lineState s w.port) && s.dev.state != .setup
  | .row _ _ _ | .mbx _ => lineState s w.port == 4 && s.dev.state != .setup
  | _ => decide (3 ≤ lineState s w.port)

/-- The attempt ends before the cycle does (R272). -/
def fitsAt (s : State) (w : YWait) (a : Nat) : Bool :=
  match cycleEnd s w.port with
  | some e => decide (a + spanNs s w.frame w.for_ ≤ e) || w.for_ == .safe || w.for_ == .imgw
  | none => false

/-- A frame joins those that wait. -/
def ylWait (s : State) (w : YWait) : State := s.onYl fun y => { y with waits := y.waits ++ [w] }

/-- A planned first attempt that no longer ends before the cycle does goes in the next one (R272). -/
def carryOver (s : State) (d : Depart) : State :=
  let w : YWait := { port := d.port, frame := d.frame, for_ := d.for_ }
  if fitsAt s w d.at_ then s
  else
    let s := ylCountUp (s.onYl fun y => { y with plan := y.plan.erase d }) d.port 12
    match d.frame.tag with
    | some g =>
      ylWait (s.onYl fun y => { y with trans := y.trans.filter fun t => t.tag != g.toNat }) { w with tag := .has g.toNat, later := true }
    | none => s.modSta d.frame.key fun x => { x with syncDue := true }

/-- The planned frames of a port that do not keep their places before one of step `n` make room for it up to `a` (R272). -/
def pushBack (s : State) (p n a : Nat) : State :=
  let mine (d : Depart) : Bool := d.port == p && !d.before n
  match s.yl.plan.filter mine with
  | [] => s
  | h :: r =>
    let m := a - h.at_
    let s := s.modPort p fun x => { x with busyTo := x.busyTo + m }
    let s := s.onYl fun y => { y with
      plan := y.plan.map fun d => if mine d then { d with at_ := d.at_ + m } else d
      trans := y.trans.map fun t =>
        if (h :: r).any fun d => d.frame.tag == some (BitVec.ofNat 9 t.tag) then { t with sentAt := t.sentAt.map (· + m) } else t }
    (s.yl.plan.filter mine).foldl carryOver s

/-- A frame is queued: it draws its tag, or waits for one (R32, R274). -/
def tagged (s : State) (w : YWait) : State × YWait :=
  if w.tag = .no then let (s, g) := drawTag s w.reserved; (s, { w with tag := g }) else (s, w)

/-- A frame that waits for the next cycle, with its tag. -/
def ylLater (s : State) (w : YWait) : State :=
  let (s, w) := tagged s w
  ylWait s { w with later := true }

/-- A frame that is due at `a`: started before the planned frames of later steps, or kept for a tag (R32) or for the next
cycle (R272), with the time at which the next frame may start. -/
def startOrKeep (s : State) (w : YWait) (a : Nat) : State × Nat :=
  let (s, w) := tagged s w
  match w.tag with
  | .has g =>
    if !mayGo s w || (s.port w.port).t0.isNone then (ylLater s w, a)
    else if fitsAt s w a then
      let b := a + wireNs w.frame.body.length
      (startTrans (pushBack s w.port w.for_.step b) w g a 0, b)
    else (ylCountUp (ylLater s w) w.port 12, a)
  | _ => (ylWait s w, a)

/-- A frame that falls due within a cycle takes its place in the order of R272. -/
def offer (s : State) (w : YWait) : State := (startOrKeep s w (slotAt s w.port w.for_.step)).1

/-! ## Frames (R269) -/

/-- A request to a station. -/
def reqFrame (k type sub : Nat) (body : List Byte) : YFrame :=
  { type := BitVec.ofNat 4 type, port := BitVec.ofNat 3 (k / 32), sta := BitVec.ofNat 5 k, sub := BitVec.ofNat 8 sub, body := body }

/-- A request that waits. -/
def reqWait (k type sub : Nat) (body : List Byte) (x : TransFor) : YWait :=
  { port := k / 32, frame := reqFrame k type sub body, for_ := x }

/-- Ranges as entries of offset and length. -/
def rangeBytes (l : List (Nat × Nat)) : List Byte := l.flatMap fun r => leBytes 2 r.1 ++ leBytes 2 r.2

/-- The payload of ADM ADMIT; `SEQ_BASE` is the device's choice, a free value. -/
def admitBody (s : State) (k : Nat) (held : Bool) : List Byte :=
  let c := s.cfg
  let p := k / 32
  let g := guardRanges c k
  [BitVec.ofNat 8 (b2n held), BitVec.ofNat 8 (pLoss c p)] ++ leBytes 2 ((Config.freeWord s.free).toNat % 65536)
    ++ leBytes 2 (sIn c k) ++ leBytes 2 (sOut c k) ++ leBytes 4 (pCycle c p) ++ leBytes 4 g.length ++ rangeBytes g

/-- ADM ADMIT to a station. -/
def admitWait (s : State) (k : Nat) (held : Bool) (x : TransFor) : YWait := reqWait k 8 0x02 (admitBody s k held) x

/-- ADM SAFE or RELEASE frames over ranges, at most 32 in each (R286). -/
def rangeFrames (k sub : Nat) (x : TransFor) : Nat → List (Nat × Nat) → List YWait
  | 0, _ => []
  | n + 1, l =>
    if l.isEmpty then []
    else reqWait k 8 sub (leBytes 4 (l.take 32).length ++ rangeBytes (l.take 32)) x :: rangeFrames k sub x n (l.drop 32)

/-! ## Station events -/

/-- Trigger source 0x6 for a station's port (R170). -/
def staTrigger (s : State) (k : Nat) : State := raiseSource s 0x6 fun a => a.testBit (k / 32)

/-- Strikes of a station within the window (R283). -/
def staStrikes (s : State) (k : Nat) : List Nat :=
  (s.sta k).strikes.filter fun t => decide (s.op ≤ t + 1000000000 * yWindow s.cfg)

/-- The next station that an admission pass of a port tries, from station number `n` on (R282). -/
def passNext (s : State) (p n : Nat) : Option Nat :=
  if pClosed s.cfg p && p % 2 == 1 && (s.port (p - 1)).link then none
  else (pStas s.cfg (homePort s.cfg p)).find? fun k => decide (n ≤ k % 32) && !(s.sta k).admitted

/-- The pass of a port that is ADMITTING goes on from station number `n`. -/
def passFrom (s : State) (p n : Nat) : State :=
  if (s.port p).state = 3 then
    match passNext s p n with
    | some k => offer (s.modPort p fun x => { x with passSta := k % 32 }) (reqWait k 8 0x01 [] .discover)
    | none => s.modPort p fun x => { x with passSta := 32 }
  else s

/-- A station has been tried: the passes that were at it go on. -/
def passOver (s : State) (k : Nat) : State :=
  let go (s : State) (p : Nat) : State :=
    if (s.port p).state == 3 && (s.port p).passSta == k % 32 then passFrom s p (k % 32 + 1) else s
  let p := k / 32
  let s := go s p
  if pClosed s.cfg p then go s (pairPort p) else s

/-- A readmission ends: recorded, and its command completes (R285). -/
def readmitEnd (s : State) (k st : Nat) : State :=
  let s := record s 0x0509 [.b1 (k / 32), .b1 (k % 32), .b1 st]
  finishWaits s (fun w => w.for_ == .station k) st 0 0 0

/-- A transaction ends (R31). -/
def dropTrans (s : State) (tag st : Nat) : State := endTrans s (fun t => t.tag == tag) st

/-- Every port of the line of a port is retired. -/
def lineRetired (s : State) (p : Nat) : Bool :=
  (s.port p).state == 5 && (!pClosed s.cfg p || (s.port (pairPort p)).state == 5)

/-- The status of a transaction of a line without link, no frame of which is sent (R277, R278). -/
def unsentSt (s : State) (p : Nat) : Nat := if lineRetired s p then stRetired else stNoDelivery

/-- A transaction of a line without link, which asks for nothing more, completes as it is issued (R277, R278). -/
def unsent (s : State) (p : Nat) : State :=
  passTag (s.when (!lineRetired s p) fun s => ylCountUp s p 7) false (unsentSt s p)

/-- A station is retired (R283): its transactions complete `RETIRED`, and one ADM RETIRE is attempted, which ends at once
where its line has no link. -/
def retireSta (s : State) (k cause : Nat) : State :=
  let s := s.modSta k fun x => { x with state := 4 }
  let s := record s 0x0507 [.b1 (k / 32), .b1 (k % 32), .b1 cause]
  let s := staTrigger s k
  let isReadmit (x : TransFor) : Bool := match x with | .readmit _ => true | _ => false
  let open_ := (s.yl.trans.any fun t => t.frame.key == k && isReadmit t.for_) || (s.yl.waits.any fun w => w.frame.key == k && isReadmit w.for_)
  let s := endWaits (endTrans s (fun t => t.frame.key == k) stRetired) (fun w => w.frame.key == k) stRetired
  let s := if open_ then readmitEnd s k stRetired else s
  if lineLinked s (k / 32) then offer s (reqWait k 8 0x05 [] .retire)
  else unsent s (k / 32)

/-- Retirement when a threshold of R283 is reached. A SAFE_HELD station, which leaves that state only by readmission (R284),
is retired as well: the thresholds of R283 name no state (DEDUCED, log entry 89). -/
def judgeSta (s : State) (k : Nat) : State :=
  let x := s.sta k
  if x.state = 4 then s
  else if yConsec s.cfg ≤ x.consec then retireSta s k 1
  else if yStrikes s.cfg ≤ (staStrikes s k).length then retireSta s k 2
  else s

/-- The row still waits for its stations (R251). -/
def rowOpen (s : State) (id : BitVec 16) : Bool :=
  match rowEntry s id with
  | some e => match e.row with | some r => !r.armed | none => false
  | none => false

/-- What a transaction that completes `NO_DELIVERY` leaves, by its purpose (R277-R282). -/
def undelivered (s : State) (w : YWait) : State :=
  let k := w.frame.key
  match w.for_ with
  | .imgw => s.modSta k fun x => { x with failed := true, consec := x.consec + 1 }
  | .row id _ _ =>
    let w := { w with tag := .no, later := true }
    if rowOpen s id then (if lineLinked s w.port then ylLater s w else ylWait s w) else s
  | .discover =>
    let s := if (s.sta k).state = 1 then s.modSta k fun x => { x with state := 0 } else s
    passOver s k
  | .sync => if (s.sta k).admitted then s else passOver s k
  | .admission _ => passOver s k
  | .readmit _ => readmitEnd s k stNoDelivery
  | _ => s

/-- A transaction completes `NO_DELIVERY`: with a strike while its port is UP (R278). -/
def noDelivery (s : State) (w : YWait) : State :=
  let k := w.frame.key
  let s := ylCountUp s w.port 7
  let up := lineState s w.port == 4
  let s := if up then
      let s := s.modSta k fun x => { x with strikes := staStrikes s k ++ [s.op] }
      record s 0x0506 [.b1 (k / 32), .b1 (k % 32), .b1 w.frame.type.toNat, .b4 (staStrikes s k).length]
    else s
  judgeSta (undelivered s w) k

/-- The waiting form of a transaction, as a new frame (R275). -/
def Trans.asWait (t : Trans) : YWait :=
  { port := t.frame.port.toNat, frame := { t.frame with retry := false }, for_ := t.for_ }

/-- A transaction completes `NO_DELIVERY`. -/
def failTrans (s : State) (t : Trans) : State := noDelivery (dropTrans s t.tag stNoDelivery) t.asWait

/-- The end of the cycle in which an attempt was sent (R277). -/
def attemptEnd (s : State) (t : Trans) : Nat :=
  let n := pCycle s.cfg t.frame.port.toNat
  match t.sentAt with | some a => (a / n + 1) * n | none => s.now

/-- A failed attempt (R277): a retry, which goes before the first attempts that have not started, or the end of the
transaction, at the failure or at the cycle end. -/
def attemptFailed (s : State) (t : Trans) : State :=
  let p := t.frame.port.toNat
  let a := slotAt s p 3
  let e := attemptEnd s t
  let limit := if t.for_ = .retire then 0 else yRetries s.cfg
  if decide (t.retries < limit) && decide (a + spanNs s t.frame t.for_ ≤ e) && mayGo s t.asWait then
    let f : YFrame := { t.frame with retry := true }
    let s := pushBack (ylCountUp s p 6) p 3 (a + wireNs f.body.length)
    let s := s.onYl fun y => { y with trans := y.trans.map fun x =>
      if x.tag = t.tag then { x with frame := f, sentAt := some a, retries := x.retries + 1 } else x }
    plan s { at_ := a, port := p, frame := f, for_ := t.for_ }
  else if s.now < e then s.onYl fun y => { y with trans := y.trans.map fun x =>
    if x.tag = t.tag then { x with sentAt := none, dead := true } else x }
  else failTrans s t

/-- A transaction whose frame goes again in the next cycle (R276). -/
def holdTrans (s : State) (tag : Nat) : State :=
  s.onYl fun y => { y with trans := y.trans.map fun x => if x.tag = tag then { x with sentAt := none } else x }

/-! ## Ports and lines -/

/-- Both ports of a closed line lack link: `YL_LINE_LOSS`, and CLEARING for BASIC inputs (R49, R289). -/
def checkLine (s : State) (p : Nat) : State :=
  let h := p / 2 * 2
  if pClosed s.cfg p && !lineLinked s p && !(s.port h).lossSaid then
    let b := lineBasic s.cfg h
    let s := s.modPort h fun x => { x with lossSaid := true }
    let s := record s 0x050C [.b1 (h / 2), .b1 (b2n b)]
    if b then clearCond s bLineLoss 0xFF else s
  else s

/-- The line of a port has no link left: its open transactions complete `NO_DELIVERY` (R278). -/
def lineCut (s : State) (p : Nat) : State :=
  if lineLinked s p then s
  else
    let h := homePort s.cfg p
    let gone := s.yl.trans.filter fun t => t.frame.port.toNat == h
    let waits := s.yl.waits.filter fun w => w.port == h
    let s := endWaits (endTrans s (fun t => t.frame.port.toNat == h) stNoDelivery) (fun w => w.port == h) stNoDelivery
    let s := s.onYl fun y => { y with plan := y.plan.filter fun d => d.port != h }
    (gone.map Trans.asWait ++ waits).foldl noDelivery s

/-- A port that had or sought link goes DOWN (R280). -/
def portDown (s : State) (p : Nat) : State :=
  let x := s.port p
  let s := s.modPort p fun y => { y with state := 1, noLinkAt := if x.link then s.now else y.noLinkAt }
  let s := if x.link then ylCountUp s p 9 else s
  let s := record s 0x0502 [.b1 p, .b1 x.state.toNat]
  checkLine (lineCut (raiseSource s 0x7 fun a => a.testBit p) p) p

/-- Stations ADMITTED or SAFE_HELD on a port. -/
def admittedOn (s : State) (p : Nat) : Nat := ((pStas s.cfg p).filter fun k => (s.sta k).admitted).length

/-- `YL_READMIT` of a port (R285). -/
def portReadmit (s : State) (p : Nat) : State × Nat :=
  let st := if (s.port p).state = 5 then stDone else stNotFound
  let s := if st = stDone then s.modPort p fun x => { x with state := 1, noLinkAt := s.now } else s
  (record s 0x0509 [.b1 p, .b1 p, .b1 st], st)

/-- `YL_READMIT` of a station (R285): an ADMIT goes in the next cycle, or the target is not changed; a retired port, and
a port without link, end it at once (R277, R278). -/
def staReadmit (s : State) (k : Nat) (slot : Option (Nat × BitVec 16)) : State × Option Nat :=
  let ends (s : State) (st : Nat) : State × Option Nat := (record s 0x0509 [.b1 (k / 32), .b1 (k % 32), .b1 st], some st)
  if !((s.sta k).state = 3 && sOn s.cfg k) then ends s stNotFound
  else if !lineLinked s (k / 32) then ends (unsent s (k / 32)) (unsentSt s (k / 32))
  else
    let w := admitWait s k false (.readmit slot)
    (ylLater s.drawn w, none)

/-- `YL_MBX_SEND` at commit (R294): one request, or none while one to that station is open. -/
def mbxSend (s : State) (t k : Nat) (body : List Byte) : State :=
  let isMbx (x : TransFor) : Bool := match x with | .mbx _ => true | _ => false
  if (s.yl.trans.any fun x => x.frame.key == k && isMbx x.for_) || (s.yl.waits.any fun w => w.frame.key == k && isMbx w.for_) then
    record s 0x050E [.b1 (k / 32), .b1 (k % 32), .b1 t]
  else
    let s := s.modSta k fun x => { x with mbxTask := some t, mbxTimeout := false }
    let w := reqWait k 7 0 body (.mbx t)
    if (s.sta k).state = 4 || lineRetired s (k / 32) then passTag s false stRetired
    else if lineState s (k / 32) = 4 then offer s w
    else noDelivery (passTag s false stNoDelivery) w

/-- `YL_PORT_CFGp.ENABLE` written (R280). -/
def portEnabled (s : State) (p : Nat) : State :=
  if pOn s.cfg p then
    if (s.port p).state = 0 then s.modPort p fun _ => { state := 1, noLinkAt := s.now } else s
  else s.modPort p fun _ => {}

/-- The ports, stations and open transactions at an entry to SETUP or after a device reset (R280, R283): what is open ends
`ABORTED` (DESIGN CHOICE, log entry 96). The station counters are of class D. -/
def yelxCleared (y : Yelx) : Yelx :=
  { y with ports := [], stas := [], trans := [], waits := [], plan := [], check := 0
           ended := (y.trans.map (·.tag) ++ y.waits.flatMap (·.tag.held)).foldl (fun m g => tabSet none g (some stAborted) m) y.ended }

/-- The readmissions that wait for a station end with their transactions (R16, R285). -/
def endReadmits (s : State) : State :=
  let isReadmit (x : TransFor) : Bool := match x with | .readmit _ => true | _ => false
  let ks := ((s.yl.trans.filter fun t => isReadmit t.for_).map (·.frame.key) ++ (s.yl.waits.filter fun w => isReadmit w.for_).map (·.frame.key)).eraseDups
  ks.foldl (fun s k => readmitEnd s k stAborted) s

end Sys2Proof.Machine
end

