-- ==== Sys2Proof/Machine/Calls.lean ====
section
/-! DEFINITION. What each committed system call does at the commit of its instance, in issue order (R160): the
calls of R194, R294, R342, R364, R380, R414, R432 and R464. -/
namespace Sys2Proof.Machine

/-- A target of `TASK_TRIGGER` or `AT_TIME` that is not an enabled event task (R195). -/
def callRejected (s : State) (t n target : Nat) : State := record s 0x0208 [.b1 t, .b2 n, .b1 target]

/-- `TASK_TRIGGER` at commit (R194, R195). -/
def callTrigger (s : State) (t target : Nat) : State :=
  if tEnable s.cfg target && tEvent s.cfg target then raiseTrigger s target 0x0 else callRejected s t 0x0200 target

/-- `AT_TIME` at commit (R194, R195). -/
def callAtTime (s : State) (t target at_ : Nat) : State :=
  if tEnable s.cfg target && tEvent s.cfg target then
    if at_ = 0 then s.modTask target fun x => { x with atTime := none }
    else if at_ ≤ s.now then raiseTrigger (s.modTask target fun x => { x with atTime := none }) target 0x0
    else s.modTask target fun x => { x with atTime := some at_ }
  else callRejected s t 0x0202 target

/-- Port of a station argument (R294). -/
def staArgPort (g : Word) : Nat := fld g 8 3
/-- Station key of a station argument. -/
def staArgKey (g : Word) : Nat := 32 * fld g 8 3 + fld g 0 5

/-- `YL_READMIT` at commit (R285, R294). -/
def callYlReadmit (s : State) (g0 : Word) : State :=
  if wbit g0 15 then (portReadmit s (staArgPort g0)).1 else (staReadmit s (staArgKey g0) none).1

/-- `LOOP_TUNE` at commit (R334, R342). -/
def callLoopTune (s : State) (g0 g1 g2 g3 : Word) : State :=
  (tuneStart s (fld g0 0 8) (fld g0 8 2) (fld g0 12 4) g1 g2 g3.toNat).1

/-- `LOOP_CAPTURE` at commit (R338, R342). -/
def callLoopCapture (s : State) (g0 g1 g2 g3 : Word) : State :=
  (capStart s (fld g0 0 8) (fld g0 8 4) (wbit g0 12) (fld g0 16 12) g1 g2 g3.toNat).1

/-- `LOOP_ABORT` (R342): a tune, or a capture. -/
def loopAbortOf (s : State) (g0 : Word) : State × Nat :=
  if wbit g0 8 then capAbort s (fld g0 0 8) else tuneAbort s (fld g0 0 8)

/-- Bits ORed into a slot's `NOTIFY`; the cause rises while it is not zero (R387, R414). -/
def hostNotify (s : State) (n : Nat) (bits : Word) : State :=
  if (s.slot n).front.isNone then s
  else
    let s := s.modSlot n fun x => { x with
      notify := x.notify ||| bits
      notifySet := (s.op, (if x.notifySet.1 = s.op then x.notifySet.2 else 0) ||| bits) }
    if (s.slot n).notify = 0 then s else raiseIrq s n 3

/-- `SAFE_STOP` at commit (R432); the record holds the low byte of the reason (R458; DEDUCED, log entry 93). -/
def callSafeStop (s : State) (t : Nat) (g0 : Word) : State :=
  takeStop (record s 0x0A02 [.b1 t, .b1 (fld g0 0 16)]) 0x12 none

/-- `NV_WRITE` at commit (R446, R464): the committed source bytes. -/
def callNvWrite (s : State) (t : Nat) (g0 g1 g2 g3 : Word) : State :=
  userQueue s { task := t, rno := g0.toNat % 1024, key := g3, data := canBytes s g1.toNat (min 48 g2.toNat), setup := decide (64 ≤ t) }

/-- `NV_COUNT` at commit (R31, R449, R464). -/
def callNvCount (s : State) (t : Nat) (g0 : Word) : State :=
  let (s, g) := drawTag s (taskTags s.cfg t)
  s.onNv fun n => { n with incW := n.incW ++ [(g0.toNat % 32 + 2, g)] }

/-- The effect of committed call `n` of task `t`. -/
def callEffect (s : State) (t n : Nat) (g0 g1 g2 g3 : Word) : State :=
  match n with
  | 0x0200 => callTrigger s t g0.toNat
  | 0x0202 => callAtTime s t g0.toNat (g1.toNat + 2 ^ 32 * g2.toNat)
  | 0x0500 => callYlReadmit s g0
  | 0x0501 => mbxSend s t (staArgKey g0) (canBytes s g1.toNat (min 1480 g2.toNat))
  | 0x0601 => callLoopTune s g0 g1 g2 g3
  | 0x0602 => callLoopCapture s g0 g1 g2 g3
  | 0x0603 => (loopAbortOf s g0).1
  | 0x0700 =>
    let k := g0.toNat % 32
    (chanReadmit s k (tGuard s.cfg t || !chGuard (fCfg s.cfg k)) t).1
  | 0x0800 => canSend s t (g0.toNat % 4) g1.toNat g2
  | 0x0801 => canAbort s t (g0.toNat % 4) g2
  | 0x0802 => canRecover s (g0.toNat % 4)
  | 0x0803 => (canReadmit s (g0.toNat % 4) t).1
  | 0x0900 => hostNotify s (g0.toNat % 4) g1
  | 0x0A00 => callSafeStop s t g0
  | 0x0B01 => callNvWrite s t g0 g1 g2 g3
  | 0x0B02 => userAbort s t (g0.toNat % 1024) g3
  | 0x0B03 => callNvCount s t g0
  | 0x0B05 => record s (0x0B80 + g0.toNat % 128) [.b1 t, .b4 g1.toNat, .b4 g2.toNat]
  | _ => s

/-- The task has been stopped by an entry to STOP or CLEARING, which cancels the fret entries of the write set that it
still commits (R43 steps 3 and 4, R50, R256). -/
def fretsStopped (s : State) (t : Nat) : Bool :=
  (s.dev.state == .stop && !(decide (t < 64) && tGuard s.cfg t)) || (decide (t < 64) && (s.task t).cleared)

/-- The accepted items of a write set take effect, in issue order (R160, R162, R163, R182). -/
def itemEffects (s : State) (t : Nat) (l : List WItem) : State :=
  let s := l.foldl (fun s i => match i with
    | .fret e => if fretsStopped s t then s else fretEnter s (fretOf t e)
    | .cancel k => fretCancel s t k
    | .call .. => s) s
  l.foldl (fun s i => match i with
    | .call n g0 g1 g2 g3 => callEffect s t n.toNat g0 g1 g2 g3
    | _ => s) s

end Sys2Proof.Machine
end

