-- ==== Sys2Proof/Machine/Commit.lean ====
section
/-! DEFINITION. Commits (R181-R184, R204, R208, R217), ends of instances and what they mean to an online exchange
(R410, R412), and output releases (R183, R363). -/
namespace Sys2Proof.Machine

/-! ## Write sets -/

/-- The bytes of the shadow lines of a copy, in ascending order (R204). -/
def copyWrites (c : Copy) : List (Nat × Byte) :=
  c.shadow.flatMap fun e => match e.2 with
    | some x => (List.range 64).map fun j => (64 * e.1 + j, lineByte x.data j)
    | none => []

/-- The copy has written all four bytes of the word at an address (R217). -/
def wroteWord (c : Copy) (a : Nat) : Bool :=
  match tabGet none c.shadow (a / 64) with
  | some x => (List.range 4).all fun j => x.wrote.getLsbD (a % 64 / 4 * 4 + j)
  | none => false

/-! ## Retained versions at a commit (R208) -/

/-- Retained versions of a task's lines. -/
def retainedOf (s : State) (t : Nat) : Nat := (s.can.retained.filter fun r => r.owner == t).length

/-- Versions that the commit of a copy would retain. -/
def wouldRetain (s : State) (t : Nat) (c : Copy) : Nat :=
  (c.shadow.filter fun e => !(needersOf s e.1 (some t)).isEmpty).length

/-- Retained versions that the reserve of a task covers (R206). -/
def retainLimit (c : Tab Word) (t : Nat) : Nat := tQuota c t * tRetain c t

/-- Lines of the unreserved part of the pool that the fret engine and the tasks other than `t` leave (R206, R208, R245). -/
def unreservedFor (s : State) (t : Nat) : Nat :=
  let c := s.cfg
  32768 - 256 - 256 - ((tAll c).foldl (fun n u => n + tReserve c u) 0) - retainedOf s fretOwner
    - (((tAll c).filter (· != t)).foldl (fun n u => n + (retainedOf s u - retainLimit c u)) 0)

/-- The pool lines that the rows of a write set take: those of their buffers (R245). -/
def rowLines (c : Tab Word) (t : Nat) (l : List WItem) : Nat :=
  l.foldl (fun n i => match i with
    | .fret b =>
      let e := fretOf t b
      if e.kind = 2 then n + (bufferLines e (mapLen c (e.sub.toNat % 16))).length else n
    | _ => n) 0

/-- The commit of a copy has to wait for lines of the unreserved part of the pool: for the retained versions beyond the
task's reserve, and for the rows that it enters (R208, R245). -/
def mustWait (s : State) (t : Nat) (c : Copy) : Bool :=
  let beyond := retainedOf s t + wouldRetain s t c - retainLimit s.cfg t
  let need := beyond + rowLines s.cfg t c.ws
  decide (need ≠ 0 ∧ unreservedFor s t < need)

/-! ## Ends of instances -/

/-- What the end of a task's instance means to an exchange under way (R410, R412). -/
def afterEnd (s : State) (t : Nat) : State :=
  match s.pkg.exch.run with
  | some (p, _) =>
    let x := s.task t
    let s := if s.pkg.exch.epochPassed && p.coord.contains t && tEvent s.cfg t && x.heldAt.isNone && !x.switched
      then arrive s p t else s
    exchCheckDone s
  | none => s

/-- An open instance ends (R169, R176). -/
def closeInst (s : State) (t : Nat) : State := afterEnd (endInst s t) t

/-- The window of a task's open instance keeps the lanes and PCs of its copies (R186). -/
def notePcs (s : State) (t : Nat) : State :=
  let cs := copiesOf s t
  match s.inst t with
  | some i => s.onSeq fun q => { q with wins := q.wins.map fun w =>
      if w.task = t && w.num = i.num then
        { w with lanes := cs.map (fun e => e.2.lane), pcs := cs.map (fun e => e.2.regs.pc) }
      else w }
  | none => s

/-- An instance ends without commit; the task watchdog decides it (R95, R180). -/
def endNoCommit (s : State) (t : Nat) : State := closeInst (notePcs s t) t

/-! ## Output release instants that pass -/

/-- A down frame falls due at an output release instant of the owner of Q bytes 0-7 or of the guard source (R183, R350). -/
def startFor (s : State) (t : Nat) : State :=
  s.when (fieldOwner s.cfg == some t || guardOwner s.cfg == some t) fun s => s.onFld fun f => { f with startDue := true }

/-- An output release that is withheld is dropped; its down frame starts all the same (R184, R350). -/
def withhold (s : State) (o : OutRel) : State :=
  (s.onSeq fun q => { q with outs := q.outs.erase o }).when (!o.begun) fun s => startFor s o.task

/-- A commit after the output release instant withholds the outputs; one at or before its deadline is a late release
(R184). -/
def lateRelease (s : State) (t : Nat) (i : Inst) : State :=
  if i.outAt < s.now then
    let s := (s.seq.outs.filter fun o => o.task == t && o.num == i.num).foldl withhold s
    if s.now ≤ i.due then
      let s := s.modTask t fun x => { x with late := true }
      record s 0x0206 [.b1 t, .b8 i.rel, .b8 s.now, .b4 (tMargin s.cfg t)]
    else s
  else s

/-- A commit that had to wait is recorded (R208). -/
def waitRecord (s : State) (t : Nat) (i : Inst) : State :=
  match i.waitFrom with
  | some a => record s 0x0305 [.b1 t, .b4 (retainedOf s t), .b8 (s.now - a)]
  | none => s

/-! ## Commits of one instant (R182) -/

/-- A message of a frame that still waits, read from `old` Canopy bytes, is read afresh. -/
def rereadFrame (t k : Nat) (was now_ : List Byte) (f : YFrame) (x : TransFor) : YFrame :=
  if x = .mbx t ∧ f.key = k ∧ f.body = was then { f with body := now_ } else f

/-- A row whose buffer read as `was` at this instant is read afresh, and holds the newest version of its lines. -/
def rereadRow (s : State) (t : Nat) (e : FretE) : State :=
  let hit (x : FretE) : Option RowSt :=
    x.row.filter fun r => decide (x.task = t ∧ x.word = e.word ∧ r.commitAt = s.now) && r.data != canBytes s x.word.toNat r.data.length
  (s.fret.queue.filterMap hit).foldl (fun s r =>
    let s := freeRetained (s.onCan fun c => { c with retained := c.retained.map fun v => { v with rows := v.rows.filter (· != r.id) } })
    let s := modRow s r.id fun r => { r with data := canBytes s e.word.toNat r.data.length }
    (bufferLines e r.data.length).foldl (holdLine r.id) s) s

/-- What a commit of this very instant has taken from the Canopy, which then read as in `old`, it takes afresh: the writes of
all commits of an instant become visible together (R182). -/
def reread (s old : State) (x : Nat × WItem) : State :=
  let was (a n : Nat) : List Byte := canBytes old a n
  let t := x.1
  match x.2 with
  | .fret b => if (fretOf t b).kind = 2 then rereadRow s t (fretOf t b) else s
  | .call 0x0B01 g0 g1 g2 g3 =>
    let n := min 48 g2.toNat
    s.onNv fun v => { v with userW := v.userW.map fun w =>
      if w.task = t ∧ w.rno = g0.toNat % 1024 ∧ w.key = g3 ∧ w.data = was g1.toNat n then { w with data := canBytes s g1.toNat n } else w }
  | .call 0x0501 g0 g1 g2 _ =>
    let n := min 1480 g2.toNat
    let fix (f : YFrame) (x : TransFor) : YFrame := rereadFrame t (staArgKey g0) (was g1.toNat n) (canBytes s g1.toNat n) f x
    s.onYl fun y => { y with
      trans := y.trans.map fun z => if z.sentAt.isNone then { z with frame := fix z.frame z.for_ } else z
      waits := y.waits.map fun z => { z with frame := fix z.frame z.for_ }
      plan := y.plan.map fun z => { z with frame := fix z.frame z.for_ } }
  | .call 0x0800 g0 g1 g2 _ =>
    let f := entryFrame (was g1.toNat 80)
    let u := entryFrame (canBytes s g1.toNat 80)
    s.modCan (g0.toNat % 4) fun c => { c with queue := c.queue.map fun z =>
      if z.task = t ∧ z.key = g2 ∧ z.frame = f.1 then { z with frame := u.1, oneShot := u.2.1, echo := u.2.2 } else z }
  | _ => s

/-- The writes of a commit become visible, together with those of the commits of its instant (R182, R204). -/
def publishCommit (s : State) (t : Nat) (c : Copy) : State :=
  let old := s
  let s := publish s (some t) (copyWrites c)
  let s := if s.seq.callsAt = s.now then s.seq.calls.foldl (fun s x => reread s old x) s else s.onSeq fun q => { q with callsAt := s.now, calls := [] }
  s.onSeq fun q => { q with calls := q.calls ++ c.ws.map fun i => (t, i) }

/-! ## Commit -/

/-- The write set of copy `c` of the open instance of task `t` commits at this instant (R181, R182, R185, R204). -/
def commitCopy (s : State) (t : Nat) (i : Inst) (c : Copy) : State :=
  let s := waitRecord s t i
  let s := publishCommit s t c
  let s := canRepair s (wroteWord c)
  let s := s.onSeq fun q => { q with wins := q.wins.filter fun w => !(w.task == t && w.num == i.num && decide (s.now ≤ w.due)) }
  let s := lateRelease s t i
  let s := s.modTask t fun x => { x with live := true, lastCommit := some s.now }
  let s := notePool (endInst s t)
  let s := itemEffects s t c.ws
  afterEnd s t

/-- The copy whose write set may commit: one without an unrepaired shadow word, where its twin agreed at the compare gate
also the twin (R217). -/
def soundCopy (s : State) (t : Nat) (c : Copy) : Option Copy :=
  if !c.shadowUe then some c else (s.copy (4 * t + 1)).filter fun d => !d.shadowUe

/-- A commit, or its wait for retained versions (R208); an instance whose write set holds an unrepaired word does not commit
(R217). -/
def tryCommit (s : State) (t : Nat) (i : Inst) (c : Copy) : State :=
  match soundCopy s t c with
  | none => endNoCommit s t
  | some c =>
    if mustWait s t c then
      s.setInst t (some { i with
        phase := .passed
        waitFrom := (match i.waitFrom with | some a => some a | none => some s.now) })
    else commitCopy s t i c

/-! ## Output release -/

/-- The Q bytes of a task are presented as committed now (R183). -/
def present (s : State) (t : Nat) : State :=
  let rs := (ownTable s.cfg).filter fun e => e.2.2.2 == t && Area.q.has e.2.1
  let g := (rGet s.cfg 0x0703 0).toNat
  s.onSeq fun q => { q with
    shown := rs.foldl (fun m e => m.copyRange s.can.mem e.2.1 e.2.2.1) q.shown
    shownG := if guardOwner s.cfg = some t then q.shownG.copyRange s.can.mem g (g + 8) else q.shownG }

/-- The channels that follow the output releases of a task: no FRET channel does (R354, R355). -/
def taskChannels (s : State) (t : Nat) : Word :=
  ((if fieldOwner s.cfg = some t then nonGuardMask s.cfg else 0) ||| (if guardOwner s.cfg = some t then guardMask s.cfg else 0))
    &&& chanMask fun k => chMode (fCfg s.cfg k) != 5

/-- Expired channels whose owner has committed since the restoration of the stream are released (R363). -/
def releaseExpired (s : State) (t : Nat) : State :=
  let since := s.fld.valid && match (s.task t).lastCommit with | some c => decide (s.fld.restoredAt < c) | none => false
  if since then
    s.onFld fun f => { f with relDue := f.relDue ||| (taskChannels s t &&& (match f.lastUp with | some u => u.expired | none => 0)) }
  else s

/-- An output release that is not withheld (R183). -/
def outputDue (s : State) (t : Nat) : State := startFor (releaseExpired (present s t) t) t

end Sys2Proof.Machine
end

