-- ==== Sys2Proof/Machine/PairOps.lean ====
section
/-! DEFINITION. The pairing and spare manager: choice of a spare (R301, R306), write-set digests and the compare
(R303, R304), mismatches and waits (R305, R307, R308), takeovers (R312), lane tests, strikes and retirement
(R313-R318). -/
namespace Sys2Proof.Machine

/-! ## Choice of a lane -/

/-- The package lanes that some task pairs with package lane `x` (R301). -/
def pairedWith (c : Tab Word) (x : Nat) : List Nat :=
  ((tAll c).filter (tPaired c)).flatMap fun t =>
    (if tLane c t = x then [tTwin c t] else []) ++ (if tTwin c t = x then [tLane c t] else [])

/-- Lane `n`, were it SPARE, would be a valid replacement for package lane `x` (R301). -/
def fitsFor (s : State) (n x : Nat) : Bool :=
  (pairedWith s.cfg x).all fun y => match s.carrierAny y with | some m => grove m != grove n | none => true

/-- Package lanes that a grove carries (R300, R306). -/
def groveLoad (s : State) (g : Nat) : Nat :=
  ((boundLanes s.cfg).filter fun x => match s.carrierAny x with | some m => grove m == g | none => false).length

/-- Lane `a` goes before lane `b` among candidates (R306). -/
def candBefore (s : State) (a b : Nat) : Bool :=
  let x := groveLoad s (grove a)
  let y := groveLoad s (grove b)
  decide (x < y) || (x == y && decide (b < a))

/-- The candidate that R306 takes. -/
def bestCand (s : State) : List Nat → Option Nat
  | [] => none
  | a :: r => match bestCand s r with
    | none => some a
    | some b => if candBefore s a b then some a else some b

/-- The first rule of R306 that yields a candidate among the lanes of `l`, for the package lanes `xs`. -/
def pickFrom (s : State) (xs l : List Nat) : Option Nat :=
  match bestCand s (l.filter fun n => xs.all (fitsFor s n)) with
  | some n => some n
  | none => match bestCand s (l.filter fun n => xs.any (fitsFor s n)) with
    | some n => some n
    | none => bestCand s l

/-- The SPARE lanes other than those of `under`, or, where none exists, the SPARE_TEST lanes (R306, R315). -/
def sparesBut (s : State) (under : List Nat) : List Nat :=
  let of (r : Role) : List Nat := (List.range 40).filter fun n => (s.lane n).role == r && !under.contains n
  if (of .spare).isEmpty then of .spareTest else of .spare

/-- The SPARE lanes, or, where none exists, the SPARE_TEST lanes (R306). -/
def spareLanes (s : State) : List Nat := sparesBut s []

/-- The spare that R306 selects for the package lanes of a pair. -/
def pickSpare (s : State) (xs : List Nat) : Option Nat := pickFrom s xs (spareLanes s)

/-- A valid replacement for one package lane, chosen in the order of R306, from the SPARE lanes (R301, R302, R314). -/
def pickReplacement (s : State) (x : Nat) : Option Nat :=
  bestCand s ((List.range 40).filter fun n => (s.lane n).role == .spare && fitsFor s n x)

/-- A lane that is not retired exists outside the bound carriers (R307). A stand-in, whose role is AWAKE, is not one of
them, also where it keeps its package lane for want of a replacement (DEDUCED, log entry 88). -/
def anyOutside (s : State) : Bool :=
  (List.range 40).any fun n => (s.lane n).role != .retired && (s.lane n).role != .bound

/-! ## Digests -/

/-- Line digest (R303). -/
def lineDigest (line : Nat) (x : Shadow) : Nat := crc32c (leBytes 4 (64 * line) ++ lineBytes x.data)

/-- The end of a copy as the trailer holds it (R303). The rule codes no end of a stopped straggler, whose result is
unknown: the digest that the records of R320 show of it holds end byte 0 (DESIGN CHOICE, log entry 95). -/
def Ended.trail : Ended → List Byte
  | .halt => [0]
  | .fault code pc => code :: leBytes 4 pc.toNat
  | .stopped => [0]

/-- Shadow lines of a copy. -/
def shadowList (c : Copy) : List (Nat × Shadow) := c.shadow.filterMap fun e => e.2.map fun x => (e.1, x)

/-- The trailer of the item stream (R303). -/
def trailer (c : Copy) : List Byte :=
  leBytes 4 (shadowList c).length ++ leBytes 1 c.chk ++ (match c.ended with | some e => e.trail | none => [0])

/-- The write-set digest of a copy (R303). -/
def digest (c : Copy) : Nat :=
  2 ^ 32 * (shadowList c).foldl (fun d e => d ^^^ lineDigest e.1 e.2) 0 + crc32c (c.items ++ trailer c)

/-- A copy that is a mismatch whatever its digest (R161, R217, R304, R305). -/
def Copy.outcast (c : Copy) : Bool := c.shadowUe || c.diverged || c.unknown

/-- Two copies agree (R304). -/
def agree (x y : Copy) : Bool :=
  !x.outcast && !y.outcast && x.ended == some .halt && y.ended == some .halt && digest x == digest y

/-- Two copies ended by the same fault at the same PC (R304). -/
def sameFault (x y : Copy) : Bool :=
  !x.outcast && !y.outcast && (match x.ended with | some (.fault _ _) => x.ended == y.ended | _ => false)

/-! ## Replays -/

/-- The interaction matrix lets a task's replay run now (R56, R311). -/
def mayReplay (s : State) (t : Nat) : Bool :=
  match s.dev.state with
  | .run => true
  | .stop | .hold => tGuard s.cfg t
  | .clearing => tGuard s.cfg t || tBasic s.cfg t
  | _ => false

/-- The phase of an open instance changed. -/
def setPhase (s : State) (t : Nat) (p : Phase) : State :=
  match s.inst t with | some i => s.setInst t (some { i with phase := p }) | none => s

/-- A lane is woken: its buffer is empty and its scratch is stale (R71, R80, R308). -/
def wakeLane (s : State) (n : Nat) : State :=
  s.modLane n fun x => { x with
    role := .awake
    test := none
    running := none
    buf := []
    scratch := []
    standsFor := none }

/-- Spare `n` wakes for the replay of task `t`'s instance (R308). -/
def wakeFor (s : State) (t n : Nat) : State :=
  let s := setPhase (wakeLane s n) t (.waking n s.now)
  let s := s.onLn fun l => { l with replays := satInc l.replays }
  raiseSource s 0xB fun _ => true

/-- No spare exists for a replay of task `t`, or for a takeover that concerns it (R49, R307, R419). -/
def noSpare (s : State) (t : Nat) : State :=
  if tGuard s.cfg t then takeStop (guardStop s t 3 bGuardVote) 0x10 (some bGuardVote)
  else clearCond s bNoSpare t

/-- A mismatch that HOLD meets: the instance is frozen from then on and its replay starts at `RESUME` (R45, R46, R311). -/
def holdMismatch (s : State) (t : Nat) : State :=
  match s.inst t with
  | some i => s.setInst t (some { i with phase := .waitSpare s.now, frozenAt := if s.dev.state = .hold then some s.now else i.frozenAt })
  | none => s

/-- The waiting mismatches that may be served now: task and compare instant. -/
def waitingTasks (s : State) : List (Nat × Nat) :=
  s.seq.insts.filterMap fun e => match e.2 with
    | some i => (match i.phase with
      | .waitSpare a => if e.1 < 64 && mayReplay s e.1 then some (e.1, a) else none
      | _ => none)
    | none => none

/-- Waiting mismatch `x` is served before `y`: guard first, then the earlier, then the lower task (R307). -/
def waitsBefore (s : State) (x y : Nat × Nat) : Bool :=
  let gx := tGuard s.cfg x.1
  let gy := tGuard s.cfg y.1
  (gx && !gy) || (gx == gy && (decide (x.2 < y.2) || (x.2 == y.2 && decide (x.1 < y.1))))

/-- Task `t` is the waiting mismatch that is served next. -/
def servedNext (s : State) (t : Nat) : Bool :=
  match (waitingTasks s).find? fun x => x.1 == t with
  | some x => (waitingTasks s).all fun y => y.1 == t || waitsBefore s x y
  | none => false

/-- The spare that a mismatch of task `t` would get at this instant: none while one that is served before it waits
(R307). -/
def spareNow (s : State) (t : Nat) : Option Nat :=
  if mayReplay s t && servedNext (setPhase s t (.waitSpare s.now)) t then pickSpare s (tLanes s.cfg t) else none

/-- A mismatch is served: a spare wakes, or it waits for one, behind those that are served before it, or no spare exists (R306, R307,
R311). -/
def serveMismatch (s : State) (t : Nat) : State :=
  if !mayReplay s t then holdMismatch s t
  else match spareNow s t with
    | some n => wakeFor s t n
    | none => if anyOutside s then setPhase s t (.waitSpare s.now) else noSpare (endNoCommit s t) t

/-- A mismatch (R304, R306). -/
def mismatch (s : State) (t : Nat) (num : Word) (a b : Copy) : State :=
  let s := record s 0x0103 ([.b1 t, .b4 num.toNat] ++ laneList [a.lane, b.lane]
    ++ [.b8 (digest a), .b8 (digest b), .b1 ((spareNow s t).getD 0xFF)])
  serveMismatch s t
where
  /-- Three lanes as a record holds them (R458). -/
  laneList (l : List Nat) : List RItem := (List.range 3).map fun k => .b1 (l.getD k 0xFF)

/-! ## Tests, strikes, retirement -/

/-- Self-test part as a record numbers it: 1-4 in the order of R313, 0 none. -/
def partNo : Option TestPart → Nat
  | none => 0
  | some .oscillator => 1
  | some .logic => 2
  | some .bufferStore => 3
  | some .scratch => 4

/-- ns from the start of a test to its verdict (R313). -/
def testNs : Option TestPart → Nat
  | some .oscillator => 10000
  | some .logic => 40000
  | some .bufferStore => 80000
  | _ => 180000

/-- A lane self-test starts (R313): it overwrites scratch and buffer. -/
def startTest (s : State) (n : Nat) (k : TestKind) : State :=
  s.modLane n fun x => { x with
    role := (match k with | .periodic => .spareTest | _ => .testing)
    test := some (k, s.now)
    running := match x.running with
      | some j => if (s.copy j).any fun c => c.restart.isSome then x.running else none
      | none => none
    scratch := []
    buf := [] }

/-- A lane is retired (R302, R314, R316, R318). -/
def retireLane (s : State) (n cause : Nat) (part : Option TestPart) : State :=
  let s := s.modLane n fun x => { x with
    role := .retired
    acts := none
    cause := BitVec.ofNat 8 cause
    test := none
    running := none }
  let s := laneRecordDue (record s 0x0109 [.b1 n, .b1 cause, .b1 (partNo part)])
  raiseSource s 0xB fun _ => true

/-- Strikes that retire a lane (R314, R319). -/
def strikeLimit (c : Tab Word) : Nat := orElse (fld (rGet c 0x0111 0) 14 2) 3

/-- Strike `k` before now, if there is one, lies no more than `WINDOW` operating seconds before now (R314). -/
def strikeIn (s : State) (n k : Nat) : Bool :=
  match (s.lane n).strikes[k]? with
  | some a => decide (s.opSec ≤ a.toNat + orElse (fld (rGet s.cfg 0x0111 0) 0 12) 3600)
  | none => false

/-- A strike now reaches the limit (R314). -/
def strikeRetires (s : State) (n : Nat) : Bool :=
  match strikeLimit s.cfg with
  | 1 => true
  | 2 => strikeIn s n 0
  | _ => strikeIn s n 1

/-- A lane takes one strike (R314, R318). -/
def strikeLane (s : State) (n : Nat) : State :=
  let s := s.modLane n fun x => { x with
    strikes := (BitVec.ofNat 32 s.opSec :: x.strikes).take 3
    life := satInc x.life }
  let s := laneRecordDue (record s 0x0108 [.b1 n, .b4 (laneStrikes s n), .b4 (s.lane n).life.toNat])
  raiseSource s 0xB fun _ => true

/-! ## Takeovers -/

/-- A copy restarted from its entry point on another lane, with its retained snapshot (R312). -/
def restartCopy (s : State) (k n : Nat) : State := ((ueBack s k).setCopy k (some (freshCopy s (keyTask k) n))).drawn

/-- The copies, not replays, of instances that go on which stand on a lane (R312). -/
def copiesOn (s : State) (n : Nat) : List Nat :=
  s.ln.copies.filterMap fun e => match e.2, s.inst (keyTask e.1) with
    | some c, some i => if c.lane = n && e.1 % 4 < 2 && i.phase == .going then some e.1 else none
    | _, _ => none

/-- A copy that a takeover moves begins anew on lane `n`: at once where it stands at a permitted boundary, else when it
comes to one (R89, R312). -/
def moveCopy (n : Nat) (s : State) (k : Nat) : State :=
  match s.copy k with
  | some c => if midSlot s (k, c) then s.setCopy k (some { c with restart := some n }) else restartCopy s k n
  | none => s

/-- Every instance open on a lane is discarded there and restarted on another (R312). -/
def moveCopies (s : State) (old new : Nat) : State :=
  let s := (copiesOn s old).foldl (moveCopy new) s
  decideLane (s.modLane old fun x => match x.running with
    | some k => if (s.copy k).any fun c => c.restart.isSome then x else { x with running := none }
    | none => x) new

/-- Package lane `x` passes from lane `old` to lane `new`, which wakes if it is not awake, for good or as a stand-in (R80,
R299, R312). A stand-in for a lane that itself stood in stands for the lane under test. -/
def takeover (s : State) (x old new : Nat) (good : Bool) : State :=
  let z := (s.lane old).standsFor
  let s := s.when ((s.lane new).role != .awake) fun s => wakeLane s new
  let s := s.modLane old fun l => { l with acts := none, standIn := none, standsFor := none }
  let s := match z with
    | some z => s.modLane z fun l => { l with standIn := if good then none else some new }
    | none => s.when (!good) fun s => s.modLane old fun l => { l with standIn := some new }
  let s := s.modLane new fun l => { l with
    role := if good then .bound else .awake
    acts := some x
    standsFor := if good then none else some (z.getD old) }
  let s := record s 0x0107 [.b1 x, .b1 old, .b1 new, .b1 (Config.recordFlag 0x0107 good).toNat]
  moveCopies s old new

/-- The odd lane of a vote gives its work to the spare and is tested (R312, R313, R315). -/
def oddLane (s : State) (odd spare : Nat) : State :=
  if (s.lane odd).test.isSome || (s.lane odd).role == .retired then releaseSpare s spare
  else match (s.lane odd).acts with
    | some x => startTest (takeover s x odd spare (fitsFor s spare x)) odd .vote
    | none => startTest (releaseSpare s spare) odd .vote

/-- A lane of a three-way mismatch is tested: a stand-in carries its package lane; without one its instances wait on
it and begin anew (R315). -/
def testThird (s : State) (under : List Nat) (n : Nat) : State :=
  if (s.lane n).test.isSome || (s.lane n).role == .retired then s
  else match (s.lane n).acts, (s.lane n).role with
    | some x, .bound | some x, .awake =>
      (match pickFrom s [x] (sparesBut s under) with
       | some m => startTest (takeover s x n m false) n .vote3
       | none => startTest ((copiesOn s n).foldl (moveCopy n) s) n .vote3)
    | _, _ => startTest s n .vote3

/-- The takeovers of R302: package lanes whose carrier is retired, in the order of the task table and there `LANE` before
`TWIN` (DESIGN CHOICE, log entry 95). -/
def bootTakeovers (s : State) : State :=
  (boundLanes s.cfg).foldl (fun s x =>
    if (s.carrierAny x).isNone then
      match pickReplacement s x with
      | some n => takeover s x x n true
      | none => s
    else s) s

/-- A running lane self-test, the periodic ones apart or not. -/
def testsRun (s : State) : Bool := (List.range 40).any fun n => (s.lane n).test.isSome

end Sys2Proof.Machine
end

