-- ==== Sys2Proof/Machine/Packages.lean ====
section
/-! DEFINITION. Packages as the NOR holds them (R400, R402, R403, R468): form, signature, header, code and data;
the safety image and its check value (R424, R425). -/
namespace Sys2Proof.Machine

/-! ## NOR -/

/-- A byte of the NOR die; an erased byte reads 0xFF (R468). -/
def norByte (s : State) (a : Nat) : Byte := tabGet 0xFF s.svc.nor a

/-- Consecutive bytes of the NOR die. -/
def norBytes (s : State) (a n : Nat) : List Byte := (List.range n).map fun k => norByte s (a + k)

/-- First byte of a package slot: true B (R468). -/
def slotBase (b : Bool) : Nat := if b then 0x1C40000 else 0x440000

/-- Size of a package slot (R400, R468). -/
def slotSize : Nat := 0x1800000

/-- A little-endian field of a package. -/
def pkgField (s : State) (b : Bool) (o n : Nat) : Nat := ofLe (norBytes s (slotBase b + o) n)

/-! ## Header and sections -/

/-- `LENGTH` -/
def pkgLength (s : State) (b : Bool) : Nat := pkgField s b 8 4
/-- `FLAGS`.`ONLINE` -/
def pkgOnline (s : State) (b : Bool) : Bool := (pkgField s b 6 2).testBit 1
/-- `CODE_WORDS` -/
def pkgWords (s : State) (b : Bool) : Nat := pkgField s b 12 4
/-- `CODE_BASE` -/
def pkgBase (s : State) (b : Bool) : Nat := pkgField s b 16 4
/-- `SECTIONS` -/
def pkgSections (s : State) (b : Bool) : Nat := pkgField s b 27 1

/-- A section descriptor: kind, offset, length, target. -/
structure Section where
  kind : Nat
  off : Nat
  len : Nat
  target : Nat
  deriving DecidableEq, Repr

/-- The section descriptors of a package. -/
def sections (s : State) (b : Bool) : List Section :=
  (List.range (pkgSections s b)).map fun i =>
    { kind := pkgField s b (64 + 16 * i) 1, off := pkgField s b (64 + 16 * i + 4) 4,
      len := pkgField s b (64 + 16 * i + 8) 4, target := pkgField s b (64 + 16 * i + 12) 4 }

/-- The sections of a kind. -/
def sectionsOf (s : State) (b : Bool) (k : Nat) : List Section := (sections s b).filter fun x => x.kind == k

/-- The bytes of a section. -/
def sectionBytes (s : State) (b : Bool) (x : Section) : List Byte := norBytes s (slotBase b + x.off) x.len

/-- A section has the form of R400. -/
def sectionOk (s : State) (b : Bool) (x : Section) : Bool :=
  decide (64 + 16 * pkgSections s b ≤ x.off ∧ x.off + x.len ≤ pkgLength s b - 72) && (match x.kind with
    | 1 => x.len == 2 * pkgWords s b && (List.range (pkgWords s b)).all fun k =>
        decide (pkgField s b (x.off + 2 * k) 2 < 0x4000)
    | 2 => x.target % 64 == 0 && x.len % 64 == 0 && (match areaOf x.target with
        | some a => (a == .m || a == .k || a == .g || a == .d || a == .h)
            && decide (x.target + x.len ≤ a.base + a.size)
        | none => false)
    | 3 => x.len % 24 == 0
    | _ => false)

/-- The package of a slot has the form of R400, within the program store (R403). -/
def pkgForm (s : State) (b : Bool) : Bool :=
  pkgField s b 0 4 == 0x474B5053 && pkgField s b 4 2 == 1
    && pkgLength s b % 4 == 0 && decide (pkgLength s b ≤ slotSize) && decide (64 + 16 * pkgSections s b + 72 ≤ pkgLength s b)
    && decide (1 ≤ pkgWords s b) && decide (pkgWords s b ≤ (if pkgOnline s b then 0x100000 else 0x200000))
    && (pkgBase s b == 0 || (pkgOnline s b && pkgBase s b == 0x100000))
    && pkgField s b 24 2 == 5000 && decide (pkgField s b 26 1 ≤ 39)
    && decide (2 ≤ pkgSections s b) && decide (pkgSections s b ≤ 64)
    && (sectionsOf s b 1).length == 1 && (sectionsOf s b 3).length == 1 && (sections s b).all (sectionOk s b)

/-- The key index of a package's signature block. -/
def pkgKeyIndex (s : State) (b : Bool) : Nat := pkgField s b (pkgLength s b - 72) 1

/-- The signature of a package verifies against the enrolled key that it names (R400, R403). -/
def pkgSigned (s : State) (b : Bool) : Bool :=
  match (if pkgKeyIndex s b < 4 then tabGet none s.pkg.keys (pkgKeyIndex s b) else none) with
  | some k => Config.ecdsaP256 k (Config.sha256 (norBytes s (slotBase b) (pkgLength s b - 72)))
      (norBytes s (slotBase b + pkgLength s b - 64) 64)
  | none => false

/-- A page of the package cannot be corrected (R482). -/
def pkgLost (s : State) (b : Bool) : Bool :=
  s.svc.bad.any fun k => decide (slotBase b ≤ 0x40000 * k ∧ 0x40000 * k < slotBase b + pkgLength s b)

/-- The check of a package slot (R403, R404): 0, `BAD_FORM` or `CHECK_FAIL`. -/
def pkgCheck (s : State) (b : Bool) : Nat :=
  if !pkgForm s b then stBadForm else if !pkgSigned s b || pkgLost s b then stCheckFail else 0

/-- The records of the LAYOUT section. -/
def pkgLayout (s : State) (b : Bool) : List Layout :=
  (sectionsOf s b 3).flatMap fun x => (List.range (x.len / 24)).map fun i =>
    { base := pkgField s b (x.off + 24 * i) 4
      end_ := pkgField s b (x.off + 24 * i + 4) 4
      hash := BitVec.ofNat 32 (pkgField s b (x.off + 24 * i + 8) 4)
      readers := BitVec.ofNat 64 (pkgField s b (x.off + 24 * i + 16) 8) }

/-- The parts of a package header that the device keeps. -/
def pkgHeader (s : State) (b : Bool) : Header :=
  { testPermit := (pkgField s b 6 2).testBit 0
    online := pkgOnline s b
    words := pkgWords s b
    base := pkgBase s b
    entry := BitVec.ofNat 21 (pkgField s b 20 4)
    lane := pkgField s b 26 1
    version := BitVec.ofNat 32 (pkgField s b 28 4)
    layout := pkgLayout s b }

/-- The code words of a package with their addresses. -/
def pkgCode (s : State) (b : Bool) : Tab (BitVec 14) :=
  (sectionsOf s b 1).flatMap fun x => (List.range (pkgWords s b)).filterMap fun k =>
    let w := BitVec.ofNat 14 (pkgField s b (x.off + 2 * k) 2)
    if w = 0 then none else some (pkgBase s b + k, w)

/-- The bytes of the DATA sections, in descriptor order. -/
def pkgData (s : State) (b : Bool) : List (Nat × Byte) :=
  (sectionsOf s b 2).flatMap fun x => (List.range x.len).map fun k => (x.target + k, norByte s (slotBase b + x.off + k))

/-! ## The program store -/

/-- Buffer words that hold an address of a range are invalidated in every lane (R80). -/
def dropBuffered (s : State) (lo hi : Nat) : State :=
  (List.range 40).foldl (fun s n => s.modLane n fun x => { x with buf := x.buf.filter fun e => match e.2 with
    | some a => decide (a.toNat < lo ∨ hi ≤ a.toNat)
    | none => false }) s

/-- The code of a package is loaded into the program store (R79, R80, R400). -/
def loadCode (s : State) (b : Bool) : State :=
  let lo := pkgBase s b
  let hi := lo + pkgWords s b
  let s := s.onPs fun q => { q with
    words := (q.words.filter fun e => decide (e.1 < lo)) ++ pkgCode s b ++ q.words.filter fun e => decide (hi ≤ e.1) }
  dropBuffered s lo hi

/-- The word addresses of a package's code. -/
def Header.codeRange (h : Header) : Nat × Nat := (h.base, h.base + h.words)

/-- The code that lanes may fetch: that of the active package, and during an exchange that of both versions (R93, R412). -/
def codeRanges (s : State) : List (Nat × Nat) :=
  (match s.pkg.hdr with | some h => [h.codeRange] | none => [])
    ++ (match s.pkg.exch.run with | some (p, _) => [p.hdr.codeRange] | none => [])

/-- The code that the copies of a task may fetch: in a staged run that of the new package (R407). -/
def codeFor (s : State) (t : Nat) : List (Nat × Nat) :=
  if t = 65 then (match s.pkg.exch.staged with | some _ => [(pkgHeader s (!s.pkg.active)).codeRange] | none => []) else codeRanges s

/-! ## The safety image -/

/-- Words as bytes. -/
def wordBytes (l : List Word) : List Byte := l.flatMap fun w => leBytes 4 w.toNat

/-- Guard tasks, ascending. -/
def guardTasks (c : Tab Word) : List Nat := (tAll c).filter (tGuard c)

/-- Parts 1 and 2 of the safety image. -/
def imageCode (s : State) (b : Bool) : List Byte :=
  let g := (sectionsOf s b 2).filter fun x => Area.g.has x.target
  Config.sha256 ((sectionsOf s b 1).flatMap (sectionBytes s b))
    ++ (if g.isEmpty then List.replicate 32 0 else Config.sha256 (g.flatMap (sectionBytes s b)))

/-- Parts 3 to 8 of the safety image. -/
def imageRegs (c : Tab Word) : List Byte :=
  let gt := guardTasks c
  let own := (ownTable c).filter fun e => gt.contains e.2.2.2
  let ch := (List.range 32).filter fun n => chGuard (fCfg c n)
  let st := (List.range 256).filter fun k => sOn c k && !(guardRanges c k).isEmpty
  let gr := (List.range 64).filter fun g => gt.any fun t => tGroup c t g
  wordBytes [rGet c 0x0A01 0]
    ++ gt.flatMap (fun t => leBytes 4 t ++ wordBytes ((List.range 12).map (fun k => rGet c (0x0203 + k) t)
        ++ [rGet c 0x0113 t, rGet c (0x0340 + t) 0]))
    ++ own.flatMap (fun e => wordBytes [BitVec.ofNat 32 e.2.1, BitVec.ofNat 32 e.2.2.1, BitVec.ofNat 32 e.2.2.2])
    ++ wordBytes ([rGet c 0x0703 0, rGet c 0x0702 0] ++ ch.map (fCfg c))
    ++ st.flatMap (fun k => wordBytes [rGet c 0x0507 k, rGet c 0x0508 k, rGet c 0x0509 k, pCfg c (k / 32)])
    ++ wordBytes (gr.map fun g => rGet c (0x0280 + g) 0)

/-- The safety check value of the package of a slot under a configuration (R424, R425). -/
def safetyValue (s : State) (b : Bool) (c : Tab Word) : Word := BitVec.ofNat 32 (crc32c (imageCode s b ++ imageRegs c))

end Sys2Proof.Machine
end

