-- ==== Sys2Proof/Machine/Entry.lean ====
section
/-! DEFINITION. The entry to SETUP (R14, R210, R299, R400, R401, R455), the setup task's release and its end
(R37, R166-R466, R230, R302, R316, R361, R425), and staged runs (R407). -/
namespace Sys2Proof.Machine

/-! ## The machine that a setup task finds -/

/-- A shaft at an entry to SETUP: shaft fault ends, the input levels and the strikes are kept (R222, R223). -/
def Shaft.fresh (x : Shaft) : Shaft :=
  { a := x.a, b := x.b, z := x.z, raw := x.raw, since := x.since, wire := x.wire, wireAt := x.wireAt, strikes := x.strikes, lastKind := x.lastKind }

/-- A lane at an entry to SETUP: it carries its own number unless it is retired; a running test goes on (R299, R302). -/
def Lane.fresh (n : Nat) (x : Lane) : Lane :=
  if x.role = .retired then { x with buf := [] }
  else { x with
    role := if x.test.isSome then x.role else .spare
    acts := some n
    standIn := none
    standsFor := none
    running := none
    scratch := []
    buf := [] }

/-- Every lane at an entry to SETUP. -/
def freshLanes (s : State) : State :=
  s.onLn fun l => { l with
    lanes := (List.range 40).foldl (fun m n => tabMod (laneDef n) n (Lane.fresh n) m) l.lanes
    copies := []
    takeoverDue := false }

/-- Every field channel leaves retirement, and what the logic side had to send is void (R57, R360). -/
def freshField (s : State) : State :=
  let s := endTags s (s.fld.safeTag :: s.fld.changeQ.map (·.tag)) stAborted
  s.onFld fun f => { logicReadmits f (BitVec.allOnes 32) with
    safeDue := none
    safeTag := .no
    cfgDue := []
    relDue := 0
    changeQ := []
    dutySent := []
    check := 0 }

/-- The loop engine at an entry to SETUP: no loop runs; the counters of class D stay (R341). -/
def freshLoops (l : Loops) (now : Nat) : Loops :=
  { faults := l.faults, tunes := l.tunes, capDone := l.capDone, after := now,
    loops := l.loops.foldl (fun m e => tabSet ({} : LoopSt) e.1 { reason := e.2.reason } m) [] }

/-- An entry to SETUP rewrites every word of the areas and of the shadow pool: each unrepaired one is repaired (R210, R217). -/
def repairAll (s : State) : State :=
  let s := canRepair s fun _ => true
  let s := s.ln.copies.foldl (fun s e => ueBack s e.1) s
  ueReturned (s.onCan fun c => { c with retained := [] }) (s.can.retained.flatMap Retained.ue)

/-- The task table that an entry to SETUP leaves: no task keeps more than its guard stop, which lasts until `ACK_FAULT`
clears the fault (R14, R419, R433). -/
def guardStops (s : State) : Tab TaskSt :=
  s.seq.tasks.foldl (fun m e => tabSet ({} : TaskSt) e.1 { gstop := e.2.gstop } m) []

/-- Every field of class S takes its reset value, and nothing of the package that ran is left
(R14, R37, R210): entries fired before count in no later cancellation (DESIGN CHOICE, log entry 90). -/
def clearSetup (s : State) : State :=
  let s := freshField (canEnterSetup (freshLanes (repairAll s)))
  { s with
    cfg := []
    seq := { lastTwd := s.seq.lastTwd, after := s.now, tasks := guardStops s }
    can := { s.can with mem := [], bad := [], stamp := [], retained := [], check := 0 }
    fret := { s.fret with
      shafts := s.fret.shafts.foldl (fun m e => tabSet ({} : Shaft) e.1 e.2.fresh m) []
      queue := []
      spent := []
      check := 0 }
    yl := yelxCleared s.yl
    lp := freshLoops s.lp s.now
    safe := { s.safe with schk := 0, check := 0 }
    nv := { s.nv with check := 0 } }

/-! ## The setup task -/

/-- The lane of a setup task: the preferred one, or the lowest that is neither retired nor under a self-test (R400). -/
def setupLane (s : State) (pref : Nat) : Option Nat :=
  let ok (n : Nat) : Bool := (s.lane n).role != .retired && (s.lane n).test.isNone
  if ok pref then some pref else (List.range 40).find? ok

/-- The instance and the copy of a setup task; `t` is 64, or 65 in a staged run (R62, R400). -/
def startSetup (s : State) (t n : Nat) (entry : BitVec 21) (mem : Mem) : State :=
  let i : Inst :=
    { num := 0, rel := s.now, due := s.now, outAt := s.now, starveAt := s.now, lateAt := s.now,
      snap := mem, groups := [], shafts := shaftSnaps s }
  let c : Copy := { lane := n, regs := startRegs entry 0x10000, seed := s.free }
  decideLane (((s.setInst t (some i)).setCopy (4 * t) (some c)).drawn) n

/-- No lane is BOUND after a failed setup. -/
def unbindLanes (s : State) : State :=
  (List.range 40).foldl (fun s n => s.modLane n fun x => if x.role = .bound then { x with role := .spare } else x) s

/-- The lines that the setup task has configured as retained, and that the image restored at the entry to SETUP does not
list: DATA is not for them (R401, R455; DEDUCED, log entry 66). -/
def lostRetained (s : State) : List Nat :=
  let listed := match newestWarm s with | some b => rangeLines (s.warm b).ranges | none => []
  (rangeLines ((retRanges s.cfg).map fun r => (r.1, (r.2 - r.1) / 64, (0 : Word)))).filter fun a => !listed.contains a

/-- What the setup task wrote, as the first committed version: a line with no owner is 0 (R210), and so is what it did not
write of a retained line that was not restored. -/
def setupWrites (s : State) (c : Copy) : List (Nat × Byte) :=
  ((lostRetained s).flatMap fun a => (List.range 64).map fun k => (a + k, (0 : Byte)))
    ++ (copyWrites c).map fun e => if (ownerOf s.cfg e.1).isSome then e else (e.1, 0)

/-- Lines of H that no ownership entry assigns read 0 (R394). -/
def clearUnowned (s : State) : State :=
  s.onCan fun c => { c with mem := c.mem.filter fun e => !(Area.h.has e.1 && (ownerOf s.cfg e.1).isNone) }

/-- The failure of the setup task (R37, R61). No version of its own is committed (R210); what the entry to SETUP loaded stays
the current version (DEDUCED, log entry 86). -/
def setupFail (s : State) (code : Nat) : State :=
  let pc := match s.copy 256 with | some c => if code = 0x2E then 0 else c.regs.pc.toNat | none => 0
  let s := record s 0x0004 [.b1 code, .b4 pc, .b4 ((s.now - s.seq.setupAt) / 1000)]
  let s := s.onDev fun d => { d with pkgOk := false }
  firstServed (moveTo (unbindLanes (endInst (clearUnowned s) 64)) 0x0B .stop)

/-- The setup task is placed as soon as a lane is usable; with every lane retired it counts as faulted (R400). -/
def placeSetup (s : State) : State :=
  if s.dev.state == .setup && (s.inst 64).isNone then
    match s.pkg.hdr with
    | some h =>
      match setupLane s h.lane with
      | some n =>
        startSetup (s.modLane n fun x => { x with role := .bound }) 64 n h.entry
          (s.can.mem.copyRange (sArea s) 0x10050000 0x10054000)
      | none => if (List.range 40).all fun n => (s.lane n).role == .retired then setupFail s 0x2E else s
    | none => s
  else s

/-- The entry to SETUP of the active package under a cause of R37 (R210, R401, R405, R455). -/
def setupEntry (s : State) (cause : Nat) : State :=
  let b := s.pkg.active
  let s := clearSetup (moveTo (endReadmits s) cause .setup)
  let h := pkgHeader s b
  let s := s.onPkg fun k => { k with hdr := some h, exch := { nextId := k.exch.nextId } }
  let s := finishWaits s (fun w => w.for_ == .exchange) stDone 0 0 0
  let (s, kept) := warmRestore s
  let s := loadCode s b
  let s := s.onCan fun c => { c with mem := putAll c.mem ((pkgData s b).filter fun e => !kept.contains (e.1 / 64 * 64)) }
  let s := s.onSeq fun q => { q with setupAt := s.now }
  let s := s.onDev fun d => { d with pkgOk := false }
  placeSetup (s.onSvc fun v => { v with hsOn := true })

/-! ## The end of the setup task -/

/-- Shafts without a Z index are referenced at once (R230). -/
def setupShafts (s : State) : State :=
  (List.range 4).foldl (fun s n =>
    if shOn s.cfg n && !shRef s.cfg n then
      s.modShaft n fun x => { x with cnt := shZero s.cfg n, rev := 0, referenced := true, t1 := s.now }
    else s) s

/-- The lanes that carry a package lane of a task are BOUND (R298, R299). -/
def bindLanes (s : State) : State :=
  let xs := boundLanes s.cfg
  (List.range 40).foldl (fun s n => s.modLane n fun x =>
    match x.acts with
    | some a =>
      if x.role = .bound || x.role = .spare then { x with role := if xs.contains a then .bound else .spare } else x
    | none => x) s

/-- SPARE lanes now. -/
def spareCount (s : State) : Nat := ((List.range 40).filter fun n => (s.lane n).role == .spare).length

/-- ns of a spare-test interval that begins now (R316). -/
def spareInterval (s : State) : Nat :=
  1000000000 * orElse (fld (rGet s.cfg 0x0111 0) 16 16) 600 / max 1 (spareCount s)

/-- A spare-test interval begins now (R316). -/
def spareStart (s : State) : State := s.onLn fun l => { l with spareFrom := s.op, spareLen := spareInterval s }

/-- The safety check value of the active package (R425). -/
def setupSafety (s : State) : State :=
  let v := safetyValue s s.pkg.active s.cfg
  let s := s.onSafe fun x => { x with check := v }
  match confActive s with
  | some c => if c = v then s else record s 0x0A03 [.b1 (b2n s.pkg.active), .b4 c.toNat, .b4 v.toNat]
  | none => s

/-- Ports whose fault injection is armed (R293). -/
def injArmed (c : Tab Word) : Nat :=
  (List.range 8).foldl (fun m p => if wbit (rGet c (0x0520 + p) 0) 31 then m + 2 ^ p else m) 0

/-- The takeovers that R302 makes when the setup task is done wait for running tests. -/
def setupTakeovers (s : State) : State :=
  let s := bindLanes s
  if testsRun s then s.onLn fun l => { l with takeoverDue := true } else bootTakeovers s

/-- The setup task has passed every check: its writes commit and the device leaves SETUP (R37, R54, R210). -/
def setupCommit (s : State) (c : Copy) : State :=
  let s := clearUnowned (publish s none (setupWrites s c))
  let s := canRepair s (wroteWord c)
  let s := setupSafety (setupShafts s)
  let s := bindLanes (endInst s 64)
  let s := spareStart s
  let s := s.onFld fun f => { f with cfgDue := List.range 32, startDue := true }
  let s := if injArmed s.cfg = 0 then s else record s 0x050F [.b1 (injArmed s.cfg)]
  let s := s.onDev fun d => { d with pkgOk := true }
  let s := itemEffects s 64 c.ws
  let s := (tAll s.cfg).foldl (fun s t => s.modTask t fun x => { x with lastDue := some s.now }) s
  if wbit (rGet s.cfg 0x0015 0) 0 && allReady s then firstServed (enterRun s 0x0A)
  else firstServed (moveTo s 0x09 .stop)

/-- The setup task ends by `HALT`: the checks of R166 to R466, with the takeovers of R302 after those of R296. -/
def setupDone (s : State) (c : Copy) : State :=
  let permit := match s.pkg.hdr with | some h => h.testPermit | none => false
  match firstBlock (setupChecks s s.cfg (codeRanges s) permit) with
  | some (code, f) =>
    let s := noteCheck s code f
    setupFail (if code ≤ 0x23 then s else setupTakeovers s) code
  | none => setupCommit (setupTakeovers s) c

/-- After a lane test's verdict: a setup task that waited for a lane, takeovers that waited for tests (R302, R400). -/
def afterVerdict (s : State) : State :=
  let s := placeSetup s
  if s.ln.takeoverDue && !testsRun s then bindLanes (bootTakeovers (s.onLn fun l => { l with takeoverDue := false }))
  else s

end Sys2Proof.Machine
end

