-- ==== Sys2Proof/Machine/Plan.lean ====
section
/-! DEFINITION. The plan of an online exchange: the checks of R407 and R426, changed lines, parties and the
coordinated set (R408), and the end of the staged run. -/
namespace Sys2Proof.Machine

/-- The lines that a configuration and a layout concern. -/
def concerned (c : Tab Word) (l : List Layout) : List Nat :=
  let lines (a b : Nat) : List Nat := (List.range ((b - a) / 64)).map fun k => a + 64 * k
  (((ownTable c).flatMap fun e => lines e.2.1 e.2.2.1) ++ (l.flatMap fun (r : Layout) => lines r.base r.end_)).eraseDups

/-- The changed lines between the active version and a staged one (R408). -/
def changedLines (s : State) (c : Tab Word) (h : Header) : List Nat :=
  ((concerned s.cfg (activeLayout s)) ++ concerned c h.layout).eraseDups.filter fun a =>
    changedLine s.cfg (activeLayout s) c h.layout a

/-- The tasks that read a line under a layout (R400). -/
def readersOf (l : List Layout) (a : Nat) : List Nat :=
  match layoutAt l a with
  | some r => (List.range 64).filter fun t => r.readers.getLsbD t
  | none => []

/-- The changed ranges: the changed lines that a LAYOUT record of either version covers, and each changed line of its own
(R408; DEDUCED, log entry 93). -/
def changedRanges (s : State) (c : Tab Word) (h : Header) : List (List Nat) :=
  let ch := changedLines s c h
  (activeLayout s ++ h.layout).map (fun r => ch.filter fun a => decide (r.base ≤ a ∧ a < r.end_)) ++ ch.map ([·])

/-- The parties of a changed range: its owners, whatever they are, and its readers, in both versions (R408). -/
def parties (s : State) (c : Tab Word) (h : Header) (ls : List Nat) : List Nat :=
  (ls.flatMap fun a => (ownerOf s.cfg a).toList ++ (ownerOf c a).toList ++ readersOf (activeLayout s) a
    ++ readersOf h.layout a).eraseDups

/-- The coordinated set: the tasks of the new version among it, ascending (R408, R410). -/
def coordSet (s : State) (c : Tab Word) (h : Header) : List Nat :=
  let ps := (changedRanges s c h).flatMap fun a =>
    let p := parties s c h a
    if 2 ≤ p.length then p else []
  (List.range 64).filter fun t => ps.contains t && tEnable c t

/-- What a task of the set asks of the pause, in us (R408). -/
def pauseOf (c : Tab Word) (t : Nat) : Nat := if !tEnable c t then 0 else if tEvent c t then tDeadline c t else tPeriod c t

/-- The pause in us (R408). -/
def planPause (s : State) (c : Tab Word) (ts : List Nat) : Nat :=
  ts.foldl (fun n t => max n (max (pauseOf s.cfg t) (pauseOf c t))) 0

/-- A register outside blocks 0x0200 and 0x0300, `PAIR_SEL` and `PAIR_WCET` differs (reason 2). -/
def outerDiffers (c0 c1 : Tab Word) : Bool :=
  let outer (e : Nat × Word) : Bool :=
    let n := e.1 / 4096
    n / 256 != 2 && n / 256 != 3 && n != 0x0112 && n != 0x0113
  (c0.filter outer) != (c1.filter outer)

/-- Ownership entries of the loop engine and of host slots. -/
def deviceOwn (c : Tab Word) : List (Nat × Nat × Nat) := ((ownTable c).filter fun e => decide (64 ≤ e.2.2.2)).map fun e => e.2

/-- More than 8 lanes of one grove are bound, or the reserves exceed the pool, counting every task of either
version (reason 6). -/
def bothExceed (c0 c1 : Tab Word) : Bool :=
  let ls := (boundLanes c0 ++ boundLanes c1).eraseDups
  let ts := (tAll c0 ++ tAll c1).eraseDups
  let need (t : Nat) : Nat := max (if tEnable c0 t then tReserve c0 t else 0) (if tEnable c1 t then tReserve c1 t else 0)
  (List.range 4).any (fun g => decide (8 < (ls.filter fun x => grove x == g).length))
    || decide (32256 < ts.foldl (fun n t => n + need t) 0)

/-- The reason for which a staged configuration is refused; 0: none (R407, R426). -/
def planReason (s : State) (c : Tab Word) (h : Header) (check : Word) : Nat :=
  if outerDiffers s.cfg c then 2
  else if (checkTasks s c [h.codeRange]).isSome || (checkCanopy c).isSome then 3
  else if deviceOwn s.cfg != deviceOwn c then 4
  else if 8192 < ((changedLines s c h).filter fun a => (ownerOf c a).isSome).length then 5
  else if bothExceed s.cfg c then 6
  else if (tAll c).any (tGuard c) && (if s.pkg.active then s.safe.confA else s.safe.confB) != some check then 8
  else 0

/-- The staged run ends by `HALT`: the plan is made or refused; one that lacks only the confirmation of its slot is held for
`SAFE_CONFIRM` (R407, R426, R428; DEDUCED, log entry 93). -/
def planDone (s : State) (w : Copy) : State :=
  match s.pkg.exch.staged with
  | some (c, m) =>
    let b := !s.pkg.active
    let h := pkgHeader s b
    let check := safetyValue s b c
    let s := s.onSafe fun x => { x with staged := check }
    let r := planReason s c h check
    if r ≠ 0 ∧ r ≠ 8 then stagedEnd s stDenied r
    else
      let ts := coordSet s c h
      let id := s.pkg.exch.nextId
      let pause := planPause s c ts
      let p : Plan := { id := id, pause := pause, coord := ts, cfg := c, mem := putAll m (copyWrites w)
                        check := check, hdr := h, slotB := b, unconfirmed := r == 8 }
      let s := endInst s 65
      let s := s.modLane s.pkg.exch.stagedLane fun x => if x.role == .awake then { x with role := .spare } else x
      let s := s.onPkg fun k => { k with exch := { k.exch with
        staged := none
        plan := some p
        nextId := if id = 0xFFFF then 1 else id + 1 } }
      if r = 8 then finishWaits s (fun w => w.for_ == .plan) stDenied 0 0 8
      else
      let s := record s 0x0908 [.b4 id.toNat, .b4 pause, .b4 ts.length]
      finishWaits s (fun w => w.for_ == .plan) stDone id.toNat pause (65536 * ts.length)
  | none => s

/-- The staged setup task faults, or has not ended within 5 s (R407). -/
def planFault (s : State) : State := stagedEnd s stDenied 3

end Sys2Proof.Machine
end

