-- ==== Sys2Proof/Machine/LaneOps.lean ====
section
/-! DEFINITION. The issue of a unit on a lane (R83-R89, R93-R96, R103, R135, R136), the ends of copies (R94, R157,
R180, R217), and stores beyond the shadow quota (R207). -/
namespace Sys2Proof.Machine

/-! ## Which copy issues -/

/-- The copy that issues the next slot of a lane: the lane runs it, it has not ended, it is neither frozen nor
stalled, and the lane is not under test (R45, R75, R112, R207, R313). -/
def laneCopy (s : State) (l : Nat) : Option (Nat × Copy) :=
  match (s.lane l).running with
  | some k => match s.copy k with
    | some c =>
      if c.lane = l && c.ended.isNone && !isFrozen s (keyTask k) && ((s.lane l).test.isNone || c.restart.isSome) && c.stall == .none
      then some (k, c) else none
    | none => none
  | none => none

/-- A slot begins; before the first slot of a copy the bytes of its scratch frame are undefined (R71, R178). -/
def slotBegins (s : State) (k : Nat) (c : Copy) : State × Copy :=
  if c.started then (s, c)
  else
    let f := frameOf s (keyTask k)
    (s.modLane c.lane fun x => { x with scratch := x.scratch.filter fun e => decide (e.1 < f.1 ∨ f.2 ≤ e.1) },
     { c with started := true, startAt := s.now })

/-- The `n` words of a unit from `first` on lie in the code that the copy may fetch (R93, R140). -/
def inCode (s : State) (k : Nat) (first : BitVec 21) (n : Nat) : Bool :=
  (List.range n).all fun j =>
    let a := (first + BitVec.ofNat 21 j).toNat
    (codeFor s (keyTask k)).any fun r => decide (r.1 ≤ a ∧ a < r.2)

/-! ## Ends of copies -/

/-- The lane of an ended copy takes other work. -/
def leaveLane (s : State) (l k : Nat) : State :=
  decideLane (s.modLane l fun x => if x.running == some k then { x with running := none } else x) l

/-- A twin or a replay stands beside a copy: its instance is paired (R178). -/
def pairedCopy (s : State) (k : Nat) : Bool := k % 4 != 0 || (s.copy (k + 1)).isSome

/-- A fault ends a copy (R94, R95, R96): in a paired instance the compare decides what it means. -/
def faultCopy (s : State) (k : Nat) (c : Copy) (code : Nat) : State :=
  let t := keyTask k
  let c := { c with ended := some (.fault (BitVec.ofNat 8 code) c.regs.pc), loads := [], stall := .none, shadow := [] }
  let s := (ueBack s k).setCopy k (some { c with ueWords := [] })
  if t = 64 then setupFail s code
  else if 64 < t then planFault s
  else
    let s := record s 0x0204 [.b1 t, .b1 c.lane, .b1 code, .b4 c.regs.pc.toNat]
    let s := s.modTask t fun x => { x with fault := BitVec.ofNat 8 code }
    leaveLane (if pairedCopy s k then s else endNoCommit s t) c.lane k

/-- A copy that stands at a permitted boundary goes where a stop waits for it, and begins anew on another lane where a
takeover does (R43, R50, R89, R312). -/
def atPermitted (s : State) (k : Nat) : State :=
  let s := stopCopy s k
  match s.copy k with
  | some c => match c.restart with
    | some n => if c.mayStop then leaveLane (decideLane (restartCopy s k n) n) c.lane k else s
    | none => s
  | none => s

/-- A fault ends a copy; what waits for a permitted boundary of the copy happens (R89, R94, R312). -/
def faultEnds (s : State) (k : Nat) (c : Copy) (code : Nat) : State := atPermitted (faultCopy s k c code) k

/-- A transition stops the open instance of a task at its next permitted boundary. -/
def stopping (s : State) (t : Nat) : Bool := match s.inst t with | some i => i.stopDue | none => false

/-- `HALT` has ended a copy: the words of its shadow lines are checked, and its write set goes to commit (R157, R180,
R217). -/
def haltCopy (s : State) (k : Nat) (errs : List EccErr) : State :=
  let t := keyTask k
  let s := (errs.filter fun e => e.loc == .shadow k).foldl (fun s e => foundError s 0 e) s
  match s.copy k with
  | none => s
  | some c =>
    if t = 64 then setupDone s c
    else if 64 < t then planDone s c
    else leaveLane (if pairedCopy s k || stopping s t then s else if c.chk = 0 || c.shadowUe then endNoCommit s t else setPhase s t .passed) c.lane k

/-! ## Units -/

/-- A store beyond its quota stalls the copy and is recorded (R207). -/
def quotaStall (s : State) (k : Nat) (c : Copy) : State :=
  let t := keyTask k
  record s 0x0304 [.b1 t, .b1 c.lane, .b4 c.regs.pc.toNat, .b4 (tQuota (ownCfg s t) t)]

/-- What a unit of `n` words at `first` leaves, after its own operation. -/
def unitLeaves (x : Res) (k : Nat) (first : BitVec 21) (n : Nat) (errs : List EccErr) : State :=
  match x.flow with
  | .fault code => faultCopy x.s k x.c code
  | .halt => haltCopy (x.s.setCopy k (some { x.after first n with ended := some .halt })) k errs
  | .quota => chooseLane (quotaStall (x.s.setCopy k (some (x.after first n))) k x.c) x.c.lane
  | _ => chooseLane (x.s.setCopy k (some (x.after first n))) x.c.lane

/-- What a unit leaves, and what waits for its end. -/
def unitEnds (x : Res) (k : Nat) (first : BitVec 21) (n : Nat) (errs : List EccErr) : State :=
  atPermitted (unitLeaves x k first n errs) k

/-- A unit issued: prefixes `p`, what decoding needs to know, the operation; `errs` are the word errors that the check
of R217 at a `HALT` finds. -/
def issueWith (errs : List EccErr) (l : Nat) (p : List Pre) (d : Dec) (body : State → Nat → Copy → Res) (s : State) : State :=
  match laneCopy s l with
  | none => s
  | some (k, c0) =>
    let (s, c) := slotBegins s k c0
    let n := p.length + 1
    let first := c.regs.pc
    if !inCode s k first n then faultEnds s k c fcPcRange
    else if c.skip then unitEnds { s := s, c := { c with skip := false } } k first n []
    else match decodeFault d p with
      | some f => faultEnds s k c f
      | none => unitEnds (body s k c) k first n errs

/-- A unit issued on a lane. -/
def issue (l : Nat) (p : List Pre) (d : Dec) (body : State → Nat → Copy → Res) (s : State) : State :=
  issueWith [] l p d body s

/-- The word address of the instruction's own word (R137). -/
def ownWord (c : Copy) (p : List Pre) : BitVec 21 := c.regs.pc + BitVec.ofNat 21 p.length

end Sys2Proof.Machine
end

