-- ==== Sys2Proof/Machine/CanopyRows.lean ====
section
/-! DEFINITION. What reaches a lane from the Canopy and the program store, and their scrubs: load returns (R72-R77),
window fills (R112), fetches, rewrites and scrubs of the program store (R78-R82, R101), the Canopy scrub (R216). -/
namespace Sys2Proof.Machine

/-! ## Canopy loads -/

/-- Which stored word a copy's read of an address uses (R68, R204). -/
def readLoc (s : State) (k : Nat) (c : Copy) (a : Nat) : ErrLoc :=
  if k < 256 && (tabGet none c.shadow (a / 64)).isSome then .shadow k
  else match s.can.retained.find? fun r => r.line == a / 64 && r.need.contains (keyTask k) with
    | some r => .retained r.ver
    | none => .area

/-- The value of a load from the word that holds its address (R125). -/
def PendLoad.taken (x : PendLoad) (w : Word) : Word :=
  let v := w.toNat / 2 ^ (8 * (x.addr.toNat % 4)) % 2 ^ (8 * x.size)
  if x.signed then signExt v (8 * x.size) else BitVec.ofNat 32 v

/-- The oldest load that has not returned takes its value (R75). -/
def arriveFirst (v : Option Word) : List PendLoad → List PendLoad
  | [] => []
  | x :: r => if x.arrived then x :: arriveFirst v r else { x with arrived := true, val := v.getD x.val } :: r

/-- Loads whose shadow has passed and whose value has come are written; the lane stalls while one is missing (R73, R75). -/
def settleLoads (c : Copy) : Copy :=
  let c := c.loads.foldl (fun c l => if l.left = 0 && l.arrived then c.setReg l.dst.toNat l.val else c) c
  let rest := c.loads.filter fun l => !(l.left == 0 && l.arrived)
  { c with
    loads := rest
    stall := if c.stall == .none || c.stall == .load then (if rest.any (fun l => l.left == 0) then .load else .none) else c.stall }

/-- The byte that a bit unit waits for has come: the unit acts and ends its slot (R112, R113). -/
def bitResume (s : State) (k : Nat) (b : PendBit) : State :=
  match s.copy k with
  | some c => unitEnds (bitAct s k { c with stall := .none } b.op b.addr.toNat b.bit) k c.regs.pc b.words []
  | none => s

/-- The oldest outstanding Canopy read of a lane returns: a load, or the byte of a bit access outside the window copy
(R72, R75, R113). -/
def loadReturn (s : State) (l : Nat) (e : Ecc) : State :=
  match (s.lane l).running with
  | none => s
  | some k => match s.copy k with
    | none => s
    | some c => match c.loads.find? fun x => !x.arrived with
      | none => match c.stall with
        | .bit b => bitResume (readFound s (readLoc s k c b.addr.toNat) 0 b.addr.toNat e) k b
        | _ => s
      | some x =>
        let v := match e with
          | .uncorrectable => some 0
          | .wrong _ => some (x.taken (Config.freeWord s.free))
          | _ => none
        let loc := readLoc s k c x.addr.toNat
        let s := s.setCopy k (some (settleLoads { c with loads := arriveFirst v c.loads }))
        chooseLane (atPermitted (readFound s loc 0 x.addr.toNat e) k) l

/-- `CANOPY_LOAD_RETURN` (R75). -/
def execCanopyLoadReturn (dt : Nat) (l : LaneId) (e : Ecc) (s : State) : Host.Outcome State Fault Refusal :=
  answer s (loadReturn (elapse dt s) l.val e)

/-- The window copy of a copy is filled with the 64 bytes at the window base as byte loads return them (R112). -/
def fillWindow (s : State) (k : Nat) (c : Copy) : Copy :=
  { c with winFull := true, win := lineOf (copyBytes s k c (winBase c) 64) }

/-- The fill of the window copy completes and the bit instruction that waits for it acts; `ws` are the words of the
window in which the fill finds an error, and what it finds (R112, R215). -/
def windowFill (s : State) (l : Nat) (ws : List (Fin 16 × Ecc)) : State :=
  match (s.lane l).running with
  | none => s
  | some k => match s.copy k with
    | none => s
    | some c => match c.stall with
      | .window b =>
        let base := winBase c
        let s := ws.foldl (fun s w =>
          readFound s (readLoc s k c base) 0 (base + 4 * w.1.val) w.2) s
        bitResume (match s.copy k with | some c => s.setCopy k (some (fillWindow s k c)) | none => s) k b
      | _ => s

/-- `WINDOW_FILL` (R112). -/
def execWindowFill (dt : Nat) (l : LaneId) (ws : List (Fin 16 × Ecc)) (s : State) : Host.Outcome State Fault Refusal :=
  answer s (windowFill (elapse dt s) l.val ws)

/-! ## Program store -/

/-- `PS_LAST_ERR` (R100). -/
def psErr (ue buffer : Bool) (lane a : Nat) : Word :=
  put (b2n ue) 31 1 ||| put (b2n buffer) 30 1 ||| put lane 21 6 ||| put a 0 21

/-- A corrected program-store word: counted, and due for the rewrite where a fetch found it in the store itself (R81,
R101). -/
def psCorrected (s : State) (buffer : Bool) (lane task : Nat) (a : BitVec 21) : State :=
  let s := s.onPs fun p => { p with
    ceCount := satInc p.ceCount
    lastErr := psErr false buffer lane a.toNat
    rewrites := if buffer then p.rewrites else p.rewrites ++ [(a, BitVec.ofNat 8 task, false)] }
  record s 0x0101 [.b4 s.ps.lastErr.toNat, .b4 s.ps.ceCount.toNat]

/-- An uncorrectable program-store word: counted, and due for the rewrite unless only a buffer holds it (R81, R101). -/
def psUncorrected (s : State) (buffer : Bool) (lane task : Nat) (a : BitVec 21) : State :=
  let s := s.onPs fun p => { p with
    ueCount := satInc p.ueCount
    lastErr := psErr true buffer lane a.toNat
    rewrites := if buffer then p.rewrites else p.rewrites ++ [(a, BitVec.ofNat 8 task, true)] }
  if buffer then record s 0x0102 [.b4 s.ps.lastErr.toNat, .b1 task, .b1 0] else s

/-- The aligned block of 8 words that holds `a` in a lane's instruction buffer (R80). -/
def fillBlock (a : BitVec 21) (b : Tab (Option (BitVec 21))) : Tab (Option (BitVec 21)) :=
  (List.range 8).foldl (fun b j =>
    let w := a.toNat / 8 * 8 + j
    tabPut (w % 4096) (some (BitVec.ofNat 21 w)) b) b

/-- A fetch completes for the copy that a lane runs: the blocks of its pc and of the word that it has reached are in the
buffer (R80, R81). -/
def fetchEnds (s : State) (l : Nat) (o : FetchOutcome) : State :=
  match laneCopy s l with
  | none => s
  | some (k, c) =>
    let pc := c.regs.pc
    let fill (s : State) (w : BitVec 21) : State :=
      s.modLane l fun x => { x with buf := fillBlock (pc + w) (fillBlock pc x.buf) }
    if !inCode s k pc (o.word.toNat + 1) then faultEnds s k c fcPcRange
    else match o with
      | .good => fill s 0
      | .corrected w b => psCorrected (fill s w) b l (keyTask k) (pc + w)
      | .uncorrectable w b => faultEnds (psUncorrected s b l (keyTask k) (pc + w)) k c fcPstoreUe

/-- `INSTRUCTION_FETCH` (R80). -/
def execInstructionFetch (dt : Nat) (l : LaneId) (o : FetchOutcome) (s : State) : Host.Outcome State Fault Refusal :=
  answer s (fetchEnds (elapse dt s) l.val o)

/-- A word of the program store is written: every buffer word that holds it is invalid (R80). -/
def dropBufWord (s : State) (a : BitVec 21) : State :=
  s.onLn fun n => { n with lanes := n.lanes.map fun e => (e.1, { e.2 with buf := e.2.buf.filter fun w => w.2 != some a }) }

/-- The service core has rewritten a word with an error, or failed to; the outcome of an uncorrectable one is recorded
(R81, R101). -/
def psRewrite (s : State) (a : BitVec 21) (ok : Bool) : State :=
  let rs := s.ps.rewrites.filter fun r => r.1 == a
  if rs.isEmpty then s
  else
    let s := s.onPs fun p => { p with rewrites := p.rewrites.filter fun x => x.1 != a }
    let s := s.when ok fun s => dropBufWord s a
    (rs.filter (·.2.2)).foldl (fun s r =>
      record s 0x0102 [.b4 s.ps.lastErr.toNat, .b1 r.2.1.toNat, .b1 (if ok then 1 else 2)]) s

/-- `PSTORE_REWRITE` (R81). -/
def execPstoreRewrite (dt : Nat) (a : BitVec 21) (ok : Bool) (s : State) : Host.Outcome State Fault Refusal :=
  answer s (psRewrite (elapse dt s) a ok)

/-- The main die has power. -/
def powered (s : State) : Bool := s.dev.state != .off && s.dev.state != .standby

/-- A word that the scrub port finds with a single-bit error and corrects in place (R80, R82). -/
def psScrubbed (s : State) (a : BitVec 21) : State :=
  let s := dropBufWord (psCorrected s false 0x3F 0xFF a) a
  s.onPs fun p => { p with rewrites := p.rewrites.filter fun x => x.1 != a || x.2.2 }

/-- What a pass of the scrub port finds (R82). -/
def psScrub (s : State) (errs : List (BitVec 21 × Bool)) : State :=
  if powered s then
    errs.foldl (fun s e => if e.2 then psUncorrected s false 0x3F 0xFF e.1 else psScrubbed s e.1) s
  else s

/-- `PSTORE_SCRUB` (R82). -/
def execPstoreScrub (dt : Nat) (errs : List (BitVec 21 × Bool)) (s : State) : Host.Outcome State Fault Refusal :=
  answer s (psScrub (elapse dt s) errs)

/-! ## The Canopy scrub -/

/-- A word error lies in a place that exists. -/
def errReal (s : State) (e : EccErr) : Bool :=
  match e.loc with
  | .area => (areaOf e.addr).isSome
  | .shadow k => decide (k < 256) && (match s.copy k with | some c => (tabGet none c.shadow (e.addr / 64)).isSome | none => false)
  | .retained v => s.can.retained.any (isVersion e.addr v)

/-- What a pass of the scrubber finds, and what the ports, the bridge, the loop engine and host reads find in the words
that they read, each under its finder (R215-R217; log entry 80). -/
def canScrub (s : State) (errs : List EccErr) : State :=
  if powered s then errs.foldl (fun s e => if errReal s e then foundError s e.finder.val e else s) s else s

/-- `CANOPY_SCRUB` (R216). -/
def execCanopyScrub (dt : Nat) (errs : List EccErr) (s : State) : Host.Outcome State Fault Refusal :=
  answer s (canScrub (elapse dt s) errs)

end Sys2Proof.Machine
end

