-- ==== Sys2Proof/Machine/HostSlots.lean ====
section
/-! DEFINITION. The host slots: slot map (R387), queues (R388, R389), doorbell (R391), interrupts (R392), slot reset
(R393), QSPI frames (R386). -/
namespace Sys2Proof.Machine

/-! ## Which slots answer -/

/-- The host slots answer: the main die is powered and out of reset (R506). -/
def slotsUp (s : State) : Bool := powered s && s.clk.lock && !s.clk.awaitLock

/-- The slot bound to a front end. -/
def slotOf (s : State) (f : Nat) : Option Nat := (List.range 4).find? fun n => (s.slot n).front == some f

/-! ## Reads of the slot map -/

/-- `SLOT_ID` (R387). -/
def slotIdReg (front n : Nat) (bound : Bool) : Word := 0x96324100 ||| put front 4 4 ||| put (b2n (!bound)) 3 1 ||| put n 0 2

/-- `SLOT_STATE` (R387). -/
def slotStateReg (s : State) (n : Nat) : Word :=
  let x := s.slot n
  put s.dev.state.code 28 4 ||| put x.role.code 26 2
    ||| put (b2n ((List.range 4).any fun k => k != n && (s.slot k).role == .owner)) 25 1
    ||| put (b2n x.long.isSome) 24 1 ||| put (b2n x.qerr) 21 1 ||| put (leaseLeft s x) 0 16

/-- An offset of the slot map that holds bytes: the queues, the MSI-X table, the window (R387). -/
def mapped (x : Slot) (off : Nat) : Bool :=
  decide (0x1000 ≤ off ∧ off < 0x1A00) || (x.pcie && decide (0x2000 ≤ off ∧ off < 0x2080)) || decide (0x4000 ≤ off ∧ off < 0x8000)

/-- A read of a word of the slot map (R387). -/
def slotRead (s : State) (n off : Nat) : Word :=
  let x := s.slot n
  match off with
  | 0x0000 => slotIdReg (x.front.getD 7) n x.front.isSome
  | 0x0004 => slotStateReg s n
  | 0x0008 => BitVec.ofNat 32 x.cmdTail
  | 0x000C => BitVec.ofNat 32 x.cmdHead
  | 0x0010 => BitVec.ofNat 32 x.cplTail
  | 0x0014 => BitVec.ofNat 32 x.cplHead
  | 0x001C => x.notify
  | 0x0020 => BitVec.ofNat 32 x.mask.toNat
  | 0x0024 => BitVec.ofNat 32 x.pend.toNat
  | 0x3000 => if x.pcie then BitVec.ofNat 32 x.pba.toNat else 0
  | _ => if mapped x off then wordAt (x.map.bytes off 4) 0 else 0

/-- A read of a word through a front end; one that is bound to no slot shows `SLOT_ID` alone (R385). -/
def frontRead (s : State) (front off : Nat) : Word :=
  match slotOf s front with
  | some n => slotRead s n off
  | none => if off = 0 then slotIdReg front 0 false else 0

/-- The identity that each of the four PCIe functions presents (R385). -/
def pcieId (s : State) : PcieId :=
  let vendor := if s.nv.identOk then Config.pciVendor else 0
  { vendor := vendor, device := 0x9632, revision := 0x41, classCode := 0x118000, subVendor := vendor, subsystem := 0x9632
    bar0 := 65536, msixVectors := 8, flr := true }

/-- The level of `QSPI_x_IRQ_N`: low while the slot of the port holds an unmasked pending cause (R386, R392). -/
def qspiIrqN (s : State) (b : Bool) : Bool :=
  match slotOf s (4 + b2n b) with
  | some n => (s.slot n).mask &&& (s.slot n).pend == 0
  | none => true

/-! ## The command queue -/

/-- Every command code of R395. -/
def knownOps : List Nat :=
  [0x01, 0x02, 0x03, 0x04, 0x05, 0x06, 0x07, 0x10, 0x11, 0x12, 0x13, 0x14, 0x15, 0x16, 0x17, 0x18, 0x20, 0x21, 0x22,
   0x23, 0x24, 0x25, 0x30, 0x31, 0x32, 0x33, 0x40, 0x41, 0x42, 0x43, 0x44, 0x45, 0x46, 0x47, 0x48, 0x50, 0x51, 0x52,
   0x53, 0x60, 0x61, 0x62, 0x63, 0x64, 0x65, 0x66]

/-- The entry at the head of the command queue (R388). -/
def headEntry (x : Slot) : List Byte := x.map.bytes (0x1000 + 64 * x.cmdHead) 64

/-- The code of the command at the head. -/
def headOp (x : Slot) : Nat := (byteAt (headEntry x) 0).toNat

/-- Its identifier. -/
def headCid (x : Slot) : BitVec 16 := BitVec.ofNat 16 (leAt (headEntry x) 2 2)

/-- The device takes the next command of a slot: one is visible, the state serves commands, no install pauses them, the
completion queue has space, and no earlier command runs, a long one apart (R389, R395, R478). -/
def mayTake (s : State) (n : Nat) : Bool :=
  let x := s.slot n
  slotsUp s && (s.dev.state.served || s.dev.state == .recovery) && !s.host.paused && x.front.isSome
    && x.cmdHead != x.cmdTail && !x.cplFull && x.owed.isEmpty
    && !(s.host.waits.any fun w => w.slot == n && !longOps.contains w.op.toNat)

/-- The head of the command queue advances; a command restarts the owner lease (R389, R399). -/
def popCmd (s : State) (n : Nat) : State :=
  s.modSlot n fun x => { x with cmdHead := (x.cmdHead + 1) % 32, leaseAt := s.op, tagWait := false }

/-- Commands with an unknown code at the head complete `BAD_FORM` (R395). -/
def drainBad (s : State) (n : Nat) : State :=
  (List.range 32).foldl (fun s _ =>
    if mayTake s n && !knownOps.contains (headOp (s.slot n)) then
      complete (popCmd s n) n (headCid (s.slot n)) (headOp (s.slot n)) stBadForm 0 0 0
    else s) s

/-! ## Writes to the slot map -/

/-- `CMD_TAIL` (R387): a write that would pass `CMD_HEAD` sets `QERR`. -/
def writeTail (s : State) (n : Nat) (v : Word) : State :=
  let x := s.slot n
  let t := v.toNat % 32
  if (x.cmdTail + 32 - x.cmdHead) % 32 ≤ (t + 32 - x.cmdHead) % 32 then
    drainBad (s.modSlot n fun x => { x with cmdTail := t }) n
  else s.modSlot n fun x => { x with qerr := true }

/-- `CPL_HEAD` (R387): a write beyond `CPL_TAIL` sets `QERR`; entries that waited are written (R389). -/
def writeCplHead (s : State) (n : Nat) (v : Word) : State :=
  let x := s.slot n
  let h := v.toNat % 32
  if (h + 32 - x.cplHead) % 32 ≤ (x.cplTail + 32 - x.cplHead) % 32 then
    drainBad (payOwed (s.modSlot n fun x => { x with cplHead := h }) n) n
  else s.modSlot n fun x => { x with qerr := true }

/-- `TASK_BELL` (R391). -/
def ringBell (s : State) (n : Nat) : State :=
  if (s.slot n).role != .observer && s.dev.state != .clearing then raiseSource s 0x9 fun a => a % 4 == n else s

/-- `NOTIFY` (R387): a 1 clears its bit. -/
def clearNotify (s : State) (n : Nat) (v : Word) : State :=
  s.modSlot n fun x => { x with notify := x.notify &&& ~~~ (v &&& ~~~ (if x.notifySet.1 = s.op then x.notifySet.2 else 0)) }

/-- `IRQ_MASK` (R392): the unmasking of a pending bit sends its message. -/
def writeMask (s : State) (n : Nat) (v : Word) : State :=
  let x := s.slot n
  let m := BitVec.ofNat 4 v.toNat
  (List.range 4).foldl (fun s k => if m.getLsbD k && !x.mask.getLsbD k && x.pend.getLsbD k then sendIrq s n k else s)
    (s.modSlot n fun x => { x with mask := m })

/-- `IRQ_PEND` (R387): a 1 clears its bit. -/
def clearPend (s : State) (n : Nat) (v : Word) : State :=
  s.modSlot n fun x => { x with
    pend := x.pend &&& ~~~ (BitVec.ofNat 4 v.toNat &&& ~~~ (if x.pendSet.1 = s.op then x.pendSet.2 else 0)) }

/-- A slot reset (R393): base role, queue indices and interrupt registers 0; commands that run go on, and their completions
are discarded; OWNER ends with reason 2 (R399). -/
def slotReset (s : State) (n : Nat) : State :=
  let s := if (s.slot n).role = .owner then record s 0x0903 [.b1 n, .b1 2] else s
  let s := s.modSlot n fun x => { x with
    role := x.base
    cmdTail := 0
    cmdHead := 0
    cplTail := 0
    cplHead := 0
    mask := 0
    pend := 0
    qerr := false
    owed := []
    pba := 0
    msixOn := false
    tagWait := false }
  let s := s.onHost fun h => { h with waits := h.waits.map fun w => if w.slot = n then { w with live := false } else w }
  s.onLn fun l => { l with lanes := l.lanes.map fun e => (e.1, { e.2 with
    test := (match e.2.test with
      | some (.readmit slot cid live, a) => some (.readmit slot cid (live && slot != n), a)
      | t => t) }) }

/-- A vector whose mask bit has been cleared sends the message that it held (PRESUMED, the PCI
Express standard, log entry 23). -/
def vecUnmask (s : State) (n k : Nat) : State :=
  let x := s.slot n
  if x.pba.getLsbD k && !x.vecMasked k && x.msixOn then
    (s.modSlot n fun x => { x with pba := x.pba &&& ~~~ (BitVec.ofNat 4 (1 <<< k)) }).emit (.msix n k)
  else s

/-- A write of a word to the slot map (R387). -/
def slotWrite (s : State) (n off : Nat) (v : Word) : State :=
  match off with
  | 0x0000 => if !(s.slot n).pcie && v == 0 then slotReset s n else s
  | 0x0008 => writeTail s n v
  | 0x0014 => writeCplHead s n v
  | 0x0018 => ringBell s n
  | 0x001C => clearNotify s n v
  | 0x0020 => writeMask s n v
  | 0x0024 => clearPend s n v
  | _ =>
    if off % 4 = 0 && mapped (s.slot n) off && !(decide (0x1800 ≤ off ∧ off < 0x1A00)) then
      (List.range 4).foldl (fun s k => vecUnmask s n k) (s.modSlot n fun x => { x with map := x.map.putBytes off (leBytes 4 v.toNat) })
    else s

/-- Host accesses reach a slot that is bound (R385). -/
def hostUp (s : State) (n : Nat) : Bool := slotsUp s && (s.slot n).front.isSome

/-- `CMD_TAIL` (R389): the host's writes to the command queue and the window, then the write of `CMD_TAIL`. -/
def execCmdTail (dt : Nat) (slot : SlotId) (wr : List (BitVec 16 × Word)) (v : Word) (s : State) :
    Host.Outcome State Fault Refusal :=
  let t := elapse dt s
  answer s (t.when (hostUp t slot) fun t =>
    writeTail (wr.foldl (fun t w => if mapped (t.slot slot) w.1.toNat then slotWrite t slot w.1.toNat w.2 else t) t) slot v)

/-- `CPL_HEAD` (R387). -/
def execCplHead (dt : Nat) (slot : SlotId) (v : Word) (s : State) : Host.Outcome State Fault Refusal :=
  let t := elapse dt s
  answer s (t.when (hostUp t slot) fun t => writeCplHead t slot v)

/-- `TASK_BELL` (R391). -/
def execTaskBell (dt : Nat) (slot : SlotId) (s : State) : Host.Outcome State Fault Refusal :=
  let t := elapse dt s
  answer s (t.when (hostUp t slot) fun t => ringBell t slot)

/-- `NOTIFY` (R387). -/
def execNotify (dt : Nat) (slot : SlotId) (v : Word) (s : State) : Host.Outcome State Fault Refusal :=
  let t := elapse dt s
  answer s (t.when (hostUp t slot) fun t => clearNotify t slot v)

/-- `IRQ_MASK` (R392). -/
def execIrqMask (dt : Nat) (slot : SlotId) (v : Word) (s : State) : Host.Outcome State Fault Refusal :=
  let t := elapse dt s
  answer s (t.when (hostUp t slot) fun t => writeMask t slot v)

/-- `IRQ_PEND` (R387). -/
def execIrqPend (dt : Nat) (slot : SlotId) (v : Word) (s : State) : Host.Outcome State Fault Refusal :=
  let t := elapse dt s
  answer s (t.when (hostUp t slot) fun t => clearPend t slot v)

/-- `SLOT_ID` (R387, R393): the key 0 through a QSPI front end is a slot reset; every other write has no effect. -/
def execSlotId (dt : Nat) (slot : SlotId) (v : Word) (s : State) : Host.Outcome State Fault Refusal :=
  let t := elapse dt s
  answer s (t.when (hostUp t slot) fun t => slotWrite t slot 0 v)

/-- `SLOT_RESET` (R393): Function Level Reset, hot reset or loss of the link of a PCIe front end; a loss of the
link leaves the link down. Which of the three it is the row does not say: whether the link is still up is free. -/
def execSlotReset (dt : Nat) (slot : SlotId) (s : State) : Host.Outcome State Fault Refusal :=
  let t := elapse dt s
  answer s (t.when (hostUp t slot && (t.slot slot).pcie) fun t =>
    let up := Config.freeBit t.free
    (slotReset (t.modSlot slot fun x => { x with pcieUp := x.pcieUp && up }) slot).drawn)

/-- The four PCIe functions enumerate, bound or not (R385). -/
def enumerate (s : State) : State :=
  (List.range 4).foldl (fun s f => s.emit (.enumerates f (pcieId s) (frontRead s f 0))) s

/-- `PCIE_LINK_UP` (R385, R415): the link of a PCIe front end is up, so its reference clock is present, and the functions
enumerate; the MSI-X enable is a bit of the host's. -/
def execPcieLinkUp (dt : Nat) (slot : SlotId) (s : State) : Host.Outcome State Fault Refusal :=
  let t := elapse dt s
  answer s (t.when (hostUp t slot && (t.slot slot).pcie) fun t =>
    let on := Config.freeBit t.free
    enumerate (((t.modSlot slot fun x => { x with pcieUp := true, msixOn := on }).onClk fun c =>
      { c with refclk := true }).drawn))

/-! ## QSPI frames (R386) -/

/-- The bytes of a frame before its CRC, and the CRC it carries. -/
def frameCrcOk (f : List Byte) : Bool := decide (ofBe (f.drop (f.length - 2)) = crc16 (f.take (f.length - 2)))

/-- Offset of a QSPI frame. -/
def frameOff (f : List Byte) : Nat := ofBe ((f.drop 1).take 2)

/-- Word count of a QSPI frame. -/
def frameCount (f : List Byte) : Nat := ofBe ((f.drop 3).take 2)

/-- A write frame that has an effect: command byte, length, offset and CRC are right. -/
def writeFrameOk (f : List Byte) : Bool :=
  decide (f.length = 7 + 4 * frameCount f) && frameOff f % 4 == 0 && frameCrcOk f

/-- A QSPI front end has received a valid frame (R415). -/
def qspiSeen (s : State) (n : Nat) : State := s.modSlot n fun x => { x with qspiAt := some s.op }

/-- `QSPI_WRITE_FRAME` (R386): the words in order, or `QERR`. -/
def execQspiWriteFrame (dt : Nat) (b : Bool) (f : List Byte) (s : State) : Host.Outcome State Fault Refusal :=
  let t := elapse dt s
  answer s (match (if slotsUp t && (byteAt f 0 == 0x01 || byteAt f 0 == 0x11) then slotOf t (4 + b2n b) else none) with
    | some n =>
      if writeFrameOk f then
        (List.range (frameCount f)).foldl (fun t k => slotWrite t n (frameOff f + 4 * k) (wordAt f (5 + 4 * k))) (qspiSeen t n)
      else t.modSlot n fun x => { x with qerr := true }
    | none => t)

/-- The words that a read frame returns; what a misaligned offset returns is free. -/
def readFrameWords (s : State) (front off count : Nat) : List Word :=
  (List.range count).map fun k => if off % 4 != 0 then Config.freeWord (s.free + k) else frontRead s front (off + 4 * k)

/-- `QSPI_READ_FRAME` (R386): the frame comes back with its data and its CRC. -/
def execQspiReadFrame (dt : Nat) (b : Bool) (f : List Byte) (s : State) : Host.Outcome State Fault Refusal :=
  let t := elapse dt s
  answer s (if slotsUp t && decide (f.length = 5) && (byteAt f 0 == 0x02 || byteAt f 0 == 0x12) then
      let n := slotOf t (4 + b2n b)
      let body := f ++ (readFrameWords t (4 + b2n b) (frameOff f) (frameCount f)).flatMap fun w => leBytes 4 w.toNat
      let t := (match n with | some n => if frameOff f % 4 = 0 then qspiSeen t n else t | none => t)
      let t := { t with free := t.free + (if frameOff f % 4 = 0 then 0 else frameCount f) }
      t.emit (.qspi (4 + b2n b) (body ++ (leBytes 2 (crc16 body)).reverse))
    else t)

end Sys2Proof.Machine
end

