-- ==== Sys2Proof/Machine/Pairing.lean ====
section
/-! DEFINITION. The events of the pairing and spare manager (R304-R317): compare, waits for a spare, wakes, votes,
stragglers, verdicts of lane self-tests, returns of stand-ins, periodic tests. -/
namespace Sys2Proof.Machine

/-! ## The compare gate -/

/-- Both copies of a paired instance have ended: agreement, program fault or mismatch (R304). -/
def compareGate (s : State) (t : Nat) : State :=
  match s.inst t, s.copy (4 * t), s.copy (4 * t + 1) with
  | some i, some a, some b =>
    if i.phase == .going && a.ended.isSome && b.ended.isSome && i.frozenAt.isNone then
      if agree a b then (if a.chk = 0 then endNoCommit s t else setPhase s t .passed)
      else if sameFault a b then endNoCommit s t
      else mismatch s t i.num a b
    else s
  | _, _, _ => s

/-- `COMPARE_GATE` (R304). -/
def execCompareGate (dt : Nat) (t : TaskId) (s : State) : Host.Outcome State Fault Refusal :=
  answerS s (compareGate (elapse dt s) t.val)

/-! ## Waits and wakes -/

/-- A waiting mismatch gets a spare, or no spare exists any more (R307, R311). -/
def spareWaitEnd (s : State) (t : Nat) : State :=
  if servedNext s t then
    match pickSpare s (tLanes s.cfg t) with
    | some n => wakeFor s t n
    | none => if anyOutside s then s else noSpare (endNoCommit s t) t
  else s

/-- `SPARE_WAIT_END` (R307). -/
def execSpareWaitEnd (dt : Nat) (t : TaskId) (s : State) : Host.Outcome State Fault Refusal :=
  answerS s (spareWaitEnd (elapse dt s) t.val)

/-- The woken spare starts the replay from the entry point, with the retained snapshot (R308). -/
def spareWake (s : State) (t : Nat) : State :=
  match s.inst t with
  | some i =>
    match i.phase with
    | .waking n _ =>
      if mayReplay s t then
        let s := (s.setCopy (4 * t + 2) (some (freshCopy s t n))).drawn
        decideLane (setPhase s t (.replaying n)) n
      else s
    | _ => s
  | none => s

/-- `SPARE_WAKE` (R308). -/
def execSpareWake (dt : Nat) (t : TaskId) (s : State) : Host.Outcome State Fault Refusal :=
  answerS s (spareWake (elapse dt s) t.val)

/-! ## The vote -/

/-- The replay agrees with one copy: it commits, the other copy's lane is the odd lane (R309, R310, R312). -/
def voteFor (s : State) (t : Nat) (i : Inst) (win odd : Copy) (spare : Nat) : State :=
  let s := record s 0x0104 [.b1 t, .b4 i.num.toNat, .b1 odd.lane, .b8 s.now, .b1 (Config.recordFlag 0x0104 (decide (i.outAt < s.now))).toNat]
  let s := [4 * t, 4 * t + 1, 4 * t + 2].foldl ueBack s
  let s := ((s.setCopy (4 * t) (some win)).setCopy (4 * t + 1) none).setCopy (4 * t + 2) none
  let s := if win.chk = 0 then endNoCommit s t else tryCommit s t i win
  oddLane s odd.lane spare

/-- The replay and one copy ended by the same fault (R309). -/
def voteFault (s : State) (t : Nat) (odd : Copy) (spare : Nat) : State :=
  let s := (ueBack s (4 * t + 2)).setCopy (4 * t + 2) none
  oddLane (endNoCommit s t) odd.lane spare

/-- A three-way mismatch (R309, R315). -/
def vote3 (s : State) (t : Nat) (i : Inst) (a b r : Copy) : State :=
  let s := record s 0x0105 [.b1 t, .b4 i.num.toNat, .b1 a.lane, .b1 b.lane, .b1 r.lane,
    .b8 (digest a), .b8 (digest b), .b8 (digest r)]
  let s := s.onLn fun l => { l with vote3 := satInc l.vote3 }
  let s := endNoCommit s t
  let under := [a.lane, b.lane, r.lane]
  let s := under.foldl (fun s n => testThird s under n) s
  if tGuard s.cfg t then takeStop (guardStop s t 3 bGuardVote) 0x10 (some bGuardVote) else clearCond s bVote3 t

/-- The compare of an ended replay with both copies (R309), in the order of the commits of this instant. -/
def pairVote (s : State) (t : Nat) : State :=
  match s.inst t, s.copy (4 * t), s.copy (4 * t + 1), s.copy (4 * t + 2) with
  | some i, some a, some b, some r =>
    match i.phase with
    | .replaying n =>
      if r.ended.isSome && i.frozenAt.isNone && commitInOrder s t then
        if agree r a && !agree r b then voteFor s t i a b n
        else if agree r b && !agree r a then voteFor s t i b a n
        else if sameFault r a && !sameFault r b then voteFault s t b n
        else if sameFault r b && !sameFault r a then voteFault s t a n
        else vote3 s t i a b r
      else s
    | _ => s
  | _, _, _, _ => s

/-- `PAIR_VOTE` (R309). -/
def execPairVote (dt : Nat) (t : TaskId) (s : State) : Host.Outcome State Fault Refusal :=
  answerS s (pairVote (elapse dt s) t.val)

/-! ## Stragglers -/

/-- A straggler is stopped: its result is unknown and its shadow lines are discarded (R305). -/
def stopStraggler (s : State) (t : Nat) (i : Inst) (k : Nat) (c : Copy) : State :=
  let c1 := { c with ended := some .stopped, unknown := true, shadow := [], loads := [], stall := .none }
  let s := (ueBack s k).setCopy k (some { c1 with ueWords := [] })
  let s := record s 0x0106 [.b1 t, .b4 i.num.toNat, .b1 c.lane, .b4 c.regs.pc.toNat]
  let s := s.onLn fun l => { l with stragglers := satInc l.stragglers }
  let s := leaveLane s c.lane k
  match s.copy (4 * t), s.copy (4 * t + 1) with
  | some a, some b => mismatch s t i.num a b
  | _, _ => s

/-- At the later of the straggler instant and the first copy's end, a copy still running is stopped (R305). -/
def pairStraggler (s : State) (t : Nat) : State :=
  match s.inst t, s.copy (4 * t), s.copy (4 * t + 1) with
  | some i, some a, some b =>
    if i.phase == .going && i.frozenAt.isNone && decide (i.lateAt ≤ s.now) then
      if a.ended.isSome && b.ended.isNone && b.mayStop then stopStraggler s t i (4 * t + 1) b
      else if b.ended.isSome && a.ended.isNone && a.mayStop then stopStraggler s t i (4 * t) a
      else s
    else s
  | _, _, _ => s

/-- `PAIR_STRAGGLER` (R305). -/
def execPairStraggler (dt : Nat) (t : TaskId) (s : State) : Host.Outcome State Fault Refusal :=
  answerS s (pairStraggler (elapse dt s) t.val)

/-! ## Verdicts of lane self-tests -/

/-- A lane with no valid replacement: the `NO_SPARE` condition, or cause 0x10 for a guard task (R314). -/
def noReplacement (s : State) (x : Nat) : State :=
  match (tAll s.cfg).filter fun t => (tLanes s.cfg t).contains x with
  | [] => s
  | t :: r => if (t :: r).any (tGuard s.cfg) then takeStop s 0x10 (some bGuardVote) else clearCond s bNoSpare t

/-- A lane that was tested after a vote is retired; a package lane that it still carries goes to a valid
replacement, after a SETUP only when every test that ran has its verdict (R302, R314, R315). -/
def voteRetire (s : State) (n cause : Nat) (part : Option TestPart) : State :=
  let x := s.lane n
  let s := retireLane s n cause part
  match x.acts with
  | some a =>
    if x.standIn.isNone && (boundLanes s.cfg).contains a && s.dev.state != .setup && !s.ln.takeoverDue then
      (match pickReplacement s a with
       | some m => takeover s a n m true
       | none => noReplacement s a)
    else s
  | none => s

/-- A lane that passed its test after a vote and is not retired (R314). -/
def votePass (s : State) (n : Nat) : State :=
  let x := s.lane n
  let s := s.modLane n fun l => { l with
    test := none
    role := (if x.standIn.isSome then .testing
      else if (match x.acts with | some a => (boundLanes s.cfg).contains a | none => false) then .bound else .spare) }
  decideLane s n

/-- The verdict of a test after a vote (R314, R315). -/
def voteVerdict (s : State) (n : Nat) (failed : Option TestPart) : State :=
  match failed with
  | some p => voteRetire s n (if p = .oscillator then 3 else 1) failed
  | none =>
    let out := strikeRetires s n
    let s := strikeLane s n
    if out then voteRetire s n 2 none else votePass s n

/-- The command that asked for a lane test completes (R317, R389). -/
def laneReadmitDone (s : State) (slot : Nat) (cid : BitVec 16) (live : Bool) (st : Nat) : State :=
  (longEnd s slot cid).when live fun s => complete s slot cid 0x30 st 0 0 0

/-- The verdict of a test after `READMIT` (R317). -/
def readmitVerdict (s : State) (n slot : Nat) (cid : BitVec 16) (live : Bool) (failed : Option TestPart) : State :=
  if failed.isNone then
    let s := s.modLane n fun l => { l with
      role := .spare
      test := none
      acts := none
      strikes := []
      cause := 0 }
    let s := laneRecordDue (record s 0x010A [.b1 n, .b1 slot])
    laneReadmitDone s slot cid live stDone
  else laneReadmitDone (s.modLane n fun l => { l with role := .retired, test := none, acts := none }) slot cid live stCheckFail

/-- A lane self-test ends with its verdict (R302, R313-R317). -/
def laneTestEnd (s : State) (n : Nat) (failed : Option TestPart) : State :=
  match (s.lane n).test with
  | some (k, a) =>
    if a + testNs failed ≤ s.now then
      afterVerdict (match k with
        | .vote | .vote3 => voteVerdict s n failed
        | .readmit slot cid live => readmitVerdict s n slot cid live failed
        | .periodic =>
          if failed.isSome then retireLane s n 5 failed
          else s.modLane n fun l => { l with role := .spare, test := none })
    else s
  | none => s

/-- `LANE_SELF_TEST_END` (R313). -/
def execLaneSelfTestEnd (dt : Nat) (l : LaneId) (failed : Option TestPart) (s : State) :
    Host.Outcome State Fault Refusal :=
  answerS s (laneTestEnd (elapse dt s) l.val failed)

/-! ## Stand-ins -/

/-- A copy stands on a lane. -/
def laneBusy (s : State) (n : Nat) : Bool :=
  s.ln.copies.any fun e => match e.2 with | some c => c.lane == n && (s.inst (keyTask e.1)).isSome | none => false

/-- The stand-in's first instant with no open instance (R314). -/
def standInReturn (s : State) (n : Nat) : State :=
  let l := s.lane n
  match l.standsFor, l.acts with
  | some z, some x =>
    let old := s.lane z
    if laneBusy s n || old.test.isSome then s
    else if old.role == .testing then
      let s := s.modLane z fun y => { y with role := .bound, acts := some x, standIn := none }
      let s := s.modLane n fun y => { y with role := .spare, acts := none, standsFor := none }
      decideLanes s [z, n]
    else if old.role == .retired then
      match pickReplacement s x with
      | some m => (takeover s x n m true).modLane n fun y => { y with role := .spare }
      | none =>
        let s := s.modLane n fun y => { y with standsFor := none }
        noReplacement (s.modLane z fun y => { y with standIn := none }) x
    else s
  | _, _ => s

/-- `STAND_IN_RETURN` (R314). -/
def execStandInReturn (dt : Nat) (l : LaneId) (s : State) : Host.Outcome State Fault Refusal :=
  answerS s (standInReturn (elapse dt s) l.val)

/-! ## Periodic tests -/

/-- The next SPARE lane in ascending order after the last one tested (R316). -/
def nextSpare (s : State) : Option Nat :=
  (((List.range 40).map fun k => (s.ln.spareLast + 1 + k) % 40).find? fun n => (s.lane n).role == .spare)

/-- A periodic test falls due (R316). -/
def spareTestStart (s : State) : State :=
  let runs := s.dev.state == .stop || isRunning s
  if runs && s.dev.pkgOk && decide (s.ln.spareFrom + s.ln.spareLen ≤ s.op)
      && !((List.range 40).any fun n => (s.lane n).role == .spareTest) then
    match nextSpare s with
    | some n => startTest ((spareStart s).onLn fun l => { l with spareLast := n }) n .periodic
    | none => spareStart s
  else s

/-- `SPARE_TEST_START` (R316). -/
def execSpareTestStart (dt : Nat) (s : State) : Host.Outcome State Fault Refusal :=
  answerS s (spareTestStart (elapse dt s))

end Sys2Proof.Machine
end

