-- ==== Sys2Proof/Machine/SysOps.lean ====
section
/-! DEFINITION. System registers and system calls as a lane issues them (R158-R161): the levels and classes of the
calls, their checks at issue, the values of immediate calls, and the values that the copies of a paired instance
share (R161); `FRET` and `FRETC` (R162, R163, R234). -/
namespace Sys2Proof.Machine

/-! ## Values shared by the copies of an instance -/

/-- What the other copies of a paired instance have kept for the copy's next access (R161). -/
def keptImm (s : State) (k : Nat) (c : Copy) : Option Imm :=
  if keyTask k < 64 && pairedCopy s k then (s.inst (keyTask k)).bind fun i => i.imm[c.order]? else none

/-- An access takes the value kept, since it names the same register or call (R161). -/
def heldFor (s : State) (k : Nat) (c : Copy) (isSys : Bool) (num : BitVec 16) : Bool :=
  match keptImm s k c with
  | some m => m.isSys == isSys && m.num == num
  | none => false

/-- An own value or the value retained for this position of the order; a copy that names another register or call
than its twin takes its own value without effects on the device and has diverged (R161). -/
def accessOnce (s : State) (k : Nat) (c : Copy) (isSys : Bool) (num : BitVec 16) (f : State → State × Imm) :
    State × Copy × Imm :=
  let t := keyTask k
  let c1 := { c with order := c.order + 1 }
  match (if t < 64 && pairedCopy s k then s.inst t else none) with
  | none => let r := f s; (r.1, c1, r.2)
  | some i =>
    match i.imm[c.order]? with
    | some m =>
      if m.isSys = isSys && m.num = num then (s, c1, m)
      else let r := f s; ({ s with free := r.1.free }, { c1 with diverged := true }, r.2)
    | none =>
      let r := f s
      ((match r.1.inst t with
        | some j => r.1.setInst t (some { j with imm := j.imm ++ [r.2] })
        | none => r.1), c1, r.2)

/-! ## `SYS` and `CFG` -/

/-- Key under which the high word of `TB_LO` is kept with a value (R513); 1 + n more: of `SHAFT_POS_LOn` (R258). -/
def hiKey : Nat := 100

/-- What a `SYS` of a register returns: the value under 0, and the high word sampled with it (R258, R513). -/
def sysValue (s : State) (c : Copy) (t srn : Nat) : Option (List (Nat × Word)) :=
  match sysReg s (cfgOf s t) srn with
  | none => none
  | some v =>
    let n := (srn - 0x0410) / 8
    some (
      if srn = 0x0C16 then [(0, v), (hiKey, BitVec.ofNat 32 (s.now / 2 ^ 32))]
      else if srn = 0x0C17 then [(0, c.tbHi.getD v)]
      else if 0x0410 ≤ srn ∧ srn < 0x0430 ∧ srn % 8 = 4 then
        [(0, v), (hiKey + 1 + n, BitVec.ofNat 32 (shaftPos s n / 2 ^ 32))]
      else if 0x0410 ≤ srn ∧ srn < 0x0430 ∧ srn % 8 = 5 then
        [(0, (match tabGet none c.posHi n with | some b => b.setWidth 32 | none => v))]
      else [(0, v)])

/-- The value of a result list under a key. -/
def resAt (l : List (Nat × Word)) (k : Nat) : Option Word := (l.find? fun e => e.1 = k).map (·.2)

/-- The high words that a value brings with it are kept by the copy (R258, R513). -/
def Copy.keepHi (c : Copy) (l : List (Nat × Word)) : Copy :=
  let c := match resAt l hiKey with | some w => { c with tbHi := some w } | none => c
  (List.range 4).foldl (fun c n => match resAt l (hiKey + 1 + n) with
    | some w => { c with posHi := tabPut n (some (w.setWidth 8)) c.posHi }
    | none => c) c

/-- Item type 0x04 (R303). -/
def itemSys (srn : Nat) : List Byte := 4 :: leBytes 2 srn

/-- `SYS` (R158). -/
def sysUnit (d srn : Nat) (s : State) (k : Nat) (c : Copy) : Res :=
  let t := keyTask k
  match sysValue s c t srn with
  | none => { s := s, c := c, flow := .fault fcIllegal }
  | some l =>
    let r := accessOnce s k c true (BitVec.ofNat 16 srn) fun s =>
      (s, { isSys := true, num := BitVec.ofNat 16 srn, status := 0, res := l, data := [] })
    let c := (r.2.1.item (itemSys srn)).keepHi r.2.2.res
    { s := r.1, c := c.setReg d ((resAt r.2.2.res 0).getD 0) }

/-- A port enabled or disabled by a write of its `YL_PORT_CFG` (R280). -/
def cfgEffects (s : State) (srn : Nat) : State :=
  if 0x0510 ≤ srn ∧ srn < 0x0518 then portEnabled s (srn - 0x0510) else s

/-- A register written at SETUP level: live, or in the staged configuration (R159, R552). -/
def cfgStore (s : State) (t srn : Nat) (v : Word) : State :=
  if t = 65 then
    s.onPkg fun p => { p with exch := { p.exch with
      staged := p.exch.staged.map fun x => (rWrite x.1 srn v, x.2) } }
  else cfgEffects { s with cfg := rWrite s.cfg srn v } srn

/-- A register that SETUP level may not write (R551). -/
def serviceOnly (srn : Nat) : Bool := srn == 0x0012 || decide (0x0C00 ≤ srn ∧ srn ≤ 0x0C03)

/-- `CFG` (R159, R551). -/
def cfgUnit (g srn : Nat) (s : State) (k : Nat) (c : Copy) : Res :=
  let t := keyTask k
  if t < 64 then { s := s, c := c, flow := .fault fcPrivilege }
  else match regRow srn with
    | none => { s := s, c := c, flow := .fault fcIllegal }
    | some r =>
      if serviceOnly srn then { s := s, c := c, flow := .fault fcPrivilege }
      else { s := if r.acc == .rw then cfgStore s t srn (c.reg g) else s, c := c }

/-! ## System calls: classes, levels, forms -/

/-- The committed calls. -/
def callCommitted (n : Nat) : Bool :=
  [0x0200, 0x0202, 0x0500, 0x0501, 0x0601, 0x0602, 0x0603, 0x0700, 0x0800, 0x0801, 0x0802, 0x0803, 0x0900, 0x0A00,
    0x0B01, 0x0B02, 0x0B03, 0x0B05].contains n

/-- The immediate calls. -/
def callImmediate (n : Nat) : Bool :=
  [0x0201, 0x0203, 0x0400, 0x0502, 0x0503, 0x0504, 0x0600, 0x0A01, 0x0B00, 0x0B04].contains n

/-- The calls marked for SETUP level. -/
def callSetup (n : Nat) : Bool :=
  [0x0201, 0x0400, 0x0503, 0x0504, 0x0600, 0x0A01, 0x0B00, 0x0B01, 0x0B03, 0x0B04].contains n

/-- A call is marked for the level of a task (R160). -/
def callLevel (c : Tab Word) (t n : Nat) : Bool :=
  if 64 ≤ t then callSetup n else if n = 0x0A00 then tGuard c t else true

/-- `n` bytes at `a` lie within one area (R198). -/
def inOneArea (a n : Nat) : Bool := match areaOf a with | some x => x.has (a + n - 1) | none => false

/-- Bits of a word outside a mask are 0. -/
def within (w : Word) (mask : Nat) : Bool := decide (w &&& ~~~(BitVec.ofNat 32 mask) = 0)

/-- `CYCLES` and the rule of a tune are in their ranges (R334, R335). -/
def tuneForm (g0 : Word) : Bool := decide (2 ≤ fld g0 12 4 ∧ fld g0 12 4 ≤ 14) && fld g0 8 2 != 3

/-- The form of a capture is one of R338 and its parameter K is in the range of that form. -/
def capForm (g0 g2 : Word) : Bool :=
  let k := g2.toNat
  match fld g0 8 4 with
  | 0 | 1 => true
  | 2 => decide (2 ≤ k) && k % 2 == 0
  | 3 => decide (1 ≤ k)
  | 4 => decide (4 ≤ k)
  | _ => false

/-- The register arguments of a call have a good form (R160 and the definitions of the calls). Bits that a definition
neither names nor calls reserved, and a byte range beyond one area, are bad form as well (DEDUCED, log entry 83). -/
def callForm (s : State) (k n : Nat) (g0 g1 g2 : Word) : Bool :=
  match n with
  | 0x0200 | 0x0202 => within g0 0x3F
  | 0x0203 => (match s.inst (keyTask k) with | some i => i.groups.any fun g => g.1 == g0.toNat | none => false)
  | 0x0400 => within g0 0x103
  | 0x0500 => within g0 0x871F
  | 0x0501 => within g0 0x071F && decide (4 ≤ g2.toNat ∧ g2.toNat ≤ 1480) && inOneArea g1.toNat g2.toNat
  | 0x0502 | 0x0503 => within g0 0x071F
  | 0x0504 => within g0 0x0F07 && decide (fld g0 8 4 ≤ 12)
  | 0x0600 => within g0 0xFF
  | 0x0601 => within g0 0xF3FF && tuneForm g0
  | 0x0602 => within g0 0x0FFF1FFF && capForm g0 g2
  | 0x0603 => within g0 0x1FF
  | 0x0700 | 0x0B03 | 0x0B04 => within g0 0x1F
  | 0x0800 => within g0 3 && decide (g1.toNat % 4 = 0) && inOneArea g1.toNat 80
  | 0x0801 | 0x0802 | 0x0803 | 0x0900 => within g0 3
  | 0x0A00 => within g0 0xFFFF
  | 0x0B00 | 0x0B02 => within g0 0x3FF
  | 0x0B01 => within g0 0x3FF && decide (1 ≤ g2.toNat ∧ g2.toNat ≤ 48) && inOneArea g1.toNat g2.toNat
  | 0x0B05 => within g0 0x7F
  | _ => true

/-- A status other than `DONE` with which a committed call completes at issue (R342). -/
def callAtIssue (c : Tab Word) (n : Nat) (g0 : Word) : Option Nat :=
  match n with
  | 0x0601 | 0x0602 | 0x0603 => if lOn c (fld g0 0 8) then none else some stNotFound
  | _ => none

/-! ## Immediate calls -/

/-- A task may store `n` bytes at `a` byte by byte: into lines it owns or its scratch frame (R69, R71, R464). -/
def canWrite (s : State) (t a n : Nat) : Bool :=
  (List.range n).all fun j => (checkAccess s t (a + j) 1 true).isNone

/-- An immediate call's result without data. -/
def immRes (n : Nat) (st : Nat) (res : List (Nat × Word)) : Imm :=
  { isSys := false, num := BitVec.ofNat 16 n, status := BitVec.ofNat 8 st, res := res, data := [] }

/-- The bytes of a list that a call copies to `a`. -/
def placed (a : Nat) (b : List Byte) : List (Nat × Byte) := b.zipIdx.map fun e => (a + e.2, e.1)

/-- `RELEASE_TIME` (R194). -/
def immRelease (s : State) (t : Nat) : Imm :=
  match s.inst t with
  | some i => immRes 0x0201 stDone [(0, BitVec.ofNat 32 i.rel), (1, BitVec.ofNat 32 (i.rel / 2 ^ 32)), (2, i.num)]
  | none => immRes 0x0201 stDone []

/-- `SNAP_INFO` (R194). -/
def immSnap (s : State) (t : Nat) (g0 : Word) : Imm :=
  match (match s.inst t with | some i => i.groups.find? fun (g : Nat × Bool × Nat) => g.1 == g0.toNat | none => none) with
  | some g => immRes 0x0203 stDone [(1, b2w g.2.1), (2, BitVec.ofNat 32 g.2.2)]
  | none => immRes 0x0203 stBadForm []

/-- `SHAFT_READ` (R257): as at the release of the instance, or now. -/
def immShaft (s : State) (t : Nat) (g0 : Word) : Imm :=
  let n := fld g0 0 2
  if !shOn (cfgOf s t) n then immRes 0x0400 stNotFound []
  else
    let old := match s.inst t with | some i => i.shafts.getD n { pos := 0, stat := 0, vel := 0 } | none => { pos := 0, stat := 0, vel := 0 }
    let x := if wbit g0 8 then (shaftSnaps s).getD n old else old
    immRes 0x0400 stDone [(1, x.pos.setWidth 32), (2, put x.stat.toNat 24 8 ||| put (x.pos.toNat / 2 ^ 32) 0 8), (3, x.vel)]

/-- `YL_MBX_READ` (R294): the held response is copied and consumed. -/
def immMbx (s : State) (t : Nat) (g0 g1 g2 : Word) : State × Imm :=
  let key := 32 * fld g0 8 3 + fld g0 0 5
  let x := s.sta key
  match x.mbxHeld with
  | some b =>
    if canWrite s t g1.toNat (min b.length g2.toNat) then
      (s.modSta key fun y => { y with mbxHeld := none },
        { immRes 0x0502 stDone [(1, BitVec.ofNat 32 b.length)] with data := placed g1.toNat (b.take g2.toNat) })
    else (s, immRes 0x0502 stDenied [])
  | none => (s, immRes 0x0502 (if x.mbxTimeout then stTimeout else stNotFound) [])

/-- The status word of `YL_STA_INFO` (R294). -/
def staWord (s : State) (key : Nat) : Word :=
  let x := s.sta key
  let w := 1000000000 * yWindow s.cfg
  put x.state.toNat 28 4 ||| put x.rowBuf.toNat 24 2
    ||| put (min 255 (x.strikes.filter fun t => decide (s.op ≤ t + w)).length) 16 8
    ||| put (min 255 x.consec) 8 8 ||| put (sByte s key).toNat 0 8

/-- `YL_STA_INFO` (R294). -/
def immSta (s : State) (g0 : Word) : Imm :=
  let key := 32 * fld g0 8 3 + fld g0 0 5
  immRes 0x0503 stDone [(1, staWord s key), (2, (s.sta key).type), (3, (s.sta key).rtt)]

/-- `YL_COUNT` (R294). -/
def immCount (s : State) (g0 : Word) : Imm :=
  immRes 0x0504 stDone [(1, tabGet 0 s.yl.counts (16 * fld g0 0 3 + fld g0 8 4))]

/-- `LOOP_READ` (R342). -/
def immLoop (s : State) (t : Nat) (g0 : Word) : Imm :=
  let n := fld g0 0 8
  if lOn (cfgOf s t) n then immRes 0x0600 stDone [(1, (s.loop n).uPrev), (2, loopStat s n), (3, (s.loop n).i)]
  else immRes 0x0600 stNotFound []

/-- `SAFE_STATUS` (R432). -/
def immSafe (s : State) : Imm := immRes 0x0A01 stDone [(1, guardUsable s), (2, safeStat s), (3, devStateReg s)]

/-- `NV_READ` (R444, R464). -/
def immNvRead (s : State) (t : Nat) (g0 g1 g2 : Word) : Imm :=
  match tabGet none s.nv.mirror g0.toNat with
  | some (q, b) =>
    if canWrite s t g1.toNat (min b.length g2.toNat) then
      { immRes 0x0B00 stDone [(1, BitVec.ofNat 32 b.length), (2, q)] with data := placed g1.toNat (b.take g2.toNat) }
    else immRes 0x0B00 stDenied []
  | none => immRes 0x0B00 stNotFound []

/-- `NV_COUNT_READ` (R448, R464). -/
def immNvCount (s : State) (g0 : Word) : State × Imm :=
  let n := g0.toNat % 32 + 2
  let v := (tabGet ({} : Ctr) s.nv.ctrs n).value
  (readCounter s n, immRes 0x0B04 stDone [(1, BitVec.ofNat 32 v), (2, BitVec.ofNat 32 (v / 2 ^ 32 % 256))])

/-- The value of an immediate call with a good form, and its effect on the device. -/
def immCall (t n : Nat) (g0 g1 g2 : Word) (s : State) : State × Imm :=
  match n with
  | 0x0201 => (s, immRelease s t)
  | 0x0203 => (s, immSnap s t g0)
  | 0x0400 => (s, immShaft s t g0)
  | 0x0502 => immMbx s t g0 g1 g2
  | 0x0503 => (s, immSta s g0)
  | 0x0504 => (s, immCount s g0)
  | 0x0600 =>
    match (s.inst t).bind fun i => tabGet none i.loopRd (fld g0 0 8) with
    | some m => (s, m)
    | none =>
      let m := immLoop s t g0
      (match s.inst t with
       | some i => s.setInst t (some { i with loopRd := tabSet none (fld g0 0 8) (some m) i.loopRd })
       | none => s, m)
  | 0x0A01 => (s, immSafe s)
  | 0x0B00 => (s, immNvRead s t g0 g1 g2)
  | _ => immNvCount s g0

/-! ## `SYSC` -/

/-- Status and results written; where gd is a result register too, which of the two it holds is a free value. -/
def Copy.results (c : Copy) (d n st : Nat) (res : List (Nat × Word)) : Copy :=
  let c1 := res.foldl (fun c e => c.setReg e.1 e.2) c
  if (res.any fun e => e.1 == d) && Config.freeBit (16 * n + d) then c1 else c1.setReg d (BitVec.ofNat 32 st)

/-- Item type 0x05 (R303). -/
def itemImm (n : Nat) : List Byte := 5 :: leBytes 2 n

/-- Item type 0x03 (R303). -/
def itemCall (n : Nat) (g0 g1 g2 g3 : Word) : List Byte :=
  3 :: leBytes 2 n ++ leBytes 4 g0.toNat ++ leBytes 4 g1.toNat ++ leBytes 4 g2.toNat ++ leBytes 4 g3.toNat

/-- A committed call at issue (R160). -/
def commitCall (d n : Nat) (s : State) (k : Nat) (c : Copy) : Copy :=
  let g0 := c.reg 0
  let it := itemCall n g0 (c.reg 1) (c.reg 2) (c.reg 3)
  match callAtIssue (cfgOf s (keyTask k)) n g0 with
  | some st => (c.item it).setReg d (BitVec.ofNat 32 st)
  | none =>
    if 16 ≤ (c.ws.filter fun i => match i with | .call .. => true | _ => false).length then
      (c.item it).setReg d (BitVec.ofNat 32 stBusy)
    else
      { (c.item it).setReg d 0 with ws := c.ws ++ [.call (BitVec.ofNat 16 n) g0 (c.reg 1) (c.reg 2) (c.reg 3)] }

/-- The immediate calls that are transactions of the fabric: requests to the parameter store and the read of a link response
(R31; DEDUCED, log entry 91). -/
def callFabric (n : Nat) : Bool := [0x0502, 0x0B00, 0x0B04].contains n

/-- The access of an immediate call, with the tag that a transaction holds for it (R31, R160). -/
def immAccess (t n : Nat) (g0 g1 g2 : Word) (s : State) : State × Imm :=
  let r := immCall t n g0 g1 g2 s
  if callFabric n then (passTag r.1 (taskTags s.cfg t) r.2.status.toNat, r.2) else r

/-- An access is to be made, and not taken from the other copy, and finds no free tag (R32, R161). -/
def lacksTag (s : State) (k n : Nat) (c : Copy) : Bool :=
  callFabric n && (freeTags s (taskTags s.cfg (keyTask k))).isEmpty && !heldFor s k c false (BitVec.ofNat 16 n)

/-- System call `n` (R160, R161): unknown, privilege, form, then its class. A request that finds no free tag stalls the lane
at the call (R32). -/
def sysCall (d n : Nat) (s : State) (k : Nat) (c : Copy) : Res :=
  let t := keyTask k
  let bad : Res := { s := s, c := c.setReg d (BitVec.ofNat 32 stBadForm) }
  if !(callCommitted n || callImmediate n) then bad
  else if !callLevel s.cfg t n then { s := s, c := c, flow := .fault fcPrivilege }
  else if !callForm s k n (c.reg 0) (c.reg 1) (c.reg 2) then bad
  else if callCommitted n then { s := s, c := commitCall d n s k c }
  else if lacksTag s k n c then
    { s := (drawTag s (taskTags s.cfg t)).1, c := c, flow := .tag (taskTags s.cfg t) }
  else
    let r := accessOnce s k c false (BitVec.ofNat 16 n) (immAccess t n (c.reg 0) (c.reg 1) (c.reg 2))
    match copyStoreAll r.1 k r.2.1 r.2.2.data with
    | none => { s := s, c := c, flow := .quota }
    | some (s1, c1) => { s := s1, c := (c1.item (itemImm n)).results d n r.2.2.status.toNat r.2.2.res }

/-! ## `FRET` and `FRETC` -/

/-- Number of fret entries and cancellations that a copy holds. -/
def fretItems (c : Copy) : Nat := (c.ws.filter fun i => match i with | .call .. => false | _ => true).length

/-- The form checks of R234 fail for a fret entry. -/
def fretBad (s : State) (t : Nat) (b : List Byte) : Bool :=
  let e := fretOf t b
  let cfg := cfgOf s t
  let sub := e.sub.toNat
  let m := sub % 16
  !shOn cfg e.shaft.val || e.dir == 3 || decide (4 ≤ (byteAt b 6).toNat)
    || (e.repeats && decide (2 ^ 24 ≤ e.target.toNat))
    || (match e.kind.toNat with
      | 1 => decide (2 ≤ sub) || ownerOf (ownCfg s t) 0x10020000 != some t
          || ((List.range 16).any fun k => wbit e.word (16 + k) && chMode (fCfg cfg (16 * (sub % 2) + k)) != 5)
      | 2 => decide (16 ≤ sub) || e.repeats || e.lateFire || e.dir == 2 || (mapSegs cfg m).isEmpty
          || decide (e.word.toNat % 4 ≠ 0)
          || !(decide (0x11000000 ≤ e.word.toNat ∧ e.word.toNat + mapLen cfg m ≤ 0x11400000))
      | 3 => decide (64 ≤ sub) || e.word != 0 || !(tEnable cfg sub && tEvent cfg sub && tSource cfg sub == 0xA)
      | _ => true)

/-- The device state accepts new entries of a task (R56). -/
def fretsAccepted (s : State) (t : Nat) : Bool := decide (t < 64) && releasable s t

/-- Status of an entry or a cancellation once its form is good (R162, R163). -/
def fretStatus (s : State) (t : Nat) (c : Copy) : Nat :=
  if !fretsAccepted s t then stDenied else if 128 ≤ fretItems c then stBusy else stDone

/-- `FRET` (R162). -/
def fretUnit (d g : Nat) (s : State) (k : Nat) (c : Copy) : Res :=
  let t := keyTask k
  let a := (c.reg g).toNat
  match checkAccess s t a 16 false with
  | some x => { s := s, c := c, flow := .fault x }
  | none =>
    let b := copyBytes s k c a 16
    let st := if fretBad s t b then stBadForm else fretStatus s t c
    let c1 := (c.item (1 :: b ++ [BitVec.ofNat 8 st])).setReg d (BitVec.ofNat 32 st)
    { s := s, c := if st = stDone then { c1 with ws := c.ws ++ [.fret b] } else c1 }

/-- `FRETC` (R163). -/
def fretcUnit (d g : Nat) (s : State) (k : Nat) (c : Copy) : Res :=
  let key := c.reg g
  let st := fretStatus s (keyTask k) c
  let c1 := (c.item (2 :: leBytes 4 key.toNat ++ [BitVec.ofNat 8 st])).setReg d (BitVec.ofNat 32 st)
  { s := s, c := if st = stDone then { c1 with ws := c.ws ++ [.cancel key] } else c1 }

end Sys2Proof.Machine
end

