-- ==== Sys2Proof/Machine/HostCmds.lean ====
section
/-! DEFINITION. Host commands (R389, R390, R395-R399, R462, R463): how the device takes them, identity and ownership,
reads and writes, readmission, loops. -/
namespace Sys2Proof.Machine

/-! ## Taking a command -/

/-- How a command goes on after its start: it completes with a status and results; it waits; it is a long command that
another part completes; it writes no completion; or it is not taken yet, for want of a tag. -/
inductive CmdEnd where
  | done (s : State) (st v0 v1 v2 : Nat)
  | wait (s : State) (for_ : WaitFor) (ev : Nat) (items : List (Nat × Nat))
  | long (s : State)
  | gone (s : State)
  | noTag (s : State)

/-- A command that completes with a status and no results. -/
def ends (s : State) (st : Nat) : CmdEnd := .done s st 0 0 0

/-- A command that waits for a record to be written (R442). -/
def waits (s : State) (id ev : Nat) (items : List (Nat × Nat)) : CmdEnd := .wait s (.sysRecord (BitVec.ofNat 16 id)) ev items

/-- A started command goes on (R389). -/
def goOn (x : Slot) (n op : Nat) : CmdEnd → State
  | .done s st v0 v1 v2 => complete s n (headCid x) op st v0 v1 v2
  | .wait s w ev items =>
    let s := s.modSlot n fun y => { y with long := if longOps.contains op then some (headCid x) else y.long }
    s.onHost fun h => { h with waits := h.waits ++
      [{ slot := n, cid := headCid x, op := BitVec.ofNat 8 op, for_ := w, ev := ev, items := items }] }
  | .long s => s.modSlot n fun y => { y with long := some (headCid x) }
  | .gone s => s
  | .noTag s => (s.when (!x.tagWait) fun s => (drawTag s true).1).modSlot n fun y =>
    { y with cmdHead := x.cmdHead, leaseAt := x.leaseAt, tagWait := true }

/-- A command that saves the warm area waits at the head of its queue while no reserved tag is free (R32). -/
def whenTag (s : State) (go : CmdEnd) : CmdEnd := if (freeTags s true).isEmpty then .noTag s else go

/-- What a command does, from the state, its slot and its 64-byte entry. -/
abbrev CmdBody := State → Nat → List Byte → CmdEnd

/-- A second long command of a slot completes `BUSY` under R18 (R389). -/
def longBusy (s : State) (n op : Nat) : Bool := longOps.contains op && (s.slot n).long.isSome

/-- The device takes the command `op` of a slot if it stands at the head of the queue (R389). -/
def runCmd (op : Nat) (body : CmdBody) (s : State) (n : Nat) : State :=
  let s := drainBad s n
  if mayTake s n && headOp (s.slot n) == op then
    let x := s.slot n
    drainBad (goOn x n op (body (popCmd s n) n (headEntry x))) n
  else s

/-- A condition of R18 and the rest of a command. -/
def CmdEnd.unless (bad : Bool) (s : State) (st : Nat) (rest : CmdEnd) : CmdEnd := if bad then ends s st else rest

/-! ## Roles and states -/

/-- The slot holds OWNER. -/
def isOwner (s : State) (n : Nat) : Bool := (s.slot n).role == .owner
/-- The slot's base role is OPERATOR. -/
def isBaseOp (s : State) (n : Nat) : Bool := (s.slot n).base == .operator
/-- The slot holds OWNER or OPERATOR. -/
def mayOperate (s : State) (n : Nat) : Bool := (s.slot n).role != .observer
/-- STOP, RUN or HOLD. -/
def inSrh (s : State) : Bool := s.dev.state == .stop || s.dev.state == .run || s.dev.state == .hold

/-- The checks of R39 and R42 of a state-changing command, after the STOP triggers that its instant brings about (R41):
role, then `BUSY` at the instant of a transition, then state. -/
def transGate (s : State) (role : Bool) (state : State → Bool) (rest : State → CmdEnd) : CmdEnd :=
  let s := judgeStops s
  .unless (!role) s stDenied (.unless s.moving s stBusy (.unless (!state s) s stDenied (rest s)))

/-! ## The transfer window (R390) -/

/-- A window range has a good form. -/
def winOk (off len unit : Nat) : Bool := off % unit == 0 && decide (off + len ≤ 0x4000)

/-- Bytes of the transfer window. -/
def winBytes (s : State) (n off len : Nat) : List Byte := (s.slot n).map.bytes (0x4000 + off) len

/-- Bytes put into the transfer window. -/
def winPut (s : State) (n off : Nat) (b : List Byte) : State :=
  s.modSlot n fun x => { x with map := x.map.putBytes (0x4000 + off) b }

/-! ## Identity and ownership -/

/-- `IDENTIFY` (R395, R480). -/
def cmdIdentify : CmdBody := fun s _ _ =>
  .done s stDone (roReg s 0x0000).toNat (roReg s 0x0001).toNat (devStateReg s).toNat

/-- `OWNER_CHALLENGE` (R398): a fresh nonce into the window. -/
def cmdOwnerChallenge : CmdBody := fun s n _ =>
  .unless (!(s.dev.state == .setup || inSrh s)) s stDenied
    (let b := (List.range 32).map (Config.randomByte s.free)
     let s := s.modSlot n fun x => { x with nonce := some (s.free, s.op) }
     ends (winPut s.drawn n 0 b) stDone)

/-- The unused nonce of a slot, within 30 s of its draw (R398). -/
def liveNonce (s : State) (n : Nat) : Option Nat :=
  match (s.slot n).nonce with
  | some (k, a) => if s.op ≤ a + 30000000000 then some k else none
  | none => none

/-- The message that a proof signs (R398). -/
def proofMessage (s : State) (n k nonce : Nat) : List Byte :=
  (List.range 32).map (Config.randomByte nonce) ++ leBytes 8 (serialNow s) ++ leBytes 1 n ++ leBytes 1 k

/-- Failed proofs of a slot in the last 10 s. -/
def recentFails (s : State) (n : Nat) : List Nat := (s.slot n).fails.filter fun a => decide (s.op ≤ a + 10000000000)

/-- `OWNER_PROVE` (R398). -/
def cmdOwnerProve : CmdBody := fun s n e =>
  let k := (byteAt e 8).toNat
  let off := leAt e 9 2
  .unless (decide (3 < k) || !winOk off 64 4) s stBadForm
    (.unless (!(s.dev.state == .setup || inSrh s)) s stDenied
      (match tabGet none s.pkg.keys k, liveNonce s n with
       | some key, some nonce =>
         .unless ((List.range 4).any (fun m => m != n && isOwner s m) || decide (3 ≤ (recentFails s n).length) || longBusy s n 0x03)
           s stBusy
           (let good := Config.ecdsaP256 key (Config.sha256 (proofMessage s n k nonce)) (winBytes s n off 64)
            let s := s.modSlot n fun x => { x with nonce := none }
            if good then
              let s := s.modSlot n fun x => { x with role := .owner, key := k, leaseAt := s.op }
              ends (record s 0x0901 [.b1 n, .b1 k]) stDone
            else
              let s := s.modSlot n fun x => { x with fails := s.op :: recentFails s n }
              ends (record s 0x0902 [.b1 n, .b1 k]) stCheckFail)
       | _, _ => ends s stNotFound))

/-- The OWNER role of a slot ends (R399). -/
def dropOwner (s : State) (n reason : Nat) : State :=
  record (s.modSlot n fun x => { x with role := x.base }) 0x0903 [.b1 n, .b1 reason]

/-- `RELEASE` (R395, R399). -/
def cmdRelease : CmdBody := fun s n _ =>
  .unless (!(isOwner s n && (s.dev.state == .setup || inSrh s))) s stDenied (ends (dropOwner s n 1) stDone)

/-- Bytes of a list replaced from an offset. -/
def patch (l : List Byte) (o : Nat) (b : List Byte) : List Byte := l.take o ++ b ++ l.drop (o + b.length)

/-- `SLOT_BIND` (R384, R395): a front end that another slot of the record holds is no argument of it. -/
def cmdSlotBind : CmdBody := fun s n e =>
  let k := (byteAt e 8).toNat
  let f := (byteAt e 9).toNat
  let b := (byteAt e 10).toNat
  let r := sysStaged s 0xF001
  .unless (decide (3 < k) || !(decide (f ≤ 5) || f == 7) || decide (1 < b)
      || (f != 7 && (List.range 4).any fun m => m != k && (byteAt r (4 * m)).toNat == f)) s stBadForm
    (.unless (!(isOwner s n && s.dev.state == .stop)) s stDenied
      (waits (stageSys s 0xF001 (patch r (4 * k) (leBytes 1 f ++ leBytes 1 b))) 0xF001 0x090E [(1, k), (1, f), (1, b)]))

/-- No key is enrolled. -/
def noKeys (s : State) : Bool := (List.range 4).all fun k => (tabGet none s.pkg.keys k).isNone

/-- `KEY_ENROL` (R395, R399). -/
def cmdKeyEnrol : CmdBody := fun s n e =>
  let k := (byteAt e 8).toNat
  let off := leAt e 9 2
  let r := sysStaged s 0xF002
  .unless (decide (3 < k) || !winOk off 64 4) s stBadForm
    (.unless (!((isOwner s n || (noKeys s && isBaseOp s n)) && s.dev.state == .stop)) s stDenied
      (let m := byteAt r 0 ||| BitVec.ofNat 8 (1 <<< k)
       waits (stageSys s 0xF002 (patch (patch r 0 [m]) (8 + 64 * k) (winBytes s n off 64))) 0xF002 0x090D
         [(1, k), (1, (Config.recordFlag 0x090D true).toNat), (1, n)]))

/-- A package held in a slot was signed with key `k` (R399, R402). -/
def keySigned (s : State) (k : Nat) : Bool :=
  (decide (2 ≤ s.pkg.stA.toNat) && s.pkg.keyA.toNat == k) || (decide (2 ≤ s.pkg.stB.toNat) && s.pkg.keyB.toNat == k)

/-- `KEY_REMOVE` (R395, R399). -/
def cmdKeyRemove : CmdBody := fun s n e =>
  let k := (byteAt e 8).toNat
  let r := sysStaged s 0xF002
  let m := byteAt r 0
  .unless (decide (3 < k)) s stBadForm
    (.unless (!(isOwner s n && s.dev.state == .stop)) s stDenied
      (.unless (!m.getLsbD k) s stNotFound
        (.unless (m == BitVec.ofNat 8 (1 <<< k) || keySigned s k) s stProtected
          (waits (stageSys s 0xF002 (patch (patch r 0 [m &&& ~~~(BitVec.ofNat 8 (1 <<< k))]) (8 + 64 * k) (List.replicate 64 0)))
            0xF002 0x090D [(1, k), (1, (Config.recordFlag 0x090D false).toNat), (1, n)]))))

/-! ## Reads and writes -/

/-- A served state. -/
def served (s : State) : Bool := s.dev.state.served

/-- `READ` (R396). -/
def cmdRead : CmdBody := fun s n e =>
  let a := leAt e 8 4
  let len := leAt e 12 4
  let off := leAt e 16 2
  .unless (len == 0 || decide (16384 < len) || !winOk off len 4 || !inOneArea a len) s stBadForm
    (.unless (!served s) s stDenied
      (.unless (s.dev.state == .setup) s stBusy
        (.done (winPut s n off (canBytes s a len)) stDone (s.now % 2 ^ 32) (s.now / 2 ^ 32) 0)))

/-- The addresses of the lines that a range touches. -/
def spanLines (a len : Nat) : List Nat := (List.range ((a + len - 1) / 64 + 1 - a / 64)).map fun k => 64 * (a / 64 + k)

/-- Owner code of a host slot (R200). -/
def slotOwner (n : Nat) : Nat := 0x44 + n

/-- `WRITE` (R396): one write set at one instant; a word written whole is repaired (R217). -/
def cmdWrite : CmdBody := fun s n e =>
  let a := leAt e 8 4
  let len := leAt e 12 4
  let off := leAt e 16 2
  .unless (len == 0 || decide (4096 < len) || !winOk off len 4 || !inOneArea a len) s stBadForm
    (.unless (!(mayOperate s n && inSrh s)) s stDenied
      (.unless (!(spanLines a len).all fun l => Area.h.has l && ownerOf s.cfg l == some (slotOwner n)) s stProtected
        (let b := ((List.range len).map (a + ·)).zip (winBytes s n off len)
         let s := publishWhole s b
         .done s stDone (s.now % 2 ^ 32) (s.now / 2 ^ 32) 0)))

/-- `SYSREAD` (R396). -/
def cmdSysread : CmdBody := fun s _ e =>
  match sysReg s s.cfg (leAt e 8 2) with
  | some v => .unless (!served s) s stDenied (.done s stDone v.toNat 0 0)
  | none => ends s stBadForm

/-- `LINK_COUNT` (R294, R395). -/
def cmdLinkCount : CmdBody := fun s _ e =>
  let p := (byteAt e 8).toNat
  let i := (byteAt e 9).toNat
  .unless (decide (7 < p) || decide (12 < i)) s stBadForm
    (.unless (!served s) s stDenied (.done s stDone (tabGet 0 s.yl.counts (16 * p + i)).toNat 0 0))

/-! ## The recorder -/

/-- A record as the service core holds it (R462). -/
def recBytes (s : State) (q : Word) : List Byte :=
  match s.nv.buf.find? (fun r => r.seq == q) with
  | some r => r.bytes
  | none => match tabGet none s.nv.recs (recSlot q) with
    | some r => r.bytes
    | none => List.replicate 128 0

/-- `n` SEQs from `q` on, not beyond `last`. -/
def seqRun (q last : Word) : Nat → List Word
  | 0 => []
  | n + 1 => q :: (if q = last then [] else seqRun (nextSeq q) last n)

/-- `REC_READ` (R462, R480). -/
def cmdRecRead : CmdBody := fun s n e =>
  let f : Word := BitVec.ofNat 32 (leAt e 8 4)
  let c := leAt e 12 2
  let off := leAt e 16 2
  let newest := s.nv.newest
  .unless (c == 0 || decide (128 < c) || !winOk off (128 * c) 128) s stBadForm
    (.unless (!(served s || s.dev.state == .recovery)) s stDenied
      (if newest = 0 then (if f = 0 then ends s stDone else ends s stNotFound)
       else if f != 0 && seqNewer f newest then ends s stNotFound
       else
         let lo := recOldest s
         let q := if f = 0 || seqNewer lo f then lo else f
         let l := seqRun q newest c
         .done (winPut s n off (l.flatMap (recBytes s))) stDone q.toNat l.length newest.toNat))

/-- Records reported now. -/
def recHeld (s : State) : Nat := if s.nv.newest = 0 then 0 else (seqRun (recOldest s) s.nv.newest 512).length

/-- `REC_CLEAR` (R463): the `REC_CLEARED` record goes into the store at once, then the clear mark is written. -/
def cmdRecClear : CmdBody := fun s n e =>
  .unless (!(isOwner s n && s.dev.state == .stop)) s stDenied
    (.unless (seqNewer s.nv.newest (BitVec.ofNat 32 (leAt e 8 4))) s stCheckFail
      (let r := makeRec s 0x0B0C [.b1 n, .b1 (s.slot n).key, .b4 (recHeld s)]
       let s := s.onNv fun v => { v with
         newest := r.seq
         recs := tabSet none (recSlot r.seq) (some r) v.recs }
       waits (stageSys (raiseIrqAll s 2) 0xF006 (leBytes 4 r.seq.toNat ++ leBytes 4 0)) 0xF006 0 []))

/-! ## Readmission and loops -/

/-- `READMIT` of a lane (R317). -/
def readmitLane (s : State) (n i : Nat) (cid : BitVec 16) : CmdEnd :=
  .unless ((s.lane i).role != .retired) s stNotFound
    (.unless (longBusy s n 0x30) s stBusy (.long (startTest s i (.readmit n cid true))))

/-- `READMIT` of a station or a port (R285, R294). -/
def readmitLink (s : State) (n : Nat) (g : Word) : CmdEnd :=
  if wbit g 15 then
    match portReadmit s (staArgPort g) with
    | (u, st) => .unless (st == stDone && longBusy s n 0x30) s stBusy (ends u st)
  else match staReadmit s (staArgKey g) (some (n, 0)) with
    | (u, some st) => .unless (st == stNoDelivery && longBusy s n 0x30) s stBusy (ends u st)
    | (u, none) => .unless (longBusy s n 0x30) s stBusy (.wait u (.station (staArgKey g)) 0 [])

/-- An index that the kind of a `READMIT` admits. -/
def readmitForm (kind i : Nat) : Bool :=
  match kind with
  | 0 => decide (i < 40)
  | 1 => decide (i < 0x10000)
  | 2 => decide (i < 32)
  | 3 => decide (i < 4)
  | _ => false

/-- `READMIT` (R395, R397). -/
def cmdReadmit : CmdBody := fun s n e =>
  let kind := (byteAt e 8).toNat
  let i := leAt e 12 4
  .unless (!readmitForm kind i) s stBadForm
    (.unless (!(isOwner s n && inSrh s && !(kind == 0 && s.dev.state == .hold))) s stDenied
      (match kind with
       | 0 => readmitLane s n i (BitVec.ofNat 16 (leAt e 2 2))
       | 1 => readmitLink s n (BitVec.ofNat 32 i)
       | 2 => .unless (longBusy s n 0x30 && (s.seenChan i).retired) s stBusy
           (match chanReadmit s i true (slotOwner n) with | (s, st) => ends s st)
       | _ => .unless (longBusy s n 0x30 && (s.canCh i).retired) s stBusy
           (match canReadmit s i (slotOwner n) with | (s, st) => ends s st)))

/-- A host command on a loop (R18, R342, R395): the form of its arguments, role and state, then the loop must be
enabled, as for the system call; what its start finds is `f`'s. A start that `room` would refuse with `BAD_FORM` is
`BAD_FORM` before the others. -/
def loopCmd (form : Word → Word → Bool) (room : State → Word → Bool)
    (f : State → Word → Word → Word → Word → State × Nat) : CmdBody :=
  fun s n e =>
    let g (k : Nat) : Word := BitVec.ofNat 32 (leAt e (8 + 4 * k) 4)
    let or_ (st : Nat) : Nat := if room s (g 3) then st else stBadForm
    .unless (!form (g 0) (g 2)) s stBadForm
      (.unless (!(mayOperate s n && (s.dev.state == .run || s.dev.state == .hold))) s (or_ stDenied)
        (.unless (!lOn s.cfg (fld (g 0) 0 8)) s (or_ stNotFound)
          (match f s (g 0) (g 1) (g 2) (g 3) with | (s, st) => ends s st)))

/-- `LOOP_TUNE` (R334-R336, R395): it completes when the tune has started. -/
def cmdLoopTune : CmdBody :=
  loopCmd (fun g0 _ => tuneForm g0) (fun _ _ => true) fun s g0 g1 g2 g3 => tuneStart s (fld g0 0 8) (fld g0 8 2) (fld g0 12 4) g1 g2 g3.toNat

/-- `LOOP_CAPTURE` (R338-R340, R395): it completes when the capture has started. -/
def cmdLoopCapture : CmdBody :=
  loopCmd capForm (fun s g3 => capRoom s g3.toNat) fun s g0 g1 g2 g3 => capStart s (fld g0 0 8) (fld g0 8 4) (wbit g0 12) (fld g0 16 12) g1 g2 g3.toNat

/-- `LOOP_ABORT` (R19, R397). -/
def cmdLoopAbort : CmdBody := loopCmd (fun _ _ => true) (fun _ _ => true) fun s g0 _ _ _ => loopAbortOf s g0

/-! ## The rows -/

/-- `IDENTIFY` (R395). -/
def execIdentify (dt : Nat) (slot : SlotId) (s : State) : Host.Outcome State Fault Refusal :=
  answer s (runCmd 0x01 cmdIdentify (elapse dt s) slot)

/-- `OWNER_CHALLENGE` (R398). -/
def execOwnerChallenge (dt : Nat) (slot : SlotId) (s : State) : Host.Outcome State Fault Refusal :=
  answer s (runCmd 0x02 cmdOwnerChallenge (elapse dt s) slot)

/-- `OWNER_PROVE` (R398). -/
def execOwnerProve (dt : Nat) (slot : SlotId) (s : State) : Host.Outcome State Fault Refusal :=
  answer s (runCmd 0x03 cmdOwnerProve (elapse dt s) slot)

/-- `RELEASE` (R399). -/
def execRelease (dt : Nat) (slot : SlotId) (s : State) : Host.Outcome State Fault Refusal :=
  answer s (runCmd 0x04 cmdRelease (elapse dt s) slot)

/-- `SLOT_BIND` (R384). -/
def execSlotBind (dt : Nat) (slot : SlotId) (s : State) : Host.Outcome State Fault Refusal :=
  answer s (runCmd 0x05 cmdSlotBind (elapse dt s) slot)

/-- `KEY_ENROL` (R399). -/
def execKeyEnrol (dt : Nat) (slot : SlotId) (s : State) : Host.Outcome State Fault Refusal :=
  answer s (runCmd 0x06 cmdKeyEnrol (elapse dt s) slot)

/-- `KEY_REMOVE` (R399). -/
def execKeyRemove (dt : Nat) (slot : SlotId) (s : State) : Host.Outcome State Fault Refusal :=
  answer s (runCmd 0x07 cmdKeyRemove (elapse dt s) slot)

/-- A command that accesses the Canopy is a transaction: it waits at the head of its queue while no tag is free (R31,
R32). -/
def hostAccess (op : Nat) (body : CmdBody) (s : State) (n : Nat) : State :=
  if mayTake s n && headOp (s.slot n) == op then
    if (freeTags s false).isEmpty then
      if (s.slot n).tagWait then s else (drawTag s false).1.modSlot n fun x => { x with tagWait := true }
    else runCmd op body (passTag s false stDone) n
  else runCmd op body s n

/-- `READ` (R396). -/
def execRead (dt : Nat) (slot : SlotId) (s : State) : Host.Outcome State Fault Refusal :=
  answer s (hostAccess 0x20 cmdRead (elapse dt s) slot)

/-- `WRITE` (R396). -/
def execWrite (dt : Nat) (slot : SlotId) (s : State) : Host.Outcome State Fault Refusal :=
  let t := elapse dt s
  answer s (t.when (readOpen t) fun t => hostAccess 0x21 cmdWrite t slot)

/-- `SYSREAD` (R396). -/
def execSysread (dt : Nat) (slot : SlotId) (s : State) : Host.Outcome State Fault Refusal :=
  answer s (runCmd 0x22 cmdSysread (elapse dt s) slot)

/-- `LINK_COUNT` (R395). -/
def execLinkCount (dt : Nat) (slot : SlotId) (s : State) : Host.Outcome State Fault Refusal :=
  answer s (runCmd 0x23 cmdLinkCount (elapse dt s) slot)

/-- `REC_READ` (R462). -/
def execRecRead (dt : Nat) (slot : SlotId) (s : State) : Host.Outcome State Fault Refusal :=
  answer s (runCmd 0x24 cmdRecRead (elapse dt s) slot)

/-- `REC_CLEAR` (R463). -/
def execRecClear (dt : Nat) (slot : SlotId) (s : State) : Host.Outcome State Fault Refusal :=
  answer s (runCmd 0x25 cmdRecClear (elapse dt s) slot)

/-- `READMIT` (R397). -/
def execReadmit (dt : Nat) (slot : SlotId) (s : State) : Host.Outcome State Fault Refusal :=
  answerS s (runCmd 0x30 cmdReadmit (elapse dt s) slot)

/-- `LOOP_TUNE` of a host (R395). -/
def execHostLoopTune (dt : Nat) (slot : SlotId) (s : State) : Host.Outcome State Fault Refusal :=
  answer s (runCmd 0x31 cmdLoopTune (elapse dt s) slot)

/-- `LOOP_CAPTURE` of a host (R395). -/
def execHostLoopCapture (dt : Nat) (slot : SlotId) (s : State) : Host.Outcome State Fault Refusal :=
  answer s (runCmd 0x32 cmdLoopCapture (elapse dt s) slot)

/-- `LOOP_ABORT` of a host (R397). -/
def execHostLoopAbort (dt : Nat) (slot : SlotId) (s : State) : Host.Outcome State Fault Refusal :=
  let t := elapse dt s
  answer s (t.when (readOpen t) fun t => runCmd 0x33 cmdLoopAbort t slot)

/-- `OWNER_LEASE_EXPIRY` (R399): 60 s without a command. -/
def execOwnerLeaseExpiry (dt : Nat) (s : State) : Host.Outcome State Fault Refusal :=
  let t := elapse dt s
  answer s ((List.range 4).foldl (fun t n =>
    if isOwner t n && decide (60000000000 ≤ leaseUsed t (t.slot n)) then dropOwner t n 3 else t) t)

/-- `NONCE_LAPSE` (R398): 30 s after the draw. -/
def execNonceLapse (dt : Nat) (slot : SlotId) (s : State) : Host.Outcome State Fault Refusal :=
  let t := elapse dt s
  answer s (match (t.slot slot).nonce with
    | some (_, a) => if a + 30000000000 ≤ t.op then t.modSlot slot fun x => { x with nonce := none } else t
    | none => t)

end Sys2Proof.Machine
end

