-- ==== Sys2Proof/Machine/SafeOps.lean ====
section
/-! DEFINITION. The safety commands (R427-R430): the password, the change log, confirmed values, the lockout. -/
namespace Sys2Proof.Machine

/-- The safety record as its next write will hold it; password failures are held as they happen. -/
def safeNext (s : State) : Safe := { safeOf s.safe (sysStaged s 0xF005) with fails := s.safe.fails }

/-- A change of the safety record that takes effect at its commit (R429). -/
def stageSafe (s : State) (f : Safe → Safe) : State := stageSys s 0xF005 (safePayload (f (safeNext s)))

/-- A change of the safety record that takes effect at once and is written. -/
def bothSafe (s : State) (f : Safe → Safe) : State := stageSafe (s.onSafe f) f

/-- A confirmed value by package slot. -/
def Safe.conf (x : Safe) (b : Bool) : Option Word := if b then x.confB else x.confA

/-- A confirmed value set or cleared. -/
def Safe.setConf (x : Safe) (b : Bool) (v : Option Word) : Safe := if b then { x with confB := v } else { x with confA := v }

/-- `VERSION` of the package in a slot (R402). -/
def slotVersion (s : State) (b : Bool) : Word :=
  if b then (if s.pkg.stB.toNat ≤ 1 then 0 else s.pkg.verB) else (if s.pkg.stA.toNat ≤ 1 then 0 else s.pkg.verA)

/-- An entry of the change log (R430). -/
def logEntry (s : State) (kind n slot old new ver : Nat) : List Byte :=
  let e := leBytes 4 s.opSec ++ leBytes 2 s.opMs.toNat ++ leBytes 3 s.cycles.toNat ++ leBytes 1 kind ++ leBytes 1 n
    ++ leBytes 1 (s.slot n).key ++ leBytes 1 slot ++ leBytes 3 0 ++ leBytes 4 old ++ leBytes 4 new ++ leBytes 4 ver
  e ++ leBytes 4 (crc32c e)

/-- An entry appended to the ring of 16 (R430). -/
def Safe.logged (x : Safe) (e : List Byte) : Safe :=
  { x with log := tabSet [] (x.logCount.toNat % 16) e x.log, logCount := x.logCount + 1 }

/-- A password that the safety record's key verifies (R427). -/
def passwordOk (s : State) (p : List Byte) : Bool :=
  match s.safe.password with
  | some (salt, key) => Config.pbkdf2 p salt == key
  | none => false

/-- A password failure (R428, R429): three within 60 s start a lockout of 300 s. -/
def passwordFail (s : State) (n op : Nat) : State :=
  let s := record s 0x0A07 [.b1 n, .b1 op]
  let now : Word := BitVec.ofNat 32 s.opSec
  let l := (now :: s.safe.fails).take 3
  let s := bothSafe s fun x => { x with fails := l }
  if l.length = 3 && decide (s.opSec ≤ (l.getD 2 0).toNat + 60) then
    record (bothSafe s fun x => { x with lockEnd := now + 300 }) 0x0A08 [.b1 n]
  else s

/-- The confirmed value of a slot is cleared because a load erases it (R425, R430). -/
def clearConfirmed (s : State) (n : Nat) (b : Bool) : State :=
  match s.safe.conf b with
  | some v =>
    let e := logEntry s 5 n (b2n b) v.toNat 0 (slotVersion s b).toNat
    record (bothSafe s fun x => (x.setConf b none).logged e) 0x0A05 [.b1 (b2n b), .b1 2]
  | none => s

/-- A password length (R427). -/
def passLen (l : Nat) : Bool := decide (8 ≤ l) && decide (l ≤ 64)

/-- `SAFE_PASSWORD` (R428): a new salt and key. The package slot and `VERSION` that its log entry names are not stated. -/
def cmdSafePassword : CmdBody := fun s n e =>
  let o := (byteAt e 8).toNat
  let l := (byteAt e 9).toNat
  let off := leAt e 10 2
  .unless (!(o == 0 || passLen o) || !passLen l || !winOk off (o + l) 4) s stBadForm
    (.unless (!(isOwner s n && s.dev.state == .stop)) s stDenied
      (.unless (lockedOut s) s stBusy
        (if s.safe.password.isSome && !passwordOk s (winBytes s n off o) then .done (passwordFail s n 0x50) stCheckFail 1 0 0
         else
           let first := s.safe.password.isNone
           let salt := (List.range 16).map (Config.randomByte s.free)
           let key := Config.pbkdf2 (winBytes s n (off + o) l) salt
           let entry := logEntry s (if first then 3 else 4) n ((Config.freeWord (s.free + 1)).toNat % 256) 0 0 (Config.freeWord (s.free + 2)).toNat
           let s := { s with free := s.free + 3 }
           waits (stageSafe s fun x => { x with password := some (salt, key) }.logged entry) 0xF005 0x0A06
             [(1, n), (1, (Config.recordFlag 0x0A06 (!first)).toNat)])))

/-- The value that `SAFE_CONFIRM` must name (R428). -/
def confirmValue (s : State) (b : Bool) : Word := if b == s.pkg.active then s.safe.check else s.safe.staged

/-- `SAFE_CONFIRM` (R428). -/
def cmdSafeConfirm : CmdBody := fun s n e =>
  let k := (byteAt e 8).toNat
  let b := k == 1
  let v : Word := BitVec.ofNat 32 (leAt e 12 4)
  let l := (byteAt e 16).toNat
  let off := leAt e 18 2
  .unless (decide (1 < k) || !passLen l || !winOk off l 4) s stBadForm
    (.unless (!(isOwner s n && (if b == s.pkg.active then s.dev.state == .stop else s.dev.state == .run))) s stDenied
      (.unless (s.safe.password.isNone || (b != s.pkg.active && s.pkg.exch.plan.isNone)) s stNotFound
        (.unless (lockedOut s) s stBusy
          (if !passwordOk s (winBytes s n off l) then .done (passwordFail s n 0x51) stCheckFail 1 0 0
           else if v != confirmValue s b then .done s stCheckFail 2 0 0
           else
             let old := ((safeNext s).conf b).getD 0
             let entry := logEntry s 1 n k old.toNat v.toNat (slotVersion s b).toNat
             waits (stageSafe s fun x => (x.setConf b (some v)).logged entry) 0xF005 0x0A04
               [(1, k), (4, old.toNat), (4, v.toNat), (1, n)]))))

/-- `SAFE_REVOKE` (R428). -/
def cmdSafeRevoke : CmdBody := fun s n e =>
  let k := (byteAt e 8).toNat
  let b := k == 1
  let l := (byteAt e 16).toNat
  let off := leAt e 18 2
  .unless (decide (1 < k) || !passLen l || !winOk off l 4) s stBadForm
    (.unless (!(isOwner s n && s.dev.state == .stop)) s stDenied
      (.unless s.safe.password.isNone s stNotFound
        (.unless (lockedOut s) s stBusy
          (if !passwordOk s (winBytes s n off l) then .done (passwordFail s n 0x52) stCheckFail 1 0 0
           else
             let old := ((safeNext s).conf b).getD 0
             let entry := logEntry s 2 n k old.toNat 0 (slotVersion s b).toNat
             waits (stageSafe s fun x => (x.setConf b none).logged entry) 0xF005 0x0A05 [(1, k), (1, 1)]))))

/-- `SAFE_LOG_READ` (R428, R430). -/
def cmdSafeLogRead : CmdBody := fun s n e =>
  let off := leAt e 8 2
  .unless (!winOk off 512 4) s stBadForm
    (.unless (!served s) s stDenied
      (.done (winPut s n off ((List.range 16).flatMap fun i => (padTo 32 (tabGet [] s.safe.log i)).take 32))
        stDone s.safe.logCount.toNat 0 0))

/-- `SAFE_PASSWORD` (R428). -/
def execSafePassword (dt : Nat) (slot : SlotId) (s : State) : Host.Outcome State Fault Refusal :=
  answer s (runCmd 0x50 cmdSafePassword (elapse dt s) slot)

/-- `SAFE_CONFIRM` (R428). -/
def execSafeConfirm (dt : Nat) (slot : SlotId) (s : State) : Host.Outcome State Fault Refusal :=
  answer s (runCmd 0x51 cmdSafeConfirm (elapse dt s) slot)

/-- `SAFE_REVOKE` (R428). -/
def execSafeRevoke (dt : Nat) (slot : SlotId) (s : State) : Host.Outcome State Fault Refusal :=
  answer s (runCmd 0x52 cmdSafeRevoke (elapse dt s) slot)

/-- `SAFE_LOG_READ` (R428). -/
def execSafeLogRead (dt : Nat) (slot : SlotId) (s : State) : Host.Outcome State Fault Refusal :=
  answer s (runCmd 0x53 cmdSafeLogRead (elapse dt s) slot)

/-- `SAFE_LOCKOUT_END` (R429). -/
def execSafeLockoutEnd (dt : Nat) (s : State) : Host.Outcome State Fault Refusal :=
  let t := elapse dt s
  answer s (t.when (t.safe.lockEnd != 0 && !lockedOut t && slotsUp t) fun t => bothSafe t fun x => { x with lockEnd := 0 })

end Sys2Proof.Machine
end

