-- ==== Sys2Proof/Machine/SvcOps.lean ====
section
/-! DEFINITION. The supervisory watchdog's registers (R483-R486), erasing and programming of the NOR die (R468, R485),
images (R469, R470, R477). -/
namespace Sys2Proof.Machine

/-! ## Supervisory watchdog -/

/-- LFO or XFO is present. -/
def clockPresent (s : State) (xfo : Bool) : Bool := if xfo then s.clk.xfo else s.clk.lfo

/-- A kick (R483, R484): the count restarts, a pending `SUPWD_CFG` applies, a disabled watchdog counts again; a clock
that is absent is not taken (R486). -/
def wdKick (s : State) : State :=
  let clk := match s.wd.next with | some v => if clockPresent s (wbit v 31) then wbit v 31 else s.wd.clkXfo | none => s.wd.clkXfo
  let t := match s.wd.next with | some v => BitVec.ofNat 13 (fld v 0 13) | none => s.wd.timeout
  s.onWd fun w => { w with
    clkXfo := clk
    timeout := t
    next := none
    enabled := true
    count := 0
    monOk := if clk = w.clkXfo then w.monOk else clockPresent s (!clk) }

/-- ns of counting after which the watchdog can have expired: the LFO may run 5 % fast (R483, R504). -/
def wdLimit (s : State) : Nat :=
  let ms := wdMs s.wd.timeout
  if s.wd.clkXfo then ms * 1000000 else ms * 100000000 / 105

/-! ## Erasing and programming -/

/-- Bytes in a block of the NOR die (R468). -/
def blockBytes : Nat := 0x40000

/-- The erase at the head of the queue begins: a kick immediately before it, and the count holds (R485); a region whose
install begins with it no longer holds the shipped image (R476). -/
def beginErase (s : State) : State :=
  match s.svc.erases.head? with
  | none => s
  | some e =>
    ((wdKick s).onWd fun w => { w with suspended := true }).onSvc fun v => { v with
      eraseAt := s.op
      fwShipped := v.fwShipped && e.2 != .firmware
      ldrShipped := v.ldrShipped && e.2 != .loader }

/-- Erases of blocks asked for; the first begins at once if none runs. -/
def addErases (s : State) (blocks : List Nat) (use : EraseUse) : State :=
  let idle := s.svc.erases.isEmpty
  let s := s.onSvc fun v => { v with erases := v.erases ++ blocks.map fun b => (b, use) }
  if idle then beginErase s else s

/-- An erase of this kind runs or waits. -/
def erasing (s : State) (use : EraseUse) : Bool := s.svc.erases.any fun e => e.2 == use

/-- Erases of this kind that have not begun are dropped. -/
def dropErases (s : State) (use : EraseUse) : State :=
  s.onSvc fun v => { v with erases := v.erases.take 1 ++ (v.erases.drop 1).filter fun e => e.2 != use }

/-- The bytes of a block are erased. -/
def eraseBlock (s : State) (b : Nat) : State :=
  s.onSvc fun v => { v with
    nor := v.nor.filter fun e => e.1 / blockBytes != b
    bad := v.bad.filter fun k => k != b }

/-- A byte programmed: an erased one takes the value; what programming does to one that was not erased is free. -/
def progByte (k : Nat) (old new : Byte) : Byte :=
  if old = 0xFF || old = new then new else BitVec.ofNat 8 (Config.freeWord k).toNat

/-- Bytes of the NOR die programmed. -/
def norWrite (s : State) (a : Nat) (l : List Byte) : State :=
  let b := ((List.range l.length).zip l).map fun e => (a + e.1, progByte (s.free + e.1) (norByte s (a + e.1)) e.2)
  let s := s.onSvc fun v => { v with
    nor := (v.nor.filter fun e => decide (e.1 < a)) ++ (b.filter fun e => e.2 != 0xFF)
      ++ v.nor.filter fun e => decide (a + l.length ≤ e.1) }
  { s with free := s.free + l.length }

/-! ## Images -/

/-- First byte of the capture area, and its blocks (R468). -/
def capBase : Nat := 0x3440000
/-- The blocks of the capture area. -/
def capBlocks : List Nat := (List.range 17).map (209 + ·)

/-- First byte and size of an image's region (R468). -/
def imageRegion (loader : Bool) : Nat × Nat := if loader then (0x400000, 0x40000) else (0, 0x400000)

/-- The blocks that an image of `len` bytes needs. -/
def imageBlocks (loader : Bool) (len : Nat) : List Nat :=
  (List.range ((len + blockBytes - 1) / blockBytes)).map ((imageRegion loader).1 / blockBytes + ·)

/-- The use of the erases of an install. -/
def installUse (loader : Bool) : EraseUse := if loader then .loader else .firmware

/-- The install is past its commit point: its first erase has begun (R476). -/
def Svc.installBegun (v : Svc) : Bool :=
  match v.install with
  | some (ldr, _) => (v.erases.head?.map fun e => e.2) == some (installUse ldr) || !(v.erases.any fun e => e.2 == installUse ldr)
  | none => false

/-- A little-endian field of the image at `base`. -/
def imageField (s : State) (base o n : Nat) : Nat := ofLe (norBytes s (base + o) n)

/-- `LENGTH` of the image at `base`. -/
def imageLength (s : State) (base : Nat) : Nat := imageField s base 8 4

/-- `LENGTH` of the captured image. -/
def capLength (s : State) : Nat := imageLength s capBase

/-- The image at `base` has the form of R469 for the region of its kind. -/
def imageForm (s : State) (base : Nat) (loader : Bool) : Bool :=
  imageField s base 0 4 == (if loader then 0x52444C53 else 0x49574653) && imageField s base 5 1 == b2n loader
    && imageLength s base % 4 == 0 && decide (192 ≤ imageLength s base) && decide (imageLength s base ≤ (imageRegion loader).2)

/-- The image at `base` carries the Oxgan key (R470). -/
def imageKey (s : State) (base : Nat) : Bool := Config.sha256 (norBytes s (base + 64) 64) == Config.oxganKeyDigest

/-- The signature of the image at `base` verifies against its key (R469, R470). -/
def imageSigned (s : State) (base : Nat) : Bool :=
  let len := imageLength s base
  Config.ecdsaP256 (norBytes s (base + 64) 64) (Config.sha256 (norBytes s base (len - 64))) (norBytes s (base + len - 64) 64)

/-- Which part of R470 the image at `base` fails: 1 form, 2 key digest, 3 signature; 0 where it verifies. -/
def imageFails (s : State) (base : Nat) (loader : Bool) : Nat :=
  if !imageForm s base loader then 1 else if !imageKey s base then 2 else if !imageSigned s base then 3 else 0

/-- A block of the region of an image. -/
def inRegion (loader : Bool) (b : Nat) : Bool :=
  decide ((imageRegion loader).1 ≤ b * blockBytes ∧ b * blockBytes < (imageRegion loader).1 + (imageRegion loader).2)

/-- A page of the region of an image cannot be corrected: the image then fails its next check (R482). -/
def regionBad (s : State) (loader : Bool) : Bool := s.svc.bad.any (inRegion loader)

/-- Which part of R470 the image in its region fails. DESIGN CHOICE (log entry 94): of an image that fails for a page that cannot be
corrected the part is free, and the image as shipped verifies. -/
def regionFails (s : State) (loader : Bool) : Nat :=
  if regionBad s loader then 1 + (Config.freeWord s.free).toNat % 3
  else if (if loader then s.svc.ldrShipped else s.svc.fwShipped) then 0
  else imageFails s (imageRegion loader).1 loader

/-- The pause of an install, in ms (R477). -/
def installPause (loader : Bool) (len : Nat) : Nat :=
  if loader then 0 else 600 * ((len + 262143) / 262144) + (len + 2047) / 2048 + 60

end Sys2Proof.Machine
end

