-- ==== Sys2Proof/Machine/PkgCmds.lean ====
section
/-! DEFINITION. Loading, activation and online exchange of packages (R402-R413). -/
namespace Sys2Proof.Machine

/-! ## Package slots -/

/-- The state of a package slot (R402). -/
def Pkg.st (k : Pkg) (b : Bool) : Nat := if b then k.stB.toNat else k.stA.toNat

/-- The state alone of a package slot set. -/
def Pkg.setSt (k : Pkg) (b : Bool) (st : Nat) : Pkg :=
  if b then { k with stB := BitVec.ofNat 3 st } else { k with stA := BitVec.ofNat 3 st }

/-- The slot that is not active becomes ACTIVE, the former one PREVIOUS (R405, R409). -/
def Pkg.flip (k : Pkg) : Pkg :=
  let k := if k.st k.active = 3 then k.setSt k.active 4 else k
  { k.setSt (!k.active) 3 with active := !k.active }

/-- The 96 blocks of a package slot (R468). -/
def slotBlocks (b : Bool) : List Nat := (List.range 96).map (slotBase b / blockBytes + ·)

/-! ## Loading (R404) -/

/-- `PKG_OPEN` (R404, R407, R425). -/
def cmdPkgOpen : CmdBody := fun s n e =>
  let len := leAt e 8 4
  let b := !s.pkg.active
  .unless (len == 0 || len % 4 != 0 || decide (slotSize < len)) s stBadForm
    (.unless (!(isOwner s n && inSrh s)) s stDenied
      (.unless (s.pkg.load.isSome || s.pkg.exch.run.isSome || s.pkg.exch.staged.isSome || longBusy s n 0x40) s stBusy
        (let s := clearConfirmed s n b
         let s := s.onPkg fun k => { k.setSlot b 1 0 0 with
           load := some { slotB := b, len := len }
           exch := { k.exch with plan := none } }
         .wait (addErases (pkgRecordNow s) (slotBlocks b) .load) .erase 0 [])))

/-- `PKG_WRITE` (R404). -/
def cmdPkgWrite : CmdBody := fun s n e =>
  let o := leAt e 8 4
  let len := leAt e 12 4
  let off := leAt e 16 2
  let beyond := match s.pkg.load with | some l => decide (l.len < o + len) | none => false
  .unless (len == 0 || decide (16384 < len) || len % 4 != 0 || !winOk off len 4 || beyond) s stBadForm
    (.unless (!(isOwner s n && inSrh s)) s stDenied
      (match s.pkg.load with
       | none => ends s stNotFound
       | some l =>
         .unless (erasing s .load || l.closing.isSome) s stBusy
           (ends (norWrite s (slotBase l.slotB + o) (winBytes s n off len)) stDone)))

/-- `VERSION` and key index of the package of a slot. -/
def pkgMark (s : State) (b : Bool) : Word × Byte := (BitVec.ofNat 32 (pkgField s b 28 4), BitVec.ofNat 8 (pkgKeyIndex s b))

/-- `PKG_CLOSE` (R404): LOADED is written to the package record, which is the commit point. -/
def cmdPkgClose : CmdBody := fun s n _ =>
  .unless (!(isOwner s n && inSrh s)) s stDenied
    (match s.pkg.load with
     | none => ends s stNotFound
     | some l =>
       .unless (erasing s .load || l.closing.isSome || longBusy s n 0x42) s stBusy
         (match pkgCheck s l.slotB with
          | 0 => .wait (pkgRecordDue (s.onPkg fun k => { k with load := some { l with closing := some (pkgMark s l.slotB) } })) (.sysRecord 0xF003) 0 []
          | st => ends (record (s.onPkg fun k => { k with load := none }) 0x0905 [.b1 (b2n l.slotB), .b1 st]) st))

/-- `PKG_ABORT` (R404): a load before its commit point ends; the command that it waits in completes `ABORTED`. -/
def cmdPkgAbort : CmdBody := fun s n _ =>
  .unless (!(isOwner s n && inSrh s)) s stDenied
    (match s.pkg.load with
     | none => ends s stNotFound
     | some _ =>
       let s := dropErases (s.onPkg fun k => { k with load := none }) .load
       ends (finishWaits s (fun w => w.op == 0x40 || w.op == 0x42) stAborted 0 0 0) stDone)

/-! ## Activation (R405) -/

/-- `ACTIVATE` and `REVERT`: `want` is the state that the other slot must have. -/
def activateAs (op want : Nat) : CmdBody := fun s n _ =>
  transGate s (isOwner s n) (fun s => s.dev.state == .stop) fun s =>
    (.unless (s.pkg.st (!s.pkg.active) != want) s stNotFound
      (.unless (longBusy s n op) s stBusy
        (whenTag s <|
         let s := warmSave s 3
         let s := pkgRecordDue (s.onPkg Pkg.flip)
         let s := record s 0x0906 [.b1 (b2n s.pkg.active), .b4 (slotVersion s s.pkg.active).toNat, .b1 op]
         ends (setupEntry s 0x0C) stDone)))

/-! ## Online exchange (R406-R413) -/

/-- R406 is met: the states of the slots, `ONLINE` in both packages, alternate halves of the program store. -/
def exchangeable (s : State) (revert : Bool) : Bool :=
  let b := !s.pkg.active
  s.pkg.st b == (if revert then 4 else 2) && pkgOnline s b
    && (match s.pkg.hdr with | some h => h.online && h.base != pkgBase s b | none => false)

/-- The spare of a staged run. -/
def stageSpare (s : State) : Option Nat := pickFrom s [] ((List.range 40).filter fun n => (s.lane n).role == .spare)

/-- The staged run of a new setup task begins (R407): code, staged configuration, staging store, lane. -/
def stageRun (s : State) (n : Nat) : State :=
  let b := !s.pkg.active
  let mem := putAll [] (pkgData s b)
  let s := loadCode s b
  let s := wakeLane s n
  let s := s.onPkg fun k => { k with exch := { k.exch with
    plan := none
    staged := some ([], mem)
    stagedLane := n } }
  startSetup s 65 n (pkgHeader s b).entry (mem.copyRange (sArea s) 0x10050000 0x10054000)

/-- `EXCHANGE_PLAN` (R406, R407). -/
def cmdExchangePlan : CmdBody := fun s n e =>
  let revert := (byteAt e 8).getLsbD 0
  .unless (!(isOwner s n && s.dev.state == .run)) s stDenied
    (if !exchangeable s revert then .done s stDenied 0 0 1
     else match stageSpare s with
       | none => .done s stDenied 0 0 7
       | some l =>
         .unless (s.pkg.exch.staged.isSome || s.pkg.exch.run.isSome || longBusy s n 0x46) s stBusy
           (.wait (stageRun s l) .plan 0 []))

/-- The epoch of an exchange accepted now (R409). -/
def epochAfter (now : Nat) : Nat := (now + 1999999) / 1000000 * 1000000

/-- `EXCHANGE` (R409). -/
def cmdExchange : CmdBody := fun s n e =>
  .unless (!(isOwner s n && s.dev.state == .run)) s stDenied
    (match s.pkg.exch.plan with
     | some p =>
       .unless (p.unconfirmed || p.id.toNat != leAt e 8 2) s stNotFound
         (.unless (s.pkg.exch.run.isSome || longBusy s n 0x47) s stBusy
           (.unless (p.pause != leAt e 12 4) s stCheckFail
             (.wait (s.onPkg fun k => { k with exch := { k.exch with
               run := some (p, epochAfter s.now)
               epochPassed := false
               switchAt := none
               longestHold := 0 } }) .exchange 0 [])))
     | none => ends s stNotFound)

/-- `EXCHANGE_ABORT` (R413). -/
def cmdExchangeAbort : CmdBody := fun s n _ =>
  .unless (!(isOwner s n && s.dev.state == .run)) s stDenied
    (if s.pkg.exch.run.isSome && !s.pkg.exch.epochPassed then ends (exchAbort s 1) stDone else ends s stAbortLate)

/-- The tasks of the old version that the new one has not are released no more (R409). -/
def removeTasks (s : State) (p : Plan) : State :=
  ((tAll s.cfg).filter fun t => !tEnable p.cfg t).foldl (fun s t =>
    { s with cfg := rSet s.cfg 0x0203 t (setBit (rGet s.cfg 0x0203 t) 31 false) }) s

/-- The epoch (R409, R410): package record, new tasks, and the event tasks of the coordinated set that arrive; the lines of
removed tasks that no instance of theirs may write any more are set to 0. A new coordinated cyclic task arrives at its first
period boundary from now on. -/
def epoch (s : State) (p : Plan) (at_ : Nat) : State :=
  let old := slotVersion s s.pkg.active
  let s := s.onPkg fun k => { k.flip with exch := { k.exch with epochPassed := true, plan := none } }
  let s := (pkgRecordNow s).onSafe fun x => { x with check := p.check }
  let s := record s 0x0909 [.b8 at_, .b4 old.toNat, .b4 p.hdr.version.toNat]
  let fresh := (tAll p.cfg).filter fun t => !tEnable s.cfg t
  let removed := (tAll s.cfg).filter fun t => !tEnable p.cfg t
  let s := removeTasks s p
  let s := zeroGone s p (removed.filter fun t => (s.inst t).isNone)
  let s := { s with cfg := (List.range 64).foldl (fun c g => rSet c (0x0280 + g) 0 (rGet p.cfg (0x0280 + g) 0)) s.cfg }
  let s := switchTasks s p (fresh.filter fun t => !p.coord.contains t)
  let newCoord := p.coord.filter fresh.contains
  let s := (newCoord.filter fun t => !tEvent p.cfg t).foldl (installTask p) s
  let s := (p.coord.filter fun t => if fresh.contains t then tEvent p.cfg t else tEvent s.cfg t && (s.inst t).isNone).foldl
    (fun s t => arrive s p t) s
  exchCheckDone s

/-! ## The rows -/

/-- `PKG_OPEN` (R404). -/
def execPkgOpen (dt : Nat) (slot : SlotId) (s : State) : Host.Outcome State Fault Refusal :=
  answer s (runCmd 0x40 cmdPkgOpen (elapse dt s) slot)

/-- `PKG_WRITE` (R404). -/
def execPkgWrite (dt : Nat) (slot : SlotId) (s : State) : Host.Outcome State Fault Refusal :=
  answer s (runCmd 0x41 cmdPkgWrite (elapse dt s) slot)

/-- `PKG_CLOSE` (R404). -/
def execPkgClose (dt : Nat) (slot : SlotId) (s : State) : Host.Outcome State Fault Refusal :=
  answer s (runCmd 0x42 cmdPkgClose (elapse dt s) slot)

/-- `PKG_ABORT` (R404). -/
def execPkgAbort (dt : Nat) (slot : SlotId) (s : State) : Host.Outcome State Fault Refusal :=
  answer s (runCmd 0x43 cmdPkgAbort (elapse dt s) slot)

/-- `ACTIVATE` (R405): the other slot is LOADED. -/
def execActivate (dt : Nat) (slot : SlotId) (s : State) : Host.Outcome State Fault Refusal :=
  answer s (runCmd 0x44 (activateAs 0x44 2) (elapse dt s) slot)

/-- `REVERT` (R405): the other slot is PREVIOUS. -/
def execRevert (dt : Nat) (slot : SlotId) (s : State) : Host.Outcome State Fault Refusal :=
  answer s (runCmd 0x45 (activateAs 0x45 4) (elapse dt s) slot)

/-- `EXCHANGE_PLAN` (R407). -/
def execExchangePlan (dt : Nat) (slot : SlotId) (s : State) : Host.Outcome State Fault Refusal :=
  answer s (runCmd 0x46 cmdExchangePlan (elapse dt s) slot)

/-- `EXCHANGE` (R409). -/
def execExchange (dt : Nat) (slot : SlotId) (s : State) : Host.Outcome State Fault Refusal :=
  answer s (runCmd 0x47 cmdExchange (elapse dt s) slot)

/-- `EXCHANGE_ABORT` (R413). -/
def execExchangeAbort (dt : Nat) (slot : SlotId) (s : State) : Host.Outcome State Fault Refusal :=
  answer s (runCmd 0x48 cmdExchangeAbort (elapse dt s) slot)

/-- `EXCHANGE_EPOCH` (R409). -/
def execExchangeEpoch (dt : Nat) (s : State) : Host.Outcome State Fault Refusal :=
  let t := elapse dt s
  answer s (match t.pkg.exch.run with
    | some (p, a) => if !t.pkg.exch.epochPassed && decide (a ≤ t.now) then epoch t p a else t
    | none => t)

end Sys2Proof.Machine
end

