-- ==== Sys2Proof/Machine/Power.lean ====
section
/-! DEFINITION. Device resets (R14, R508, R509, R569, R570), losses of power (R22, R497), power-on (R494), wakes
(R500-R503), power warnings (R495, R496), nRESET and the PLL (R505-R508). -/
namespace Sys2Proof.Machine

/-! ## What a device reset leaves -/

/-- The bridge over a device reset: the logic side starts afresh, the field die keeps its state (R21, R509). -/
def Field.overReset (f : Field) : Field :=
  { chans := f.chans
    dieNs := f.dieNs
    dieLastEnd := f.dieLastEnd
    dieTime := f.dieTime
    idle := f.idle
    dieSeq := f.dieSeq
    silent := f.silent
    vfLost := f.vfLost
    newFldCfg := f.newFldCfg
    fldCfg := f.fldCfg
    news := f.news
    rep := f.rep }

/-- The shafts over a device reset: the levels of their inputs stand (R222). -/
def Shaft.overReset (x : Shaft) : Shaft := { a := x.a, b := x.b, z := x.z, raw := x.raw }

/-- The NOR die over a device reset: an install past its commit point leaves no image in its region (R476, R479); its first
block, of which an erase or the programming was cut, holds no header then. DEDUCED for a loader image (log entry 71). -/
def Svc.norCut (v : Svc) : Tab Byte :=
  match v.install with
  | some (ldr, _) => if v.installBegun then v.nor.filter fun e => e.1 / blockBytes != (imageRegion ldr).1 / blockBytes else v.nor
  | none => v.nor

/-- The service core over a device reset: images, the capture and a pending refresh block stay in the NOR die (R404, R476,
R479, R481). -/
def Svc.overReset (v : Svc) : Svc :=
  { nor := v.norCut
    fwShipped := v.fwShipped
    ldrShipped := v.ldrShipped
    bad := v.bad
    issue := v.issue
    build := v.build
    ldrIssue := v.ldrIssue
    cap := if v.cap.state = 1 then {} else v.cap
    refresh := { pending := v.refresh.pending, due := v.refresh.due } }

/-- A slot over a device reset: unbound from every session, its map cleared (R387, R393). -/
def Slot.overReset (x : Slot) : Slot := { front := x.front, base := x.base, role := x.base }

/-- The clocks over a device reset (R507, R508, R511, R513). -/
def Clk.overReset (c : Clk) : Clk :=
  { c with
    tb := 0
    lock := false
    xfo := false
    lfo := true
    refclk := false
    noLock := false
    rides := 0
    relAt := c.opNs
    awaitLock := true
    fwRuns := false }

/-- Every class D and class S field takes its reset value (R14); what the standby die, the NOR die and the parameter
store hold stays. -/
def resetState (s : State) : State :=
  { s with
    cfg := []
    dev := { s.dev with
      lastMove := none
      fault := 0
      pkgOk := false
      holdLeft := 0 }
    clk := s.clk.overReset
    ps := {}
    ln := {}
    seq := {}
    can := {}
    fret := { shafts := s.fret.shafts.foldl (fun m e => tabSet ({} : Shaft) e.1 e.2.overReset m) [] }
    yl := {}
    lp := {}
    fld := s.fld.overReset
    cb := {}
    host := { slots := s.host.slots.map fun e => (e.1, e.2.overReset) }
    pkg := { s.pkg with
      load := none
      hdr := none
      exch := {} }
    safe := { s.safe with
      schk := 0
      check := 0
      staged := 0 }
    nv := nvReset s.nv
    svc := s.svc.overReset
    wd := { lock := s.wd.lock, expTimeout := s.wd.expTimeout, expXfo := s.wd.expXfo } }

/-- Sources of `RST_SOURCE` (R508): the source, and its slot or clock. -/
structure RstSrc where
  source : Nat
  slot : Nat := 0
  clock : Nat := 0
  deriving DecidableEq, Repr

/-- The standby die notes the source of a reset. -/
def noteReset (s : State) (r : RstSrc) (left : DevState) : State :=
  s.onClk fun c => { c with
    rstSrc := BitVec.ofNat 3 r.source
    rstSlot := BitVec.ofNat 2 r.slot
    rstClock := BitVec.ofNat 3 r.clock
    rstFrom := left }

/-- A device reset (R37, R393, R399, R508, R509): `cut` where the service core stops at once (R570). -/
def deviceReset (s : State) (cause : Nat) (r : RstSrc) (cut : Bool) : State :=
  if moveOk (BitVec.ofNat 8 cause) s.dev.state .boot then
    let left := s.dev.state
    let owners := (List.range 4).filter fun n => isOwner s n
    let s := if cut then nvCut s else copyCut s
    let s := moveTo s cause .boot
    let s := owners.foldl (fun s n => record s 0x0903 [.b1 n, .b1 2]) s
    noteReset (resetState s) r left
  else s

/-- The dies behind the load switches lose their supply: everything volatile is gone (R21, R22, R437). The supplies VF0 to VF3
stand as they are (R492). -/
def dropPower (s : State) : State :=
  let s := resetState (nvCut s)
  { s with fld := { vfLost := s.fld.vfLost }, fret := {} }

/-! ## OFF and power-on -/

/-- VLOG falls below PRST (R497): cause 0x03, whatever is under way. -/
def powerOff (s : State) : State :=
  let s := dropPower (moveTo s 0x03 .off)
  s.onClk fun c => { c with
    vlog := false
    warn := false
    lfo := false
    loadOn := false
    wakeArmed := none
    wakeHeld := none
    nresetLow := false }

/-- `VLOG_BELOW_PRST` (R497). -/
def execVlogBelowPrst (dt : Nat) (s : State) : Host.Outcome State Fault Refusal :=
  let t := elapse dt s
  answerTap s (if t.dev.state == .off then t else let u := powerOff t; { u with tap := { testEn := u.tap.testEn } })

/-- Power-on reset is released (R14, R494): every field takes its reset value, the stored ones apart. -/
def powerOn (s : State) : State :=
  let s := moveTo s 0x01 .boot
  let s := s.onDev fun d => { d with trans := 0, lastMove := none }
  { s with
    clk := { opNs := s.clk.opNs, relAt := s.clk.opNs, cycleDue := some s.dev.last }
    wd := {} }

/-- `POWER_ON_RESET_RELEASE` (R494, R529): TEST_EN is sampled. -/
def execPowerOnResetRelease (dt : Nat) (testEn : Bool) (s : State) : Host.Outcome State Fault Refusal :=
  let t := elapse dt s
  answerTap s (if t.dev.state == .off then { powerOn t with tap := { testEn := testEn } } else t)

/-! ## STANDBY and wakes -/

/-- The main die is released from reset after a wake (R503). -/
def wakeUp (s : State) (src : Nat) : State :=
  let s := moveTo s 0x02 .boot
  let s := s.onDev fun d => { d with lastMove := none }
  noteReset (s.onClk fun c => { c with
    wakeStat := BitVec.ofNat 2 src
    wakeArmed := none
    wakeHeld := none
    loadOn := true
    lfo := true
    relAt := c.opNs
    awaitLock := true
    cycleDue := some s.dev.last }) { source := 1 } .standby

/-- A wake source acts (R500, R502, R503): ignored while disabled, held while the load switches are closed or VLOG is
low. -/
def wakeBy (s : State) (src : Nat) : State :=
  match s.clk.wakeArmed with
  | some cfg =>
    if cfg.getLsbD (src - 1) then s
    else if s.clk.loadOn || s.clk.warn then
      s.onClk fun c => { c with wakeHeld := match c.wakeHeld with | some w => some w | none => some (BitVec.ofNat 2 src) }
    else wakeUp s src
  | none => s

/-- The load switches open, 1 ms after the completion entry of `STANDBY` (R22, R500), when the save and the flush have
long ended; a held wake closes them again. -/
def openSwitches (s : State) : State :=
  let held := s.clk.wakeHeld
  let s := (dropPower (s.onNv fun n => { n with saving := none })).onClk fun c => { c with loadOn := false, lfo := false }
  match held with
  | some w => if s.clk.warn then s else wakeUp s w.toNat
  | none => s

/-- `LOAD_SWITCH_OPEN` (R500). -/
def execLoadSwitchOpen (dt : Nat) (s : State) : Host.Outcome State Fault Refusal :=
  let t := elapse dt s
  answerTap s (if t.dev.state == .standby && t.clk.loadOn && decide (t.dev.lastMove.getD 0 + 1000000 ≤ t.now) then
      { openSwitches t with tap := { testEn := t.tap.testEn } }
    else t)

/-- `WAKE_EDGE` (R502). -/
def execWakeEdge (dt : Nat) (s : State) : Host.Outcome State Fault Refusal :=
  let t := elapse dt s
  answer s (t.when (t.dev.state == .standby) fun t => wakeBy t 1)

/-- `QSPI_CS_WAKE` (R502). -/
def execQspiCsWake (dt : Nat) (s : State) : Host.Outcome State Fault Refusal :=
  let t := elapse dt s
  answer s (t.when (t.dev.state == .standby) fun t => wakeBy t 2)

/-- `CAN0_WAKE` (R502). -/
def execCan0Wake (dt : Nat) (s : State) : Host.Outcome State Fault Refusal :=
  let t := elapse dt s
  answer s (t.when (t.dev.state == .standby) fun t => wakeBy t 3)

/-! ## Power warnings -/

/-- STOP, RUN, HOLD or CLEARING: a warning saves the warm area (R454, R495). -/
def warnSaves (s : State) : Bool := s.dev.state == .stop || isRunning s

/-- The save of reason 1, 2 or 3 that runs when a power warning falls, and serves it: whether one still runs is free (R453,
R496, R498). -/
def servingSave (s : State) : Option Saving :=
  (savingNow s).filter fun v => v.slot.isSome && v.reason != 4 && wbit (Config.freeWord s.free) 0

/-- The save that the present power warning owes has reached its commit point: the flush follows it (R454, R495). -/
def warnSaved (s : State) : State := recorderFlush (s.onClk fun c => { c with warnSaved := true })

/-- A power warning is recorded, with the state in which it fell and the sequence of its save (R495). -/
def warnRecord (s : State) (d : DevState) (q : Word) : State := record s 0x0C06 [.b1 d.code, .b4 q.toNat]

/-- VLOG falls below PWARN (R454, R495). A save that still runs serves it; one for a move out of STOP is served in STOP
(R453, R498). -/
def powerWarn (s : State) : State :=
  let run := servingSave s
  let s := s.drawn.onClk fun c => { c with warn := true, warnAt := s.op, warnSaved := false }
  match run with
  | some v =>
    let d := if v.reason = 1 then s.dev.state else .stop
    let s := s.when (warnSaves s) fun s => raiseSource s 0x5 fun _ => true
    warnSaved (warnRecord s d (match v.slot with | some (b, _) => (s.warm b).seq | none => 0))
  | none =>
    if warnSaves s then
      let q := (warmImage s 1).seq
      let s := warnRecord (raiseSource (saveDue s 1) 0x5 fun _ => true) s.dev.state q
      if s.nv.saveWait = some 1 then s else warnSaved s
    else if s.dev.state == .standby then s
    else flushAlone s

/-- A save that waited for a tag draws it and runs (R32); the flush follows that of a power warning. -/
def grantSave (s : State) : State :=
  match s.nv.saveWait with
  | some r => let s := warmSave s r; if r = 1 then warnSaved s else s
  | none => s

/-- A save that waits for a reserved tag can draw it. -/
def saveGrantable (s : State) : Bool := s.nv.saveWait.isSome && !(freeTags s true).isEmpty

/-- `POWER_WARNING` (R495). -/
def execPowerWarning (dt : Nat) (s : State) : Host.Outcome State Fault Refusal :=
  let t := elapse dt s
  answer s (t.when (t.dev.state != .off && !t.clk.warn) powerWarn)

/-- VLOG is above 3.13 V again before PRST (R496); in STANDBY a held wake acts (R503). -/
def powerReturns (s : State) : State :=
  let s := s.onClk fun c => { c with warn := false }
  if s.dev.state == .standby then
    match s.clk.wakeHeld with
    | some w => if s.clk.loadOn then s else wakeUp s w.toNat
    | none => s
  else
    let s := s.onClk fun c => { c with rides := satInc c.rides }
    record s 0x0C07 [.b4 ((s.op - s.clk.warnAt) / 1000), .b1 (b2n s.clk.warnSaved)]

/-- `POWER_RIDE_THROUGH` (R496). -/
def execPowerRideThrough (dt : Nat) (s : State) : Host.Outcome State Fault Refusal :=
  let t := elapse dt s
  answer s (t.when (t.dev.state != .off && t.clk.warn) powerReturns)

/-! ## nRESET, clocks and the watchdog -/

/-- `NRESET` (R508): nRESET is low for 1 us; the main die stays in reset until its rising edge. -/
def execNreset (dt : Nat) (s : State) : Host.Outcome State Fault Refusal :=
  let t := elapse dt s
  answer s (t.when (powered t) fun t => (deviceReset t 0x04 { source := 2 } true).onClk fun c => { c with nresetLow := true })

/-- `NRESET_RELEASE` (R508). -/
def execNresetRelease (dt : Nat) (s : State) : Host.Outcome State Fault Refusal :=
  let t := elapse dt s
  answer s (t.onClk fun c => { c with nresetLow := false, relAt := if c.nresetLow then c.opNs else c.relAt })

/-- `PLL_LOSS_OF_LOCK` (R505): the PLL gates its outputs, XFO among them. -/
def execPllLossOfLock (dt : Nat) (s : State) : Host.Outcome State Fault Refusal :=
  let t := elapse dt s
  answer s (t.when (powered t && t.clk.lock) fun t => t.onClk fun c => { c with lock := false, xfo := false })

/-- `SUPWD_EXPIRED` (R483): the count has reached the timeout. -/
def execSupwdExpired (dt : Nat) (s : State) : Host.Outcome State Fault Refusal :=
  let t := elapse dt s
  answer s (t.when (wdCounts t && decide (wdLimit t ≤ t.wd.count)) fun t =>
    deviceReset (t.onWd fun w => { w with expTimeout := w.timeout, expXfo := w.clkXfo }) 0x04 { source := 3 } true)

/-- A clock has stopped (R505, R513). -/
def clockLost (s : State) (xfo : Bool) : State :=
  s.onClk fun c => if xfo then { c with xfo := false, lock := false } else { c with lfo := false }

/-- `CLOCK_STOPPED` (R486): the selected clock misses 4 periods. -/
def execClockStopped (dt : Nat) (xfo : Bool) (s : State) : Host.Outcome State Fault Refusal :=
  let t := elapse dt s
  answer s (t.when (powered t && t.wd.clkXfo == xfo) fun t =>
    deviceReset (clockLost t xfo) 0x04 { source := 4, clock := 1 + b2n xfo } true)

/-- `SUPWD_MON_LOST` (R486): the monitoring clock is lost. -/
def execSupwdMonLost (dt : Nat) (xfo : Bool) (s : State) : Host.Outcome State Fault Refusal :=
  let t := elapse dt s
  answer s (t.when (powered t && t.wd.clkXfo != xfo && t.wd.monOk) fun t =>
    record ((clockLost t xfo).onWd fun w => { w with monOk := false }) 0x0C03 [.b1 (1 + b2n xfo)])

/-- `SUPWD_KICK` (R483): only 0x5EED is a kick. -/
def execSupwdKick (dt : Nat) (v : Word) (s : State) : Host.Outcome State Fault Refusal :=
  let t := elapse dt s
  answer s (t.when (powered t && fld v 0 16 == 0x5EED) wdKick)

/-- A write to `SUPWD_DIS` (R484). -/
def wdDis (s : State) (v : Nat) : State :=
  if s.wd.lock then s
  else if v = 0xA5C3 then s.onWd fun w => { w with disAt := some s.op }
  else
    let inTime := match s.wd.disAt with | some a => decide (s.op ≤ a + 100000) | none => false
    let s := s.onWd fun w => { w with disAt := none }
    if v = 0x3C5A && inTime then record (s.onWd fun w => { w with enabled := false }) 0x0C04 [] else s

/-- `SUPWD_DIS` (R484). -/
def execSupwdDis (dt : Nat) (v : Word) (s : State) : Host.Outcome State Fault Refusal :=
  let t := elapse dt s
  answer s (t.when (powered t) fun t => wdDis t (fld v 0 16))

/-- `SUPWD_LOCK` (R484). -/
def execSupwdLock (dt : Nat) (v : Word) (s : State) : Host.Outcome State Fault Refusal :=
  let t := elapse dt s
  answer s (t.when (powered t && fld v 0 16 == 0x4C4B) fun t => t.onWd fun w => { w with lock := true })

/-- What a write to `SUPWD_CFG` leaves there: a `CLK` that names an absent clock stays as it reads (R486). -/
def wdCfgTaken (s : State) (v : Word) : Word :=
  put (b2n (if clockPresent s (wbit v 31) then wbit v 31 else wbit (wdCfg s) 31)) 31 1 ||| v &&& 0x1FFF

/-- `SUPWD_CFG` (R483, R486, R488): pending until the next kick. -/
def execSupwdCfg (dt : Nat) (v : Word) (s : State) : Host.Outcome State Fault Refusal :=
  let t := elapse dt s
  answer s (t.when (powered t) fun t => t.onWd fun w => { w with next := some (wdCfgTaken t v) })

end Sys2Proof.Machine
end

