-- ==== Sys2Proof/Machine/Boot.lean ====
section
/-! DEFINITION. The boot ROM and the start of the firmware (R471-R473, R480, R506, R510), the end of BOOT (R302, R403,
R37), and the limit of SETUP (R37). -/
namespace Sys2Proof.Machine

/-! ## The boot ROM (R471) -/

/-- Step 1: the watchdog takes its reset values; a power-on reset with TEST_EN low locks its disable sequence. -/
def bootWatchdog (s : State) : State :=
  s.onWd fun w => { w with
    clkXfo := false
    timeout := 2000
    next := none
    enabled := true
    suspended := false
    monOk := true
    count := 0
    lock := w.lock || (s.clk.timeDue && !s.tap.testEn) }

/-- Operating time is loaded at a power-on reset, and has counted on since its release (R450, R511). -/
def bootTime (s : State) : State :=
  let n := bootSeconds s
  if s.clk.timeDue then
    (s.onClk fun c => { c with
      opNs := 1000000000 * n + (c.opNs - c.relAt)
      relAt := 1000000000 * n
      timeDue := false }).onNv fun v => { v with minutes := n / 60 }
  else s

/-- An entry to BOOT from OFF or STANDBY is counted, whatever reset has followed it, and its transition is recorded (R450); the
counters are read (R448). -/
def bootCycle (s : State) : State :=
  let s := match s.clk.cycleDue with
    | some m =>
      let s := s.onClk fun c => { c with cycleDue := none }
      record (bumpCtr s 1) 0x0001 [.b1 m.left.code, .b1 m.entered.code, .b1 m.cause.toNat, .b4 0]
    | none => s
  readBootCounters s

/-- The record of a reset by the watchdog or the clock monitor (R487, R490). -/
def bootEvidence (s : State) : State :=
  match (if s.dev.last.cause = 0x04 then s.clk.rstSrc.toNat else 0) with
  | 3 => record s 0x0C01 [.b4 (wdMs s.wd.expTimeout), .b1 (b2n s.wd.expXfo), .b1 s.clk.rstFrom.code]
  | 4 => record s 0x0C02 [.b1 s.clk.rstClock.toNat, .b1 s.clk.rstFrom.code]
  | _ => s

/-- Step 2. -/
def bootRecords (s : State) : State := loadSystem (bootEvidence (loadIdentity (bootCycle (bootTime s))))

/-- The device enters RECOVERY (R471, R472, R480, R490). -/
def enterRecovery (s : State) (cause : Nat) : State :=
  moveTo (record (s.onClk fun c => { c with recoveryReq := false }) 0x0D03 [.b1 cause]) 0x05 .recovery

/-- The image of a region fails its check in the part named (R470, R490). -/
def bootImageBad (s : State) (loader : Bool) (part : Nat) : State :=
  (record s 0x0D02 [.b1 (Config.regionCode (b2n loader)).toNat, .b1 part]).drawn

/-- The firmware starts (R471, R510): loader check, watchdog on XFO with 250 ms, records with the time from the release of
reset (R490), mirror. -/
def startFirmware (s : State) : State :=
  let s := s.when (regionFails s true != 0) fun s => bootImageBad s true (regionFails s true)
  let s := wdKick (s.onWd fun w => { w with next := some 0x800000FA })
  let s := (record s 0x0D01 [.b1 s.svc.issue.toNat, .b4 s.svc.build.toNat, .b4 ((s.op - s.clk.relAt) / 1000000)])
  let s := record s 0x0C09 [.b4 (rstSource s).toNat, .b4 s.clk.wakeStat.toNat]
  loadMirror (s.onClk fun c => { c with fwRuns := true })

/-- The boot ROM's steps in order (R471-R473). -/
def bootRom (s : State) (wakeHigh : Bool) : State :=
  let s := bootRecords (bootWatchdog s)
  if s.tap.testEn then s
  else
    let s := s.onSvc fun v => { v with refresh := { v.refresh with pending := none } }
    let s := s.when wakeHigh fun s => s.onClk fun c => { c with recoveryReq := true, recoveryByWake := c.recoveryByWake || !c.recoveryReq }
    if s.clk.recoveryReq then enterRecovery s (if s.clk.recoveryByWake then 3 else 2)
    else if regionFails s false != 0 then enterRecovery (bootImageBad s false (regionFails s false)) 1
    else startFirmware s

/-- The main die waits for the PLL in BOOT (R506). -/
def awaitsLock (s : State) : Bool := s.dev.state == .boot && s.clk.awaitLock && !s.clk.nresetLow

/-- The PLL locks: the time base starts at 0 (R506, R507). -/
def pllLocks (s : State) (wakeHigh : Bool) : State :=
  bootRom (s.onClk fun c => { c with
    tb := 0
    lock := true
    xfo := true
    noLock := false
    awaitLock := false }) wakeHigh

/-- `PLL_LOCK` (R506). -/
def execPllLock (dt : Nat) (wakeHigh : Bool) (s : State) : Host.Outcome State Fault Refusal :=
  let t := elapse dt s
  answer s (t.when (awaitsLock t) fun t => pllLocks t wakeHigh)

/-- `PLL_LOCK_RETRY` (R506): the lock has failed, or a retry succeeds; the level of WAKE is then free. -/
def execPllLockRetry (dt : Nat) (ok : Bool) (s : State) : Host.Outcome State Fault Refusal :=
  let t := elapse dt s
  answer s (t.when (awaitsLock t) fun t =>
    if ok then pllLocks t.drawn (Config.freeBit t.free) else t.onClk fun c => { c with noLock := true })

/-! ## The end of BOOT -/

/-- Lanes that fail their boot test are retired with cause 4 (R302). -/
def bootTests (s : State) (failed : List (LaneId × TestPart)) : State :=
  let s := failed.foldl (fun s e => if (s.lane e.1.val).role = .retired then s else retireLane s e.1.val 4 (some e.2)) s
  s.onLn fun l => { l with bootTested := true }

/-- The other slot holds a package that may take over, and it passes (R403). -/
def fallbackOk (s : State) : Bool :=
  let b := !s.pkg.active
  (s.pkg.st b == 2 || s.pkg.st b == 4) && pkgCheck s b == 0

/-- The packages are checked, and BOOT ends under cause 0x06 or 0x07 (R37, R403). -/
def bootPackages (s : State) : State :=
  let a := s.pkg.active
  if s.pkg.st a = 3 && pkgCheck s a == 0 then setupEntry s 0x06
  else if fallbackOk s then
    let s := s.onPkg fun k => { (k.setSlot a 1 0 0).setSt (!a) 3 with active := !a }
    setupEntry (record (pkgRecordDue s) 0x0907 [.b1 (b2n a), .b1 (b2n (!a))]) 0x06
  else
    let s := record s 0x0005 [.b1 (Config.checkResult (pkgCheck s false)).toNat,
      .b1 (Config.checkResult (pkgCheck s true)).toNat]
    firstServed (moveTo (s.onDev fun d => { d with pkgOk := false }) 0x07 .stop)

/-- `BOOT_COMPLETE` (R302, R403). -/
def execBootComplete (dt : Nat) (failed : List (LaneId × TestPart)) (s : State) : Host.Outcome State Fault Refusal :=
  let t := elapse dt s
  answer s (t.when (t.dev.state == .boot && t.clk.fwRuns && t.clk.lock) fun t => bootPackages (bootTests t failed))

/-- 5 s have passed since a release. -/
def limitPassed (s : State) (at_ : Nat) : Bool := decide (at_ + 5000000000 ≤ s.now)

/-- `SETUP_LIMIT` (R37, R407): the setup task, or a staged one, has not completed 5 s after its release. -/
def execSetupLimit (dt : Nat) (s : State) : Host.Outcome State Fault Refusal :=
  let t := elapse dt s
  answer s (if t.dev.state == .setup && limitPassed t t.seq.setupAt then setupFail t 0x2F
    else match t.inst 65 with
      | some i => if limitPassed t i.rel then planFault t else t
      | none => t)

end Sys2Proof.Machine
end

