-- ==== Sys2Proof/Machine/Can.lean ====
section
/-! DEFINITION. The commands of the CAN channels (R368-R379). -/
namespace Sys2Proof.Machine

/-- A frame valid for the channel as a receiver; an own frame then on the bus has lost arbitration (R369, R373). A CAN FD frame
is not valid for a channel without FD, and wins arbitration all the same (R376). -/
def canReceive (s : State) (n stamp : Nat) (f : CanFrame) : State :=
  let m := canMode s n
  let x := s.canCh n
  if !((m = 1 || m = 2) && x.live) then s
  else if f.fdf && !wbit (cCfg s.cfg n) 28 then txFailed s n
  else
    let s := txFailed s n
    let s := if m = 1 then
        let k := Config.freeWord s.free
        let r : Byte := if x.recv.toNat ≤ 127 then BitVec.ofNat 8 (x.recv.toNat - 1) else BitVec.ofNat 8 (119 + k.toNat % 9)
        (s.modCan n fun x => { x with recv := r, err := errOf x.tec r }).drawn
      else s
    ringStore s n stamp f false

/-- `CAN_RX_FRAME` (R373). -/
def execCanRxFrame (dt : Nat) (ch : CanId) (stamp : Nat) (f : CanFrame) (s : State) : Host.Outcome State Fault Refusal :=
  answer s (canReceive (elapse dt s) ch.val stamp f)

/-- The channel offers the frame that wins arbitration among its queue (R376). -/
def canAttempt (s : State) (n : Nat) : State :=
  let m := canMode s n
  if (m = 1 || m = 3) && (s.canCh n).live && (s.canCh n).onBus.isNone then
    match txBest s (s.canCh n).queue with
    | some f => s.modCan n fun x => { x with queue := dropFirst f x.queue, onBus := some { f with sof := s.now } }
    | none => s
  else s

/-- `CAN_TX_ATTEMPT` (R376, R377). -/
def execCanTxAttempt (dt : Nat) (ch : CanId) (s : State) : Host.Outcome State Fault Refusal :=
  answer s (canAttempt (elapse dt s) ch.val)

/-- The frame on the bus becomes valid for the transmitter (R373, R376). -/
def canSent (s : State) (n : Nat) : State :=
  match (s.canCh n).onBus with
  | none => s
  | some f =>
    let s := s.modCan n fun x =>
      let t := x.tec - (if x.tec = 0 then 0 else 1)
      { x with onBus := none, txCount := satInc x.txCount, tec := t, err := errOf t x.recv }
    let s := if canMode s n = 3 then s else s.emit (.can n f.frame)
    let s := match f.aborted with
      | some k => record s 0x0807 [.b1 n, .b1 f.task, .b4 f.key.toNat, .b4 k, .b4 1]
      | none => s
    if f.echo || canMode s n = 3 then ringStore s n f.sof f.frame true else s

/-- `CAN_TX_SUCCESS` (R376). -/
def execCanTxSuccess (dt : Nat) (ch : CanId) (s : State) : Host.Outcome State Fault Refusal :=
  answer s (canSent (elapse dt s) ch.val)

/-- A protocol error, with the counters that ISO 11898-1 leaves (R378); in restricted operation it changes no counter, and the
attempt of a frame that was on the bus at the entry to SETUP fails (R371, R377). -/
def canErrorAt (s : State) (n : Nat) (tec : BitVec 9) (recv : Byte) : State :=
  if canMode s n = 1 && (s.canCh n).live then
    let passive := (s.canCh n).err == 2
    let s := txFailed s n
    let s := s.modCan n fun x => { x with tec := tec, recv := recv, errFrames := satInc x.errFrames, err := errOf tec recv }
    let s := if !passive && errOf tec recv = 2 then record s 0x0801 [.b1 n, .b4 tec.toNat, .b4 recv.toNat] else s
    if 255 < tec.toNat then busOff s n else s
  else s.when (canMode s n == 2) fun s => txFailed s n

/-- `CAN_ERROR` (R378). -/
def execCanError (dt : Nat) (ch : CanId) (tec : BitVec 9) (rec : Byte) (s : State) : Host.Outcome State Fault Refusal :=
  answer s (canErrorAt (elapse dt s) ch.val tec rec)

/-- Bus-off recovery ends (R378). -/
def canBusOn (s : State) (n : Nat) : State :=
  if (s.canCh n).err = 4 && canMode s n != 0 then
    let d := s.now - (s.canCh n).busOffAt
    record (s.modCan n fun x => { x with err := 1, tec := 0, recv := 0 }) 0x0803 [.b1 n, .b4 (d / 1000)]
  else s

/-- `CBUS_BUS_ON` (R378). -/
def execCbusBusOn (dt : Nat) (ch : CanId) (s : State) : Host.Outcome State Fault Refusal :=
  answer s (canBusOn (elapse dt s) ch.val)

end Sys2Proof.Machine
end

