-- ==== Sys2Proof/Machine/SvcCmds.lean ====
section
/-! DEFINITION. The supervision handshake (R474), firmware download and install (R475-R479), NOR refresh (R481, R482)
and the ends of erases (R485). -/
namespace Sys2Proof.Machine

/-! ## Installs (R477) -/

/-- A firmware or loader install has ended: the image runs, the service core goes on, and its command completes. -/
def installDone (s : State) (loader : Bool) (at_ : Nat) : State :=
  let cap := s.svc.cap
  let old := if loader then s.svc.ldrIssue.toNat else s.svc.issue.toNat
  let s := s.onHost fun h => { h with
    paused := false
    slots := h.slots.map fun e => (e.1, if loader then e.2 else { e.2 with leaseAt := e.2.leaseAt + (s.op - at_) }) }
  let s := s.onSvc fun v =>
    let v := { v with
      install := none
      bad := v.bad.filter fun b => !inRegion loader b }
    if loader then { v with ldrIssue := cap.issue } else { v with issue := cap.issue, build := cap.build }
  let s := record s 0x0D06 [.b1 (b2n loader), .b1 old, .b1 cap.issue.toNat, .b4 cap.pause, .b4 ((s.op - at_) / 1000000)]
  let s := finishWaits s (fun w => w.for_ == .install) stDone 0 0 0
  (List.range 4).foldl drainBad s

/-- The image has been written to its region; a loader image is then in use, and so is a firmware image where nothing
asks the service core to answer (R477, R480). In RECOVERY the device is reset. -/
def imageWritten (s : State) : State :=
  match s.svc.install with
  | some (loader, a) =>
    let s := norWrite s (imageRegion loader).1 (norBytes s capBase (capLength s))
    if s.dev.state == .recovery then
      deviceReset (flushAll (installDone s loader a)) 0x08 { source := s.clk.rstSrc.toNat, slot := s.clk.rstSlot.toNat, clock := s.clk.rstClock.toNat } false
    else if loader || !s.svc.hsOn then installDone s loader a
    else s
  | none => s

/-! ## Refresh (R481, R482) -/

/-- Blocks of a refresh pass: firmware, loader, packages, capture. -/
def refreshBlocks : Nat := 226

/-- A pass begins. -/
def refreshStart (s : State) : State :=
  s.onSvc fun v => { v with refresh := { v.refresh with
    running := true
    next := 0
    startS := s.opSec
    blockS := none } }

/-- A block of a pass, or one out of turn, has been rewritten from the refresh buffer. -/
def blockDone (s : State) (b : Nat) : State :=
  let r := s.svc.refresh
  let s := s.onSvc fun v => { v with refresh := { v.refresh with pending := none } }
  match r.extra.find? fun e => e.1 == b with
  | some e =>
    record (s.onSvc fun v => { v with refresh := { v.refresh with extra := v.refresh.extra.filter fun x => x.1 != b } })
      0x0D08 [.b4 b, .b4 e.2]
  | none =>
    if r.running && r.next == b then
      if b + 1 = refreshBlocks then
        record (s.onSvc fun v => { v with refresh := { v.refresh with
            running := false
            next := 0
            due := BitVec.ofNat 32 (s.opSec + 63072000) } })
          0x0D07 [.b4 refreshBlocks, .b4 (s.opSec - r.startS)]
      else s.onSvc fun v => { v with refresh := { v.refresh with next := b + 1 } }
    else s

/-- Nothing else occupies the refreshed regions: a pass pauses during an install or a load (R481). -/
def refreshMay (s : State) : Bool :=
  (served s) && s.clk.fwRuns && s.svc.install.isNone && s.pkg.load.isNone && s.svc.erases.isEmpty

/-- The block that a refresh handles now: one out of turn first, else the next of a pass, 60 s after the one before. -/
def refreshNext (s : State) : Option Nat :=
  let r := s.svc.refresh
  let ready := match r.blockS with | some t => decide (t + 60 ≤ s.opSec) | none => true
  match r.extra with
  | e :: _ => some e.1
  | [] => if r.running && ready then some r.next else none

/-- A block is copied into the refresh buffer, marked, and its erase begins. -/
def refreshBlock (s : State) (b : Nat) : State :=
  let s := s.onSvc fun v => { v with refresh := { v.refresh with
    pending := some b
    blockS := if v.refresh.running && v.refresh.extra.isEmpty then some s.opSec else v.refresh.blockS } }
  addErases s [b] .refresh

/-! ## Ends of erases (R485) -/

/-- What an erase does that ends now: the block is erased; a refreshed one is written again from the buffer. -/
def erased (s : State) (b : Nat) (use : EraseUse) : State :=
  match use with
  | .refresh => blockDone s b
  | _ => eraseBlock s b

/-- What follows the last erase of its kind. -/
def erasesOver (s : State) (use : EraseUse) : State :=
  if erasing s use then s
  else match use with
    | .load => finishWaits s (fun w => w.for_ == .erase && w.op == 0x40) stDone 0 0 0
    | .capture => finishWaits s (fun w => w.for_ == .erase && w.op == 0x61) stDone 0 0 0
    | .firmware | .loader => imageWritten s
    | .refresh => s

/-- The erase at the head of the queue ends: the watchdog counts on, an erase longer than 600 ms is recorded, the next
one begins. -/
def eraseEnds (s : State) : State :=
  match s.svc.erases with
  | [] => s
  | (b, use) :: rest =>
    let ms := (s.op - s.svc.eraseAt) / 1000000
    let long := decide (600000000 < s.op - s.svc.eraseAt)
    let s := (s.onWd fun w => { w with suspended := false }).onSvc fun v => { v with erases := rest }
    let s := erased s b use
    let s := s.when long fun s => record s 0x0C05 [.b4 b, .b4 ms]
    erasesOver (beginErase s) use

/-- `NOR_ERASE_END` (R485). -/
def execNorEraseEnd (dt : Nat) (s : State) : Host.Outcome State Fault Refusal :=
  let t := elapse dt s
  answer s (t.when (slotsUp t) eraseEnds)

/-- `SUPWD_LONG_ERASE` (R485): 600 ms after the start of an erase the watchdog counts on. -/
def execSupwdLongErase (dt : Nat) (blk : Nat) (s : State) : Host.Outcome State Fault Refusal :=
  let t := elapse dt s
  answer s (t.when (slotsUp t && (t.svc.erases.head?.map fun e => e.1) == some blk && decide (t.svc.eraseAt + 600000000 ≤ t.op)) fun t =>
    t.onWd fun w => { w with suspended := false })

/-! ## Handshake (R474) -/

/-- The latest requests that the runs of R474 can still need: settled ones beyond sixteen go. -/
def hsKeep (l : List HsReq) : List HsReq :=
  match l with
  | r :: rest => if r.answered.isSome && decide (16 < l.length) then rest else l
  | [] => []

/-- `HANDSHAKE_REQUEST` (R474): every 1 ms. -/
def execHandshakeRequest (dt : Nat) (s : State) : Host.Outcome State Fault Refusal :=
  let t := elapse dt s
  answer s (t.when (t.svc.hsOn && served t && t.now % 1000000 == 0) fun t =>
    t.onSvc fun v => { v with hsNext := v.hsNext + 1, hsReqs := hsKeep (v.hsReqs ++ [{ n := v.hsNext, issued := t.now }]) })

/-- The requests after the first run of `k` consecutive ones that were settled as `b`; `left` of the run are still sought. -/
def hsRun (b : Bool) (k : Nat) : Nat → List HsReq → Option (List HsReq)
  | 0, l => some l
  | _, [] => none
  | left + 1, r :: rest => if r.answered = some b then hsRun b k left rest else hsRun b k k rest

/-- The service core stops answering with the tenth consecutive request unanswered for 2 ms, which is a CLEARING condition
(R49, R474). -/
def hsStops (s : State) : State :=
  match (if s.svc.answering then hsRun false 10 10 s.svc.hsReqs else none) with
  | some rest => clearCond (s.onSvc fun v => { v with hsReqs := rest, answering := false, losses := satInc v.losses }) bSvcLoss 0xFF
  | none => s

/-- It answers again with the third consecutive request answered in time (R474). -/
def Svc.returns (v : Svc) : Svc :=
  match (if v.answering then none else hsRun true 3 3 v.hsReqs) with
  | some rest => { v with hsReqs := rest, answering := true }
  | none => v

/-- The answer is that of new firmware, after the last erase and no later than the pause of its install: DESIGN CHOICE (log entry 94):
which one within the pause is free, since the loader answers before it (R474, R477, R478). -/
def newFirmware (s : State) (at_ : Nat) : Bool :=
  wbit (Config.freeWord s.free) 0 || decide (at_ + s.svc.cap.pause * 1000000 ≤ s.op)

/-- A request is answered in time; the first answer of new firmware ends its install (R477). -/
def hsAnswered (s : State) (n : Nat) : State :=
  let s := s.onSvc fun v => Svc.returns { v with
    hsReqs := v.hsReqs.map fun r => if r.n = n then { r with answered := some true } else r }
  match s.svc.install with
  | some (false, a) =>
    if erasing s .firmware || s.dev.state == .recovery then s
    else if newFirmware s a then installDone s.drawn false a
    else s.drawn
  | _ => s

/-- The request is open, and 2 ms have not passed since its issue. -/
def HsReq.inTime (r : HsReq) (now : Nat) : Bool := r.answered.isNone && decide (now ≤ r.issued + 2000000)

/-- `HANDSHAKE_ANSWER` (R474): an echo within 2 ms of the request. -/
def execHandshakeAnswer (dt : Nat) (n : Nat) (s : State) : Host.Outcome State Fault Refusal :=
  let t := elapse dt s
  answer s (t.when (t.svc.hsReqs.any fun r => r.n == n && r.inTime t.now) fun t => hsAnswered t n)

/-- Requests that have gone unanswered for 2 ms. -/
def hsTimedOut (s : State) : State :=
  hsStops (s.onSvc fun v => { v with
    hsReqs := v.hsReqs.map fun r =>
      if r.answered.isNone && decide (r.issued + 2000000 ≤ s.now) then { r with answered := some false } else r })

/-- `HANDSHAKE_TIMEOUT` (R474). -/
def execHandshakeTimeout (dt : Nat) (s : State) : Host.Outcome State Fault Refusal :=
  let t := elapse dt s
  answer s (t.when (served t) hsTimedOut)

/-! ## Firmware commands (R475-R477) -/

/-- The role and the state of a firmware command marked OWNER: in RECOVERY the base role OPERATOR (R475, R480). -/
def fwMay (s : State) (n : Nat) : Bool :=
  if s.dev.state == .recovery then isBaseOp s n else isOwner s n && inSrh s

/-- `FW_INFO` (R475). -/
def cmdFwInfo : CmdBody := fun s _ _ =>
  .unless (!(served s || s.dev.state == .recovery)) s stDenied
    (.done s stDone (roReg s 0x0D00).toNat (fwStat s).toNat s.svc.refresh.due.toNat)

/-- `FW_OPEN` (R475). -/
def cmdFwOpen : CmdBody := fun s n e =>
  let len := leAt e 8 4
  let kind := (byteAt e 12).toNat
  let ldr := kind == 1
  .unless (decide (1 < kind) || len == 0 || len % 4 != 0 || decide ((imageRegion ldr).2 < len)) s stBadForm
    (.unless (!fwMay s n) s stDenied
      (.unless (s.svc.install.isSome || erasing s .capture) s stBusy
        (let s := s.onSvc fun v => { v with cap := { state := 1, loader := ldr, len := len } }
         .wait (addErases s capBlocks .capture) .erase 0 [])))

/-- `FW_WRITE` (R475). -/
def cmdFwWrite : CmdBody := fun s n e =>
  let o := leAt e 8 4
  let len := leAt e 12 4
  let off := leAt e 16 2
  let isOpen := s.svc.cap.state == 1
  .unless (len == 0 || decide (16384 < len) || len % 4 != 0 || !winOk off len 4 || (isOpen && decide (s.svc.cap.len < o + len))) s stBadForm
    (.unless (!fwMay s n) s stDenied
      (.unless (!isOpen) s stNotFound
        (.unless (erasing s .capture) s stBusy (ends (norWrite s (capBase + o) (winBytes s n off len)) stDone))))

/-- A download that does not verify (R475). -/
def downloadFails (s : State) (st : Nat) : CmdEnd :=
  ends (record (s.onSvc fun v => { v with cap := {} }) 0x0D05 [.b1 st]) st

/-- `FW_CLOSE` (R475-R477): the VERIFIED mark is its commit point. -/
def cmdFwClose : CmdBody := fun s n _ =>
  .unless (!fwMay s n) s stDenied
    (.unless (s.svc.cap.state != 1) s stNotFound
      (.unless (erasing s .capture) s stBusy
        (let ldr := s.svc.cap.loader
         let part := imageFails s capBase ldr
         if part = 1 then downloadFails s stBadForm
         else if part != 0 then downloadFails s stCheckFail
         else
           let p := installPause ldr (capLength s)
           let issue := norByte s (capBase + 4)
           let build := imageField s capBase 12 4
           let s := s.onSvc fun v => { v with cap := { v.cap with
             state := 2
             pause := p
             issue := issue
             build := BitVec.ofNat 24 build } }
           .done (record s 0x0D04 [.b1 (b2n ldr), .b1 issue.toNat, .b4 build, .b4 p]) stDone p 0 0)))

/-- An install that has not reached its commit point ends without effect (R19, R476). -/
def dropInstall (s : State) (loader : Bool) : State :=
  let s := s.onSvc fun v => { v with install := none, erases := v.erases.filter fun e => e.2 != installUse loader }
  finishWaits (s.onHost fun h => { h with paused := false }) (fun w => w.for_ == .install) stAborted 0 0 0

/-- `FW_ABORT` (R19, R475, R476): an open download ends EMPTY; an install ends before its first erase begins. -/
def cmdFwAbort : CmdBody := fun s n _ =>
  .unless (!fwMay s n) s stDenied
    (if s.svc.cap.state = 1 then
       let s := dropErases (s.onSvc fun v => { v with cap := {} }) .capture
       ends (finishWaits s (fun w => w.for_ == .erase && w.op == 0x61) stAborted 0 0 0) stDone
     else match s.svc.install with
       | some (ldr, _) => if s.svc.installBegun then ends s stAbortLate else ends (dropInstall s ldr) stDone
       | none => ends s stNotFound)

/-- `FW_INSTALL` (R477, R478): its erases wait behind those that run, and its first is its commit point; outside RECOVERY the
install of a firmware image pauses the host commands. -/
def cmdFwInstall : CmdBody := fun s n e =>
  let ldr := s.svc.cap.loader
  .unless (!fwMay s n) s stDenied
    (.unless (s.svc.cap.state != 2) s stNotFound
      (.unless (s.pkg.load.isSome || s.svc.install.isSome) s stBusy
        (.unless (leAt e 12 4 != s.svc.cap.pause || (!ldr && s.dev.state != .recovery && regionFails s true != 0)) s stCheckFail
          (let s := s.onSvc fun v => { v with install := some (ldr, s.op) }
           let s := s.onHost fun h => { h with paused := !ldr && s.dev.state != .recovery }
           .wait (addErases s (imageBlocks ldr (capLength s)) (installUse ldr)) .install 0 []))))

/-- `FW_REFRESH` (R475, R481). -/
def cmdFwRefresh : CmdBody := fun s n _ =>
  .unless (!(isOwner s n && inSrh s)) s stDenied
    (.unless s.svc.refresh.running s stBusy (ends (refreshStart s) stDone))

/-- `FW_INFO` (R475). -/
def execFwInfo (dt : Nat) (slot : SlotId) (s : State) : Host.Outcome State Fault Refusal :=
  answer s (runCmd 0x60 cmdFwInfo (elapse dt s) slot)

/-- `FW_OPEN` (R475). -/
def execFwOpen (dt : Nat) (slot : SlotId) (s : State) : Host.Outcome State Fault Refusal :=
  answer s (runCmd 0x61 cmdFwOpen (elapse dt s) slot)

/-- `FW_WRITE` (R475). -/
def execFwWrite (dt : Nat) (slot : SlotId) (s : State) : Host.Outcome State Fault Refusal :=
  answer s (runCmd 0x62 cmdFwWrite (elapse dt s) slot)

/-- `FW_CLOSE` (R475). -/
def execFwClose (dt : Nat) (slot : SlotId) (s : State) : Host.Outcome State Fault Refusal :=
  answer s (runCmd 0x63 cmdFwClose (elapse dt s) slot)

/-- `FW_ABORT` (R475). -/
def execFwAbort (dt : Nat) (slot : SlotId) (s : State) : Host.Outcome State Fault Refusal :=
  answer s (runCmd 0x64 cmdFwAbort (elapse dt s) slot)

/-- `FW_INSTALL` (R477). -/
def execFwInstall (dt : Nat) (slot : SlotId) (s : State) : Host.Outcome State Fault Refusal :=
  answer s (runCmd 0x65 cmdFwInstall (elapse dt s) slot)

/-- `FW_REFRESH` (R475). -/
def execFwRefresh (dt : Nat) (slot : SlotId) (s : State) : Host.Outcome State Fault Refusal :=
  answer s (runCmd 0x66 cmdFwRefresh (elapse dt s) slot)

/-! ## Refresh rows -/

/-- `NOR_REFRESH_DUE` (R481). -/
def execNorRefreshDue (dt : Nat) (s : State) : Host.Outcome State Fault Refusal :=
  let t := elapse dt s
  answer s (t.when (served t && t.clk.fwRuns && decide (t.svc.refresh.due.toNat ≤ t.opSec) && !t.svc.refresh.running) refreshStart)

/-- `NOR_REFRESH_BLOCK` (R481). -/
def execNorRefreshBlock (dt : Nat) (s : State) : Host.Outcome State Fault Refusal :=
  let t := elapse dt s
  answer s (match (if refreshMay t then refreshNext t else none) with | some b => refreshBlock t b | none => t)

/-- The region of a refreshed block, in the order of R468. -/
def regionOf (b : Nat) : Nat := if b < 16 then 0 else if b < 17 then 1 else if b < 113 then 2 else if b < 209 then 3 else 4

/-- A page of the monthly reading (R482): with 2 or more corrected bits its block is refreshed; one that cannot be
corrected makes its image or package fail its next check. -/
def pageChecked (s : State) (b bits : Nat) (ue : Bool) : State :=
  if ue then
    let s := record s 0x0D09 [.b4 b, .b1 (Config.regionCode (regionOf b)).toNat]
    s.onSvc fun v => { v with
      bad := if v.bad.contains b then v.bad else v.bad ++ [b] }
  else if 2 ≤ bits then
    s.onSvc fun v => { v with refresh := { v.refresh with
      extra := if v.refresh.extra.any fun e => e.1 == b then v.refresh.extra else v.refresh.extra ++ [(b, bits)] } }
  else s

/-- `NOR_PAGE_CHECK` (R482). -/
def execNorPageCheck (dt : Nat) (blk : Nat) (bits : Nat) (ue : Bool) (s : State) : Host.Outcome State Fault Refusal :=
  let t := elapse dt s
  answer s (t.when (served t && t.clk.fwRuns && decide (blk < refreshBlocks)) fun t => pageChecked t blk bits ue)

end Sys2Proof.Machine
end

