-- ==== Sys2Proof/Machine/DevCmds.lean ====
section
/-! DEFINITION. The host commands of the state machine (R37, R39, R40, R44, R47, R54, R55, R500) and the limit of HOLD
(R48). -/
namespace Sys2Proof.Machine

/-- `START` and `CLEAR_EXIT` are refused while a readiness check fails (R40, R54). -/
def whenReady (s : State) (op : Nat) (go : CmdEnd) : CmdEnd :=
  if allReady s then go else ends (record s 0x0003 [.b1 op, .b4 (devReady s).toNat]) stDenied

/-- `START` (R37, R39). -/
def cmdStart : CmdBody := fun s n _ =>
  transGate s (mayOperate s n) (fun s => s.dev.state == .stop) fun s => whenReady s 0x10 (ends (enterRun s 0x0D) stDone)

/-- `STOP` (R37, R39, R43). -/
def cmdStop : CmdBody := fun s n _ =>
  transGate s (mayOperate s n) isRunning fun s => ends (stopSequence s 0x0E) stDone

/-- A closed line that carries BASIC inputs has neither port with link (R49). -/
def lineLost (s : State) : Bool := !readyLines s

/-- The `DEV_FAULT` bits whose causes exist now (R49, R55, R217). -/
def standingFaults (s : State) : BitVec 8 :=
  let g := s.can.bad.any fun a => Area.g.has a
  let other := (s.can.bad.any fun a => !Area.g.has a) || decide (s.can.bad.length < s.ueOpen)
  BitVec.ofNat 8 (packBits [lineLost s, !s.svc.answering, false, other,
    !readyLanes s && !readySpare s, g, false, false])

/-- The cause of a CLEARING entry condition or of a STOP trigger that exists and is not yet taken (R44). -/
def holdPending (s : State) : Option Nat :=
  let f := standingFaults s
  if f.getLsbD bGUe then some 0x11 else if f &&& 0xD8 != 0 then some 0x17 else none

/-- The lowest shaft that forbids HOLD (R44). -/
def holdBlocker (s : State) : Option Nat := (List.range 4).find? fun n => atCreep s n

/-- A shaft's velocity in rpm; a fraction is rounded one way or the other (R44, R458). -/
def shaftRpm (s : State) (n : Nat) : Word := fixedOf ((s.shaft n).v * 60000000 / 16777216) 0

/-- `HOLD` (R40, R44, R45). -/
def cmdHold : CmdBody := fun s n _ =>
  transGate s (isOwner s n) (fun s => s.dev.state == .run) fun s =>
    match holdPending s, holdBlocker s with
    | some c, _ => ends (record s 0x0002 [.b1 c]) stDenied
    | none, some k => ends (record s 0x0002 [.b1 k, .b2 ((shaftRpm s k).toNat % 65536)]) stDenied
    | none, none => ends (enterHold s) stDone

/-- `RESUME` (R47). -/
def cmdResume : CmdBody := fun s n _ =>
  transGate s (isOwner s n) (fun s => s.dev.state == .hold) fun s => ends (resumeRun s) stDone

/-- `CLEAR_EXIT` (R37, R54, R59). -/
def cmdClearExit : CmdBody := fun s n _ =>
  transGate s (isOwner s n) (fun s => s.dev.state == .clearing) fun s => whenReady s 0x14 (ends (enterRun s 0x18) stDone)

/-- The reasons of a guard stop go with the `DEV_FAULT` bits named as they are (R419). -/
def ackGuards (s : State) (m : BitVec 8) : State :=
  (List.range 64).foldl (fun s k => s.modTask k fun x => { x with gstop := x.gstop &&& ~~~ m }) s

/-- `ACK_FAULT` (R13, R39, R55, R419): a bit set at this very instant stays set. -/
def cmdAckFault : CmdBody := fun s n e =>
  let fresh : BitVec 8 := if s.dev.faultSet.1 = s.op then s.dev.faultSet.2 else 0
  let m := BitVec.ofNat 8 (leAt e 8 4) &&& ~~~ fresh
  .unless (!(isOwner s n && (s.dev.state == .stop || s.dev.state == .clearing))) s stDenied
    (let s := ackGuards s (m &&& ~~~ (standingFaults s))
     ends (s.onDev fun d => { d with fault := (d.fault &&& ~~~ m) ||| (m &&& standingFaults s) }) stDone)

/-- `RESET` (R39, R480, R570): the service core first writes all it holds; no completion reaches the host. -/
def cmdReset : CmdBody := fun s n _ =>
  .unless (!(if s.dev.state == .recovery then isBaseOp s n else isOwner s n)) s stDenied
    (.gone (deviceReset (flushAll s) 0x04 { source := 5, slot := n } false))

/-- `RECOVER` (R39, R42, R472). -/
def cmdRecover : CmdBody := fun s n _ =>
  transGate s (isOwner s n) (fun s => s.dev.state == .stop) fun s =>
    (let s := s.onClk fun c => { c with recoveryReq := true, recoveryByWake := false }
     .gone (deviceReset (flushAll s) 0x04 { source := 5, slot := n } false))

/-- Every wake source is disabled (R513). -/
def noWake (s : State) : Bool := fld (rGet s.cfg 0x0C18 0) 0 3 == 7

/-- The entry to STANDBY (R500): save, records, completion, flush; the wake sources are armed. -/
def enterStandby (s : State) (n : Nat) (cid : BitVec 16) : State :=
  let w := rGet s.cfg 0x0C18 0
  let s := moveTo (exchTransition (warmSave s 2) false) 0x19 .standby
  let s := record s 0x0C08 [.b1 n, .b4 w.toNat]
  let s := flushAll (complete s n cid 0x17 stDone 0 0 0)
  s.onClk fun c => { c with wakeArmed := some (BitVec.ofNat 3 (fld w 0 3)), wakeHeld := none }

/-- `STANDBY` (R39, R500). -/
def cmdStandby : CmdBody := fun s n e =>
  transGate s (isOwner s n) (fun s => s.dev.state == .stop) fun s =>
    .unless (noWake s) s stDenied (whenTag s (.gone (enterStandby s n (BitVec.ofNat 16 (leAt e 2 2)))))

/-- `START` (R39). -/
def execStart (dt : Nat) (slot : SlotId) (s : State) : Host.Outcome State Fault Refusal :=
  answer s (runCmd 0x10 cmdStart (elapse dt s) slot)

/-- `STOP` (R39). -/
def execStop (dt : Nat) (slot : SlotId) (s : State) : Host.Outcome State Fault Refusal :=
  answer s (runCmd 0x11 cmdStop (elapse dt s) slot)

/-- `HOLD` (R44). -/
def execHold (dt : Nat) (slot : SlotId) (s : State) : Host.Outcome State Fault Refusal :=
  answer s (runCmd 0x12 cmdHold (elapse dt s) slot)

/-- `HOLD_LIMIT` (R48): `HOLD_REMAIN` has reached 0. -/
def execHoldLimit (dt : Nat) (s : State) : Host.Outcome State Fault Refusal :=
  let t := elapse dt s
  answer s (t.when (t.dev.state == .hold && t.dev.holdLeft == 0) fun t => takeStop t 0x15 none)

/-- `RESUME` (R47). -/
def execResume (dt : Nat) (slot : SlotId) (s : State) : Host.Outcome State Fault Refusal :=
  answer s (runCmd 0x13 cmdResume (elapse dt s) slot)

/-- `CLEAR_EXIT` (R54). -/
def execClearExit (dt : Nat) (slot : SlotId) (s : State) : Host.Outcome State Fault Refusal :=
  answer s (runCmd 0x14 cmdClearExit (elapse dt s) slot)

/-- `ACK_FAULT` (R55). -/
def execAckFault (dt : Nat) (slot : SlotId) (s : State) : Host.Outcome State Fault Refusal :=
  answerS s (runCmd 0x15 cmdAckFault (elapse dt s) slot)

/-- `RESET` (R570). -/
def execReset (dt : Nat) (slot : SlotId) (s : State) : Host.Outcome State Fault Refusal :=
  answer s (runCmd 0x16 cmdReset (elapse dt s) slot)

/-- `STANDBY` (R500). -/
def execStandby (dt : Nat) (slot : SlotId) (s : State) : Host.Outcome State Fault Refusal :=
  answer s (runCmd 0x17 cmdStandby (elapse dt s) slot)

/-- `RECOVER` (R472). -/
def execRecover (dt : Nat) (slot : SlotId) (s : State) : Host.Outcome State Fault Refusal :=
  answer s (runCmd 0x18 cmdRecover (elapse dt s) slot)

end Sys2Proof.Machine
end

