-- ==== Sys2Proof/Machine/YelxCycle.lean ====
section
/-! DEFINITION. The link cycle of a Yelx port: the frames in their order (R270-R273, R246, R249, R253, R286), and
the input read point (R271, R289). -/
namespace Sys2Proof.Machine

/-- Arm entries of a CYC on the ports of a line: armed rows whose target is not crossed, at most 64 (R249, R269). -/
def armEntries (s : State) (p : Nat) : List Byte :=
  let rows := s.fret.queue.filterMap fun e => match e.row with
    | some r =>
      let here := r.parts.filter fun x => x.1 / 32 == p
      if r.armed && !r.crossed && !here.isEmpty then
        some (leBytes 2 r.id.toNat ++ leBytes 2 0 ++ leBytes 4 (here.foldl (fun m x => m ||| 2 ^ (x.1 % 32)) 0))
      else none
    | none => none
  let l := rows.take 64
  leBytes 1 l.length ++ leBytes 1 s.dev.state.code ++ leBytes 2 0 ++ l.flatten

/-- An untagged frame to all stations at instant `a`, with the next number of the port's own counter (R275). -/
def castFrame (s : State) (p type : Nat) (body : List Byte) (a : Nat) : State × Nat :=
  let q := (s.port p).castSeq + 1
  let e := a + wireNs body.length
  let s := s.modPort p fun x => { x with castSeq := q, wireTo := e, busyTo := max x.busyTo e }
  let f : YFrame := { type := BitVec.ofNat 4 type, port := BitVec.ofNat 3 p, seq := q, cycle := (s.port p).cycle, body := body }
  (lineEmit s p f false a, e)

/-- CYC (R269). -/
def sendCyc (s : State) (p : Nat) : State × Nat :=
  castFrame s p 1 (leBytes 8 (s.now + sfdNs) ++ leBytes 4 (pCycle s.cfg p) ++ armEntries s p) s.now

/-- ANG of a shaft (R253, R269). -/
def angBody (s : State) (n : Nat) : List Byte :=
  let x := s.shaft n
  leBytes 8 x.t1 ++ leBytes 5 (anchorPos s.cfg n x)
    ++ leBytes 1 (n + 4 * b2n x.referenced + 8 * b2n x.stopped + 16 * b2n x.fault) ++ leBytes 2 0
    ++ leBytes 4 (fixedOf x.v 16).toNat ++ leBytes 4 (fixedOf x.acc 24).toNat

/-- ANG frames, one for each configured shaft (R253, R272). -/
def sendAngs (s : State) (p a : Nat) : State × Nat :=
  if lineState s p = 4 && s.dev.state != .setup then
    ((List.range 4).filter (shOn s.cfg)).foldl (fun x n => castFrame x.1 p 5 (angBody x.1 n) x.2) (s, a)
  else (s, a)

/-- Frames that fall due at the cycle start, in order. -/
def startAll (s : State) (a : Nat) (l : List YWait) : State × Nat := l.foldl (fun x w => startOrKeep x.1 w x.2) (s, a)

/-- ADM SAFE frames that are due on a port (R43, R50, R187). -/
def safeWaits (s : State) (p : Nat) : List YWait :=
  (pStas s.cfg p).flatMap fun k => match (s.sta k).safeDue with
    | some [] => [reqWait k 8 0x03 (leBytes 4 0) .safe]
    | some l => rangeFrames k 0x03 .safe l.length l
    | none => []

/-- A transaction whose frame goes again, as a new frame (R276). -/
def resend (s : State) (t : Trans) (a : Nat) : State × Nat :=
  let w := t.asWait
  if mayGo s w && fitsAt s w a then
    let f : YFrame := { t.frame with retry := false }
    let s := s.onYl fun y => { y with trans := y.trans.map fun x =>
      if x.tag = t.tag then { x with frame := f, sentAt := some a, nakFrom := none } else x }
    (plan s { at_ := a, port := w.port, frame := f, for_ := t.for_ }, a + wireNs f.body.length)
  else (ylCountUp s w.port 12, a)

/-- Frames of the purposes that `sel` names: those that go again, then those that waited, then new ones. -/
def runClass (s : State) (p a : Nat) (sel : TransFor → Bool) (new : List YWait) : State × Nat :=
  let again := s.yl.trans.filter fun t => t.frame.port.toNat == p && t.sentAt.isNone && !t.dead && sel t.for_
  let mine := s.yl.waits.filter fun w => w.port == p && sel w.for_
  let s := s.onYl fun y => { y with waits := y.waits.filter fun w => !(w.port == p && sel w.for_) }
  let x := again.foldl (fun x t => resend x.1 t x.2) (s, a)
  startAll x.1 x.2 (mine.map (fun w => { w with later := false }) ++ new)

/-- The IMGW of a station with its presented bytes (R283). -/
def imgwWait (s : State) (k : Nat) : YWait := reqWait k 3 0 (shownBytes s (sQ s.cfg k) (sOut s.cfg k)) .imgw

/-- The stations of a port that are sent IMGW (R283). -/
def imgwStas (s : State) (p : Nat) : List Nat :=
  if s.dev.state = .setup then [] else (pStas s.cfg p).filter fun k => (s.sta k).admitted

/-- IMGW frames in ascending station order, spaced under R272. -/
def sendImgws (s : State) (p a : Nat) : State × Nat :=
  let r := (imgwStas s p).foldl (fun (x : State × Nat × Nat) k =>
    let (s, free, next) := x
    let at_ := max free next
    let req := wireNs (sOut s.cfg k)
    let rsp := wireNs (16 + sIn s.cfg k)
    let (s, free) := startOrKeep s (imgwWait s k) at_
    (s, free, at_ + (if pClosed s.cfg p then req + rsp else max req rsp))) (s, a, a)
  (r.1, r.2.1)

/-! ## Rows (R246) -/

/-- Insertion into a list that rises by its first components; an absent one goes last. -/
def insertBy {α : Type} (e : Option Nat × α) : List (Option Nat × α) → List (Option Nat × α)
  | [] => [e]
  | x :: r =>
    if (match e.1, x.1 with | some a, some b => decide (a < b) | some _, none => true | _, _ => false) then e :: x :: r
    else x :: insertBy e r

/-- The rows that are neither armed nor missed, in ascending order of projected crossing. -/
def rowsInOrder (s : State) : List (Option Nat × (FretE × RowSt)) :=
  s.fret.queue.foldl (fun l e => match e.row with
    | some r => if r.armed then l else insertBy (e.projected s.cfg (s.shaft e.shaft.val), (e, r)) l
    | none => l) []

/-- Unlatched rows that a station holds or is being sent. -/
def rowsAt (s : State) (k : Nat) : Nat :=
  (s.fret.queue.filter fun e => match e.row with
    | some r => tabGet 0 r.sent k != 0 && (!r.armed || r.reports.contains k)
    | none => false).length

/-- The fragments of a station's bytes from offset `o` on (R269). -/
def fragments (o n : Nat) : Nat → List (Nat × Nat)
  | 0 => []
  | f + 1 => if n ≤ o then [] else (o, min 1464 (n - o)) :: fragments (o + 1464) n f

/-- A ROW frame (R269). -/
def rowBody (e : FretE) (r : RowSt) (base n o len : Nat) : List Byte :=
  leBytes 2 r.id.toNat ++ leBytes 2 (e.shaft.val + 4 * (if e.dir = 1 then 1 else 0)) ++ leBytes 5 e.target.toNat
    ++ leBytes 2 n ++ leBytes 2 o ++ leBytes 3 0 ++ (r.data.drop (base + o)).take len

/-- A fragment of a row is offered to the wire; what has been handed over is noted, also where it waits for a tag (R32). -/
def sendFragment (e : FretE) (r : RowSt) (k base n : Nat) (x : State × Nat × Bool) (fr : Nat × Nat) : State × Nat × Bool :=
  let (s, a, ok) := x
  let w := reqWait k 4 0 (rowBody e r base n fr.1 fr.2) (.row r.id fr.1 fr.2)
  if !ok then x
  else if fitsAt s w a then
    let s := if fr.1 = 0 then s.modSta k fun z => { z with rowsNew := z.rowsNew + 1 } else s
    let (s, b) := startOrKeep s w a
    (modRow s r.id fun r => { r with sent := tabSet 0 k (fr.1 + fr.2) r.sent }, b, decide (a < b))
  else (ylCountUp s w.port 12, a, false)

/-- A row may stream to a station: it has begun, or the station has a free row buffer for it and holds at most one other
unlatched row (R246). -/
def mayStream (s : State) (k sent : Nat) : Bool :=
  (s.sta k).admitted && (sent != 0 || (decide ((s.sta k).rowsNew < (s.sta k).rowBuf.toNat) && decide (rowsAt s k < 2)))

/-- One part of a row streams. -/
def sendPart (e : FretE) (r : RowSt) (x : State × Nat) (y : Nat × Nat × Nat) : State × Nat :=
  let (s, a) := x
  let (k, base, n) := y
  let sent := tabGet 0 r.sent k
  if mayStream s k sent && decide (sent < n) then
    let (s, a, _) := (fragments sent n 3).foldl (sendFragment e r k base n) (s, a, true)
    (s, a)
  else x

/-- A row is eligible in the running cycle of a port: it was committed by the read point of that cycle, and its shaft is
referenced (R34, R232, R246). -/
def rowEligible (s : State) (p : Nat) (e : FretE) (r : RowSt) : Bool :=
  (s.shaft e.shaft.val).referenced && (match (s.port p).t0 with | some a => decide (r.commitAt ≤ a) | none => false)

/-- The eligible rows of a port stream, in their order (R246). -/
def sendRows (s : State) (p a : Nat) : State × Nat :=
  if lineState s p = 4 && s.dev.state != .setup then
    (rowsInOrder s).foldl (fun (x : State × Nat) (q : Option Nat × (FretE × RowSt)) =>
      let (e, r) := q.2
      if rowEligible s p e r then (r.parts.filter fun y => y.1 / 32 == p).foldl (sendPart e r) x else x) (s, a)
  else (s, a)

/-! ## ADM RELEASE (R286) -/

/-- The lines of a station's Q bytes whose owner has committed since the admission and the last entry to RUN, which
are not yet released and whose owner is not stopped; in STOP no other bytes than guard bytes follow (R43, R56, R286). -/
def releaseLines (s : State) (k : Nat) : List Nat :=
  let x := s.sta k
  let lo := sQ s.cfg k
  let hi := lo + sOut s.cfg k
  if x.state != 2 || hi ≤ lo || !isRunning s then []
  else ((List.range ((hi - 1) / 64 + 1 - lo / 64)).map (lo / 64 + ·)).filter fun line =>
    !x.released.contains line && (match ownerOf s.cfg (64 * line) with
      | some o =>
        let t := s.task o
        !(decide (o < 64) && tGuard s.cfg o) && t.live && !t.stopped
          && (match t.lastCommit with | some c => decide (x.admitAt < c) | none => false)
      | none => false)

/-- Parts of lines within a station's bytes, neighbours joined. -/
def lineRanges (lo hi : Nat) (l : List Nat) : List (Nat × Nat) :=
  l.foldl (fun acc line =>
    let a := max lo (64 * line) - lo
    let n := min hi (64 * line + 64) - max lo (64 * line)
    match acc.getLast? with
    | some (o, m) => if o + m = a then acc.dropLast ++ [(o, m + n)] else acc ++ [(a, n)]
    | none => [(a, n)]) []

/-- ADM RELEASE frames due on a port, and the lines they release. -/
def releaseWaits (s : State) (p : Nat) : State × List YWait :=
  if lineState s p = 4 && s.dev.state != .setup then
    (pStas s.cfg p).foldl (fun (x : State × List YWait) k =>
      let l := releaseLines x.1 k
      if l.isEmpty then x
      else
        let r := lineRanges (sQ s.cfg k) (sQ s.cfg k + sOut s.cfg k) l
        (x.1.modSta k fun y => { y with released := y.released ++ l }, x.2 ++ rangeFrames k 0x04 .release r.length r)) (s, [])
  else (s, [])

/-- SYNC SET frames that are due and end before the cycle does (R272, R290). -/
def sendSets (s : State) (p a : Nat) : State × Nat :=
  ((pStas s.cfg p).filter fun k => (s.sta k).syncDue).foldl (fun (x : State × Nat) k =>
    let (s, a) := x
    let y := s.sta k
    let w := reqWait k 6 0x3 (leBytes 8 0 ++ leBytes 4 y.delayEven.toNat ++ leBytes 4 y.delayOdd.toNat) .syncSet
    if fitsAt s w a then
      (plan (s.modSta k fun z => { z with syncDue := false }) { at_ := a, port := p, frame := w.frame, for_ := .syncSet },
        a + wireNs w.frame.body.length)
    else (ylCountUp s p 12, a)) (s, a)

/-- Purposes in the classes of R272. -/
def TransFor.isAdm : TransFor → Bool
  | .discover | .admission _ | .release | .retire | .readmit _ => true
  | _ => false

/-- The frames of a cycle in the order of R272. -/
def cycleFrames (s : State) (p : Nat) : State :=
  let (s, a) := sendCyc s p
  let (s, a) := sendAngs s p a
  let a := max a (s.port p).busyTo
  let new := safeWaits s p
  let s := (pStas s.cfg p).foldl (fun s k => s.modSta k fun x => { x with safeDue := none }) s
  let (s, a) := runClass s p a (· == .safe) new
  let (s, a) := sendImgws s p a
  let (s, a) := runClass s p a (fun x => match x with | .row _ _ _ => true | _ => false) []
  let (s, a) := sendRows s p a
  let (s, new) := releaseWaits s p
  let (s, a) := runClass s p a TransFor.isAdm new
  let (s, a) := runClass s p a (fun x => match x with | .mbx _ => true | _ => false) []
  let (s, a) := runClass s p a (· == .sync) []
  (sendSets s p a).1

/-- The IMGW transactions of a line without link hold their tags up to the cycle end, at which they complete `NO_DELIVERY`;
those through a retired port complete `RETIRED` as they are issued (R277, R278). -/
def imgwsUnsent (s : State) (p : Nat) : State :=
  (imgwStas s p).foldl (fun s k =>
    if lineRetired s p then unsent s p
    else let (s, w) := tagged s (imgwWait s k); ylWait s w) s

/-- The start of a link cycle (R270): its number and read point; on a closed line the even port sends for both. -/
def cycleStart (s : State) (p : Nat) : State :=
  let s := s.modPort p fun x => { x with
    cycle := if x.t0.isSome then x.cycle + 1 else x.cycle
    t0 := some s.now
    discovers := (s.yl.waits.filter fun w => w.port == p && w.for_ == .discover).length }
  let s := (ylCountUp s p 11).onSeq fun q => { q with readAt := some s.now }
  if homePort s.cfg p = p then (if lineLinked s p then cycleFrames s p else imgwsUnsent s p) else s

/-! ## The input read point (R271) -/

/-- The station bytes that this cycle delivered. -/
def arrivedBytes (s : State) (p : Nat) : List (Nat × Byte) :=
  (pStas s.cfg p).flatMap fun k => match (s.sta k).arrived with
    | some b => (List.range b.length).map fun j => (sI s.cfg k + j, byteAt b j)
    | none => []

/-- A group of stations of the port ends its cycle (R172). -/
def groupEnds (s : State) (p g : Nat) : State :=
  if gKind s.cfg g = 1 && gPort s.cfg g = p then
    let l := groupStas s.cfg g
    groupCycle s g (l.all fun k => (s.sta k).state == 4 || (s.sta k).valid) (l.filter fun k => (s.sta k).valid)
  else s

/-- A CYC that port `p` sent in the cycle has not come back on the other port of the line. -/
def cycLost (s : State) (p : Nat) : Bool := (s.port p).link && !(s.port (pairPort p)).cycBack

/-- Whether the CYC frames of the cycle came back around a closed line (R289). -/
def lineCycle (s : State) (p : Nat) : State :=
  if pClosed s.cfg p && lineLinked s p then
    let n := if cycLost s p || cycLost s (p + 1) then (s.port p).cycMissed + 1 else 0
    let s := s.modPort p fun x => { x with cycMissed := n }
    let s := if 2 ≤ n && !(s.port p).lineOpen then
        record (s.modPort p fun x => { x with lineOpen := true }) 0x050A [.b1 (p / 2), .b1 (s.port p).lastEven]
      else s
    (s.modPort p fun x => { x with cycBack := false }).modPort (p + 1) fun x => { x with cycBack := false }
  else s

/-- The input read point of a port's cycle. -/
def inputRead (s : State) (p : Nat) : State :=
  let s := s.modPort p fun x => { x with t0 := none, cycle := x.cycle + 1 }
  if homePort s.cfg p = p then
    let s := (s.yl.trans.filter fun t => t.frame.port.toNat == p && t.dead).foldl failTrans s
    let late := s.yl.waits.filter fun w => w.port == p && w.for_ == .imgw
    let s := late.foldl noDelivery (endWaits s (fun w => w.port == p && w.for_ == .imgw) stNoDelivery)
    let b := arrivedBytes s p
    let s := publishInputs s b
    let s := (pStas s.cfg p).foldl (fun s k => s.modSta k fun x => { x with
      valid := x.arrived.isSome
      arrived := none
      failed := false }) s
    let s := (List.range 64).foldl (fun s g => groupEnds s p g) s
    lineCycle s p
  else s

/-- The running cycle of the port has ended (R271). -/
def cycleOver (s : State) (p : Nat) : Bool :=
  match cycleEnd s p with | some e => decide (e ≤ s.now) | none => false

end Sys2Proof.Machine
end

