-- ==== Sys2Proof/Machine/ReadPoint.lean ====
section
/-! DEFINITION. What a read point of a link cycle, a bridge frame or a loop sample finds committed: the write sets, the
output releases and the inputs whose instant has come, whatever the order of their commands (R34, R183, R322). -/
namespace Sys2Proof.Machine

/-- The write sets of class `k` whose commit instant has come. -/
def classReady (s : State) (k : Nat) : List LoopWs := s.lp.pend.filter fun w => w.cls == k && decide (w.at_ ≤ s.now)

/-- The write sets of class `k` that are due commit (R322). -/
def commitClass (s : State) (k : Nat) : State :=
  let due := classReady s k
  let s := s.onLp fun l => { l with pend := l.pend.filter fun w => !(w.cls == k && decide (w.at_ ≤ s.now)) }
  due.foldl loopWsCommit s

/-- The output release of a task that comes next, if its instant has come (R183). -/
def outDue (s : State) (t : Nat) : Option OutRel := s.seq.outs.find? fun o => o.task == t && decide (o.at_ ≤ s.now)

/-- The instance of an output release is still open. -/
def outOpen (s : State) (o : OutRel) : Bool :=
  isOf o.task (s.inst o.task) o.task o.num || isOf o.task (s.inst (nextKey o.task)) o.task o.num

/-- An output release is dropped from those still to come. -/
def dropOut (s : State) (o : OutRel) : State := s.onSeq fun q => { q with outs := q.outs.erase o }

/-- The instant of an output release finds its instance open: its down frame starts, and a commit at this very instant is
still in time (R183, R184, R350). -/
def waitOut (s : State) (o : OutRel) : State :=
  if o.begun then s
  else startFor (s.onSeq fun q => { q with outs := q.outs.map fun x => if x = o then { x with begun := true } else x }) o.task

/-- An output release whose instant has come: made, or withheld while its instance is open (R183, R184). -/
def releaseOut (s : State) (t : Nat) : State :=
  match outDue s t with
  | some o => if outOpen s o then (if o.at_ = s.now then waitOut s o else withhold s o) else outputDue (dropOut s o) t
  | none => s

/-- The input read point of a port whose running cycle has ended (R271). -/
def inputsDue (s : State) (p : Nat) : State := s.when (cycleOver s p) fun s => inputRead s p

/-- The state at a read point: every loop write set, output release and input read point of a port whose instant has come
has taken effect. -/
def settled (s : State) : State :=
  (List.range 8).foldl inputsDue ((List.range 64).foldl releaseOut ((List.range 8).foldl commitClass s))

end Sys2Proof.Machine
end

