-- ==== Sys2Proof/Machine/Field.lean ====
section
/-! DEFINITION. The commands of the bridge and the field channels (R346-R363). -/
namespace Sys2Proof.Machine

/-- `DOWN_FRAME_TICK` (R350): at every multiple of 10 us, and at another start that falls due. The device writes its S bytes
anew, which repairs them (R217; log entry 80). -/
def execDownFrameTick (dt : Nat) (s : State) : Host.Outcome State Fault Refusal :=
  let t := elapse dt s
  let t := canRepair t Area.s.has
  answer s (t.when (bridgeOn t && (t.now % 10000 == 0 || t.fld.startDue)) fun t => frameStart (settled t))

/-- `DOWN_FRAME_DEFERRED` (R350): a start that waited for the frame on the wire. -/
def execDownFrameDeferred (dt : Nat) (s : State) : Host.Outcome State Fault Refusal :=
  let t := elapse dt s
  answer s (t.when (bridgeOn t && t.fld.startDue && !wireBusy t) fun t => sendFrame (settled t))

/-- The first frame on the wire, if it has the type named and its values have reached the drivers, 1.5 us after its
start, acts on the field die (R347, R351). -/
def frameEnds (s : State) (ty : DownType) (ok : Bool) : State :=
  match s.fld.wire with
  | x :: _ => if x.frame.type = ty ∧ x.at_ + 1500 ≤ s.fld.dieNs then dieTakes s x ok else s
  | [] => s

/-- `REFRESH` (R351, R355, R359). -/
def execRefresh (dt : Nat) (ok : Bool) (s : State) : Host.Outcome State Fault Refusal :=
  answer s (frameEnds (elapse dt s) .refresh ok)

/-- `SAFE_FRAME` (R351, R355). -/
def execSafeFrame (dt : Nat) (ok : Bool) (s : State) : Host.Outcome State Fault Refusal :=
  answer s (frameEnds (elapse dt s) .safe ok)

/-- `CONFIG` (R361). -/
def execConfig (dt : Nat) (ok : Bool) (s : State) : Host.Outcome State Fault Refusal :=
  answer s (frameEnds (elapse dt s) .config ok)

/-- `IDLE` (R350, R361). -/
def execIdle (dt : Nat) (ok : Bool) (s : State) : Host.Outcome State Fault Refusal :=
  answer s (frameEnds (elapse dt s) .idle ok)

/-- `RELEASE_FRAME` (R363). -/
def execReleaseFrame (dt : Nat) (ok : Bool) (s : State) : Host.Outcome State Fault Refusal :=
  answer s (frameEnds (elapse dt s) .release ok)

/-! ## Up frames -/

/-- Edges of the field inputs trigger the tasks that select them; a pulse, which leaves the input as the up frame before
showed it, only those that select both edges (R170, R357). -/
def fieldEdges (s : State) (u : UpFrame) (before : Word) : State :=
  (List.range 32).foldl (fun s k =>
    if u.edge.getLsbD k then
      raiseSource s 0x2 fun a => a % 32 == k
        && (if u.input.getLsbD k = before.getLsbD k then a.testBit 8 && a.testBit 9
            else if u.input.getLsbD k then a.testBit 8 else a.testBit 9)
    else s) s

/-- The third consecutive valid up frame makes the stream valid; after a loss this restores it (R352, R363). -/
def streamRestored (s : State) (u : UpFrame) : State :=
  if !s.fld.valid && decide (3 ≤ s.fld.goodRun) then
    let t := s.onFld fun f => { f with valid := true, restoredAt := s.now }
    if s.fld.losses = 0 then t
    else
      let t := record t 0x0702 [.b4 ((s.now - s.fld.lostAt) / 1000)]
      if u.expired = 0 then t else record t 0x0706 [.b4 u.expired.toNat]
  else s

/-- A valid up frame: its inputs commit as one write set, and the groups of kind 2 arrive (R351, R172). -/
def upArrives (s : State) (u : UpFrame) : State :=
  let before := s.fld.seen.input
  let s := s.onFld fun f => { f with
    lastUp := some u
    lastUpSeq := some u.seq
    lastUpAt := s.now
    goodRun := f.goodRun + 1 }
  let b := leBytes 4 u.input.toNat ++ leBytes 4 u.readback.toNat
  let s := publishInputs s (atAddr 0x10000000 b)
  streamRestored (fieldEdges (fieldGroups s true) u before) u

/-- An up frame that is not valid is counted and discarded (R349, R351). -/
def upDiscard (s : State) : State :=
  fieldGroups (s.onFld fun f => { f with errs := satInc f.errs, goodRun := 0 }) false

/-- The input read point of the first frame that is out, 3.2 us after its start; `ok` says that the check value of its up
frame verifies (R349, R351). Without an up frame the groups of kind 2 miss a cycle. -/
def upEnds (s : State) (ok : Bool) : State :=
  match s.fld.answers with
  | [] => s
  | a :: _ =>
    if a.at_ + 3200 ≤ s.fld.dieNs then
      let s := s.onFld fun f => { f with answers := f.answers.drop 1 }
      match a.frame with
      | some u => if ok && s.fld.lastUpSeq != some u.seq then upArrives (learn s a) u else upDiscard s
      | none => fieldGroups (s.onFld fun f => { f with goodRun := 0 }) false
    else s

/-- `UP_FRAME` (R34, R351, R352). -/
def execUpFrame (dt : Nat) (ok : Bool) (s : State) : Host.Outcome State Fault Refusal :=
  let t := elapse dt s
  answer s (t.when (readOpen t) fun t => upEnds t ok)

/-- No valid up frame for 30 us (R352). -/
def bridgeLate (s : State) : Bool := s.fld.valid && decide (s.fld.lastUpAt + 30000 ≤ s.now)

/-- `BRIDGE_LOSS` (R352). -/
def execBridgeLoss (dt : Nat) (s : State) : Host.Outcome State Fault Refusal :=
  let t := elapse dt s
  answer s (t.when (bridgeLate t) fun t =>
    let t := t.onFld fun f => { f with valid := false, lostAt := t.now, losses := satInc f.losses, goodRun := 0 }
    record t 0x0701 [.b8 t.fld.lastUpAt, .b4 t.fld.errs.toNat])

/-! ## Silence and hold -/

/-- No valid down frame for 30 us at the field die (R362). -/
def dieLate (s : State) : Bool := !s.fld.silent && decide (s.fld.dieLastEnd + 30000 ≤ s.fld.dieNs)

/-- `SILENCE` (R359, R362): held changes are discarded and dark tests end. -/
def execSilence (dt : Nat) (s : State) : Host.Outcome State Fault Refusal :=
  let t := elapse dt s
  answer s (t.when (dieLate t) fun t =>
    let t := applyHeld t (dueChanges t (dieClock t))
    (List.range 32).foldl (fun t k => onChan t k fun x => { x with test := none })
      (t.onFld fun f => { f with silent := true, timed := [] }))

/-- The hold limit of a channel has run out during silence (R362). -/
def holdOver (s : State) (k : Nat) : Bool :=
  let x := s.chan k
  s.fld.silent && x.isOut && !x.expired &&
    (match x.hold with | some ms => decide (s.fld.dieLastEnd + 1000000 * ms ≤ s.fld.dieNs) | none => false)

/-- `CHANNEL_HOLD_EXPIRY` (R362). -/
def execChannelHoldExpiry (dt : Nat) (ch : ChanId) (s : State) : Host.Outcome State Fault Refusal :=
  let t := elapse dt s
  answer s (t.when (holdOver t ch.val) fun t => onChan t ch.val fun x => { x.safe with expired := true })

/-- The changes up to and including the first with an identifier; none without it. -/
def changesUpTo (id : BitVec 4) : List Change → List Change
  | [] => []
  | c :: r => if c.id = id then [c] else if r.any (·.id == id) then c :: changesUpTo id r else []

/-- `TIMED_CHANGE` (R355): a held change whose stamp has come is applied, after those that take effect before it. -/
def execTimedChange (dt : Nat) (id : BitVec 4) (s : State) : Host.Outcome State Fault Refusal :=
  let t := elapse dt s
  answer s (applyHeld t (changesUpTo id (dueChanges t (dieClock t))))

/-! ## Inputs and faults -/

/-- The filter time of an input channel (R357). -/
def Chan.filterNs (x : Chan) : Nat := if fld x.cfg 16 8 = 0 then 1000 else 50000 * fld x.cfg 16 8

/-- A new state of an input channel can have held for its filter time since the last accepted change (R357). -/
def filterPassed (s : State) (x : Chan) : Bool := decide (x.inAt + x.filterNs ≤ s.fld.dieNs)

/-- `FIELD_INPUT_CHANGE` (R357): a new state has passed the filter of an input channel. -/
def execFieldInputChange (dt : Nat) (ch : ChanId) (lvl : Bool) (s : State) : Host.Outcome State Fault Refusal :=
  let t := elapse dt s
  let x := t.chan ch.val
  answer s (t.when (x.isIn && vfOk t ch.val && x.input != lvl && filterPassed t x) fun t =>
    t.modChan ch.val fun x => { x with input := lvl, edge := true, inAt := t.fld.dieNs })

/-- `OVERLOAD` (R358, kind 1). -/
def execOverload (dt : Nat) (ch : ChanId) (s : State) : Host.Outcome State Fault Refusal :=
  let t := elapse dt s
  answer s (t.when (t.chan ch.val).driver fun t => chanFault t ch.val 1 true)

/-- `GROUP_LIMIT` (R358, kind 2): the output channels of the group. -/
def execGroupLimit (dt : Nat) (g : Fin 4) (s : State) : Host.Outcome State Fault Refusal :=
  let t := elapse dt s
  answer s (((groupChans t g.val).filter fun k => (t.chan k).isOut).foldl (fun t k => chanFault t k 2 false) t)

/-- The readback time in ns (R365). -/
def fldReadback (s : State) : Nat := 1000 * orElse (fld s.fld.fldCfg 0 12) 300

/-- Readback supervision acts on the channel: the readback time has passed since its driver was last switched (R358,
kind 3). -/
def readbackChecked (s : State) (x : Chan) : Bool :=
  (x.mode == 3 || x.mode == 5) && x.fault == 0 && !x.retired && x.test.isNone && decide (x.swAt + fldReadback s < s.fld.dieNs)

/-- `READBACK` (R348, R358): the pad state of an output channel; where it differs from the driver beyond the readback
time, a fault. -/
def execReadback (dt : Nat) (ch : ChanId) (lvl : Bool) (s : State) : Host.Outcome State Fault Refusal :=
  let t := elapse dt s
  let x := t.chan ch.val
  let t := t.when (readbackChecked t x && lvl != x.driver) fun t => chanFault t ch.val 3 true
  answer s (t.when x.isOut fun t => t.modChan ch.val fun x => { x with readback := lvl })

/-- The dark test of a channel has run its time (R359). -/
def testOver (s : State) (k : Nat) : Bool :=
  match (s.chan k).test with | some a => decide (a + fldTest s ≤ s.fld.dieNs) | none => false

/-- `DARK_TEST_END` (R358, R359): a readback of 1 is a fault of kind 4. -/
def execDarkTestEnd (dt : Nat) (ch : ChanId) (rb : Bool) (s : State) : Host.Outcome State Fault Refusal :=
  let t := elapse dt s
  answer s (t.when (testOver t ch.val) fun t =>
    let t := onChan t ch.val fun x => { x with test := none }
    if rb then chanFault t ch.val 4 true else t)

/-- `VF_LOSS` (R358, kind 5): the group is de-energised and its inputs read 0. -/
def execVfLoss (dt : Nat) (g : Fin 4) (s : State) : Host.Outcome State Fault Refusal :=
  let t := elapse dt s
  answer s (t.when (!t.fld.vfLost.getLsbD g.val) fun t =>
    let t := t.onFld fun f => { f with vfLost := f.vfLost ||| BitVec.ofNat 4 (1 <<< g.val) }
    (groupChans t g.val).foldl (fun t k =>
      (chanFault t k 5 false).modChan k fun x => { x with input := false, edge := x.edge || x.input, inAt := t.fld.dieNs }) t)

/-- `VF_RETURN` (R358): the group is energised again. -/
def execVfReturn (dt : Nat) (g : Fin 4) (s : State) : Host.Outcome State Fault Refusal :=
  let t := elapse dt s
  answer s (t.when (t.fld.vfLost.getLsbD g.val) fun t =>
    let t := t.onFld fun f => { f with vfLost := f.vfLost &&& ~~~ (BitVec.ofNat 4 (1 <<< g.val)) }
    (groupChans t g.val).foldl (fun t k => onChan t k id) t)

/-- 100 ms have passed since a fault of kinds 1 to 4 of a channel that is not retired (R358). -/
def followDue (s : State) (k : Nat) : Bool :=
  let x := s.chan k
  decide (1 ≤ x.fault.toNat ∧ x.fault.toNat ≤ 4) && !x.retired && decide (x.faultAt + 100000000 ≤ s.fld.dieNs)

/-- `FAULT_FOLLOW_RESUME` (R358). -/
def execFaultFollowResume (dt : Nat) (ch : ChanId) (s : State) : Host.Outcome State Fault Refusal :=
  let t := elapse dt s
  answer s (t.when (followDue t ch.val) fun t => onChan t ch.val fun x => { x with fault := 0 })

end Sys2Proof.Machine
end

