-- ==== Sys2Proof/Machine/Fret.lean ====
section
/-! DEFINITION. The commands of the shafts and the fret engine (R220-R251). -/
namespace Sys2Proof.Machine

/-- The encoder of a shaft is sampled: configured, in a state in which the main die runs a package (R220). -/
def shaftLive (s : State) (n : Nat) : Bool := shOn s.cfg n && s.dev.state.served

/-- The edges that velocity updates can still use: those of the longest window, 1 ms, and the three most recent (R226). -/
def keepEdges (t : Nat) (l : List (Nat × Int)) : List (Nat × Int) :=
  l.take 3 ++ (l.drop 3).takeWhile fun e => decide (t ≤ e.1 + 1000000)

/-- A count edge in a direction at instant `t`: the count, the anchor, the velocity carried to it, and the changes projected
again (R221, R225, R242). -/
def countMoves (s : State) (n : Nat) (fwd : Bool) (t : Nat) : State :=
  let x0 := s.shaft n
  let p0 := anchorPos s.cfg n x0
  let s := s.modShaft n fun x =>
    let x := x.moved (max 1 (shN s.cfg n)) fwd
    let v := x.v + x.acc * usOf ((t : Int) - (x.t1 : Int))
    let against := if fwd then decide (v < 0) else decide (0 < v)
    { x with t1 := t, v := if against then 0 else v, acc := if against then 0 else x.acc, backward := !fwd }
  let s := if fwd && (s.shaft n).z && (s.shaft n).zArmed then referenceEdge s n else s
  let x := s.shaft n
  let step := toSigned (anchorPos s.cfg n x + 2 ^ 40 - p0) 40
  let u := match x.edges.head? with | some e => e.2 + step | none => (anchorPos s.cfg n x : Int)
  let s := s.modShaft n fun x => { x with edges := keepEdges t ((t, u) :: x.edges) }
  reproject s n (x0.backward == fwd && !x0.edges.isEmpty)

/-- A count edge at instant `t`: overspeed is an error, also in shaft fault, where nothing is counted (R222, R223, R225). Its
error carries the count before the edge (DESIGN CHOICE, log entry 90). -/
def countEdge (s : State) (n : Nat) (fwd : Bool) (t : Nat) : State :=
  let fast := match (s.shaft n).edgeAt with | some a => decide (t < a + 50) | none => false
  let s := s.modShaft n fun x => { x with edgeAt := some t }
  let s := if fast then encError s n 2 else s
  let x := s.shaft n
  if x.fault then
    let s := s.modShaft n fun x => { x with backward := !fwd }
    if fwd && x.z && x.zArmed then referenceEdge s n else s
  else countMoves s n fwd t

/-- A change of an encoder's inputs that has passed the filter, and that came at instant `t`: a count edge, an illegal
transition, or a change of Z alone (R220, R222, R225, R230). -/
def encoderEdge (s : State) (n : Nat) (a b z : Bool) (t : Nat) : State :=
  let x := s.shaft n
  let s := s.modShaft n fun x => { x with
    a := a
    b := b
    z := z
    zArmed := x.zArmed || (z && !x.z) }
  if (a != x.a) && (b != x.b) then encError s n 1
  else if (a != x.a) || (b != x.b) then countEdge s n (edgeForward (shInv s.cfg n) (if a != x.a then !a else a) a b) t
  else s

/-- An input whose level `raw` has lasted `f` ns and is not the accepted one: the instant of its change (R220). -/
def passedAt (f now : Nat) (old raw : Bool) (at_ : Nat) : Option Nat :=
  if raw != old && decide (at_ + f ≤ now) then some at_ else none

/-- The earliest changes that have passed the filter of a shaft and are not accepted yet are accepted (R220). -/
def acceptNext (s : State) (n : Nat) : State :=
  let x := s.shaft n
  let p := passedAt (5 * shFilt s.cfg n) s.now
  match ([p x.a x.raw.1 x.since.1, p x.b x.raw.2.1 x.since.2.1, p x.z x.raw.2.2 x.since.2.2].filterMap id).min? with
  | some t =>
    let lvl (old raw : Bool) (at_ : Nat) : Bool := if at_ = t then raw else old
    encoderEdge s n (lvl x.a x.raw.1 x.since.1) (lvl x.b x.raw.2.1 x.since.2.1) (lvl x.z x.raw.2.2 x.since.2.2) t
  | none => s

/-- Every change of a shaft's inputs that has passed the filter by now is accepted, in order (R220). -/
def acceptAll (s : State) (n : Nat) : State := acceptNext (acceptNext (acceptNext s n) n) n

/-- The accepted changes of every configured shaft. -/
def acceptShafts (s : State) : State := (List.range 4).foldl (fun s n => s.when (shOn s.cfg n) fun s => acceptAll s n) s

/-- A sample of a shaft's inputs: a state shorter than the filter time never becomes an accepted one (R220). -/
def sampleShaft (s : State) (n : Nat) (a b z : Bool) : State :=
  let t := s.now / 5 * 5
  let at_ (old new : Bool) (c : Nat) : Nat := if old = new then c else t
  acceptAll ((acceptAll s n).modShaft n fun x => { x with
    raw := (a, b, z)
    since := (at_ x.raw.1 a x.since.1, at_ x.raw.2.1 b x.since.2.1, at_ x.raw.2.2 z x.since.2.2) }) n

/-- `COUNT_EDGE` (R225). -/
def execCountEdge (dt : Nat) (sh : ShaftId) (a b z : Bool) (s : State) : Host.Outcome State Fault Refusal :=
  let t := elapse dt s
  answer s (t.when (shaftLive t sh.val) fun t => sampleShaft t sh.val a b z)

/-- `Z_RISING_EDGE` (R220, R230). -/
def execZRisingEdge (dt : Nat) (sh : ShaftId) (s : State) : Host.Outcome State Fault Refusal :=
  let t := elapse dt s
  let x := t.shaft sh.val
  answer s (t.when (shaftLive t sh.val) fun t => sampleShaft t sh.val x.raw.1 x.raw.2.1 true)

/-- `WIRE_ERROR` (R222): one encoder error when the pair begins to read open or shorted. -/
def execWireError (dt : Nat) (sh : ShaftId) (s : State) : Host.Outcome State Fault Refusal :=
  let t := elapse dt s
  answer s (t.when (shaftLive t sh.val && !(t.shaft sh.val).wire) fun t =>
    encError (t.modShaft sh.val fun x => { x with wire := true, wireAt := t.now }) sh.val 4)

/-- `WIRE_ERROR_CLEARED` (R223). -/
def execWireErrorCleared (dt : Nat) (sh : ShaftId) (s : State) : Host.Outcome State Fault Refusal :=
  let t := elapse dt s
  answer s (t.modShaft sh.val fun x => { x with wire := false })

/-- A wire error has persisted for 1 ms (R223). -/
def wirePersists (s : State) (n : Nat) : Bool :=
  let x := s.shaft n
  x.wire && decide (x.wireAt + 1000000 ≤ s.now) && !x.fault

/-- `WIRE_FAULT_TIMEOUT` (R223). -/
def execWireFaultTimeout (dt : Nat) (sh : ShaftId) (s : State) : Host.Outcome State Fault Refusal :=
  let t := elapse dt s
  answer s (t.when (wirePersists t sh.val) fun t => shaftFault t sh.val)

/-- The velocity and acceleration of an update at instant u with window w (R226). Fewer than three edges ever
seen leave no value stated: free values. -/
def velocityOf (free u w : Nat) (x : Shaft) : Rat × Rat × Bool :=
  if !(x.edges.any fun e => decide (u < e.1 + 50000000)) then (0, 0, true)
  else
    let inW := x.edges.filter fun e => decide (u < e.1 + w)
    let es := (if inW.length < 3 then x.edges.take 3 else inW).reverse
    let k := es.length
    if k < 3 then
      (((Config.freeWord free).toInt : Rat) / 65536, ((Config.freeWord (free + 1)).toInt : Rat) / 16777216, false)
    else
      let e0 := es.getD 0 (0, 0)
      let em := es.getD (k / 2) (0, 0)
      let e1 := es.getD (k - 1) (0, 0)
      let tU (a b : Nat × Int) : Rat := usOf ((b.1 : Int) - (a.1 : Int))
      let va := ((em.2 - e0.2 : Int) : Rat) / tU e0 em
      let vb := ((e1.2 - em.2 : Int) : Rat) / tU em e1
      let a := (vb - va) / (tU e0 e1 / 2)
      (vb + a * tU em e1 / 2, a, false)

/-- No count edge has come for 50 ms (R226). -/
def stoppedAt (u : Nat) (x : Shaft) : Bool := match x.edgeAt with | some a => decide (a + 50000000 ≤ u) | none => true

/-- The velocity update of one shaft (R226); a shaft in shaft fault keeps velocity and acceleration 0 (R223). -/
def updateShaft (s : State) (n : Nat) : State :=
  let x := s.shaft n
  if !shOn s.cfg n then s
  else if x.fault then s.modShaft n fun x => { x with stopped := stoppedAt s.now x }
  else
    let (v, a, stopped) := velocityOf s.free s.now (shWin s.cfg n) x
    (s.modShaft n fun x => { x with v := v, acc := a, stopped := stopped }).drawn.drawn

/-- The velocity update of every shaft, with the deadlines of the rows and the creep-speed check of HOLD (R48, R226, R250). -/
def velocityUpdate (s : State) : State :=
  let s := rowDeadlines ((List.range 4).foldl updateShaft s)
  if s.dev.state == .hold && ((List.range 4).any fun n => atCreep s n) then takeStop s 0x16 none else s

/-- `VELOCITY_UPDATE` (R226): on multiples of 25 us. -/
def execVelocityUpdate (dt : Nat) (s : State) : Host.Outcome State Fault Refusal :=
  let t := elapse dt s
  answer s (t.when (t.now % 25000 == 0 && t.dev.state.served) fun t => velocityUpdate (acceptShafts t))

/-- `FRET_EVALUATION` (R238): on multiples of 25 ns. -/
def execFretEvaluation (dt : Nat) (s : State) : Host.Outcome State Fault Refusal :=
  let t := elapse dt s
  answer s (t.when (t.now % 25 == 0 && t.dev.state.served) fun t => evalAll (acceptShafts t))

/-- The projected crossing of a row whose streaming on a port is overdue (R246). -/
def leadDue (s : State) (id : BitVec 16) (p : Nat) : Option Nat :=
  match rowEntry s id with
  | none => none
  | some e =>
    match e.row, e.projected s.cfg (s.shaft e.shaft.val) with
    | some r, some t =>
      let here := r.parts.filter fun x => x.1 / 32 == p
      if !here.isEmpty && !r.armed && !r.leadSaid.contains p && (here.all fun x => tabGet 0 r.sent x.1 == 0)
          && !(r.leadOpen.any fun x => x.1 == p) && (s.shaft e.shaft.val).referenced
          && decide (t ≤ s.now + pLead s.cfg p) then some t else none
    | _, _ => none

/-- `FRET_LEAD` (R246): streaming starts as soon as it can, in the running cycle where the port has room in it. -/
def execFretLead (dt : Nat) (row : BitVec 16) (pt : PortId) (s : State) : Host.Outcome State Fault Refusal :=
  let t := departAll (elapse dt s)
  answer s (match leadDue t row pt.val with
    | some c =>
      let t := modRow t row fun r => { r with leadOpen := r.leadOpen ++ [(pt.val, c)] }
      if (t.port (homePort t.cfg pt.val)).t0.isSome then (sendRows t (homePort t.cfg pt.val) (slotAt t (homePort t.cfg pt.val) 5)).1 else t
    | none => t)

/-- A row that is not confirmed has passed its deadline, as of the last velocity update (R250). -/
def missDue (s : State) (id : BitVec 16) : Option (FretE × RowSt) :=
  match rowEntry s id with
  | none => none
  | some e =>
    match e.row with
    | none => none
    | some r =>
      if r.armed then none
      else match r.deadline with
        | some d => if d ≤ s.now then some (e, r) else none
        | none => none

/-- `FRET_MISSED` (R251). -/
def execFretMissed (dt : Nat) (row : BitVec 16) (s : State) : Host.Outcome State Fault Refusal :=
  let t := elapse dt s
  answer s (match missDue t row with | some (e, r) => rowMissed t e r | none => t)

end Sys2Proof.Machine
end

