-- ==== Sys2Proof/Machine/LaneAlu.lean ====
section
/-! DEFINITION. The register ALU (R115-R118), the immediate operations (R120) and division (R124). -/
namespace Sys2Proof.Machine

/-- gd and the flags from add of R116 over two words computed from the copy; a compare writes the flags only. -/
def addUnit (d : Nat) (keep : Bool) (f : Copy → Word × Word × Bool) (c : Copy) : Copy :=
  let (a, b, cin) := f c
  let (r, cy, v) := addWith a b cin
  (if keep then c.setReg d r else c).setFl (flZNCV c.regs.fl r cy v)

/-- gd and Z N from a bitwise result; a test writes the flags only. -/
def logicUnit (d : Nat) (keep : Bool) (f : Copy → Word) (c : Copy) : Copy :=
  let r := f c
  (if keep then c.setReg d r else c).setFl (flZN c.regs.fl r)

/-- gd and Z N C from a shift or rotate of gd by the low eight bits of a count (R97, R117). -/
def shiftUnit (op : ShiftOp) (d : Nat) (cnt : Copy → Word) (c : Copy) : Copy :=
  let (r, cy) := shiftWith op (c.reg d) ((cnt c).toNat % 256)
  (c.setReg d r).setFl (flShift c.regs.fl r cy)

/-- gd and Z N V from a multiplication (R97, R118). -/
def mulUnit (d : Nat) (b : Copy → Word) (c : Copy) : Copy :=
  let r := c.reg d * b c
  (c.setReg d r).setFl (flMul c.regs.fl r (mulOverflow (c.reg d) (b c)))

/-- `DIVS` and `DIVU` (R124): the pair g(2p), g(2p + 1). -/
def divUnit (signed : Bool) (pr r : BitVec 3) (s : State) (k : Nat) (c : Copy) : Res :=
  let a := c.reg (2 * pr.toNat)
  let (q, m, v, dz) := divideWith signed a (c.reg r.toNat)
  if dz && tDzTrap s.cfg (keyTask k) then { s := s, c := c, flow := .fault fcDivZero }
  else { s := s, c := ((c.setReg (2 * pr.toNat) q).setReg (2 * pr.toNat + 1) m).setFl (flDiv c.regs.fl q v dz) }


/-- `MOV` (R115): gd := gs; no flag. -/
def execMov (l : LaneId) (p : List Pre) (d r : BitVec 4) (s : State) : Host.Outcome State Fault Refusal :=
  answer s (issue l.val p {} (pureUnit fun c => c.setReg d.toNat (c.reg r.toNat)) s)

/-- `ADD` (R115): gd := add(gd, gs, 0). -/
def execAdd (l : LaneId) (p : List Pre) (d r : BitVec 4) (s : State) : Host.Outcome State Fault Refusal :=
  answer s (issue l.val p {} (pureUnit (addUnit d.toNat true fun c => (c.reg d.toNat, c.reg r.toNat, false))) s)

/-- `ADC` (R115): gd := add(gd, gs, C). -/
def execAdc (l : LaneId) (p : List Pre) (d r : BitVec 4) (s : State) : Host.Outcome State Fault Refusal :=
  answer s (issue l.val p {} (pureUnit (addUnit d.toNat true fun c => (c.reg d.toNat, c.reg r.toNat, (flOf c.regs.fl).c))) s)

/-- `SUB` (R115): gd := add(gd, not gs, 1). -/
def execSub (l : LaneId) (p : List Pre) (d r : BitVec 4) (s : State) : Host.Outcome State Fault Refusal :=
  answer s (issue l.val p {} (pureUnit (addUnit d.toNat true fun c => (c.reg d.toNat, ~~~c.reg r.toNat, true))) s)

/-- `SBC` (R115): gd := add(gd, not gs, C). -/
def execSbc (l : LaneId) (p : List Pre) (d r : BitVec 4) (s : State) : Host.Outcome State Fault Refusal :=
  answer s (issue l.val p {} (pureUnit (addUnit d.toNat true fun c => (c.reg d.toNat, ~~~c.reg r.toNat, (flOf c.regs.fl).c))) s)

/-- `CMP` (R115): the flags of add(gd, not gs, 1). -/
def execCmp (l : LaneId) (p : List Pre) (d r : BitVec 4) (s : State) : Host.Outcome State Fault Refusal :=
  answer s (issue l.val p {} (pureUnit (addUnit d.toNat false fun c => (c.reg d.toNat, ~~~c.reg r.toNat, true))) s)

/-- `AND` (R115): gd := gd and gs. -/
def execAnd (l : LaneId) (p : List Pre) (d r : BitVec 4) (s : State) : Host.Outcome State Fault Refusal :=
  answer s (issue l.val p {} (pureUnit (logicUnit d.toNat true fun c => c.reg d.toNat &&& c.reg r.toNat)) s)

/-- `OR` (R115): gd := gd or gs. -/
def execOr (l : LaneId) (p : List Pre) (d r : BitVec 4) (s : State) : Host.Outcome State Fault Refusal :=
  answer s (issue l.val p {} (pureUnit (logicUnit d.toNat true fun c => c.reg d.toNat ||| c.reg r.toNat)) s)

/-- `XOR` (R115): gd := gd xor gs. -/
def execXor (l : LaneId) (p : List Pre) (d r : BitVec 4) (s : State) : Host.Outcome State Fault Refusal :=
  answer s (issue l.val p {} (pureUnit (logicUnit d.toNat true fun c => c.reg d.toNat ^^^ c.reg r.toNat)) s)

/-- `TST` (R115): Z and N of gd and gs. -/
def execTst (l : LaneId) (p : List Pre) (d r : BitVec 4) (s : State) : Host.Outcome State Fault Refusal :=
  answer s (issue l.val p {} (pureUnit (logicUnit d.toNat false fun c => c.reg d.toNat &&& c.reg r.toNat)) s)

/-- `NEG` (R115): gd := add(0, not gs, 1). -/
def execNeg (l : LaneId) (p : List Pre) (d r : BitVec 4) (s : State) : Host.Outcome State Fault Refusal :=
  answer s (issue l.val p {} (pureUnit (addUnit d.toNat true fun c => (0, ~~~c.reg r.toNat, true))) s)

/-- `LSL` (R115): gd shifted left by gs[7:0]. -/
def execLsl (l : LaneId) (p : List Pre) (d r : BitVec 4) (s : State) : Host.Outcome State Fault Refusal :=
  answer s (issue l.val p {} (pureUnit (shiftUnit .lsl d.toNat fun c => c.reg r.toNat)) s)

/-- `LSR` (R115): gd shifted right logically by gs[7:0]. -/
def execLsr (l : LaneId) (p : List Pre) (d r : BitVec 4) (s : State) : Host.Outcome State Fault Refusal :=
  answer s (issue l.val p {} (pureUnit (shiftUnit .lsr d.toNat fun c => c.reg r.toNat)) s)

/-- `ASR` (R115): gd shifted right arithmetically by gs[7:0]. -/
def execAsr (l : LaneId) (p : List Pre) (d r : BitVec 4) (s : State) : Host.Outcome State Fault Refusal :=
  answer s (issue l.val p {} (pureUnit (shiftUnit .asr d.toNat fun c => c.reg r.toNat)) s)

/-- `ROR` (R115): gd rotated right by gs[7:0] mod 32. -/
def execRor (l : LaneId) (p : List Pre) (d r : BitVec 4) (s : State) : Host.Outcome State Fault Refusal :=
  answer s (issue l.val p {} (pureUnit (shiftUnit .ror d.toNat fun c => c.reg r.toNat)) s)

/-- `MUL` (R115): gd := (gd x gs) mod 2^32. -/
def execMul (l : LaneId) (p : List Pre) (d r : BitVec 4) (s : State) : Host.Outcome State Fault Refusal :=
  answer s (issue l.val p {} (pureUnit (mulUnit d.toNat fun c => c.reg r.toNat)) s)

/-- `MOVI` (R108, R120): gd := imm; no flag. -/
def execMovi (l : LaneId) (p : List Pre) (d : BitVec 4) (imm : BitVec 2) (s : State) : Host.Outcome State Fault Refusal :=
  answer s (issue l.val p { ext := true } (pureUnit fun c => c.setReg d.toNat (joinS p imm.toNat 2)) s)

/-- `ADDI` (R108, R120): gd := add(gd, imm, 0). -/
def execAddi (l : LaneId) (p : List Pre) (d : BitVec 4) (imm : BitVec 2) (s : State) : Host.Outcome State Fault Refusal :=
  answer s (issue l.val p { ext := true } (pureUnit (addUnit d.toNat true fun c => (c.reg d.toNat, joinS p imm.toNat 2, false))) s)

/-- `SUBI` (R108, R120): gd := add(gd, not imm, 1). -/
def execSubi (l : LaneId) (p : List Pre) (d : BitVec 4) (imm : BitVec 2) (s : State) : Host.Outcome State Fault Refusal :=
  answer s (issue l.val p { ext := true } (pureUnit (addUnit d.toNat true fun c => (c.reg d.toNat, ~~~(joinS p imm.toNat 2), true))) s)

/-- `CMPI` (R108, R120): the flags of add(gd, not imm, 1). -/
def execCmpi (l : LaneId) (p : List Pre) (d : BitVec 4) (imm : BitVec 2) (s : State) : Host.Outcome State Fault Refusal :=
  answer s (issue l.val p { ext := true } (pureUnit (addUnit d.toNat false fun c => (c.reg d.toNat, ~~~(joinS p imm.toNat 2), true))) s)

/-- `ANDI` (R108, R120): gd := gd and imm. -/
def execAndi (l : LaneId) (p : List Pre) (d : BitVec 4) (imm : BitVec 2) (s : State) : Host.Outcome State Fault Refusal :=
  answer s (issue l.val p { ext := true } (pureUnit (logicUnit d.toNat true fun c => c.reg d.toNat &&& joinS p imm.toNat 2)) s)

/-- `ORI` (R108, R120): gd := gd or imm. -/
def execOri (l : LaneId) (p : List Pre) (d : BitVec 4) (imm : BitVec 2) (s : State) : Host.Outcome State Fault Refusal :=
  answer s (issue l.val p { ext := true } (pureUnit (logicUnit d.toNat true fun c => c.reg d.toNat ||| joinS p imm.toNat 2)) s)

/-- `XORI` (R108, R120): gd := gd xor imm. -/
def execXori (l : LaneId) (p : List Pre) (d : BitVec 4) (imm : BitVec 2) (s : State) : Host.Outcome State Fault Refusal :=
  answer s (issue l.val p { ext := true } (pureUnit (logicUnit d.toNat true fun c => c.reg d.toNat ^^^ joinS p imm.toNat 2)) s)

/-- `TSTI` (R108, R120): Z and N of gd and imm. -/
def execTsti (l : LaneId) (p : List Pre) (d : BitVec 4) (imm : BitVec 2) (s : State) : Host.Outcome State Fault Refusal :=
  answer s (issue l.val p { ext := true } (pureUnit (logicUnit d.toNat false fun c => c.reg d.toNat &&& joinS p imm.toNat 2)) s)

/-- `MULI` (R108, R120): gd := (gd x imm) mod 2^32. -/
def execMuli (l : LaneId) (p : List Pre) (d : BitVec 4) (imm : BitVec 2) (s : State) : Host.Outcome State Fault Refusal :=
  answer s (issue l.val p { ext := true } (pureUnit (mulUnit d.toNat fun _ => joinS p imm.toNat 2)) s)

/-- `LSLI` (R108, R120): as `LSL`, count cnt[7:0]. -/
def execLsli (l : LaneId) (p : List Pre) (d : BitVec 4) (imm : BitVec 2) (s : State) : Host.Outcome State Fault Refusal :=
  answer s (issue l.val p { ext := true } (pureUnit (shiftUnit .lsl d.toNat fun _ => joinZ p imm.toNat 2)) s)

/-- `LSRI` (R108, R120): as `LSR`, count cnt[7:0]. -/
def execLsri (l : LaneId) (p : List Pre) (d : BitVec 4) (imm : BitVec 2) (s : State) : Host.Outcome State Fault Refusal :=
  answer s (issue l.val p { ext := true } (pureUnit (shiftUnit .lsr d.toNat fun _ => joinZ p imm.toNat 2)) s)

/-- `ASRI` (R108, R120): as `ASR`, count cnt[7:0]. -/
def execAsri (l : LaneId) (p : List Pre) (d : BitVec 4) (imm : BitVec 2) (s : State) : Host.Outcome State Fault Refusal :=
  answer s (issue l.val p { ext := true } (pureUnit (shiftUnit .asr d.toNat fun _ => joinZ p imm.toNat 2)) s)

/-- `RORI` (R108, R120): as `ROR`, count cnt[7:0]. -/
def execRori (l : LaneId) (p : List Pre) (d : BitVec 4) (imm : BitVec 2) (s : State) : Host.Outcome State Fault Refusal :=
  answer s (issue l.val p { ext := true } (pureUnit (shiftUnit .ror d.toNat fun _ => joinZ p imm.toNat 2)) s)

/-- `DIVS` (R124). -/
def execDivs (l : LaneId) (p : List Pre) (pr r : BitVec 3) (s : State) : Host.Outcome State Fault Refusal :=
  answer s (issue l.val p {} (divUnit true pr r) s)

/-- `DIVU` (R124). -/
def execDivu (l : LaneId) (p : List Pre) (pr r : BitVec 3) (s : State) : Host.Outcome State Fault Refusal :=
  answer s (issue l.val p {} (divUnit false pr r) s)

end Sys2Proof.Machine
end

