-- ==== Sys2Proof/Machine/LaneBits.lean ====
section
/-! DEFINITION. Bit operations (R109-R113), RLO operations (R121), parity and bit reverse (R155). -/
namespace Sys2Proof.Machine

/-- `BLD` (R109-R113): RLO := bit n. -/
def execBld (l : LaneId) (p : List Pre) (n : BitVec 9) (s : State) : Host.Outcome State Fault Refusal :=
  answer s (issue l.val p { ext := true } (bitUnit 0 p n) s)

/-- `BLDN` (R109-R113): RLO := not bit n. -/
def execBldn (l : LaneId) (p : List Pre) (n : BitVec 9) (s : State) : Host.Outcome State Fault Refusal :=
  answer s (issue l.val p { ext := true } (bitUnit 1 p n) s)

/-- `BAND` (R109-R113): RLO := RLO and bit n. -/
def execBand (l : LaneId) (p : List Pre) (n : BitVec 9) (s : State) : Host.Outcome State Fault Refusal :=
  answer s (issue l.val p { ext := true } (bitUnit 2 p n) s)

/-- `BANDN` (R109-R113): RLO := RLO and not bit n. -/
def execBandn (l : LaneId) (p : List Pre) (n : BitVec 9) (s : State) : Host.Outcome State Fault Refusal :=
  answer s (issue l.val p { ext := true } (bitUnit 3 p n) s)

/-- `BOR` (R109-R113): RLO := RLO or bit n. -/
def execBor (l : LaneId) (p : List Pre) (n : BitVec 9) (s : State) : Host.Outcome State Fault Refusal :=
  answer s (issue l.val p { ext := true } (bitUnit 4 p n) s)

/-- `BST` (R109-R113): bit n := RLO. -/
def execBst (l : LaneId) (p : List Pre) (n : BitVec 9) (s : State) : Host.Outcome State Fault Refusal :=
  answer s (issue l.val p { ext := true } (bitUnit 5 p n) s)

/-- `BSET` (R109-R113): if RLO = 1 then bit n := 1. -/
def execBset (l : LaneId) (p : List Pre) (n : BitVec 9) (s : State) : Host.Outcome State Fault Refusal :=
  answer s (issue l.val p { ext := true } (bitUnit 6 p n) s)

/-- `BRST` (R109-R113): if RLO = 1 then bit n := 0. -/
def execBrst (l : LaneId) (p : List Pre) (n : BitVec 9) (s : State) : Host.Outcome State Fault Refusal :=
  answer s (issue l.val p { ext := true } (bitUnit 7 p n) s)

/-- A word with its 32 bits reversed (R155). -/
def brevWord (v : Word) : Word := BitVec.ofNat 32 (revBits 32 v.toNat)

/-- A word with the bits of each byte reversed (R155). -/
def brevBytes (v : Word) : Word := BitVec.ofNat 32 (ofLe ((leBytes 4 v.toNat).map fun b => BitVec.ofNat 8 (revBits 8 b.toNat)))


/-- `RTOG` (R121): gd := RLO, as 0 or 1. -/
def execRtog (l : LaneId) (p : List Pre) (d : BitVec 4) (s : State) : Host.Outcome State Fault Refusal :=
  answer s (issue l.val p {} (pureUnit fun c => c.setReg d.toNat (b2w c.regs.rlo)) s)

/-- `GTOR` (R121): RLO := 1 if gs is not 0, else 0. -/
def execGtor (l : LaneId) (p : List Pre) (r : BitVec 4) (s : State) : Host.Outcome State Fault Refusal :=
  answer s (issue l.val p {} (pureUnit fun c => c.setRlo (c.reg r.toNat != 0)) s)

/-- `RNOT` (R121): RLO := not RLO. -/
def execRnot (l : LaneId) (p : List Pre) (s : State) : Host.Outcome State Fault Refusal :=
  answer s (issue l.val p {} (pureUnit fun c => c.setRlo !c.regs.rlo) s)

/-- `RSET` (R121): RLO := 1. -/
def execRset (l : LaneId) (p : List Pre) (s : State) : Host.Outcome State Fault Refusal :=
  answer s (issue l.val p {} (pureUnit fun c => c.setRlo true) s)

/-- `RCLR` (R121): RLO := 0. -/
def execRclr (l : LaneId) (p : List Pre) (s : State) : Host.Outcome State Fault Refusal :=
  answer s (issue l.val p {} (pureUnit fun c => c.setRlo false) s)

/-- `PAR` (R155): RLO := 1 if gs holds an odd number of ones, else 0. -/
def execPar (l : LaneId) (p : List Pre) (r : BitVec 4) (s : State) : Host.Outcome State Fault Refusal :=
  answer s (issue l.val p {} (pureUnit fun c => c.setRlo (decide (popcount 32 (c.reg r.toNat).toNat % 2 = 1))) s)

/-- `BREV` (R155): gd := gs with bit j moved to bit 31 - j. -/
def execBrev (l : LaneId) (p : List Pre) (d r : BitVec 3) (s : State) : Host.Outcome State Fault Refusal :=
  answer s (issue l.val p {} (pureUnit fun c => c.setReg d.toNat (brevWord (c.reg r.toNat))) s)

/-- `BREVB` (R155): within each byte of gs, bit j moved to bit 7 - j. -/
def execBrevb (l : LaneId) (p : List Pre) (d r : BitVec 3) (s : State) : Host.Outcome State Fault Refusal :=
  answer s (issue l.val p {} (pureUnit fun c => c.setReg d.toNat (brevBytes (c.reg r.toNat))) s)

end Sys2Proof.Machine
end

