-- ==== Sys2Proof/Machine/LaneControl.lean ====
section
/-! DEFINITION. Skips, branches, calls, loops, repeats, CRC, `CHK` and `HALT` (R133-R157). -/
namespace Sys2Proof.Machine

/-- Target of a relative transfer (R138). -/
def relTarget (c : Copy) (p : List Pre) (own f : Nat) : BitVec 21 := ownWord c p + 1 + (joinS p own f).setWidth 21

/-- LR written with the address after the instruction's own word (R139). -/
def Copy.link (c : Copy) (p : List Pre) : Copy := c.setReg 14 ((ownWord c p).setWidth 32 + 1)

/-- `CALL` and `CALLR`: LR := A + 1, PC := the target formed from the registers before (R103, R137). -/
def callUnit (p : List Pre) (t : Copy → BitVec 21) (s : State) (_ : Nat) (c : Copy) : Res :=
  { s := s, c := c.link p, flow := .call (t c) }

/-- `LOOP` (R141): at depth 4 the fault, then the body entered or passed over. -/
def loopUnit (p : List Pre) (r len : BitVec 4) (c : Copy) : Flow :=
  let a := ownWord c p
  let n := (joinZ p len.toNat 4).setWidth 21
  if c.regs.depth.val = 4 then .fault fcLoopDepth
  else if c.reg r.toNat = 0 then .loop (a + 1 + n) none
  else .loop (a + 1) (some (a + n, c.reg r.toNat))

/-- The instruction that stands after `REP`, repeated (R148). -/
def repUnit (p : List Pre) (b : RepBody) (run : Nat) : State → Nat → Copy → Res :=
  match b with
  | .movs w => elemUnit p run (movsElem (2 ^ w.val))
  | .fillw r => elemUnit p run (fillElem r.toNat)
  | .crcm w => elemUnit p run (crcmElem (2 ^ w.val))
  | .writesRep | .other => fun s _ c => { s := s, c := c }

/-- What decoding needs to know of the instruction after `REP` (R84, R86, R106). -/
def repDec (b : RepBody) : Dec :=
  match b with
  | .movs _ | .fillw _ | .crcm _ => { rep := true }
  | .writesRep => { writesRep := true }
  | .other => {}

/-- `CHK` (R156): the first is the check-in of the instance, a second by the same lane sets EXCESS; each further one counts
as a second (DEDUCED, log entry 84). -/
def chkUnit (s : State) (k : Nat) (c : Copy) : Res :=
  let t := keyTask k
  if 64 ≤ t then { s := s, c := c }
  else if c.chk = 0 then
    let num := match s.inst t with | some i => i.num | none => 0
    { s := s.onSeq fun q => { q with wins := q.wins.map fun w => if w.task = t ∧ w.num = num then { w with chk := true } else w }
      c := { c with chk := 1 } }
  else
    let s := seeS (s.modTask t fun x => { x with excess := true })
    { s := record s 0x0203 [.b1 t, .b1 c.lane, .b4 c.regs.pc.toNat], c := { c with chk := 2 } }


/-- `SK`cc (R133-R135): the next unit is skipped when cc holds. -/
def execSkcc (l : LaneId) (p : List Pre) (cc : BitVec 4) (s : State) : Host.Outcome State Fault Refusal :=
  answer s (issue l.val p {} (pureUnit fun c => { c with skip := condHolds cc c.regs.rlo c.regs.fl }) s)

/-- `SKZ` (R134): skip when gs = 0. -/
def execSkz (l : LaneId) (p : List Pre) (r : BitVec 4) (s : State) : Host.Outcome State Fault Refusal :=
  answer s (issue l.val p {} (pureUnit fun c => { c with skip := c.reg r.toNat == 0 }) s)

/-- `SKNZ` (R134): skip when gs is not 0. -/
def execSknz (l : LaneId) (p : List Pre) (r : BitVec 4) (s : State) : Host.Outcome State Fault Refusal :=
  answer s (issue l.val p {} (pureUnit fun c => { c with skip := c.reg r.toNat != 0 }) s)

/-- `B`cc (R137, R138). -/
def execBcc (l : LaneId) (p : List Pre) (cc : BitVec 4) (off : BitVec 4) (s : State) : Host.Outcome State Fault Refusal :=
  answer s (issue l.val p { ext := true } (flowUnit fun c => if condHolds cc c.regs.rlo c.regs.fl then .jump (relTarget c p off.toNat 4) else .seq) s)

/-- `BRA` (R137, R138). -/
def execBra (l : LaneId) (p : List Pre) (off : BitVec 6) (s : State) : Host.Outcome State Fault Refusal :=
  answer s (issue l.val p { ext := true } (flowUnit fun c => .jump (relTarget c p off.toNat 6)) s)

/-- `CALL` (R137-R139). -/
def execCall (l : LaneId) (p : List Pre) (off : BitVec 6) (s : State) : Host.Outcome State Fault Refusal :=
  answer s (issue l.val p { ext := true } (callUnit p fun c => relTarget c p off.toNat 6) s)

/-- `BR` (R137, R138). -/
def execBr (l : LaneId) (p : List Pre) (r : BitVec 4) (s : State) : Host.Outcome State Fault Refusal :=
  answer s (issue l.val p {} (flowUnit fun c => .jump ((c.reg r.toNat).setWidth 21)) s)

/-- `CALLR` (R137-R139). -/
def execCallr (l : LaneId) (p : List Pre) (r : BitVec 4) (s : State) : Host.Outcome State Fault Refusal :=
  answer s (issue l.val p {} (callUnit p fun c => (c.reg r.toNat).setWidth 21) s)

/-- `RET` (R137). -/
def execRet (l : LaneId) (p : List Pre) (s : State) : Host.Outcome State Fault Refusal :=
  answer s (issue l.val p {} (flowUnit fun c => .jump ((c.reg 14).setWidth 21)) s)

/-- `LOOP` (R141). A joined length of 0 is `ILLEGAL` whatever the number of prefix words (R132; DEDUCED, log entry 84). -/
def execLoop (l : LaneId) (p : List Pre) (r : BitVec 4) (len : BitVec 4) (s : State) : Host.Outcome State Fault Refusal :=
  answer s (issue l.val p { legal := joinZ p len.toNat 4 != 0, ext := true } (flowUnit (loopUnit p r len)) s)

/-- `LEAVE` (R145). -/
def execLeave (l : LaneId) (p : List Pre) (s : State) : Host.Outcome State Fault Refusal :=
  answer s (issue l.val p {} (flowUnit fun c => if c.regs.depth.val = 0 then .seq else .leave) s)

/-- `REP` (R84, R148-R150): the unit of the words `pre`, `REP`, `post` and the instruction `inner`. -/
def execRep (l : LaneId) (pre post : List Pre) (inner : RepBody) (run : Nat) (s : State) : Host.Outcome State Fault Refusal :=
  let p := pre ++ [Pre.rep] ++ post
  answer s (issue l.val p (repDec inner) (repUnit p inner run) s)

/-- `CRCB` (R152, R154). -/
def execCrcb (l : LaneId) (p : List Pre) (r : BitVec 4) (s : State) : Host.Outcome State Fault Refusal :=
  answer s (issue l.val p {} (pureUnit fun c => crcStep c ((c.reg r.toNat).toNat % 2 ^ 8) 8) s)

/-- `CRCH` (R152, R154). -/
def execCrch (l : LaneId) (p : List Pre) (r : BitVec 4) (s : State) : Host.Outcome State Fault Refusal :=
  answer s (issue l.val p {} (pureUnit fun c => crcStep c ((c.reg r.toNat).toNat % 2 ^ 16) 16) s)

/-- `CRCW` (R152, R154). -/
def execCrcw (l : LaneId) (p : List Pre) (r : BitVec 4) (s : State) : Host.Outcome State Fault Refusal :=
  answer s (issue l.val p {} (pureUnit fun c => crcStep c ((c.reg r.toNat).toNat % 2 ^ 32) 32) s)

/-- `CRCMB` (R154). -/
def execCrcmb (l : LaneId) (p : List Pre) (run : Nat) (s : State) : Host.Outcome State Fault Refusal :=
  answer s (issue l.val p { rep := true } (elemUnit p run (crcmElem 1)) s)

/-- `CRCMH` (R154). -/
def execCrcmh (l : LaneId) (p : List Pre) (run : Nat) (s : State) : Host.Outcome State Fault Refusal :=
  answer s (issue l.val p { rep := true } (elemUnit p run (crcmElem 2)) s)

/-- `CRCMW` (R154). -/
def execCrcmw (l : LaneId) (p : List Pre) (run : Nat) (s : State) : Host.Outcome State Fault Refusal :=
  answer s (issue l.val p { rep := true } (elemUnit p run (crcmElem 4)) s)

/-- `CRCI` (R153). -/
def execCrci (l : LaneId) (p : List Pre) (s : State) : Host.Outcome State Fault Refusal :=
  answer s (issue l.val p {} (pureUnit crcInit) s)

/-- `CRCF` (R153). -/
def execCrcf (l : LaneId) (p : List Pre) (d : BitVec 4) (s : State) : Host.Outcome State Fault Refusal :=
  answer s (issue l.val p {} (pureUnit fun c => c.setReg d.toNat (crcFinal c)) s)

/-- `CHK` (R156). -/
def execChk (l : LaneId) (p : List Pre) (s : State) : Host.Outcome State Fault Refusal :=
  answer s (issue l.val p {} (chkUnit) s)

/-- `HALT` (R157); `errs` are the word errors found by the check of its shadow lines (R217). -/
def execHalt (l : LaneId) (p : List Pre) (errs : List EccErr) (s : State) : Host.Outcome State Fault Refusal :=
  answer s (issueWith errs l.val p {} (flowUnit fun _ => .halt) s)

end Sys2Proof.Machine
end

