-- ==== Sys2Proof/Machine/LaneFloat.lean ====
section
/-! DEFINITION. Binary32 operations (R99, R128). -/
namespace Sys2Proof.Machine

/-- gx := f gx gy (R128). -/
def floatUnit (f : Word → Word → Word) (x y : BitVec 3) (c : Copy) : Copy :=
  c.setReg x.toNat (f (c.reg x.toNat) (c.reg y.toNat))


/-- `FADD` (R99, R128). -/
def execFadd (l : LaneId) (p : List Pre) (x y : BitVec 3) (s : State) : Host.Outcome State Fault Refusal :=
  answer s (issue l.val p {} (pureUnit (floatUnit fAdd x y)) s)

/-- `FSUB` (R99, R128). -/
def execFsub (l : LaneId) (p : List Pre) (x y : BitVec 3) (s : State) : Host.Outcome State Fault Refusal :=
  answer s (issue l.val p {} (pureUnit (floatUnit fSub x y)) s)

/-- `FMUL` (R99, R128). -/
def execFmul (l : LaneId) (p : List Pre) (x y : BitVec 3) (s : State) : Host.Outcome State Fault Refusal :=
  answer s (issue l.val p {} (pureUnit (floatUnit fMul x y)) s)

/-- `FDIV` (R99, R128). -/
def execFdiv (l : LaneId) (p : List Pre) (x y : BitVec 3) (s : State) : Host.Outcome State Fault Refusal :=
  answer s (issue l.val p {} (pureUnit (floatUnit fDiv x y)) s)

/-- `FCMP` (R99, R128): Z N C V of gx against gy. -/
def execFcmp (l : LaneId) (p : List Pre) (x y : BitVec 3) (s : State) : Host.Outcome State Fault Refusal :=
  answer s (issue l.val p {} (pureUnit fun c => c.setFl (flCmp c.regs.fl (c.reg x.toNat) (c.reg y.toNat))) s)

/-- `FTOI` (R99, R128): gx := integer of gy; Z N V. -/
def execFtoi (l : LaneId) (p : List Pre) (x y : BitVec 3) (s : State) : Host.Outcome State Fault Refusal :=
  answer s (issue l.val p {} (pureUnit fun c => let r := fToInt (c.reg y.toNat)
    (c.setReg x.toNat r.1).setFl (flMul c.regs.fl r.1 r.2)) s)

/-- `ITOF` (R99, R128): gx := binary32 of the signed integer gy. -/
def execItof (l : LaneId) (p : List Pre) (x y : BitVec 3) (s : State) : Host.Outcome State Fault Refusal :=
  answer s (issue l.val p {} (pureUnit fun c => c.setReg x.toNat (fOfInt (c.reg y.toNat).toInt)) s)

end Sys2Proof.Machine
end

