-- ==== Sys2Proof/Machine/LaneMem.lean ====
section
/-! DEFINITION. Loads and stores (R125, R126), string elements (R121, R122), special-register moves (R127). -/
namespace Sys2Proof.Machine

/-- `LDB` (R125, R126). -/
def execLdb (l : LaneId) (p : List Pre) (d b : BitVec 4) (s : State) : Host.Outcome State Fault Refusal :=
  answer s (issue l.val p { ext := true } (loadUnit p d b 1 false) s)

/-- `LDBS` (R125, R126). -/
def execLdbs (l : LaneId) (p : List Pre) (d b : BitVec 4) (s : State) : Host.Outcome State Fault Refusal :=
  answer s (issue l.val p { ext := true } (loadUnit p d b 1 true) s)

/-- `LDH` (R125, R126). -/
def execLdh (l : LaneId) (p : List Pre) (d b : BitVec 4) (s : State) : Host.Outcome State Fault Refusal :=
  answer s (issue l.val p { ext := true } (loadUnit p d b 2 false) s)

/-- `LDHS` (R125, R126). -/
def execLdhs (l : LaneId) (p : List Pre) (d b : BitVec 4) (s : State) : Host.Outcome State Fault Refusal :=
  answer s (issue l.val p { ext := true } (loadUnit p d b 2 true) s)

/-- `LDW` (R125, R126). -/
def execLdw (l : LaneId) (p : List Pre) (d b : BitVec 4) (s : State) : Host.Outcome State Fault Refusal :=
  answer s (issue l.val p { ext := true } (loadUnit p d b 4 false) s)

/-- `STB` (R125). -/
def execStb (l : LaneId) (p : List Pre) (r b : BitVec 4) (s : State) : Host.Outcome State Fault Refusal :=
  answer s (issue l.val p { ext := true } (storeUnit p r b 1) s)

/-- `STH` (R125). -/
def execSth (l : LaneId) (p : List Pre) (r b : BitVec 4) (s : State) : Host.Outcome State Fault Refusal :=
  answer s (issue l.val p { ext := true } (storeUnit p r b 2) s)

/-- `STW` (R125). -/
def execStw (l : LaneId) (p : List Pre) (r b : BitVec 4) (s : State) : Host.Outcome State Fault Refusal :=
  answer s (issue l.val p { ext := true } (storeUnit p r b 4) s)

/-- `MOVSB` (R121, R122); with `REP`, at most `run` elements before a switch (R149). -/
def execMovsb (l : LaneId) (p : List Pre) (run : Nat) (s : State) : Host.Outcome State Fault Refusal :=
  answer s (issue l.val p { rep := true } (elemUnit p run (movsElem 1)) s)

/-- `MOVSH` (R121, R122); with `REP`, at most `run` elements before a switch (R149). -/
def execMovsh (l : LaneId) (p : List Pre) (run : Nat) (s : State) : Host.Outcome State Fault Refusal :=
  answer s (issue l.val p { rep := true } (elemUnit p run (movsElem 2)) s)

/-- `MOVSW` (R121, R122); with `REP`, at most `run` elements before a switch (R149). -/
def execMovsw (l : LaneId) (p : List Pre) (run : Nat) (s : State) : Host.Outcome State Fault Refusal :=
  answer s (issue l.val p { rep := true } (elemUnit p run (movsElem 4)) s)

/-- `FILLW` (R121, R122). -/
def execFillw (l : LaneId) (p : List Pre) (r : BitVec 4) (run : Nat) (s : State) : Host.Outcome State Fault Refusal :=
  answer s (issue l.val p { rep := true } (elemUnit p run (fillElem r.toNat)) s)

/-- `MFS` (R127): gd := sr. -/
def execMfs (l : LaneId) (p : List Pre) (sr : BitVec 5) (g : BitVec 3) (s : State) : Host.Outcome State Fault Refusal :=
  answer s (issue l.val p { legal := srLegal sr } (pureUnit fun c => c.setReg g.toNat (srRead c.regs sr)) s)

/-- `MTS` (R106, R127): sr := gs. -/
def execMts (l : LaneId) (p : List Pre) (sr : BitVec 5) (g : BitVec 3) (s : State) : Host.Outcome State Fault Refusal :=
  answer s (issue l.val p { legal := srLegal sr, writesRep := decide (3 ≤ sr.toNat ∧ sr.toNat ≤ 5) } (pureUnit (mtsOn sr g.toNat)) s)

end Sys2Proof.Machine
end

