-- ==== Sys2Proof/Machine/LaneSys.lean ====
section
/-! DEFINITION. `SYS`, `CFG`, `FRET`, `FRETC` and unassigned words (R102, R158-R163). -/
namespace Sys2Proof.Machine

/-- `SYS` (R158): gd := the system register of the joined number. -/
def execSys (l : LaneId) (p : List Pre) (d : BitVec 4) (srn : BitVec 2) (s : State) : Host.Outcome State Fault Refusal :=
  answer s (issue l.val p { ext := true } (sysUnit d.toNat (joinZ p srn.toNat 2).toNat) s)

/-- `CFG` (R159): gs to the system register of the joined number. -/
def execCfg (l : LaneId) (p : List Pre) (r : BitVec 4) (srn : BitVec 2) (s : State) : Host.Outcome State Fault Refusal :=
  answer s (issue l.val p { ext := true } (cfgUnit r.toNat (joinZ p srn.toNat 2).toNat) s)

/-- `FRET` (R162). -/
def execFret (l : LaneId) (p : List Pre) (d r : BitVec 3) (s : State) : Host.Outcome State Fault Refusal :=
  answer s (issue l.val p {} (fretUnit d.toNat r.toNat) s)

/-- `FRETC` (R163). -/
def execFretc (l : LaneId) (p : List Pre) (d r : BitVec 3) (s : State) : Host.Outcome State Fault Refusal :=
  answer s (issue l.val p {} (fretcUnit d.toNat r.toNat) s)

/-- An unassigned word (R102, R130): `ILLEGAL` when it is decoded. An assigned word is no such command. -/
def execUnassignedEncoding (l : LaneId) (p : List Pre) (w : BitVec 14) (s : State) : Host.Outcome State Fault Refusal :=
  answer s (if assignedWord w then s else issue l.val p { legal := false } (pureUnit fun c => c) s)

end Sys2Proof.Machine
end

