-- ==== Sys2Proof/Machine/Loops.lean ====
section
/-! DEFINITION. The commands of the loop engine (R322, R327, R336). -/
namespace Sys2Proof.Machine

/-- The class is sampled now: enabled, at a multiple of its period strictly after the last entry to RUN, in a
state in which loops sample, and not yet sampled at this instant (R321, R341). -/
def classDue (s : State) (k : Nat) : Bool :=
  kOn s.cfg k && kPeriod s.cfg k != 0 && s.now % (1000 * kPeriod s.cfg k) == 0 && decide (s.lp.after < s.now)
    && (s.dev.state == .run || s.dev.state == .clearing || (s.dev.state == .hold && !wbit (rGet s.cfg 0x0015 0) 1))
    && tabGet none s.lp.sampled k != some s.now

/-- The sample of class `k` at this instant: its loops in ascending order; its write set waits for its commit
instant t + 0.2 us + 0.15 us x M (R322). -/
def sampleClass (s : State) (k : Nat) : State :=
  let s := s.onLp fun l => { l with sampled := tabSet none k (some s.now) l.sampled }
  let s := s.onSeq fun q => { q with readAt := some s.now }
  let a := ((lAll s.cfg).filter fun n => lClass s.cfg n == k && loopRuns s n).foldl LoopAcc.loop { s := s }
  a.s.onLp fun l => { l with pend := l.pend ++ [{ cls := k, at_ := s.now + 200 + 150 * loopsUpTo s.cfg k,
                                                  bytes := a.bytes, tunes := a.tunes, aux := a.aux, capEnds := a.capEnds,
                                                  capHead := a.capHead }] }

/-- `LOOP_SAMPLE` (R327). -/
def execLoopSample (dt : Nat) (k : Fin 8) (s : State) : Host.Outcome State Fault Refusal :=
  let t := elapse dt s
  answer s (t.when (classDue t k) fun t => sampleClass (settled t) k)

/-- `LOOP_CLASS_COMMIT` (R322). -/
def execLoopClassCommit (dt : Nat) (k : Fin 8) (s : State) : Host.Outcome State Fault Refusal :=
  answer s (commitClass (elapse dt s) k)

/-- The tune of a loop has run longer than its duration limit (R336). -/
def tuneLate (s : State) (n : Nat) : Bool :=
  match (s.loop n).tune with | some t => t.ending.isNone && decide (t.startAt + t.limitNs ≤ s.now) | none => false

/-- `TUNE_TIMEOUT` (R336). -/
def execTuneTimeout (dt : Nat) (n : Fin 256) (s : State) : Host.Outcome State Fault Refusal :=
  let t := elapse dt s
  answer s (t.when (tuneLate t n) fun t => tuneEndsAs t n stTimeout)

end Sys2Proof.Machine
end

