-- ==== Sys2Proof/Machine/NvCmds.lean ====
section
/-! DEFINITION. The commands of the service core's work on the parameter store and the recorder (R436-R460). -/
namespace Sys2Proof.Machine

/-- The service core serves the parameter store: it is powered, and out of reset. -/
def nvServed (s : State) : Bool := s.dev.state != .off && s.dev.state != .standby

/-- A completed write of other work shows that the save and the flush before it have ended (R437). -/
def otherWork (s : State) : State := s.onNv fun n => { n with saving := none }

/-- `USER_RECORD_WRITE` (R437, R441, R446): after system records and counters. -/
def execUserRecordWrite (dt : Nat) (s : State) : Host.Outcome State Fault Refusal :=
  let t := elapse dt s
  answer s (t.when (nvServed t && userTurn t) fun t => userStep (otherWork t))

/-- `COUNTER_INCREMENT` (R437, R449). -/
def execCounterIncrement (dt : Nat) (s : State) : Host.Outcome State Fault Refusal :=
  let t := elapse dt s
  answer s (t.when (nvServed t && t.nv.sysW.isEmpty) fun t => counterStep (otherWork t))

/-- `OPERATING_MINUTE` (R450): each 60 s of operating time asks for one increment of counter 0. -/
def execOperatingMinute (dt : Nat) (s : State) : Host.Outcome State Fault Refusal :=
  let t := elapse dt s
  let m := t.op / 60000000000
  answer s (t.when (nvServed t && t.op % 60000000000 == 0 && decide (t.nv.minutes < m)) fun t =>
    t.onNv fun n => { n with minutes := m, incW := n.incW ++ [(0, .no)] })

/-- `SYSTEM_RECORD_WRITE` (R441, R442): the write at the head of the queue reaches its commit point. -/
def execSystemRecordWrite (dt : Nat) (id : BitVec 16) (s : State) : Host.Outcome State Fault Refusal :=
  let t := elapse dt s
  answer s (t.when (nvServed t && t.nv.sysW.head? == some id) fun t => commitSys (otherWork t) id.toNat)

/-- `RECORDER_WRITE` (R459). -/
def execRecorderWrite (dt : Nat) (s : State) : Host.Outcome State Fault Refusal :=
  let t := elapse dt s
  answer s (t.when (nvServed t) fun t => recorderStep (otherWork t))

/-- `MERGED_RECORD_REWRITE` (R460): the die now holds the oldest of the merged records. -/
def execMergedRecordRewrite (dt : Nat) (s : State) : Host.Outcome State Fault Refusal :=
  let t := elapse dt s
  answer s (t.when (nvServed t) fun t => (otherWork t).onNv fun n => { n with dirty := n.dirty.drop 1 })

/-- `NV_SCRUB` (R436): the words in which the pass finds an error. -/
def execNvScrub (dt : Nat) (errs : List (Nat × Bool)) (s : State) : Host.Outcome State Fault Refusal :=
  let t := elapse dt s
  answer s (t.when (nvServed t) fun t =>
    (errs.filter fun e => decide (e.1 < 0x40000)).foldl (fun t e => nvError t e.1 e.2) t)

/-- The states in which periodic saves run (R454). -/
def saveStates (d : DevState) : Bool := d == .stop || d == .run || d == .hold || d == .clearing

/-- The period of reason 4 in ns (R454, R465). -/
def savePeriod (c : Tab Word) : Nat := 1000000 * orElse (fld (rGet c 0x0B03 0) 0 16) 1000

/-- A save of reason 4 is due and may start (R453, R454). -/
def periodicDue (s : State) : Bool :=
  saveStates s.dev.state && !s.nv.copyDue && s.nv.saveWait.isNone &&
    (match s.nv.saveFrom with | some f => decide (f + savePeriod s.cfg ≤ s.now) | none => false)

/-- `PERIODIC_WARM_SAVE` (R454). -/
def execPeriodicWarmSave (dt : Nat) (s : State) : Host.Outcome State Fault Refusal :=
  let t := elapse dt s
  answer s (t.when (periodicDue t) fun t => saveDue t 4)

/-- `WARM_COPY` (R453). -/
def execWarmCopy (dt : Nat) (s : State) : Host.Outcome State Fault Refusal :=
  let t := elapse dt s
  answer s (t.when (nvServed t && t.nv.copyDue) warmCopyOver)

end Sys2Proof.Machine
end

