-- ==== Sys2Proof/Machine/Sequencer.lean ====
section
/-! DEFINITION. The commands of the task sequencer and the task watchdog (R167-R195). -/
namespace Sys2Proof.Machine

/-! ## Releases -/

/-- `now` is a period boundary of a cyclic task (R167). -/
def atBoundary (s : State) (t : Nat) : Bool :=
  let p : Int := (usNs (tPeriod s.cfg t) : Nat)
  decide (p ≠ 0) && decide (((s.now : Int) - (usNs (tPhase s.cfg t) : Nat)) % p = 0)

/-- A period boundary of a cyclic task falls on this instant and has not been handled: strictly after the entry to
RUN or the return from CLEARING or HOLD, guard tasks apart (R43, R47, R167). -/
def boundaryDue (s : State) (t : Nat) : Bool :=
  tEnable s.cfg t && !tEvent s.cfg t && atBoundary s t && (s.task t).lastDue != some s.now
    && (tGuard s.cfg t || decide (s.seq.after < s.now))

/-- A release that falls due is skipped in this state: in HOLD, and in CLEARING of a stopped task (R171). -/
def skipsNow (s : State) (t : Nat) : Bool :=
  !tGuard s.cfg t && (s.dev.state == .hold || (s.dev.state == .clearing && !tBasic s.cfg t))

/-- A release that falls due may be made: the state releases the task, and it is not guard-stopped (R56, R187, R419). -/
def mayRelease (s : State) (t : Nat) : Bool := releasable s t && (s.task t).gstop == 0 && !(s.task t).cleared

/-- A release of a task under an exchange whose epoch has passed: a coordinated task arrives, another one switches
first (R409, R410). -/
def releaseOrSwitch (s : State) (t : Nat) : State :=
  match s.pkg.exch.run with
  | some (p, _) =>
    if s.pkg.exch.epochPassed && !(s.task t).switched then
      if p.coord.contains t then (if (s.task t).heldAt.isSome then s else arrive s p t)
      else exchCheckDone (release (switchTasks s p [t]) t)
    else release s t
  | none => release s t

/-- A period boundary (R167, R171). A task that has an instance open and another one released behind it skips it
(DEDUCED, log entry 55). -/
def boundary (s : State) (t : Nat) : State :=
  let s := s.modTask t fun x => { x with lastDue := some s.now }
  if skipsNow s t || (mayRelease s t && (s.inst (nextKey t)).isSome) then skipRelease s t
  else if mayRelease s t then releaseOrSwitch s t
  else s

/-- `CYCLIC_RELEASE` (R167). -/
def execCyclicRelease (dt : Nat) (t : TaskId) (s : State) : Host.Outcome State Fault Refusal :=
  let u := elapse dt s
  answerS s (u.when (boundaryDue u t) fun u => boundary u t)

/-- A recognised trigger of an event task (R168, R169, R171). -/
def trigger (s : State) (g : Trig) : State :=
  let t := g.task
  let x := s.task t
  if !(tEnable s.cfg t && tEvent s.cfg t && x.armed) || x.gstop != 0 then s
  else if skipsNow s t then skipRelease s t
  else if !releasable s t then s
  else if x.latched then record (skipRelease s t) 0x0207 [.b1 t, .b1 g.source.toNat]
  else if x.heldAt.isSome || (s.inst t).isSome || (match x.lastRel with | some a => decide (s.now < a + usNs (tGap s.cfg t)) | none => false) then
    s.modTask t fun x => { x with latched := true }
  else releaseOrSwitch s t

/-- The first trigger of a task that waits to be recognised is taken. -/
def takeTrig (s : State) (t : Nat) : State :=
  match s.seq.trigs.find? fun g => g.task == t with
  | some g => trigger (s.onSeq fun q => { q with trigs := q.trigs.eraseP fun x => x.task == t }) g
  | none => s

/-- `EVENT_TRIGGER` (R168, R169). -/
def execEventTrigger (dt : Nat) (t : TaskId) (s : State) : Host.Outcome State Fault Refusal :=
  answerS s (takeTrig (elapse dt s) t)

/-- A latched trigger is due its release (R169). -/
def latchedDue (s : State) (t : Nat) : Bool :=
  let x := s.task t
  x.latched && x.heldAt.isNone && mayRelease s t && (s.inst t).isNone
    && (match x.lastRel with | some a => decide (a + usNs (tGap s.cfg t) ≤ s.now) | none => true)

/-- `LATCHED_RELEASE` (R169). -/
def execLatchedRelease (dt : Nat) (t : TaskId) (s : State) : Host.Outcome State Fault Refusal :=
  let u := elapse dt s
  answerS s (u.when (latchedDue u t) fun u => releaseOrSwitch (u.modTask t fun x => { x with latched := false }) t)

/-- `TASK_AGED` (R177): the copies of the task on the lane pass their starvation bound, and the lane decides. -/
def execTaskAged (dt : Nat) (t : TaskId) (l : LaneId) (s : State) : Host.Outcome State Fault Refusal :=
  let u := elapse dt s
  answerS s (decideLane ((copiesOf u t).foldl (fun u e =>
    if e.2.lane == l.val && ageDue u e.1 e.2 && e.2.ended.isNone && !isFrozen u t then ageCopy u e.1 e.2 else u) u) l)

/-! ## Commit and output release -/

/-- The copy whose write set a passed instance commits: the first one. -/
def passedCopy (s : State) (t : Nat) : Option (Inst × Copy) :=
  match s.inst t, s.copy (4 * t) with
  | some i, some c => if i.phase = .passed then some (i, c) else none
  | _, _ => none

/-- `COMMIT` (R181). -/
def execCommit (dt : Nat) (t : TaskId) (s : State) : Host.Outcome State Fault Refusal :=
  let u := elapse dt s
  answerS s (match passedCopy u t with | some (i, c) => u.when (commitInOrder u t) fun u => tryCommit u t i c | none => u)

/-- `OUTPUT_RELEASE` (R183, R184, R350): the bytes are presented, and the bridge frame that this makes due starts. -/
def execOutputRelease (dt : Nat) (t : TaskId) (s : State) : Host.Outcome State Fault Refusal :=
  let u := releaseOut (elapse dt s) t
  answerS s (u.when (bridgeOn u && u.fld.startDue) fun u => frameStart (settled u))

/-! ## Task watchdog -/

/-- `TASK_WATCHDOG_VERDICT` (R185, R186, R190): every window that closes at this instant is decided before the
transition of the first verdict runs. -/
def execTaskWatchdogVerdict (dt : Nat) (t : TaskId) (s : State) : Host.Outcome State Fault Refusal :=
  let u := elapse dt s
  answerS s (match winDue u t with
    | some _ => if supervised u t then judgeTwd u else decideWin u t
    | none => u)

/-- `AT_TIME_EXPIRY` (R195). -/
def execAtTimeExpiry (dt : Nat) (t : TaskId) (s : State) : Host.Outcome State Fault Refusal :=
  let u := elapse dt s
  answerS s (match (u.task t).atTime with
    | some a => if a ≤ u.now then raiseTrigger (u.modTask t fun x => { x with atTime := none }) t 0x0 else u
    | none => u)

end Sys2Proof.Machine
end

