-- ==== Sys2Proof/Machine/Syscalls.lean ====
section
/-! DEFINITION. `SYSC` (R160), and one row for each system call of R194, R257, R294, R342, R364, R380, R414, R432 and R464. -/
namespace Sys2Proof.Machine

/-- `SYSC` (R160): the call of the joined number. -/
def execSysc (l : LaneId) (p : List Pre) (d : BitVec 4) (n : BitVec 2) (s : State) : Host.Outcome State Fault Refusal :=
  answer s (issue l.val p { ext := true } (sysCall d.toNat (joinZ p n.toNat 2).toNat) s)

/-- `SYSC` of call 0x0200 (R194). -/
def execTaskTrigger (l : LaneId) (p : List Pre) (d : BitVec 4) (s : State) : Host.Outcome State Fault Refusal :=
  answer s (issue l.val p { ext := true } (sysCall d.toNat 0x0200) s)

/-- `SYSC` of call 0x0201 (R194). -/
def execReleaseTime (l : LaneId) (p : List Pre) (d : BitVec 4) (s : State) : Host.Outcome State Fault Refusal :=
  answer s (issue l.val p { ext := true } (sysCall d.toNat 0x0201) s)

/-- `SYSC` of call 0x0202 (R194). -/
def execAtTime (l : LaneId) (p : List Pre) (d : BitVec 4) (s : State) : Host.Outcome State Fault Refusal :=
  answer s (issue l.val p { ext := true } (sysCall d.toNat 0x0202) s)

/-- `SYSC` of call 0x0203 (R194). -/
def execSnapInfo (l : LaneId) (p : List Pre) (d : BitVec 4) (s : State) : Host.Outcome State Fault Refusal :=
  answer s (issue l.val p { ext := true } (sysCall d.toNat 0x0203) s)

/-- `SYSC` of call 0x0400 (R257). -/
def execShaftRead (l : LaneId) (p : List Pre) (d : BitVec 4) (s : State) : Host.Outcome State Fault Refusal :=
  answer s (issue l.val p { ext := true } (sysCall d.toNat 0x0400) s)

/-- `SYSC` of call 0x0500 (R294). -/
def execYlReadmit (l : LaneId) (p : List Pre) (d : BitVec 4) (s : State) : Host.Outcome State Fault Refusal :=
  answer s (issue l.val p { ext := true } (sysCall d.toNat 0x0500) s)

/-- `SYSC` of call 0x0501 (R294). -/
def execYlMbxSend (l : LaneId) (p : List Pre) (d : BitVec 4) (s : State) : Host.Outcome State Fault Refusal :=
  answer s (issue l.val p { ext := true } (sysCall d.toNat 0x0501) s)

/-- `SYSC` of call 0x0502 (R294). -/
def execYlMbxRead (l : LaneId) (p : List Pre) (d : BitVec 4) (s : State) : Host.Outcome State Fault Refusal :=
  answer s (issue l.val p { ext := true } (sysCall d.toNat 0x0502) s)

/-- `SYSC` of call 0x0503 (R294). -/
def execYlStaInfo (l : LaneId) (p : List Pre) (d : BitVec 4) (s : State) : Host.Outcome State Fault Refusal :=
  answer s (issue l.val p { ext := true } (sysCall d.toNat 0x0503) s)

/-- `SYSC` of call 0x0504 (R294). -/
def execYlCount (l : LaneId) (p : List Pre) (d : BitVec 4) (s : State) : Host.Outcome State Fault Refusal :=
  answer s (issue l.val p { ext := true } (sysCall d.toNat 0x0504) s)

/-- `SYSC` of call 0x0600 (R342). -/
def execLoopRead (l : LaneId) (p : List Pre) (d : BitVec 4) (s : State) : Host.Outcome State Fault Refusal :=
  answer s (issue l.val p { ext := true } (sysCall d.toNat 0x0600) s)

/-- `SYSC` of call 0x0601 (R342). -/
def execLoopTune (l : LaneId) (p : List Pre) (d : BitVec 4) (s : State) : Host.Outcome State Fault Refusal :=
  answer s (issue l.val p { ext := true } (sysCall d.toNat 0x0601) s)

/-- `SYSC` of call 0x0602 (R342). -/
def execLoopCapture (l : LaneId) (p : List Pre) (d : BitVec 4) (s : State) : Host.Outcome State Fault Refusal :=
  answer s (issue l.val p { ext := true } (sysCall d.toNat 0x0602) s)

/-- `SYSC` of call 0x0603 (R342). -/
def execLoopAbort (l : LaneId) (p : List Pre) (d : BitVec 4) (s : State) : Host.Outcome State Fault Refusal :=
  answer s (issue l.val p { ext := true } (sysCall d.toNat 0x0603) s)

/-- `SYSC` of call 0x0700 (R364). -/
def execFldReadmit (l : LaneId) (p : List Pre) (d : BitVec 4) (s : State) : Host.Outcome State Fault Refusal :=
  answer s (issue l.val p { ext := true } (sysCall d.toNat 0x0700) s)

/-- `SYSC` of call 0x0800 (R380). -/
def execCbusSend (l : LaneId) (p : List Pre) (d : BitVec 4) (s : State) : Host.Outcome State Fault Refusal :=
  answer s (issue l.val p { ext := true } (sysCall d.toNat 0x0800) s)

/-- `SYSC` of call 0x0801 (R380). -/
def execCbusAbort (l : LaneId) (p : List Pre) (d : BitVec 4) (s : State) : Host.Outcome State Fault Refusal :=
  answer s (issue l.val p { ext := true } (sysCall d.toNat 0x0801) s)

/-- `SYSC` of call 0x0802 (R380). -/
def execCbusRecover (l : LaneId) (p : List Pre) (d : BitVec 4) (s : State) : Host.Outcome State Fault Refusal :=
  answer s (issue l.val p { ext := true } (sysCall d.toNat 0x0802) s)

/-- `SYSC` of call 0x0803 (R380). -/
def execCbusReadmit (l : LaneId) (p : List Pre) (d : BitVec 4) (s : State) : Host.Outcome State Fault Refusal :=
  answer s (issue l.val p { ext := true } (sysCall d.toNat 0x0803) s)

/-- `SYSC` of call 0x0900 (R414). -/
def execHostNotify (l : LaneId) (p : List Pre) (d : BitVec 4) (s : State) : Host.Outcome State Fault Refusal :=
  answer s (issue l.val p { ext := true } (sysCall d.toNat 0x0900) s)

/-- `SYSC` of call 0x0A00 (R432). -/
def execSafeStop (l : LaneId) (p : List Pre) (d : BitVec 4) (s : State) : Host.Outcome State Fault Refusal :=
  answer s (issue l.val p { ext := true } (sysCall d.toNat 0x0A00) s)

/-- `SYSC` of call 0x0A01 (R432). -/
def execSafeStatus (l : LaneId) (p : List Pre) (d : BitVec 4) (s : State) : Host.Outcome State Fault Refusal :=
  answer s (issue l.val p { ext := true } (sysCall d.toNat 0x0A01) s)

/-- `SYSC` of call 0x0B00 (R464). -/
def execNvRead (l : LaneId) (p : List Pre) (d : BitVec 4) (s : State) : Host.Outcome State Fault Refusal :=
  answer s (issue l.val p { ext := true } (sysCall d.toNat 0x0B00) s)

/-- `SYSC` of call 0x0B01 (R464). -/
def execNvWrite (l : LaneId) (p : List Pre) (d : BitVec 4) (s : State) : Host.Outcome State Fault Refusal :=
  answer s (issue l.val p { ext := true } (sysCall d.toNat 0x0B01) s)

/-- `SYSC` of call 0x0B02 (R464). -/
def execNvAbort (l : LaneId) (p : List Pre) (d : BitVec 4) (s : State) : Host.Outcome State Fault Refusal :=
  answer s (issue l.val p { ext := true } (sysCall d.toNat 0x0B02) s)

/-- `SYSC` of call 0x0B03 (R464). -/
def execNvCount (l : LaneId) (p : List Pre) (d : BitVec 4) (s : State) : Host.Outcome State Fault Refusal :=
  answer s (issue l.val p { ext := true } (sysCall d.toNat 0x0B03) s)

/-- `SYSC` of call 0x0B04 (R464). -/
def execNvCountRead (l : LaneId) (p : List Pre) (d : BitVec 4) (s : State) : Host.Outcome State Fault Refusal :=
  answer s (issue l.val p { ext := true } (sysCall d.toNat 0x0B04) s)

/-- `SYSC` of call 0x0B05 (R464). -/
def execRecUser (l : LaneId) (p : List Pre) (d : BitVec 4) (s : State) : Host.Outcome State Fault Refusal :=
  answer s (issue l.val p { ext := true } (sysCall d.toNat 0x0B05) s)

end Sys2Proof.Machine
end

