-- ==== Sys2Proof/Machine/TapCmds.lean ====
section
/-! DEFINITION. The TAP (R528-R531): Test-Logic-Reset and the instructions, by the data register that each selects
and what it does to the pads. -/
namespace Sys2Proof.Machine

/-- The data register between TDI and TDO (IEEE 1149.1, R528). -/
inductive TapReg where
  | boundary | idcode | bypass
  deriving DecidableEq, Repr

/-- The data register that an instruction selects. -/
def TapIr.reg : TapIr → TapReg
  | .extest | .sample => .boundary
  | .idcode => .idcode
  | .clamp | .highz | .bypass => .bypass

/-- The IDCODE register (R530). -/
def idcodeReg : Word := put 0 28 4 ||| put 0x9632 12 16 ||| put Config.jep106.toNat 1 11 ||| 1

/-- The TAP answers in every state except OFF and STANDBY (R528). -/
def onTap (s : State) (f : State → State) : State := if powered s then f s else s

/-- An instruction of board test selects BYPASS unless `SVC_BOOT.TEST` = 1 (R529). -/
def tapSelect (s : State) (ir : TapIr) : State :=
  let test := ir == .extest || ir == .clamp || ir == .highz
  let ir := if test && !s.tap.testEn then .bypass else ir
  { s with tap := { s.tap with
    ir := ir
    padsFromCells := ir == .extest || ir == .clamp
    padsHighZ := ir == .highz } }

/-- SAMPLE captures the pads and PRELOAD shifts in what the tester sends: the cells then hold values that the command does
not carry. -/
def tapSample (s : State) : State :=
  let v := (Config.freeWord s.free).toNat + 2 ^ 32 * (Config.freeWord (s.free + 1)).toNat
  let s := tapSelect s .sample
  { s with
    tap := { s.tap with cells := BitVec.ofNat 58 v }
    free := s.free + 2 }

/-- `TEST_LOGIC_RESET` (R528). -/
def execTestLogicReset (dt : Nat) (s : State) : Host.Outcome State Fault Refusal :=
  answerTap s (onTap (elapse dt s) fun t => tapSelect t .idcode)

/-- `EXTEST` (R529). -/
def execExtest (dt : Nat) (s : State) : Host.Outcome State Fault Refusal :=
  answerTap s (onTap (elapse dt s) fun t => tapSelect t .extest)

/-- `SAMPLE/PRELOAD` (R528). -/
def execSamplePreload (dt : Nat) (s : State) : Host.Outcome State Fault Refusal :=
  answerTap s (onTap (elapse dt s) tapSample)

/-- `IDCODE` (R530). -/
def execIdcode (dt : Nat) (s : State) : Host.Outcome State Fault Refusal :=
  answerTap s (onTap (elapse dt s) fun t => tapSelect t .idcode)

/-- `CLAMP` (R529). -/
def execClamp (dt : Nat) (s : State) : Host.Outcome State Fault Refusal :=
  answerTap s (onTap (elapse dt s) fun t => tapSelect t .clamp)

/-- `HIGHZ` (R529). -/
def execHighz (dt : Nat) (s : State) : Host.Outcome State Fault Refusal :=
  answerTap s (onTap (elapse dt s) fun t => tapSelect t .highz)

/-- `BYPASS` (R528). -/
def execBypass (dt : Nat) (s : State) : Host.Outcome State Fault Refusal :=
  answerTap s (onTap (elapse dt s) fun t => tapSelect t .bypass)

end Sys2Proof.Machine
end

