-- ==== Sys2Proof/Machine/Yelx.lean ====
section
/-! DEFINITION. The commands of the Yelx ports: link, cycles, received frames and their timers (R262-R293). -/
namespace Sys2Proof.Machine

/-- Time passes, and the frames of the ports whose start has come leave. -/
def ylElapse (dt : Nat) (s : State) : State := departAll (elapse dt s)

/-! ## Link (R262, R280) -/

/-- `PORT_SIGNAL_DETECT` (R280). -/
def execPortSignalDetect (dt : Nat) (pt : PortId) (s : State) : Host.Outcome State Fault Refusal :=
  let t := ylElapse dt s
  answerS s (t.when ((t.port pt.val).state == 1) fun t => t.modPort pt.val fun x => { x with state := 2, syncingAt := t.now })

/-- A port that is SYNCING has link: the admission pass begins (R262, R280, R282). -/
def gainLink (s : State) (p : Nat) : State :=
  if (s.port p).state = 2 then
    let s := s.modPort p fun x => { x with state := 3, admitAt := s.now, passSta := 0 }
    let s := s.modPort (p / 2 * 2) fun x => { x with lossSaid := false }
    passFrom s p 0
  else s

/-- `PORT_LINK` (R262): Clause 37 has completed with the partner's base page, of which FD and RF count. -/
def execPortLink (dt : Nat) (page : BasePage) (s : State) : Host.Outcome State Fault Refusal :=
  let t := ylElapse dt s
  answerS s (t.when (page.fd && page.rf == 0) fun t => gainLink t page.port.val)

/-- `PARTNER_IDLE_TIMEOUT` (R262): the partner has sent only idles for 10 ms. -/
def execPartnerIdleTimeout (dt : Nat) (pt : PortId) (s : State) : Host.Outcome State Fault Refusal :=
  let t := ylElapse dt s
  answerS s (t.when (decide ((t.port pt.val).syncingAt + 10000000 ≤ t.now)) fun t => gainLink t pt.val)

/-- `PORT_LINK_LOSS` (R280). -/
def execPortLinkLoss (dt : Nat) (pt : PortId) (s : State) : Host.Outcome State Fault Refusal :=
  let t := ylElapse dt s
  let x := (t.port pt.val).state
  answerS s (t.when (x == 2 || x == 3 || x == 4) fun t => portDown t pt.val)

/-- The time without link of a port has run out (R280). -/
def portLost (s : State) (p : Nat) : Bool :=
  let x := s.port p
  (x.state == 1 || x.state == 2) && decide (x.noLinkAt + yPortLoss s.cfg ≤ s.now)

/-- A port is retired (R280). -/
def retirePort (s : State) (p : Nat) : State :=
  let s := s.modPort p fun x => { x with state := 5 }
  checkLine (raiseSource (record s 0x0503 [.b1 p]) 0x7 fun a => a.testBit p) p

/-- `YL_PORT_RETIRED` (R280). -/
def execYlPortRetired (dt : Nat) (pt : PortId) (s : State) : Host.Outcome State Fault Refusal :=
  let t := ylElapse dt s
  answerS s (t.when (portLost t pt.val) fun t => retirePort t pt.val)

/-- The admission pass of a port has tried every station and has lasted 10 ms (R282). -/
def passEnded (s : State) (p : Nat) : Bool :=
  let x := s.port p
  x.state == 3 && decide (32 ≤ x.passSta) && decide (x.admitAt + 10000000 ≤ s.now)

/-- A port goes UP (R280, R282). -/
def portUp (s : State) (p : Nat) : State :=
  let s := s.modPort p fun x => { x with state := 4 }
  raiseSource (record s 0x0501 [.b1 p, .b4 (admittedOn s (homePort s.cfg p))]) 0x7 fun a => a.testBit p

/-- `ADMISSION_PASS_END` (R282). -/
def execAdmissionPassEnd (dt : Nat) (pt : PortId) (s : State) : Host.Outcome State Fault Refusal :=
  let t := ylElapse dt s
  answerS s (t.when (passEnded t pt.val) fun t => portUp t pt.val)

/-- The stations of an UP port that are due a DISCOVER: at most 4 in a cycle (R282). -/
def rediscoverDue (s : State) (p : Nat) : List Nat :=
  if homePort s.cfg p = p && lineState s p = 4 then
    ((pStas s.cfg p).filter fun k =>
      let x := s.sta k
      !x.admitted && decide (x.discoverAt + 100000000 ≤ s.now)
        && !(s.yl.trans.any fun t => t.frame.key == k) && !(s.yl.waits.any fun w => w.frame.key == k)).take (4 - (s.port p).discovers)
  else []

/-- `REDISCOVERY` (R282). -/
def execRediscovery (dt : Nat) (pt : PortId) (s : State) : Host.Outcome State Fault Refusal :=
  let t := ylElapse dt s
  let l := rediscoverDue t pt.val
  answerS s (l.foldl (fun s k => offer s (reqWait k 8 0x01 [] .discover))
    (t.modPort pt.val fun x => { x with discovers := x.discovers + l.length }))

/-! ## Cycles (R270, R271) -/

/-- A cycle of the port starts now (R270). -/
def cycleDue (s : State) (p : Nat) : Bool :=
  pOn s.cfg p && (s.port p).state != 0 && s.now % pCycle s.cfg p == 0 && (s.port p).t0 != some s.now

/-- `LINK_CYCLE_START` (R270). -/
def execLinkCycleStart (dt : Nat) (pt : PortId) (s : State) : Host.Outcome State Fault Refusal :=
  let t := ylElapse dt s
  answerS s (t.when (cycleDue t pt.val) fun t => cycleStart (settled t) pt.val)

/-- `INPUT_READ_POINT` (R34, R271). -/
def execInputReadPoint (dt : Nat) (pt : PortId) (s : State) : Host.Outcome State Fault Refusal :=
  let t := ylElapse dt s
  answerS s (inputsDue t pt.val)

/-- The transaction of a tag whose attempt has had its time (R276). -/
def overdue (s : State) (tag : Nat) : Option Trans :=
  s.yl.trans.find? fun t => t.tag == tag && (match t.sentAt with
    | some a => decide (a + spanNs s t.frame t.for_ ≤ s.now)
    | none => false)

/-- `ATTEMPT_TIMEOUT` (R277). -/
def execAttemptTimeout (dt : Nat) (tag : Fin 512) (s : State) : Host.Outcome State Fault Refusal :=
  let t := ylElapse dt s
  answerS s (match overdue t tag.val with | some x => attemptFailed t x | none => t)

/-! ## Responses -/

/-- A latch report of an IMGR (R252). -/
def latchReport (s : State) (k : Nat) (b : List Byte) : State :=
  let id := BitVec.ofNat 16 (leAt b 0 2)
  match rowEntry s id with
  | none => s
  | some e =>
    match e.row with
    | none => s
    | some r =>
      if r.armed && r.reports.contains k then
        let s := modRow s id fun r => { r with reports := r.reports.filter (· != k) }
        if byteAt b 2 = 2 then record s 0x0406 [.b1 (k / 32), .b1 (k % 32), .b4 e.key.toNat] else s
      else s

/-- A station that reports LOSS is held safe (R283). -/
def lossReported (s : State) (k : Nat) : State :=
  let s := s.modSta k fun x => { x with state := 3 }
  staTrigger (record s 0x0508 [.b1 (k / 32), .b1 (k % 32), .b1 1]) k

/-- An IMGR completes its IMGW transaction (R269, R271). -/
def imgrDone (s : State) (p : Nat) (f : YFrame) (t : Trans) : State :=
  let k := f.key
  let s := dropTrans s t.tag stDone
  let fresh := match (s.port t.frame.port.toNat).t0 with | some a => decide (a ≤ t.firstAt) | none => false
  let s := s.modSta k fun x => { x with
    consec := 0
    arrived := if fresh then some ((f.body.drop 16).take (sIn s.cfg k)) else x.arrived
    rowBuf := BitVec.ofNat 2 (byteAt f.body 1).toNat
    rowsNew := 0 }
  let s := if p % 2 = 0 then s.modPort p fun x => { x with lastEven := k % 32 } else s
  let s := if (byteAt f.body 0).getLsbD 1 && (s.sta k).state == 2 then lossReported s k else s
  (List.range (min 2 (byteAt f.body 2).toNat)).foldl (fun s i => latchReport s k ((f.body.drop (4 + 4 * i)).take 4)) s

/-- A station takes the state its ADMIT gave it (R282, R283). -/
def admitDone (s : State) (k : Nat) (held : Bool) : State :=
  let was := (s.sta k).state
  let s := s.modSta k fun x => { x with
    state := if held then 3 else 2
    wasAdmitted := true
    consec := 0
    seqFrom := x.seqTo
    admitAt := s.now
    syncAt := s.now
    released := [] }
  let x := s.sta k
  let s := record s 0x0504 [.b1 (k / 32), .b1 (k % 32), .b1 x.state.toNat, .b4 x.type.toNat]
  let s := if held then record s 0x0508 [.b1 (k / 32), .b1 (k % 32), .b1 2] else s
  let s := if held || was = 4 then staTrigger s k else s
  passOver s k

/-- A held station is readmitted (R284, R285). -/
def readmitDone (s : State) (k : Nat) : State :=
  let s := s.modSta k fun x => { x with state := 2, strikes := [], consec := 0, seqFrom := x.seqTo, admitAt := s.now, released := [] }
  readmitEnd (staTrigger s k) k stDone

/-- An ACK completes its transaction (R247, R268, R282). -/
def ackDone (s : State) (f : YFrame) (t : Trans) : State :=
  let k := f.key
  let s := dropTrans s t.tag stDone
  match t.for_ with
  | .row id _ len => armRow (modRow s id fun r => { r with acked := tabSet 0 k (tabGet 0 r.acked k + len) r.acked }) id
  | .admission held => admitDone s k held
  | .readmit _ => readmitDone s k
  | _ => s

/-- The second copy on a closed line of the NAK that failed the previous attempt of a transaction (R288). -/
def nakCopy (s : State) (p : Nat) (f : YFrame) (t : Trans) : Bool :=
  f.type == 0xA && pClosed s.cfg p && t.nakFrom == some (pairPort p)

/-- What is kept of a NAK that came at port `p`: on a closed line its second copy is still to come through the other port. -/
def nakSeen (s : State) (tag : Nat) (p : Option Nat) : State :=
  s.onYl fun y => { y with trans := y.trans.map fun x => if x.tag = tag then { x with nakFrom := p } else x }

/-- A NAK by its reason (R276). -/
def nakDone (s : State) (p : Nat) (f : YFrame) (t : Trans) : State :=
  let s := nakSeen (ylCountUp s t.frame.port.toNat 8) t.tag (if pClosed s.cfg p then some p else none)
  let isRow := match t.for_ with | .row _ _ _ => true | _ => false
  let isMbx := match t.for_ with | .mbx _ => true | _ => false
  match (byteAt f.body 0).toNat with
  | 0x02 => if isRow then holdTrans s t.tag else attemptFailed s t
  | 0x04 => if isMbx then holdTrans s t.tag else attemptFailed s t
  | 0x05 => failTrans s t
  | _ => attemptFailed s t

/-- A row map names the station. -/
def inRowMap (c : Tab Word) (k : Nat) : Bool := (List.range 16).any fun m => (mapParts c m).any fun x => x.1 == k

/-- The IDENT matches the configuration (R282). -/
def identMatches (s : State) (k type inMax outMax rows : Nat) : Bool :=
  let want := (rGet s.cfg 0x0509 k).toNat
  (want == 0 || want == type) && decide (sIn s.cfg k ≤ inMax) && decide (sOut s.cfg k ≤ outMax)
    && (!inRowMap s.cfg k || rows == 2)

/-- An IDENT is judged (R282, R283). -/
def identDone (s : State) (f : YFrame) (t : Trans) : State :=
  let k := f.key
  let b := f.body
  let s := dropTrans s t.tag stDone
  let s := s.modSta k fun x => { x with
    type := wordAt b 0
    inMax := BitVec.ofNat 16 (leAt b 12 2)
    outMax := BitVec.ofNat 16 (leAt b 14 2) }
  if identMatches s k (leAt b 0 4) (leAt b 12 2) (leAt b 14 2) (byteAt b 16).toNat then
    offer s (reqWait k 6 0x1 [] .sync)
  else
    let was := (s.sta k).state
    let s := s.modSta k fun x => { x with state := 1 }
    let s := if was = 1 then s
      else record s 0x0505 [.b1 (k / 32), .b1 (k % 32), .b4 (leAt b 0 4), .b2 (leAt b 12 2), .b2 (leAt b 14 2)]
    let s := if was = 4 then staTrigger s k else s
    passOver s k

/-- A delay measured through one end (R290). -/
def setDelay (s : State) (k : Nat) (odd : Bool) (d : Word) : State :=
  let x := s.sta k
  let old := if odd then x.delayOdd else x.delayEven
  let s := s.modSta k fun x => if odd then { x with delayOdd := d, syncDue := true } else { x with delayEven := d, syncDue := true }
  if old != 0xFFFFFFFF && decide (100 < ((old.toNat : Int) - (d.toNat : Int)).natAbs) then
    record s 0x050D [.b1 (k / 32), .b1 (k % 32), .b4 old.toNat, .b4 d.toNat]
  else s

/-- RTT of a SYNC REPLY that arrives now (R290). -/
def syncRtt (s : State) (f : YFrame) : Word :=
  let t2 := leAt f.body 8 8
  let t3 := leAt f.body 16 8
  BitVec.ofInt 32 (((s.now : Int) - ((s.sta f.key).syncT1 : Int)) - ((t3 : Int) - (t2 : Int)))

/-- A SYNC REPLY: the round trip, the delay of the end it came through, and the admission that waits for it (R282, R290). -/
def syncDone (s : State) (p : Nat) (f : YFrame) (t : Trans) : State :=
  let k := f.key
  let s := dropTrans s t.tag stDone
  let r := syncRtt s f
  let s := setDelay (s.modSta k fun x => { x with rtt := r }) k (pClosed s.cfg p && p % 2 == 1) (BitVec.ofNat 32 (r.toNat / 2))
  let x := s.sta k
  if x.admitted then s
  else
    let held := x.wasAdmitted || x.state == 4
    offer s.drawn (admitWait s k held (.admission held))

/-- A mailbox response is held for the calling task (R269, R294). -/
def mbxDone (s : State) (f : YFrame) (t : Trans) : State :=
  (dropTrans s t.tag stDone).modSta f.key fun x => { x with mbxHeld := some f.body, mbxTimeout := false }

/-- The transaction that a response answers (R275, R276). -/
def answered (s : State) (f : YFrame) : Option Trans :=
  match f.tag with
  | some g => s.yl.trans.find? fun t => t.tag == g.toNat && t.frame.key == f.key && t.frame.seq == f.seq && t.sentAt.isSome
  | none => none

/-- An own CYC of the line's running cycle has come round a closed line to the port (R289). -/
def cycCame (s : State) (p : Nat) (b : List Byte) : State :=
  let f := yParse ((b.take (b.length - 4)).drop 14)
  let h := p / 2 * 2
  if (b.drop 6).take 6 == portAddr s (pairPort p) && f.type == 1 && f.cycle == (s.port h).cycle && (s.port h).t0.isSome then
    let s := s.modPort p fun x => { x with cycBack := true }
    if (s.port h).lineOpen then record (s.modPort h fun x => { x with lineOpen := false }) 0x050B [.b1 (h / 2)] else s
  else s

/-- A frame of a station that answers no open transaction: the second copy of a response on a closed line, which is not
counted, but whose SYNC REPLY measures the other end; elsewhere a duplicate, unless it is newer than what the station's
counter has reached (R275, R288, R290). -/
def ylSpare (s : State) (p : Nat) (f : YFrame) : State :=
  if pClosed s.cfg p then
    if f.type = 6 && f.sub = 2 && (s.sta f.key).syncSeq == some f.seq then
      setDelay (s.modSta f.key fun x => { x with syncSeq := none }) f.key (p % 2 == 1) (BitVec.ofNat 32 ((syncRtt s f).toNat / 2))
    else s
  else if 1 ≤ (f.seq - (s.sta f.key).seqFrom).toNat ∧ (f.seq - (s.sta f.key).seqFrom).toNat ≤ 32767 then s
  else ylCountUp s p 5

/-- A response acts on its transaction. -/
def ylAnswer (s : State) (p : Nat) (f : YFrame) (t : Trans) : State :=
  let s := s.modSta f.key fun x => { x with seqFrom := f.seq }
  match f.type.toNat, t.for_ with
  | 0x2, .imgw => if f.body.length = 16 + sIn s.cfg f.key then imgrDone s p f t else s
  | 0x9, .row _ _ _ | 0x9, .admission _ | 0x9, .safe | 0x9, .release | 0x9, .retire | 0x9, .readmit _ => ackDone s f t
  | 0xA, _ => nakDone s p f t
  | 0x8, .discover => if f.sub = 0x81 && f.body.length = 20 then identDone s f t else s
  | 0x6, .sync => if f.sub = 2 && f.body.length = 24 then syncDone s p f t else s
  | 0x7, .mbx _ => mbxDone s f t
  | _, _ => s

/-- A valid frame of a station of the port's line; a second copy on a closed line is not counted (R288). -/
def ylHandle (s : State) (p : Nat) (f : YFrame) : State :=
  if f.port.toNat != homePort s.cfg p || !f.up then ylCountUp s p 1
  else match answered s f with
    | none => ylSpare (if pClosed s.cfg p then s else ylCountUp s p 1) p f
    | some t => if nakCopy s p f t then nakSeen s t.tag none else ylAnswer (ylCountUp s p 1) p f t

/-- A frame that has passed the FCS check and the injection unit (R263). -/
def ylAccept (s : State) (p : Nat) (b : List Byte) : State :=
  match rxKind s p b with
  | .discard => ylCountUp s p 4
  | .inner => ylCountUp s p 3
  | .good f => ylHandle s p f
  | .own => cycCame s p b
  | .fcs => s

/-- Frames that wait for the next received one follow it (R293). -/
def rxFlush (s : State) (p : Nat) : State :=
  let isDue (e : Nat × List Byte × Bool) : Bool := e.1 == 0 && e.2.2
  let due := (s.port p).injHeld.filter isDue
  let s := s.modPort p fun x => { x with injHeld := x.injHeld.filter fun e => !isDue e }
  due.foldl (fun s e => ylAccept s p e.2.1) s

/-- Bytes arrive at a port with link (R263, R293). -/
def ylReceive (s : State) (p : Nat) (b : List Byte) : State :=
  if !(s.port p).link then s
  else if fcsBad b then ylCountUp s p 2
  else
    let y := b.drop 14
    if injMatch s p true ((byteAt y 0).toNat % 16) ((byteAt y 2).toNat % 32) then
      let act := injAct s p
      let s := injNote s p act.isSome
      match act with
      | some 0 => s
      | some 1 => rxFlush (ylAccept s p (injCorrupt (injCfg s p) (20 + leAt y 12 2) b)) p
      | some 2 => injHold s p 0 b true
      | some 3 => injHold s p (s.now + 1000 * fld (injCfg s p) 0 8) b true
      | _ => rxFlush (ylAccept s p b) p
    else rxFlush (ylAccept s p b) p

/-- A good frame of another type than the command names is not this command. -/
def otherType (s : State) (p : Nat) (type : Nat) (b : List Byte) : Bool :=
  !fcsBad b && (match rxKind s p b with | .good f => f.type.toNat != type | _ => false)

/-- A received frame of a type (R268). -/
def receiveType (dt : Nat) (p type : Nat) (b : List Byte) (s : State) : Host.Outcome State Fault Refusal :=
  let t := ylElapse dt s
  answerS s (t.when (!otherType t p type b) fun t => ylReceive t p b)

/-- `IMGR` (R269). -/
def execImgr (dt : Nat) (pt : PortId) (f : List Byte) (s : State) : Host.Outcome State Fault Refusal := receiveType dt pt.val 2 f s

/-- `ACK` (R268). -/
def execAck (dt : Nat) (pt : PortId) (f : List Byte) (s : State) : Host.Outcome State Fault Refusal := receiveType dt pt.val 9 f s

/-- `NAK` (R276). -/
def execNak (dt : Nat) (pt : PortId) (f : List Byte) (s : State) : Host.Outcome State Fault Refusal := receiveType dt pt.val 10 f s

/-- `IDENT` (R282). -/
def execIdent (dt : Nat) (pt : PortId) (f : List Byte) (s : State) : Host.Outcome State Fault Refusal := receiveType dt pt.val 8 f s

/-- `SYNC_REPLY` (R290). -/
def execSyncReply (dt : Nat) (pt : PortId) (f : List Byte) (s : State) : Host.Outcome State Fault Refusal := receiveType dt pt.val 6 f s

/-- `MBX_RESPONSE` (R269). -/
def execMbxResponse (dt : Nat) (pt : PortId) (f : List Byte) (s : State) : Host.Outcome State Fault Refusal := receiveType dt pt.val 7 f s

/-- `CYC_RETURN` (R289, R293): a frame of the device itself arrives. -/
def execCycReturn (dt : Nat) (pt : PortId) (f : List Byte) (s : State) : Host.Outcome State Fault Refusal :=
  let t := ylElapse dt s
  answerS s (t.when (!fcsBad f && rxKind t pt.val f == .own) fun t => ylReceive t pt.val f)

/-! ## Timers -/

/-- The mailbox transaction of a tag that has been open for 100 ms (R277). -/
def mbxOverdue (s : State) (tag : Nat) : Option Trans :=
  s.yl.trans.find? fun t => t.tag == tag && (match t.for_ with | .mbx _ => true | _ => false)
    && decide (t.firstAt + 100000000 ≤ s.now)

/-- `MBX_TIMEOUT` (R277). -/
def execMbxTimeout (dt : Nat) (tag : Fin 512) (s : State) : Host.Outcome State Fault Refusal :=
  let t := ylElapse dt s
  answerS s (match mbxOverdue t tag.val with
    | some x => (dropTrans t x.tag stTimeout).modSta x.frame.key fun y => { y with mbxTimeout := true }
    | none => t)

/-- The admitted stations that a port measures now: each 1,000 ms after its admission or its last measurement (R290). -/
def syncDueAt (s : State) (p : Nat) : List Nat :=
  if homePort s.cfg p = p && lineLinked s p then
    (pStas s.cfg p).filter fun k => (s.sta k).admitted && decide ((s.sta k).syncAt + 1000000000 ≤ s.now)
  else []

/-- `SYNC_MEASUREMENT` (R290). -/
def execSyncMeasurement (dt : Nat) (pt : PortId) (s : State) : Host.Outcome State Fault Refusal :=
  let t := ylElapse dt s
  answerS s ((syncDueAt t pt.val).foldl (fun s k =>
    offer (s.modSta k fun x => { x with syncAt := s.now }) (reqWait k 6 0x1 [] .sync)) t)

/-- The frame that a port's injection unit has held for its time (R293). -/
def injExpired (s : State) (p : Nat) : Option (Nat × List Byte × Bool) :=
  (s.port p).injHeld.find? fun e => e.1 != 0 && decide (e.1 ≤ s.now)

/-- A delayed frame is passed on. -/
def injPass (s : State) (p : Nat) (e : Nat × List Byte × Bool) : State :=
  let s := s.modPort p fun x => { x with injHeld := x.injHeld.erase e }
  if e.2.2 then rxFlush (ylAccept s p e.2.1) p
  else if (s.port p).link then injFlush (ylSend s p e.2.1) p
  else s

/-- `INJECT_DELAY_EXPIRY` (R293). -/
def execInjectDelayExpiry (dt : Nat) (pt : PortId) (s : State) : Host.Outcome State Fault Refusal :=
  let t := ylElapse dt s
  answerS s (match injExpired t pt.val with | some e => injPass t pt.val e | none => t)

/-- A frame draws the tag it waited for: it starts now, with one retry fewer, or in its cycle (R32). -/
def grantFrame (s : State) (w : YWait) : State :=
  let (s, g) := drawTag s w.reserved
  let a := slotAt s w.port w.for_.step
  match g with
  | .has n =>
    if !w.later && mayGo s w && (s.port w.port).t0.isSome && fitsAt s w a then
      startTrans (pushBack (s.onYl fun y => { y with waits := y.waits.erase w }) w.port w.for_.step (a + wireNs w.frame.body.length)) w n a 1
    else s.onYl fun y => { y with waits := y.waits.map fun x => if x = w then { x with tag := g } else x }
  | _ => s

/-- A lane that stalls for want of a tag issues its call again once one is free (R32). -/
def grantLane (s : State) : State :=
  match s.ln.copies.find? fun e => match e.2 with
    | some c => (match c.stall with | .tag r => !(freeTags s r).isEmpty | _ => false)
    | none => false with
  | some e => match s.copy e.1 with | some c => s.setCopy e.1 (some { c with stall := .none }) | none => s
  | none => s

/-- The first request of those that wait draws its tag (R32). -/
def grantTag (s : State) : State :=
  if saveGrantable s then grantSave s
  else match s.yl.waits.find? (·.tag.grantable s) with
  | some w => grantFrame s w
  | none =>
    if s.fld.safeTag.grantable s then
      let (s, g) := drawTag s true
      s.onFld fun f => { f with safeTag := g }
    else match s.fld.changeQ.find? (·.tag.grantable s) with
      | some c =>
        let (s, g) := drawTag s (c.tag == .wait true)
        s.onFld fun f => { f with changeQ := f.changeQ.map fun x => if x = c then { x with tag := g } else x }
      | none => match s.nv.incW.find? (·.2.grantable s) with
        | some k =>
          let (s, g) := drawTag s (k.2 == .wait true)
          s.onNv fun n => { n with incW := n.incW.map fun x => if x = k then (k.1, g) else x }
        | none => match s.nv.userW.find? (·.tag.grantable s) with
          | some w =>
            let (s, g) := drawTag s (w.tag == .wait true)
            s.onNv fun n => { n with userW := n.userW.map fun x => if x = w then { x with tag := g } else x }
          | none => grantLane s

/-- `FABRIC_TAG_GRANT` (R32). -/
def execFabricTagGrant (dt : Nat) (s : State) : Host.Outcome State Fault Refusal :=
  answerS s (grantTag (ylElapse dt s))

end Sys2Proof.Machine
end

