-- ==== Sys2Proof/Machine/Dispatch.lean ====
section
/-! DEFINITION. The meaning of each command: one arm for each row of the opcode table, in its order. -/
namespace Sys2Proof.Machine

def exec (i : Instr) (s : State) : Host.Outcome State Fault Refusal :=
  match i with
  | .bld l p n => Sys2Proof.Machine.execBld l p n s
  | .bldn l p n => Sys2Proof.Machine.execBldn l p n s
  | .band l p n => Sys2Proof.Machine.execBand l p n s
  | .bandn l p n => Sys2Proof.Machine.execBandn l p n s
  | .bor l p n => Sys2Proof.Machine.execBor l p n s
  | .bst l p n => Sys2Proof.Machine.execBst l p n s
  | .bset l p n => Sys2Proof.Machine.execBset l p n s
  | .brst l p n => Sys2Proof.Machine.execBrst l p n s
  | .mov l p d r => Sys2Proof.Machine.execMov l p d r s
  | .add l p d r => Sys2Proof.Machine.execAdd l p d r s
  | .adc l p d r => Sys2Proof.Machine.execAdc l p d r s
  | .sub l p d r => Sys2Proof.Machine.execSub l p d r s
  | .sbc l p d r => Sys2Proof.Machine.execSbc l p d r s
  | .cmp l p d r => Sys2Proof.Machine.execCmp l p d r s
  | .and l p d r => Sys2Proof.Machine.execAnd l p d r s
  | .or l p d r => Sys2Proof.Machine.execOr l p d r s
  | .xor l p d r => Sys2Proof.Machine.execXor l p d r s
  | .tst l p d r => Sys2Proof.Machine.execTst l p d r s
  | .neg l p d r => Sys2Proof.Machine.execNeg l p d r s
  | .lsl l p d r => Sys2Proof.Machine.execLsl l p d r s
  | .lsr l p d r => Sys2Proof.Machine.execLsr l p d r s
  | .asr l p d r => Sys2Proof.Machine.execAsr l p d r s
  | .ror l p d r => Sys2Proof.Machine.execRor l p d r s
  | .mul l p d r => Sys2Proof.Machine.execMul l p d r s
  | .movi l p d imm => Sys2Proof.Machine.execMovi l p d imm s
  | .addi l p d imm => Sys2Proof.Machine.execAddi l p d imm s
  | .subi l p d imm => Sys2Proof.Machine.execSubi l p d imm s
  | .cmpi l p d imm => Sys2Proof.Machine.execCmpi l p d imm s
  | .andi l p d imm => Sys2Proof.Machine.execAndi l p d imm s
  | .ori l p d imm => Sys2Proof.Machine.execOri l p d imm s
  | .xori l p d imm => Sys2Proof.Machine.execXori l p d imm s
  | .tsti l p d imm => Sys2Proof.Machine.execTsti l p d imm s
  | .muli l p d imm => Sys2Proof.Machine.execMuli l p d imm s
  | .lsli l p d imm => Sys2Proof.Machine.execLsli l p d imm s
  | .lsri l p d imm => Sys2Proof.Machine.execLsri l p d imm s
  | .asri l p d imm => Sys2Proof.Machine.execAsri l p d imm s
  | .rori l p d imm => Sys2Proof.Machine.execRori l p d imm s
  | .rtog l p d => Sys2Proof.Machine.execRtog l p d s
  | .gtor l p r => Sys2Proof.Machine.execGtor l p r s
  | .rnot l p => Sys2Proof.Machine.execRnot l p s
  | .rset l p => Sys2Proof.Machine.execRset l p s
  | .rclr l p => Sys2Proof.Machine.execRclr l p s
  | .movsb l p run => Sys2Proof.Machine.execMovsb l p run s
  | .movsh l p run => Sys2Proof.Machine.execMovsh l p run s
  | .movsw l p run => Sys2Proof.Machine.execMovsw l p run s
  | .fillw l p r run => Sys2Proof.Machine.execFillw l p r run s
  | .divs l p pr r => Sys2Proof.Machine.execDivs l p pr r s
  | .divu l p pr r => Sys2Proof.Machine.execDivu l p pr r s
  | .ldb l p d b => Sys2Proof.Machine.execLdb l p d b s
  | .ldbs l p d b => Sys2Proof.Machine.execLdbs l p d b s
  | .ldh l p d b => Sys2Proof.Machine.execLdh l p d b s
  | .ldhs l p d b => Sys2Proof.Machine.execLdhs l p d b s
  | .ldw l p d b => Sys2Proof.Machine.execLdw l p d b s
  | .stb l p r b => Sys2Proof.Machine.execStb l p r b s
  | .sth l p r b => Sys2Proof.Machine.execSth l p r b s
  | .stw l p r b => Sys2Proof.Machine.execStw l p r b s
  | .mfs l p sr g => Sys2Proof.Machine.execMfs l p sr g s
  | .mts l p sr g => Sys2Proof.Machine.execMts l p sr g s
  | .fadd l p x y => Sys2Proof.Machine.execFadd l p x y s
  | .fsub l p x y => Sys2Proof.Machine.execFsub l p x y s
  | .fmul l p x y => Sys2Proof.Machine.execFmul l p x y s
  | .fdiv l p x y => Sys2Proof.Machine.execFdiv l p x y s
  | .fcmp l p x y => Sys2Proof.Machine.execFcmp l p x y s
  | .ftoi l p x y => Sys2Proof.Machine.execFtoi l p x y s
  | .itof l p x y => Sys2Proof.Machine.execItof l p x y s
  | .skcc l p cc => Sys2Proof.Machine.execSkcc l p cc s
  | .skz l p r => Sys2Proof.Machine.execSkz l p r s
  | .sknz l p r => Sys2Proof.Machine.execSknz l p r s
  | .bcc l p cc off => Sys2Proof.Machine.execBcc l p cc off s
  | .bra l p off => Sys2Proof.Machine.execBra l p off s
  | .call l p off => Sys2Proof.Machine.execCall l p off s
  | .br l p r => Sys2Proof.Machine.execBr l p r s
  | .callr l p r => Sys2Proof.Machine.execCallr l p r s
  | .ret l p => Sys2Proof.Machine.execRet l p s
  | .loop l p r len => Sys2Proof.Machine.execLoop l p r len s
  | .leave l p => Sys2Proof.Machine.execLeave l p s
  | .rep l pre post inner run => Sys2Proof.Machine.execRep l pre post inner run s
  | .crcb l p r => Sys2Proof.Machine.execCrcb l p r s
  | .crch l p r => Sys2Proof.Machine.execCrch l p r s
  | .crcw l p r => Sys2Proof.Machine.execCrcw l p r s
  | .crcmb l p run => Sys2Proof.Machine.execCrcmb l p run s
  | .crcmh l p run => Sys2Proof.Machine.execCrcmh l p run s
  | .crcmw l p run => Sys2Proof.Machine.execCrcmw l p run s
  | .crci l p => Sys2Proof.Machine.execCrci l p s
  | .crcf l p d => Sys2Proof.Machine.execCrcf l p d s
  | .par l p r => Sys2Proof.Machine.execPar l p r s
  | .brev l p d r => Sys2Proof.Machine.execBrev l p d r s
  | .brevb l p d r => Sys2Proof.Machine.execBrevb l p d r s
  | .chk l p => Sys2Proof.Machine.execChk l p s
  | .halt l p errs => Sys2Proof.Machine.execHalt l p errs s
  | .sys l p d srn => Sys2Proof.Machine.execSys l p d srn s
  | .cfg l p r srn => Sys2Proof.Machine.execCfg l p r srn s
  | .fret l p d r => Sys2Proof.Machine.execFret l p d r s
  | .fretc l p d r => Sys2Proof.Machine.execFretc l p d r s
  | .canopyLoadReturn dt l e => Sys2Proof.Machine.execCanopyLoadReturn dt l e s
  | .windowFill dt l e => Sys2Proof.Machine.execWindowFill dt l e s
  | .instructionFetch dt l o => Sys2Proof.Machine.execInstructionFetch dt l o s
  | .pstoreRewrite dt a ok => Sys2Proof.Machine.execPstoreRewrite dt a ok s
  | .pstoreScrub dt errs => Sys2Proof.Machine.execPstoreScrub dt errs s
  | .cyclicRelease dt t => Sys2Proof.Machine.execCyclicRelease dt t s
  | .eventTrigger dt t => Sys2Proof.Machine.execEventTrigger dt t s
  | .latchedRelease dt t => Sys2Proof.Machine.execLatchedRelease dt t s
  | .taskAged dt t l => Sys2Proof.Machine.execTaskAged dt t l s
  | .commit dt t => Sys2Proof.Machine.execCommit dt t s
  | .outputRelease dt t => Sys2Proof.Machine.execOutputRelease dt t s
  | .taskWatchdogVerdict dt t => Sys2Proof.Machine.execTaskWatchdogVerdict dt t s
  | .atTimeExpiry dt t => Sys2Proof.Machine.execAtTimeExpiry dt t s
  | .taskTrigger l p d => Sys2Proof.Machine.execTaskTrigger l p d s
  | .releaseTime l p d => Sys2Proof.Machine.execReleaseTime l p d s
  | .atTime l p d => Sys2Proof.Machine.execAtTime l p d s
  | .snapInfo l p d => Sys2Proof.Machine.execSnapInfo l p d s
  | .canopyScrub dt errs => Sys2Proof.Machine.execCanopyScrub dt errs s
  | .compareGate dt t => Sys2Proof.Machine.execCompareGate dt t s
  | .spareWaitEnd dt t => Sys2Proof.Machine.execSpareWaitEnd dt t s
  | .spareWake dt t => Sys2Proof.Machine.execSpareWake dt t s
  | .pairVote dt t => Sys2Proof.Machine.execPairVote dt t s
  | .pairStraggler dt t => Sys2Proof.Machine.execPairStraggler dt t s
  | .laneSelfTestEnd dt l failed => Sys2Proof.Machine.execLaneSelfTestEnd dt l failed s
  | .standInReturn dt l => Sys2Proof.Machine.execStandInReturn dt l s
  | .spareTestStart dt => Sys2Proof.Machine.execSpareTestStart dt s
  | .loopSample dt k => Sys2Proof.Machine.execLoopSample dt k s
  | .loopClassCommit dt k => Sys2Proof.Machine.execLoopClassCommit dt k s
  | .tuneTimeout dt n => Sys2Proof.Machine.execTuneTimeout dt n s
  | .loopRead l p d => Sys2Proof.Machine.execLoopRead l p d s
  | .loopTune l p d => Sys2Proof.Machine.execLoopTune l p d s
  | .loopCapture l p d => Sys2Proof.Machine.execLoopCapture l p d s
  | .loopAbort l p d => Sys2Proof.Machine.execLoopAbort l p d s
  | .countEdge dt sh a b z => Sys2Proof.Machine.execCountEdge dt sh a b z s
  | .wireError dt sh => Sys2Proof.Machine.execWireError dt sh s
  | .wireFaultTimeout dt sh => Sys2Proof.Machine.execWireFaultTimeout dt sh s
  | .velocityUpdate dt => Sys2Proof.Machine.execVelocityUpdate dt s
  | .fretEvaluation dt => Sys2Proof.Machine.execFretEvaluation dt s
  | .fretLead dt row pt => Sys2Proof.Machine.execFretLead dt row pt s
  | .fretMissed dt row => Sys2Proof.Machine.execFretMissed dt row s
  | .shaftRead l p d => Sys2Proof.Machine.execShaftRead l p d s
  | .portSignalDetect dt pt => Sys2Proof.Machine.execPortSignalDetect dt pt s
  | .portLink dt page => Sys2Proof.Machine.execPortLink dt page s
  | .partnerIdleTimeout dt pt => Sys2Proof.Machine.execPartnerIdleTimeout dt pt s
  | .portLinkLoss dt pt => Sys2Proof.Machine.execPortLinkLoss dt pt s
  | .ylPortRetired dt pt => Sys2Proof.Machine.execYlPortRetired dt pt s
  | .admissionPassEnd dt pt => Sys2Proof.Machine.execAdmissionPassEnd dt pt s
  | .rediscovery dt pt => Sys2Proof.Machine.execRediscovery dt pt s
  | .linkCycleStart dt pt => Sys2Proof.Machine.execLinkCycleStart dt pt s
  | .inputReadPoint dt pt => Sys2Proof.Machine.execInputReadPoint dt pt s
  | .attemptTimeout dt tag => Sys2Proof.Machine.execAttemptTimeout dt tag s
  | .imgr dt pt f => Sys2Proof.Machine.execImgr dt pt f s
  | .ack dt pt f => Sys2Proof.Machine.execAck dt pt f s
  | .nak dt pt f => Sys2Proof.Machine.execNak dt pt f s
  | .ident dt pt f => Sys2Proof.Machine.execIdent dt pt f s
  | .syncReply dt pt f => Sys2Proof.Machine.execSyncReply dt pt f s
  | .mbxResponse dt pt f => Sys2Proof.Machine.execMbxResponse dt pt f s
  | .cycReturn dt pt f => Sys2Proof.Machine.execCycReturn dt pt f s
  | .mbxTimeout dt tag => Sys2Proof.Machine.execMbxTimeout dt tag s
  | .syncMeasurement dt pt => Sys2Proof.Machine.execSyncMeasurement dt pt s
  | .injectDelayExpiry dt pt => Sys2Proof.Machine.execInjectDelayExpiry dt pt s
  | .fabricTagGrant dt => Sys2Proof.Machine.execFabricTagGrant dt s
  | .ylReadmit l p d => Sys2Proof.Machine.execYlReadmit l p d s
  | .ylMbxSend l p d => Sys2Proof.Machine.execYlMbxSend l p d s
  | .ylMbxRead l p d => Sys2Proof.Machine.execYlMbxRead l p d s
  | .ylStaInfo l p d => Sys2Proof.Machine.execYlStaInfo l p d s
  | .ylCount l p d => Sys2Proof.Machine.execYlCount l p d s
  | .downFrameTick dt => Sys2Proof.Machine.execDownFrameTick dt s
  | .downFrameDeferred dt => Sys2Proof.Machine.execDownFrameDeferred dt s
  | .refresh dt ok => Sys2Proof.Machine.execRefresh dt ok s
  | .safeFrame dt ok => Sys2Proof.Machine.execSafeFrame dt ok s
  | .config dt ok => Sys2Proof.Machine.execConfig dt ok s
  | .idle dt ok => Sys2Proof.Machine.execIdle dt ok s
  | .releaseFrame dt ok => Sys2Proof.Machine.execReleaseFrame dt ok s
  | .darkTestEnd dt ch rb => Sys2Proof.Machine.execDarkTestEnd dt ch rb s
  | .upFrame dt ok => Sys2Proof.Machine.execUpFrame dt ok s
  | .bridgeLoss dt => Sys2Proof.Machine.execBridgeLoss dt s
  | .silence dt => Sys2Proof.Machine.execSilence dt s
  | .channelHoldExpiry dt ch => Sys2Proof.Machine.execChannelHoldExpiry dt ch s
  | .timedChange dt id => Sys2Proof.Machine.execTimedChange dt id s
  | .fieldInputChange dt ch lvl => Sys2Proof.Machine.execFieldInputChange dt ch lvl s
  | .overload dt ch => Sys2Proof.Machine.execOverload dt ch s
  | .groupLimit dt g => Sys2Proof.Machine.execGroupLimit dt g s
  | .readback dt ch lvl => Sys2Proof.Machine.execReadback dt ch lvl s
  | .vfLoss dt g => Sys2Proof.Machine.execVfLoss dt g s
  | .vfReturn dt g => Sys2Proof.Machine.execVfReturn dt g s
  | .faultFollowResume dt ch => Sys2Proof.Machine.execFaultFollowResume dt ch s
  | .fldReadmit l p d => Sys2Proof.Machine.execFldReadmit l p d s
  | .canRxFrame dt ch stamp f => Sys2Proof.Machine.execCanRxFrame dt ch stamp f s
  | .canTxAttempt dt ch => Sys2Proof.Machine.execCanTxAttempt dt ch s
  | .canTxSuccess dt ch => Sys2Proof.Machine.execCanTxSuccess dt ch s
  | .canError dt ch tec rec => Sys2Proof.Machine.execCanError dt ch tec rec s
  | .cbusBusOn dt ch => Sys2Proof.Machine.execCbusBusOn dt ch s
  | .cbusSend l p d => Sys2Proof.Machine.execCbusSend l p d s
  | .cbusAbort l p d => Sys2Proof.Machine.execCbusAbort l p d s
  | .cbusRecover l p d => Sys2Proof.Machine.execCbusRecover l p d s
  | .cbusReadmit l p d => Sys2Proof.Machine.execCbusReadmit l p d s
  | .cmdTail dt slot wr v => Sys2Proof.Machine.execCmdTail dt slot wr v s
  | .cplHead dt slot v => Sys2Proof.Machine.execCplHead dt slot v s
  | .taskBell dt slot => Sys2Proof.Machine.execTaskBell dt slot s
  | .notify dt slot v => Sys2Proof.Machine.execNotify dt slot v s
  | .irqMask dt slot v => Sys2Proof.Machine.execIrqMask dt slot v s
  | .irqPend dt slot v => Sys2Proof.Machine.execIrqPend dt slot v s
  | .slotId dt slot v => Sys2Proof.Machine.execSlotId dt slot v s
  | .slotReset dt slot => Sys2Proof.Machine.execSlotReset dt slot s
  | .qspiWriteFrame dt b f => Sys2Proof.Machine.execQspiWriteFrame dt b f s
  | .qspiReadFrame dt b f => Sys2Proof.Machine.execQspiReadFrame dt b f s
  | .identify dt slot => Sys2Proof.Machine.execIdentify dt slot s
  | .ownerChallenge dt slot => Sys2Proof.Machine.execOwnerChallenge dt slot s
  | .ownerProve dt slot => Sys2Proof.Machine.execOwnerProve dt slot s
  | .release dt slot => Sys2Proof.Machine.execRelease dt slot s
  | .slotBind dt slot => Sys2Proof.Machine.execSlotBind dt slot s
  | .keyEnrol dt slot => Sys2Proof.Machine.execKeyEnrol dt slot s
  | .keyRemove dt slot => Sys2Proof.Machine.execKeyRemove dt slot s
  | .start dt slot => Sys2Proof.Machine.execStart dt slot s
  | .stop dt slot => Sys2Proof.Machine.execStop dt slot s
  | .hold dt slot => Sys2Proof.Machine.execHold dt slot s
  | .holdLimit dt => Sys2Proof.Machine.execHoldLimit dt s
  | .resume dt slot => Sys2Proof.Machine.execResume dt slot s
  | .clearExit dt slot => Sys2Proof.Machine.execClearExit dt slot s
  | .ackFault dt slot => Sys2Proof.Machine.execAckFault dt slot s
  | .reset dt slot => Sys2Proof.Machine.execReset dt slot s
  | .standby dt slot => Sys2Proof.Machine.execStandby dt slot s
  | .recover dt slot => Sys2Proof.Machine.execRecover dt slot s
  | .read dt slot => Sys2Proof.Machine.execRead dt slot s
  | .write dt slot => Sys2Proof.Machine.execWrite dt slot s
  | .sysread dt slot => Sys2Proof.Machine.execSysread dt slot s
  | .linkCount dt slot => Sys2Proof.Machine.execLinkCount dt slot s
  | .recRead dt slot => Sys2Proof.Machine.execRecRead dt slot s
  | .recClear dt slot => Sys2Proof.Machine.execRecClear dt slot s
  | .readmit dt slot => Sys2Proof.Machine.execReadmit dt slot s
  | .hostLoopTune dt slot => Sys2Proof.Machine.execHostLoopTune dt slot s
  | .hostLoopCapture dt slot => Sys2Proof.Machine.execHostLoopCapture dt slot s
  | .hostLoopAbort dt slot => Sys2Proof.Machine.execHostLoopAbort dt slot s
  | .pkgOpen dt slot => Sys2Proof.Machine.execPkgOpen dt slot s
  | .pkgWrite dt slot => Sys2Proof.Machine.execPkgWrite dt slot s
  | .pkgClose dt slot => Sys2Proof.Machine.execPkgClose dt slot s
  | .pkgAbort dt slot => Sys2Proof.Machine.execPkgAbort dt slot s
  | .activate dt slot => Sys2Proof.Machine.execActivate dt slot s
  | .revert dt slot => Sys2Proof.Machine.execRevert dt slot s
  | .exchangePlan dt slot => Sys2Proof.Machine.execExchangePlan dt slot s
  | .exchange dt slot => Sys2Proof.Machine.execExchange dt slot s
  | .exchangeEpoch dt => Sys2Proof.Machine.execExchangeEpoch dt s
  | .exchangeAbort dt slot => Sys2Proof.Machine.execExchangeAbort dt slot s
  | .ownerLeaseExpiry dt => Sys2Proof.Machine.execOwnerLeaseExpiry dt s
  | .nonceLapse dt slot => Sys2Proof.Machine.execNonceLapse dt slot s
  | .hostNotify l p d => Sys2Proof.Machine.execHostNotify l p d s
  | .safePassword dt slot => Sys2Proof.Machine.execSafePassword dt slot s
  | .safeConfirm dt slot => Sys2Proof.Machine.execSafeConfirm dt slot s
  | .safeRevoke dt slot => Sys2Proof.Machine.execSafeRevoke dt slot s
  | .safeLogRead dt slot => Sys2Proof.Machine.execSafeLogRead dt slot s
  | .safeLockoutEnd dt => Sys2Proof.Machine.execSafeLockoutEnd dt s
  | .safeStop l p d => Sys2Proof.Machine.execSafeStop l p d s
  | .safeStatus l p d => Sys2Proof.Machine.execSafeStatus l p d s
  | .nvRead l p d => Sys2Proof.Machine.execNvRead l p d s
  | .nvWrite l p d => Sys2Proof.Machine.execNvWrite l p d s
  | .nvAbort l p d => Sys2Proof.Machine.execNvAbort l p d s
  | .nvCount l p d => Sys2Proof.Machine.execNvCount l p d s
  | .nvCountRead l p d => Sys2Proof.Machine.execNvCountRead l p d s
  | .recUser l p d => Sys2Proof.Machine.execRecUser l p d s
  | .userRecordWrite dt => Sys2Proof.Machine.execUserRecordWrite dt s
  | .counterIncrement dt => Sys2Proof.Machine.execCounterIncrement dt s
  | .operatingMinute dt => Sys2Proof.Machine.execOperatingMinute dt s
  | .systemRecordWrite dt id => Sys2Proof.Machine.execSystemRecordWrite dt id s
  | .recorderWrite dt => Sys2Proof.Machine.execRecorderWrite dt s
  | .mergedRecordRewrite dt => Sys2Proof.Machine.execMergedRecordRewrite dt s
  | .nvScrub dt errs => Sys2Proof.Machine.execNvScrub dt errs s
  | .periodicWarmSave dt => Sys2Proof.Machine.execPeriodicWarmSave dt s
  | .warmCopy dt => Sys2Proof.Machine.execWarmCopy dt s
  | .handshakeRequest dt => Sys2Proof.Machine.execHandshakeRequest dt s
  | .handshakeAnswer dt n => Sys2Proof.Machine.execHandshakeAnswer dt n s
  | .handshakeTimeout dt => Sys2Proof.Machine.execHandshakeTimeout dt s
  | .fwInfo dt slot => Sys2Proof.Machine.execFwInfo dt slot s
  | .fwOpen dt slot => Sys2Proof.Machine.execFwOpen dt slot s
  | .fwWrite dt slot => Sys2Proof.Machine.execFwWrite dt slot s
  | .fwClose dt slot => Sys2Proof.Machine.execFwClose dt slot s
  | .fwAbort dt slot => Sys2Proof.Machine.execFwAbort dt slot s
  | .fwInstall dt slot => Sys2Proof.Machine.execFwInstall dt slot s
  | .fwRefresh dt slot => Sys2Proof.Machine.execFwRefresh dt slot s
  | .norRefreshDue dt => Sys2Proof.Machine.execNorRefreshDue dt s
  | .norRefreshBlock dt => Sys2Proof.Machine.execNorRefreshBlock dt s
  | .norPageCheck dt blk bits ue => Sys2Proof.Machine.execNorPageCheck dt blk bits ue s
  | .norEraseEnd dt => Sys2Proof.Machine.execNorEraseEnd dt s
  | .supwdLongErase dt blk => Sys2Proof.Machine.execSupwdLongErase dt blk s
  | .supwdKick dt v => Sys2Proof.Machine.execSupwdKick dt v s
  | .supwdDis dt v => Sys2Proof.Machine.execSupwdDis dt v s
  | .supwdLock dt v => Sys2Proof.Machine.execSupwdLock dt v s
  | .supwdCfg dt v => Sys2Proof.Machine.execSupwdCfg dt v s
  | .supwdExpired dt => Sys2Proof.Machine.execSupwdExpired dt s
  | .clockStopped dt xfo => Sys2Proof.Machine.execClockStopped dt xfo s
  | .supwdMonLost dt xfo => Sys2Proof.Machine.execSupwdMonLost dt xfo s
  | .powerOnResetRelease dt testEn => Sys2Proof.Machine.execPowerOnResetRelease dt testEn s
  | .vlogBelowPrst dt => Sys2Proof.Machine.execVlogBelowPrst dt s
  | .powerWarning dt => Sys2Proof.Machine.execPowerWarning dt s
  | .powerRideThrough dt => Sys2Proof.Machine.execPowerRideThrough dt s
  | .nreset dt => Sys2Proof.Machine.execNreset dt s
  | .loadSwitchOpen dt => Sys2Proof.Machine.execLoadSwitchOpen dt s
  | .wakeEdge dt => Sys2Proof.Machine.execWakeEdge dt s
  | .qspiCsWake dt => Sys2Proof.Machine.execQspiCsWake dt s
  | .can0Wake dt => Sys2Proof.Machine.execCan0Wake dt s
  | .pllLock dt wakeHigh => Sys2Proof.Machine.execPllLock dt wakeHigh s
  | .pllLockRetry dt ok => Sys2Proof.Machine.execPllLockRetry dt ok s
  | .pllLossOfLock dt => Sys2Proof.Machine.execPllLossOfLock dt s
  | .bootComplete dt failed => Sys2Proof.Machine.execBootComplete dt failed s
  | .setupLimit dt => Sys2Proof.Machine.execSetupLimit dt s
  | .testLogicReset dt => Sys2Proof.Machine.execTestLogicReset dt s
  | .extest dt => Sys2Proof.Machine.execExtest dt s
  | .samplePreload dt => Sys2Proof.Machine.execSamplePreload dt s
  | .idcode dt => Sys2Proof.Machine.execIdcode dt s
  | .clamp dt => Sys2Proof.Machine.execClamp dt s
  | .highz dt => Sys2Proof.Machine.execHighz dt s
  | .bypass dt => Sys2Proof.Machine.execBypass dt s
  | .unassignedEncoding l p w => Sys2Proof.Machine.execUnassignedEncoding l p w s
  | .sysc l p d n => Sys2Proof.Machine.execSysc l p d n s
  | .nresetRelease dt => Sys2Proof.Machine.execNresetRelease dt s
  | .pcieLinkUp dt slot => Sys2Proof.Machine.execPcieLinkUp dt slot s
  | .zRisingEdge dt sh => Sys2Proof.Machine.execZRisingEdge dt sh s
  | .wireErrorCleared dt sh => Sys2Proof.Machine.execWireErrorCleared dt sh s

end Sys2Proof.Machine
end

