-- ==== Sys2Proof/Safety.lean ====
section
/-! DEFINITION. The terms in which the statements speak: what an outcome ends in, which parts of the state a
command may change (its frame), and when the test access port is in a legal state (R528, R529). -/
namespace Sys2Proof.Machine

/-- The outcome is a next state with property `P`. -/
def Ends (o : Host.Outcome State Fault Refusal) (P : State → Prop) : Prop := ∃ t, o = .next t ∧ P t

/-- The parts of the state: the fields of `State`. -/
inductive Part where
  /-- the queue of waiting commands -/
  | pending
  /-- the draws of free values -/
  | free
  /-- the register store of R549 -/
  | cfg
  /-- device state -/
  | dev
  /-- clocks, supplies, reset -/
  | clk
  /-- the program store -/
  | ps
  /-- the lanes and their copies -/
  | ln
  /-- the task sequencer -/
  | seq
  /-- the Canopy -/
  | can
  /-- the fret engine -/
  | fret
  /-- ports, stations and the fabric -/
  | yl
  /-- the loop engine -/
  | lp
  /-- bridge and field die -/
  | fld
  /-- the CAN ports -/
  | cb
  /-- the host slots -/
  | host
  /-- packages and exchange -/
  | pkg
  /-- the safety record -/
  | safe
  /-- parameter store and recorder -/
  | nv
  /-- the service core -/
  | svc
  /-- the supervisory watchdog -/
  | wd
  /-- the test access port -/
  | tap
  /-- the outputs -/
  | out
  deriving DecidableEq, Repr

/-- Part `p` is the same in both states. -/
def Part.same (p : Part) (s t : State) : Prop :=
  match p with
  | .pending => t.pending = s.pending
  | .free => t.free = s.free
  | .cfg => t.cfg = s.cfg
  | .dev => t.dev = s.dev
  | .clk => t.clk = s.clk
  | .ps => t.ps = s.ps
  | .ln => t.ln = s.ln
  | .seq => t.seq = s.seq
  | .can => t.can = s.can
  | .fret => t.fret = s.fret
  | .yl => t.yl = s.yl
  | .lp => t.lp = s.lp
  | .fld => t.fld = s.fld
  | .cb => t.cb = s.cb
  | .host => t.host = s.host
  | .pkg => t.pkg = s.pkg
  | .safe => t.safe = s.safe
  | .nv => t.nv = s.nv
  | .svc => t.svc = s.svc
  | .wd => t.wd = s.wd
  | .tap => t.tap = s.tap
  | .out => t.out = s.out

/-- Every part outside the list is the same in `t` as in `s`. -/
def Only (ps : List Part) (s t : State) : Prop := ∀ p, p ∉ ps → p.same s t

/-- The parts of the state that a command may change: what is not listed here, it leaves as it was. Time passes with every
command but the units of lanes, so that instants, the hold limit, the watchdog count and the field die's time are among
the parts of the others (R507, R511, R48, R483, R362). -/
def touches (i : Instr) : List Part :=
  match i with
  | .bld ..
  | .bldn ..
  | .band ..
  | .bandn ..
  | .bor ..
  | .bst ..
  | .bset ..
  | .brst ..
  | .mov ..
  | .add ..
  | .adc ..
  | .sub ..
  | .sbc ..
  | .cmp ..
  | .and ..
  | .or ..
  | .xor ..
  | .tst ..
  | .neg ..
  | .lsl ..
  | .lsr ..
  | .asr ..
  | .ror ..
  | .mul ..
  | .movi ..
  | .addi ..
  | .subi ..
  | .cmpi ..
  | .andi ..
  | .ori ..
  | .xori ..
  | .tsti ..
  | .muli ..
  | .lsli ..
  | .lsri ..
  | .asri ..
  | .rori ..
  | .rtog ..
  | .gtor ..
  | .rnot ..
  | .rset ..
  | .rclr ..
  | .movsb ..
  | .movsh ..
  | .movsw ..
  | .fillw ..
  | .divs ..
  | .divu ..
  | .ldb ..
  | .ldbs ..
  | .ldh ..
  | .ldhs ..
  | .ldw ..
  | .stb ..
  | .sth ..
  | .stw ..
  | .mfs ..
  | .mts ..
  | .fadd ..
  | .fsub ..
  | .fmul ..
  | .fdiv ..
  | .fcmp ..
  | .ftoi ..
  | .itof ..
  | .skcc ..
  | .skz ..
  | .sknz ..
  | .bcc ..
  | .bra ..
  | .call ..
  | .br ..
  | .callr ..
  | .ret ..
  | .loop ..
  | .leave ..
  | .rep ..
  | .crcb ..
  | .crch ..
  | .crcw ..
  | .crcmb ..
  | .crcmh ..
  | .crcmw ..
  | .crci ..
  | .crcf ..
  | .par ..
  | .brev ..
  | .brevb ..
  | .chk ..
  | .halt ..
  | .sys ..
  | .cfg ..
  | .fret ..
  | .fretc ..
  | .taskTrigger ..
  | .releaseTime ..
  | .atTime ..
  | .snapInfo ..
  | .loopRead ..
  | .loopTune ..
  | .loopCapture ..
  | .loopAbort ..
  | .shaftRead ..
  | .ylReadmit ..
  | .ylMbxSend ..
  | .ylMbxRead ..
  | .ylStaInfo ..
  | .ylCount ..
  | .fldReadmit ..
  | .cbusSend ..
  | .cbusAbort ..
  | .cbusRecover ..
  | .cbusReadmit ..
  | .hostNotify ..
  | .safeStop ..
  | .safeStatus ..
  | .nvRead ..
  | .nvWrite ..
  | .nvAbort ..
  | .nvCount ..
  | .nvCountRead ..
  | .recUser ..
  | .unassignedEncoding ..
  | .sysc .. =>
    [.free, .cfg, .dev, .ln, .seq, .can, .fret, .yl, .lp, .fld, .cb, .host, .pkg, .safe, .nv, .out]
  | .canopyLoadReturn ..
  | .windowFill ..
  | .standby .. =>
    [.free, .cfg, .dev, .clk, .ln, .seq, .can, .fret, .yl, .lp, .fld, .cb, .host, .pkg, .safe, .nv, .wd, .out]
  | .instructionFetch .. =>
    [.free, .cfg, .dev, .clk, .ps, .ln, .seq, .can, .fld, .host, .pkg, .nv, .wd, .out]
  | .pstoreRewrite ..
  | .pstoreScrub .. =>
    [.dev, .clk, .ps, .ln, .fld, .host, .nv, .wd, .out]
  | .cyclicRelease ..
  | .eventTrigger ..
  | .latchedRelease .. =>
    [.free, .cfg, .dev, .clk, .ln, .seq, .can, .fld, .host, .pkg, .nv, .wd, .out]
  | .taskAged ..
  | .cmdTail ..
  | .slotId ..
  | .qspiWriteFrame .. =>
    [.dev, .clk, .ln, .seq, .fld, .host, .nv, .wd, .out]
  | .commit ..
  | .taskWatchdogVerdict ..
  | .canopyScrub ..
  | .compareGate ..
  | .spareWaitEnd ..
  | .pairVote ..
  | .pairStraggler ..
  | .laneSelfTestEnd ..
  | .standInReturn ..
  | .velocityUpdate ..
  | .portLinkLoss ..
  | .ylPortRetired ..
  | .start ..
  | .stop ..
  | .hold ..
  | .holdLimit ..
  | .resume ..
  | .clearExit .. =>
    [.free, .cfg, .dev, .clk, .ln, .seq, .can, .fret, .yl, .lp, .fld, .cb, .host, .pkg, .nv, .wd, .out]
  | .outputRelease ..
  | .loopSample ..
  | .linkCycleStart ..
  | .downFrameTick ..
  | .downFrameDeferred .. =>
    [.free, .dev, .clk, .seq, .can, .fret, .yl, .lp, .fld, .host, .nv, .wd, .out]
  | .atTimeExpiry ..
  | .taskBell .. =>
    [.dev, .clk, .seq, .fld, .wd]
  | .spareWake .. =>
    [.free, .dev, .clk, .ln, .seq, .fld, .host, .nv, .wd, .out]
  | .spareTestStart .. =>
    [.dev, .clk, .ln, .seq, .fld, .wd]
  | .loopClassCommit .. =>
    [.dev, .clk, .seq, .can, .lp, .fld, .host, .nv, .wd, .out]
  | .tuneTimeout .. =>
    [.dev, .clk, .seq, .lp, .fld, .host, .nv, .wd, .out]
  | .countEdge ..
  | .fretEvaluation ..
  | .inputReadPoint ..
  | .imgr ..
  | .ack ..
  | .nak ..
  | .ident ..
  | .syncReply ..
  | .mbxResponse ..
  | .cycReturn ..
  | .injectDelayExpiry ..
  | .zRisingEdge .. =>
    [.free, .dev, .clk, .seq, .can, .fret, .yl, .fld, .host, .nv, .wd, .out]
  | .wireError ..
  | .wireFaultTimeout ..
  | .fretMissed .. =>
    [.dev, .clk, .seq, .can, .fret, .yl, .fld, .host, .nv, .wd, .out]
  | .fretLead .. =>
    [.free, .dev, .clk, .fret, .yl, .fld, .host, .nv, .wd, .out]
  | .portSignalDetect ..
  | .admissionPassEnd ..
  | .mbxTimeout .. =>
    [.dev, .clk, .seq, .fret, .yl, .fld, .host, .nv, .wd, .out]
  | .portLink ..
  | .partnerIdleTimeout ..
  | .rediscovery ..
  | .attemptTimeout ..
  | .syncMeasurement .. =>
    [.free, .dev, .clk, .seq, .fret, .yl, .fld, .host, .nv, .wd, .out]
  | .fabricTagGrant .. =>
    [.free, .dev, .clk, .ln, .seq, .fret, .yl, .fld, .host, .nv, .wd, .out]
  | .refresh ..
  | .safeFrame ..
  | .config ..
  | .idle ..
  | .releaseFrame .. =>
    [.free, .dev, .clk, .seq, .fld, .host, .nv, .wd, .out]
  | .darkTestEnd ..
  | .bridgeLoss ..
  | .overload ..
  | .groupLimit ..
  | .readback ..
  | .vfLoss ..
  | .ownerLeaseExpiry ..
  | .recorderWrite ..
  | .supwdDis ..
  | .supwdMonLost .. =>
    [.dev, .clk, .fld, .host, .nv, .wd, .out]
  | .upFrame .. =>
    [.dev, .clk, .seq, .can, .fld, .host, .nv, .wd, .out]
  | .silence ..
  | .channelHoldExpiry ..
  | .timedChange ..
  | .fieldInputChange ..
  | .vfReturn ..
  | .faultFollowResume ..
  | .supwdLongErase ..
  | .supwdKick ..
  | .supwdLock ..
  | .supwdCfg ..
  | .pllLossOfLock ..
  | .nresetRelease .. =>
    [.dev, .clk, .fld, .wd]
  | .canRxFrame .. =>
    [.free, .dev, .clk, .seq, .can, .fld, .cb, .host, .nv, .wd, .out]
  | .canTxAttempt .. =>
    [.dev, .clk, .fld, .cb, .wd]
  | .canTxSuccess .. =>
    [.dev, .clk, .seq, .can, .fld, .cb, .host, .nv, .wd, .out]
  | .canError ..
  | .cbusBusOn .. =>
    [.dev, .clk, .fld, .cb, .host, .nv, .wd, .out]
  | .cplHead ..
  | .irqMask .. =>
    [.dev, .clk, .fld, .host, .wd, .out]
  | .notify ..
  | .irqPend ..
  | .nonceLapse .. =>
    [.dev, .clk, .fld, .host, .wd]
  | .slotReset .. =>
    [.free, .dev, .clk, .ln, .fld, .host, .nv, .wd, .out]
  | .qspiReadFrame ..
  | .pcieLinkUp .. =>
    [.free, .dev, .clk, .fld, .host, .wd, .out]
  | .identify ..
  | .ownerChallenge ..
  | .read ..
  | .sysread ..
  | .linkCount ..
  | .recRead ..
  | .safeLogRead ..
  | .fwInfo .. =>
    [.free, .dev, .clk, .yl, .fld, .host, .wd, .out]
  | .ownerProve ..
  | .release ..
  | .slotBind ..
  | .keyEnrol ..
  | .keyRemove ..
  | .recClear ..
  | .periodicWarmSave .. =>
    [.free, .dev, .clk, .yl, .fld, .host, .nv, .wd, .out]
  | .ackFault .. =>
    [.free, .dev, .clk, .seq, .yl, .fld, .host, .wd, .out]
  | .reset ..
  | .recover ..
  | .activate ..
  | .revert ..
  | .norEraseEnd ..
  | .supwdExpired ..
  | .clockStopped ..
  | .nreset ..
  | .bootComplete .. =>
    [.free, .cfg, .dev, .clk, .ps, .ln, .seq, .can, .fret, .yl, .lp, .fld, .cb, .host, .pkg, .safe, .nv, .svc, .wd, .out]
  | .write .. =>
    [.free, .dev, .clk, .seq, .can, .yl, .fld, .host, .nv, .wd, .out]
  | .readmit .. =>
    [.free, .dev, .clk, .ln, .seq, .yl, .fld, .cb, .host, .nv, .wd, .out]
  | .hostLoopTune ..
  | .hostLoopAbort .. =>
    [.free, .dev, .clk, .seq, .can, .yl, .lp, .fld, .host, .nv, .wd, .out]
  | .hostLoopCapture .. =>
    [.free, .dev, .clk, .seq, .yl, .lp, .fld, .host, .nv, .wd, .out]
  | .pkgOpen .. =>
    [.free, .dev, .clk, .yl, .fld, .host, .pkg, .safe, .nv, .svc, .wd, .out]
  | .pkgWrite ..
  | .fwOpen ..
  | .fwWrite ..
  | .fwAbort ..
  | .fwInstall ..
  | .fwRefresh .. =>
    [.free, .dev, .clk, .yl, .fld, .host, .svc, .wd, .out]
  | .pkgClose ..
  | .exchangeAbort .. =>
    [.free, .dev, .clk, .yl, .fld, .host, .pkg, .nv, .wd, .out]
  | .pkgAbort .. =>
    [.free, .dev, .clk, .yl, .fld, .host, .pkg, .svc, .wd, .out]
  | .exchangePlan .. =>
    [.free, .dev, .clk, .ps, .ln, .seq, .yl, .fld, .host, .pkg, .nv, .wd, .out]
  | .exchange .. =>
    [.free, .dev, .clk, .yl, .fld, .host, .pkg, .wd, .out]
  | .exchangeEpoch .. =>
    [.free, .cfg, .dev, .clk, .ln, .seq, .can, .fld, .host, .pkg, .safe, .nv, .wd, .out]
  | .safePassword ..
  | .safeConfirm ..
  | .safeRevoke .. =>
    [.free, .dev, .clk, .yl, .fld, .host, .safe, .nv, .wd, .out]
  | .safeLockoutEnd .. =>
    [.dev, .clk, .fld, .safe, .nv, .wd]
  | .userRecordWrite .. =>
    [.dev, .clk, .yl, .fld, .nv, .wd]
  | .counterIncrement .. =>
    [.dev, .clk, .yl, .fld, .host, .nv, .wd, .out]
  | .operatingMinute ..
  | .mergedRecordRewrite ..
  | .warmCopy .. =>
    [.dev, .clk, .fld, .nv, .wd]
  | .systemRecordWrite .. =>
    [.dev, .clk, .fld, .host, .pkg, .safe, .nv, .wd, .out]
  | .nvScrub .. =>
    [.free, .dev, .clk, .fld, .host, .nv, .wd, .out]
  | .handshakeRequest ..
  | .norRefreshDue ..
  | .norRefreshBlock .. =>
    [.dev, .clk, .fld, .svc, .wd]
  | .handshakeAnswer .. =>
    [.free, .dev, .clk, .fld, .host, .nv, .svc, .wd, .out]
  | .handshakeTimeout .. =>
    [.free, .cfg, .dev, .clk, .ln, .seq, .can, .fret, .yl, .lp, .fld, .cb, .host, .pkg, .nv, .svc, .wd, .out]
  | .fwClose .. =>
    [.free, .dev, .clk, .yl, .fld, .host, .nv, .svc, .wd, .out]
  | .norPageCheck .. =>
    [.dev, .clk, .fld, .host, .nv, .svc, .wd, .out]
  | .powerOnResetRelease .. =>
    [.dev, .clk, .seq, .fld, .host, .nv, .wd, .tap, .out]
  | .vlogBelowPrst ..
  | .loadSwitchOpen .. =>
    [.free, .cfg, .dev, .clk, .ps, .ln, .seq, .can, .fret, .yl, .lp, .fld, .cb, .host, .pkg, .safe, .nv, .svc, .wd, .tap, .out]
  | .powerWarning .. =>
    [.free, .dev, .clk, .seq, .yl, .fld, .host, .nv, .wd, .out]
  | .powerRideThrough ..
  | .wakeEdge ..
  | .qspiCsWake ..
  | .can0Wake .. =>
    [.dev, .clk, .seq, .fld, .host, .nv, .wd, .out]
  | .pllLock ..
  | .pllLockRetry .. =>
    [.free, .dev, .clk, .ln, .seq, .fld, .host, .pkg, .safe, .nv, .svc, .wd, .out]
  | .setupLimit .. =>
    [.free, .dev, .clk, .ln, .seq, .can, .fld, .host, .pkg, .nv, .wd, .out]
  | .testLogicReset ..
  | .extest ..
  | .idcode ..
  | .clamp ..
  | .highz ..
  | .bypass .. =>
    [.dev, .clk, .fld, .wd, .tap]
  | .samplePreload .. =>
    [.free, .dev, .clk, .fld, .wd, .tap]
  | .wireErrorCleared .. =>
    [.dev, .clk, .fret, .fld, .wd]

/-! ## What a unit leaves -/

/-- Lane `l` issues for copy `k`, which stands as `c`, a unit with the prefixes `p` whose instruction decodes as `d`:
its words lie in the code (R93), it is not skipped (R135), decoding it meets no fault (R132), and no stop and no takeover
waits for the copy (R43, R89, R312). -/
structure UnitRuns (s : State) (l : LaneId) (p : List Pre) (d : Dec) (k : Nat) (c : Copy) : Prop where
  copy : laneCopy s l.val = some (k, c)
  code : inCode s k c.regs.pc (p.length + 1) = true
  noSkip : c.skip = false
  legal : decodeFault d p = none
  stays : stopping s (keyTask k) = false ∧ c.restart = none

/-- The lane, the prefixes and the decoding of a command that issues a unit on a lane (R83-R87, R106); none for every other
command. -/
def laneUnit (i : Instr) : Option (LaneId × List Pre × Dec) :=
  match i with
  | .bld l p _ => some (l, p, { ext := true })
  | .bldn l p _ => some (l, p, { ext := true })
  | .band l p _ => some (l, p, { ext := true })
  | .bandn l p _ => some (l, p, { ext := true })
  | .bor l p _ => some (l, p, { ext := true })
  | .bst l p _ => some (l, p, { ext := true })
  | .bset l p _ => some (l, p, { ext := true })
  | .brst l p _ => some (l, p, { ext := true })
  | .mov l p _ _ => some (l, p, {})
  | .add l p _ _ => some (l, p, {})
  | .adc l p _ _ => some (l, p, {})
  | .sub l p _ _ => some (l, p, {})
  | .sbc l p _ _ => some (l, p, {})
  | .cmp l p _ _ => some (l, p, {})
  | .and l p _ _ => some (l, p, {})
  | .or l p _ _ => some (l, p, {})
  | .xor l p _ _ => some (l, p, {})
  | .tst l p _ _ => some (l, p, {})
  | .neg l p _ _ => some (l, p, {})
  | .lsl l p _ _ => some (l, p, {})
  | .lsr l p _ _ => some (l, p, {})
  | .asr l p _ _ => some (l, p, {})
  | .ror l p _ _ => some (l, p, {})
  | .mul l p _ _ => some (l, p, {})
  | .movi l p _ _ => some (l, p, { ext := true })
  | .addi l p _ _ => some (l, p, { ext := true })
  | .subi l p _ _ => some (l, p, { ext := true })
  | .cmpi l p _ _ => some (l, p, { ext := true })
  | .andi l p _ _ => some (l, p, { ext := true })
  | .ori l p _ _ => some (l, p, { ext := true })
  | .xori l p _ _ => some (l, p, { ext := true })
  | .tsti l p _ _ => some (l, p, { ext := true })
  | .muli l p _ _ => some (l, p, { ext := true })
  | .lsli l p _ _ => some (l, p, { ext := true })
  | .lsri l p _ _ => some (l, p, { ext := true })
  | .asri l p _ _ => some (l, p, { ext := true })
  | .rori l p _ _ => some (l, p, { ext := true })
  | .rtog l p _ => some (l, p, {})
  | .gtor l p _ => some (l, p, {})
  | .rnot l p => some (l, p, {})
  | .rset l p => some (l, p, {})
  | .rclr l p => some (l, p, {})
  | .movsb l p _ => some (l, p, { rep := true })
  | .movsh l p _ => some (l, p, { rep := true })
  | .movsw l p _ => some (l, p, { rep := true })
  | .fillw l p _ _ => some (l, p, { rep := true })
  | .divs l p _ _ => some (l, p, {})
  | .divu l p _ _ => some (l, p, {})
  | .ldb l p _ _ => some (l, p, { ext := true })
  | .ldbs l p _ _ => some (l, p, { ext := true })
  | .ldh l p _ _ => some (l, p, { ext := true })
  | .ldhs l p _ _ => some (l, p, { ext := true })
  | .ldw l p _ _ => some (l, p, { ext := true })
  | .stb l p _ _ => some (l, p, { ext := true })
  | .sth l p _ _ => some (l, p, { ext := true })
  | .stw l p _ _ => some (l, p, { ext := true })
  | .mfs l p sr _ => some (l, p, { legal := srLegal sr })
  | .mts l p sr _ => some (l, p, { legal := srLegal sr, writesRep := decide (3 ≤ sr.toNat ∧ sr.toNat ≤ 5) })
  | .fadd l p _ _ => some (l, p, {})
  | .fsub l p _ _ => some (l, p, {})
  | .fmul l p _ _ => some (l, p, {})
  | .fdiv l p _ _ => some (l, p, {})
  | .fcmp l p _ _ => some (l, p, {})
  | .ftoi l p _ _ => some (l, p, {})
  | .itof l p _ _ => some (l, p, {})
  | .skcc l p _ => some (l, p, {})
  | .skz l p _ => some (l, p, {})
  | .sknz l p _ => some (l, p, {})
  | .bcc l p _ _ => some (l, p, { ext := true })
  | .bra l p _ => some (l, p, { ext := true })
  | .call l p _ => some (l, p, { ext := true })
  | .br l p _ => some (l, p, {})
  | .callr l p _ => some (l, p, {})
  | .ret l p => some (l, p, {})
  | .loop l p _ len => some (l, p, { legal := joinZ p len.toNat 4 != 0, ext := true })
  | .leave l p => some (l, p, {})
  | .rep l pre post inner _ => some (l, pre ++ [Pre.rep] ++ post, (repDec inner))
  | .crcb l p _ => some (l, p, {})
  | .crch l p _ => some (l, p, {})
  | .crcw l p _ => some (l, p, {})
  | .crcmb l p _ => some (l, p, { rep := true })
  | .crcmh l p _ => some (l, p, { rep := true })
  | .crcmw l p _ => some (l, p, { rep := true })
  | .crci l p => some (l, p, {})
  | .crcf l p _ => some (l, p, {})
  | .par l p _ => some (l, p, {})
  | .brev l p _ _ => some (l, p, {})
  | .brevb l p _ _ => some (l, p, {})
  | .chk l p => some (l, p, {})
  | .halt l p _ => some (l, p, {})
  | .sys l p _ _ => some (l, p, { ext := true })
  | .cfg l p _ _ => some (l, p, { ext := true })
  | .fret l p _ _ => some (l, p, {})
  | .fretc l p _ _ => some (l, p, {})
  | .taskTrigger l p _ => some (l, p, { ext := true })
  | .releaseTime l p _ => some (l, p, { ext := true })
  | .atTime l p _ => some (l, p, { ext := true })
  | .snapInfo l p _ => some (l, p, { ext := true })
  | .loopRead l p _ => some (l, p, { ext := true })
  | .loopTune l p _ => some (l, p, { ext := true })
  | .loopCapture l p _ => some (l, p, { ext := true })
  | .loopAbort l p _ => some (l, p, { ext := true })
  | .shaftRead l p _ => some (l, p, { ext := true })
  | .ylReadmit l p _ => some (l, p, { ext := true })
  | .ylMbxSend l p _ => some (l, p, { ext := true })
  | .ylMbxRead l p _ => some (l, p, { ext := true })
  | .ylStaInfo l p _ => some (l, p, { ext := true })
  | .ylCount l p _ => some (l, p, { ext := true })
  | .fldReadmit l p _ => some (l, p, { ext := true })
  | .cbusSend l p _ => some (l, p, { ext := true })
  | .cbusAbort l p _ => some (l, p, { ext := true })
  | .cbusRecover l p _ => some (l, p, { ext := true })
  | .cbusReadmit l p _ => some (l, p, { ext := true })
  | .hostNotify l p _ => some (l, p, { ext := true })
  | .safeStop l p _ => some (l, p, { ext := true })
  | .safeStatus l p _ => some (l, p, { ext := true })
  | .nvRead l p _ => some (l, p, { ext := true })
  | .nvWrite l p _ => some (l, p, { ext := true })
  | .nvAbort l p _ => some (l, p, { ext := true })
  | .nvCount l p _ => some (l, p, { ext := true })
  | .nvCountRead l p _ => some (l, p, { ext := true })
  | .recUser l p _ => some (l, p, { ext := true })
  | .unassignedEncoding l p w => if assignedWord w then none else some (l, p, { legal := false })
  | .sysc l p _ _ => some (l, p, { ext := true })
  | _ => none

/-- The lane of command `i` issues it for copy `k`, which stands as `c`, and it executes. -/
def Runs (s : State) (i : Instr) (k : Nat) (c : Copy) : Prop :=
  match laneUnit i with
  | some (l, p, d) => UnitRuns s l p d k c
  | none => False

/-- No load shadow ends with this unit into register `j` (R73, R74). -/
def quiet (c : Copy) (j : Nat) : Prop := ∀ x ∈ c.loads, x.dst.toNat = j → ¬ (x.left ≤ 1 ∧ x.arrived = true)

/-- Parts `ps` may have changed; of the copies only `k`, but that another copy to which a lane switches has its window copy
filled anew (R112); of the lanes only which copy they carry, and the scratch of lane `n`. -/
def OnlyCopy (ps : List Part) (s : State) (k n : Nat) (t : State) : Prop :=
  Only ps s t ∧ (∀ j, j ≠ k → ∃ b, t.copy j = (s.copy j).map fun x => { x with winFull := x.winFull && b }) ∧
    ∀ j, ∃ r b, t.lane j = { s.lane j with running := r, scratch := b } ∧ (j ≠ n → b = (s.lane j).scratch)

/-- The registers other than G, PC, LC and the loop depth are those of `r` (R62, R127). -/
def SpecialAs (r x : Regs) : Prop :=
  x.fl = r.fl ∧ x.rlo = r.rlo ∧ x.bw = r.bw ∧ x.rc = r.rc ∧ x.rs = r.rs ∧ x.rd = r.rd ∧ x.cp = r.cp ∧ x.ca = r.ca ∧
    x.cm = r.cm ∧ x.ls = r.ls ∧ x.le = r.le

/-- The copy keeps its write set, its item stream and its check-in, and no skip is pending. -/
def Plain (c x : Copy) : Prop := x.ws = c.ws ∧ x.items = c.items ∧ x.chk = c.chk ∧ x.skip = false

/-- What a unit leaves in copy `k`, which stood as `c`: the general registers of `w` hold their new values and every other one
its old one, but those into which a load shadow ends; the other registers are those of `r`; the bytes of `bs` read as they
say and every other byte as it did once the slot had begun; the copy has not ended; and nothing else has changed but the
parts `ps`. -/
def UnitLeft (s : State) (k : Nat) (c : Copy) (w : List (Nat × Word)) (r : Regs) (bs : List (Nat × Byte)) (ps : List Part)
    (q : Copy → Prop) (t : State) : Prop :=
  ∃ x, t.copy k = some x ∧ (∀ j, j < 16 → quiet c j → x.reg j = (w.lookup j).getD (c.reg j)) ∧ SpecialAs r x.regs ∧
    (∀ a, copyByte t k x a = (bs.lookup a).getD (copyByte (slotBegins s k c).1 k c a)) ∧ x.ended = none ∧ q x ∧
    OnlyCopy (.ln :: ps) s k c.lane t

/-- A unit of `n` words has completed without a transfer of control: outside loops the PC has passed it (R136). -/
def Passed (s : State) (k : Nat) (c : Copy) (n : Nat) (w : List (Nat × Word)) (r : Regs) (bs : List (Nat × Byte))
    (ps : List Part) (q : Copy → Prop) (t : State) : Prop :=
  UnitLeft s k c w r bs ps (fun x => q x ∧ (c.regs.depth = 0 →
    x.regs.depth = 0 ∧ x.regs.lc = r.lc ∧ x.regs.pc = c.regs.pc + BitVec.ofNat 21 n)) t

/-- What a completed unit leaves that stores nothing and acts on the registers of its copy alone. -/
def Wrote (s : State) (k : Nat) (c : Copy) (n : Nat) (w : List (Nat × Word)) (r : Regs) (t : State) : Prop :=
  Passed s k c n w r [] [] (fun x => x.shadow = c.shadow ∧ Plain c x) t

/-- Of the Canopy at most the low mark of the shadow pool has changed, and where it has, it has been noted anew (R218). -/
def LowMark (s t : State) : Prop :=
  t.can = { s.can with low := t.can.low } ∧ (t.can.low = s.can.low ∨ t.can.low = min s.can.low (32768 - poolUsed t))

/-- What a completed unit leaves that stores the bytes `bs`. -/
def Stored (s : State) (k : Nat) (c : Copy) (n : Nat) (w : List (Nat × Word)) (r : Regs) (bs : List (Nat × Byte))
    (q : Copy → Prop) (t : State) : Prop :=
  Passed s k c n w r bs [.can] q t ∧ LowMark s t

/-- A unit has transferred control to `pc` and left `m` loop levels active; `q` holds of the copy. -/
def Went (s : State) (k : Nat) (c : Copy) (w : List (Nat × Word)) (r : Regs) (pc : BitVec 21) (m : Nat) (q : Copy → Prop)
    (t : State) : Prop :=
  UnitLeft s k c w r [] [] (fun x => x.shadow = c.shadow ∧ Plain c x ∧ x.regs.pc = pc ∧ x.regs.depth.val = m ∧ q x) t

/-- A transfer from `a` to `t` leaves the `m` outermost levels: from the innermost on, those are abandoned whose body holds
`a` and not `t`, up to the first that is not so (R144). -/
def Leaves (r : Regs) (a t : BitVec 21) (m : Nat) : Prop :=
  m ≤ r.depth.val ∧ (∀ i, m ≤ i → i < r.depth.val → r.inBody i a = true ∧ r.inBody i t = false) ∧
    (0 < m → ¬(r.inBody (m - 1) a = true ∧ r.inBody (m - 1) t = false))

/-- A store at `a` needs no shadow line beyond the quota of its task (R207). -/
def Room (s : State) (k : Nat) (c : Copy) (a : Nat) : Prop :=
  isScratch a = true ∨ (tabGet none c.shadow (a / 64)).isSome = true ∨ 256 ≤ k ∨
    c.shadow.length < tQuota (ownCfg s (keyTask k)) (keyTask k)

/-- The bytes of a little-endian value of `n` bytes at `a` (R8). -/
def cells (a n v : Nat) : List (Nat × Byte) := (List.range n).map fun j => (a + j, BitVec.ofNat 8 (v / 2 ^ (8 * j)))

/-- The condition of code `cc` in FL `f` and RLO (R133). -/
def condition (cc : BitVec 4) (rlo : Bool) (f : BitVec 5) : Bool :=
  let z := f.getLsbD 0
  let n := f.getLsbD 1
  let c := f.getLsbD 2
  let v := f.getLsbD 3
  [rlo, !rlo, z, !z, n, !n, c, !c, v, !v, c && !z, !c || z, n == v, n != v, !z && n == v, z || n != v].getD cc.toNat false

/-- An event with code `code` was recorded last in `t`: it is the newest record if the buffer of `s` had room (R459), and
where the event is one that does not merge (R460), with these contents. -/
def Logs (s t : State) (code : Nat) (items : List RItem) : Prop :=
  s.nv.buf.length < 32 → ∃ r, newestRec t = some r ∧ r.code = BitVec.ofNat 16 code ∧
    (mergeBytes code = none → r.contents = encodeItems items)

/-- An open instance goes on as it was, but that one released at this very instant sees the S bytes as they stand now (R175,
R213). -/
def SameInst (u : State) (i j : Option Inst) : Prop :=
  ∃ f : Inst → Mem, j = i.map (fun x => { x with snap := f x }) ∧ ∀ x, i = some x → (x.rel ≠ u.now → f x = x.snap) ∧
    ∀ a, a < 0x10050000 ∨ 0x100501C0 ≤ a → (f x).byte a = x.snap.byte a

/-- The sequencer goes on as it was, each open instance as `SameInst` says. -/
def Seen (u t : State) : Prop :=
  t.seq = { u.seq with insts := t.seq.insts } ∧ ∀ n, SameInst u (u.inst n) (t.inst n)

/-- Task `n` may be released at this instant: the state releases it, it is neither guard-stopped nor stopped by CLEARING, it
has no open instance, and no exchange is under way (R56, R169, R187, R419, R409). -/
def Free (u : State) (n : Nat) : Prop :=
  releasable u n = true ∧ (u.task n).gstop = 0 ∧ (u.task n).cleared = false ∧ u.inst n = none ∧ u.pkg.exch.run = none

/-- Task `n` has been released at the instant of `u` (R62, R165, R167, R175, R183, R568): its instance, with the bytes of D
and H as committed, its copy on its lane at the entry point, its output release and its number. -/
def Released (u : State) (n : Nat) (t : State) : Prop :=
  (∃ i x, t.inst n = some i ∧ i.rel = u.now ∧ i.num = (u.task n).num + 1 ∧ i.due = u.now + 1000 * tDeadline u.cfg n ∧
    i.outAt = u.now + 1000 * tMargin u.cfg n ∧ i.phase = .going ∧
    (∀ a, areaOf a = some .d ∨ areaOf a = some .h → (∀ b ∈ u.can.bad, ¬(b ≤ a ∧ a < b + 4)) → i.snap.byte a = u.can.mem.byte a) ∧
    t.copy (4 * n) = some x ∧ x.lane = copyLane u n 0 ∧ x.regs = startRegs (tEntry u.cfg n) (64 * (tFrame u.cfg n).2) ∧
    x.ws = [] ∧ x.shadow = [] ∧ x.ended = none ∧ (t.task n).num = i.num ∧ (t.task n).lastRel = some u.now ∧
    { task := n, num := i.num, at_ := i.outAt } ∈ t.seq.outs) ∧
  Only [.free, .ln, .seq, .host, .nv, .out] u t

/-- The triggers that one occurrence of a source raises now: one for each enabled event task that selects it and is armed
(R168, R170). -/
def raised (u : State) (source : Nat) (sel : Nat → Bool) : List Trig :=
  ((List.range 64).filter fun j => tEnable u.cfg j && tEvent u.cfg j && tSource u.cfg j == source && sel (tArg u.cfg j)
    && (u.task j).armed).map fun j => { task := j, source := BitVec.ofNat 4 source, at_ := u.now }

/-! ## What a host command leaves -/

/-- The command `op` stands at the head of the command queue of slot `n`, with no other behind it, and the device takes it
now (R389). -/
structure Asked (u : State) (n op : Nat) : Prop where
  takes : mayTake u n = true
  head : headOp (u.slot n) = op
  last : ((u.slot n).cmdHead + 1) % 32 = (u.slot n).cmdTail

/-- Slot `n` has its completion entry, with these contents, at the tail of its completion queue; the command is off its
queue, and cause 0 is pending (R388, R389, R392). -/
def Answered (u t : State) (n op st v0 v1 v2 : Nat) : Prop :=
  let x := u.slot n
  let y := t.slot n
  y.map.bytes (0x1800 + 16 * (x.cplTail % 32)) 16 = cplEntry (headCid x) st op v0 v1 v2 ∧
    y.cplTail = (x.cplTail + 1) % 32 ∧ y.cmdHead = x.cmdTail ∧ y.cmdTail = x.cmdTail ∧ y.pend.getLsbD 0 = true

/-- The command of slot `n` has started and waits: no completion entry is written yet (R389). -/
def Waiting (u t : State) (n op : Nat) (f : WaitFor) : Prop :=
  (∃ w, t.host.waits = u.host.waits ++ [w] ∧ w.slot = n ∧ w.cid = headCid (u.slot n) ∧ w.op = BitVec.ofNat 8 op ∧ w.for_ = f ∧
    w.live = true) ∧
    (t.slot n).cplTail = (u.slot n).cplTail ∧ (t.slot n).cmdHead = (u.slot n).cmdTail

/-- No started command waits, and no online exchange or staged run is under way. -/
def Calm (u : State) : Prop := u.host.waits = [] ∧ u.pkg.exch.run = none ∧ u.pkg.exch.staged = none

/-- The device has made the transition of a cause into a state (R37, R41). -/
def Moved (u t : State) (cause : Byte) (to_ : DevState) : Prop :=
  t.dev.state = to_ ∧ t.dev.last.cause = cause ∧ t.dev.last.left = u.dev.state

/-- FL made of its five flags (R63). -/
def flagWord (dz v c n z : Bool) : BitVec 5 :=
  BitVec.ofBool dz ++ BitVec.ofBool v ++ BitVec.ofBool c ++ BitVec.ofBool n ++ BitVec.ofBool z

/-- The FL that add(a, b, cin) of R116 leaves: V, C, N and Z of the sum; DZ stays. -/
def sumFlags (f : BitVec 5) (a b : Word) (cin : Bool) : BitVec 5 :=
  let r := a + b + BitVec.ofNat 32 cin.toNat
  let t := a.toInt + b.toInt + (cin.toNat : Int)
  flagWord (f.getLsbD 4) (decide (t < -(2 ^ 31) ∨ 2 ^ 31 - 1 < t)) (decide (2 ^ 32 ≤ a.toNat + b.toNat + cin.toNat)) r.msb
    (r == 0)

/-- FL with Z and N of a result, the other flags as they were. -/
def resultFlags (f : BitVec 5) (r : Word) : BitVec 5 :=
  flagWord (f.getLsbD 4) (f.getLsbD 3) (f.getLsbD 2) r.msb (r == 0)

/-- FL with Z and N of a result and a carry, V and DZ as they were. -/
def carryFlags (f : BitVec 5) (r : Word) (c : Bool) : BitVec 5 :=
  flagWord (f.getLsbD 4) (f.getLsbD 3) c r.msb (r == 0)

/-- FL with Z and N of a result and an overflow, C as it was. -/
def overflowFlags (f : BitVec 5) (r : Word) (v dz : Bool) : BitVec 5 :=
  flagWord dz v (f.getLsbD 2) r.msb (r == 0)

/-- The joined immediate of the class 10 operations, sign-extended (R85, R108). -/
def immOf (p : List Pre) (imm : BitVec 2) : Word := joinS p imm.toNat 2

/-- The boundary-scan instructions that need board test are selected only in board test (R529). -/
def tapOk (s : State) : Bool :=
  s.tap.testEn || !(s.tap.ir == .extest || s.tap.ir == .clamp || s.tap.ir == .highz)

/-- The memories of the machine that are reached by address are in canonical form. -/
def memOk (s : State) : Bool := s.can.mem.wf && s.seq.shown.wf && s.seq.shownG.wf

/-- The instruction that the decoder reads from the words of `i`: `i` itself, but that what the words do not spell takes
the decoder's value (the elements `run` of a string unit, no word error), a call named by its service number is `SYSC`
with that number, a repeated instruction carries `REP` among its prefixes, and a move of a special register that R127
does not number is the unassigned word that it is. -/
def readBack (run : Nat) (i : Instr) : Instr :=
  match i with
  | .movsb l p _ => .movsb l p run
  | .movsh l p _ => .movsh l p run
  | .movsw l p _ => .movsw l p run
  | .fillw l p s _ => .fillw l p s run
  | .crcmb l p _ => .crcmb l p run
  | .crcmh l p _ => .crcmh l p run
  | .crcmw l p _ => .crcmw l p run
  | .halt l p _ => .halt l p []
  | .mfs l p r g => if srNamed r then i else .unassignedEncoding l p (wordOf 0x2c00 r 3 g)
  | .mts l p r g => if srNamed r then i else .unassignedEncoding l p (wordOf 0x2d00 r 3 g)
  | .rep l pre post inner _ =>
    let p := pre ++ [.rep] ++ post
    match inner with
    | .movs 0 => .movsb l p run
    | .movs 1 => .movsh l p run
    | .movs 2 => .movsw l p run
    | .fillw s => .fillw l p s run
    | .crcm 0 => .crcmb l p run
    | .crcm 1 => .crcmh l p run
    | .crcm 2 => .crcmw l p run
    | _ => i
  | .taskTrigger l p d => .sysc l p d 0
  | .releaseTime l p d => .sysc l p d 1
  | .atTime l p d => .sysc l p d 2
  | .snapInfo l p d => .sysc l p d 3
  | .shaftRead l p d => .sysc l p d 0
  | .ylReadmit l p d => .sysc l p d 0
  | .ylMbxSend l p d => .sysc l p d 1
  | .ylMbxRead l p d => .sysc l p d 2
  | .ylStaInfo l p d => .sysc l p d 3
  | .ylCount l p d => .sysc l p d 0
  | .loopRead l p d => .sysc l p d 0
  | .loopTune l p d => .sysc l p d 1
  | .loopCapture l p d => .sysc l p d 2
  | .loopAbort l p d => .sysc l p d 3
  | .fldReadmit l p d => .sysc l p d 0
  | .cbusSend l p d => .sysc l p d 0
  | .cbusAbort l p d => .sysc l p d 1
  | .cbusRecover l p d => .sysc l p d 2
  | .cbusReadmit l p d => .sysc l p d 3
  | .hostNotify l p d => .sysc l p d 0
  | .safeStop l p d => .sysc l p d 0
  | .safeStatus l p d => .sysc l p d 1
  | .nvRead l p d => .sysc l p d 0
  | .nvWrite l p d => .sysc l p d 1
  | .nvAbort l p d => .sysc l p d 2
  | .nvCount l p d => .sysc l p d 3
  | .nvCountRead l p d => .sysc l p d 0
  | .recUser l p d => .sysc l p d 1
  | _ => i

end Sys2Proof.Machine
end

