-- ==== Sys2Proof/WellFormed.lean ====
section
/-! DEFINITION. Which commands are well-formed: their operands lie in the ranges that the spec gives them where the
types of the operands do not say so already. -/
namespace Sys2Proof

/-- Check 1: the time that passes before a command fits the 64-bit time base (R507). -/
def okSpan (dt : Nat) : Bool := decide (dt < 2 ^ 64)

/-- Check 2: a unit fits the word space of the program store (R78, R84). -/
def okUnit (p : List Pre) : Bool := decide (p.length < 2 ^ 21)

/-- Check 3: the elements run in one slot are at most those that RC counts (R148). -/
def okRun (n : Nat) : Bool := decide (n < 2 ^ 32)

/-- Check 4: a word error lies at a word address; a shadow line belongs to one of the copies (R216, R217). -/
def okErrs (l : List EccErr) : Bool :=
  l.all fun e => decide (e.addr % 4 = 0 ∧ e.addr < 2 ^ 32) && (match e.loc with | .shadow k => decide (k < 264) | _ => true)

/-- Bytes of a CAN frame by its DLC (R372). -/
def dlcBytes (fd : Bool) (dlc : BitVec 4) : Nat :=
  if dlc.toNat ≤ 8 then dlc.toNat
  else if fd then [12, 16, 20, 24, 32, 48, 64].getD (dlc.toNat - 9) 64 else 8

/-- Check 5: a CAN frame carries the data that its DLC names, a standard identifier has 11 bits, and only a classical
frame is remote (R372). -/
def okCan (f : CanFrame) : Bool :=
  decide (f.data.length = if f.rtr then 0 else dlcBytes f.fdf f.dlc) && (f.ide || decide (f.id.toNat < 2 ^ 11)) && !(f.rtr && f.fdf)

/-- Check 6: a host writes whole words of a slot's map (R387). -/
def okWrites (l : List (BitVec 16 × Word)) : Bool := l.all fun e => decide (e.1.toNat % 4 = 0)

/-- Check 7: a frame has at least one byte (R266, R386). -/
def okFrame (f : List Byte) : Bool := !f.isEmpty

/-- Check 8: a transmit error counter that an error has raised by 8 at most beyond 255 (R378). -/
def okTec (n : BitVec 9) : Bool := decide (n.toNat ≤ 263)

/-- Check 9: no lane is named twice. -/
def okLanes (l : List LaneId) : Bool := decide l.Nodup

/-- Check 10: the scrubbed words lie in the parameter store (R435, R436). -/
def okNvErrs (l : List (Nat × Bool)) : Bool := l.all fun e => decide (e.1 < 0x40000)

/-- Check 11: a block of the NOR die (R468). -/
def okBlock (n : Nat) : Bool := decide (n < 256)

/-- Check 12: a word that the opcode map leaves unassigned (R102, R130). -/
def okUnassigned (w : BitVec 14) : Bool := !assignedWord w

/-- The well-formedness of a command. -/
def Instr.wf (i : Instr) : Bool :=
  match i with
  | .bld _ p _ => okUnit p
  | .bldn _ p _ => okUnit p
  | .band _ p _ => okUnit p
  | .bandn _ p _ => okUnit p
  | .bor _ p _ => okUnit p
  | .bst _ p _ => okUnit p
  | .bset _ p _ => okUnit p
  | .brst _ p _ => okUnit p
  | .mov _ p _ _ => okUnit p
  | .add _ p _ _ => okUnit p
  | .adc _ p _ _ => okUnit p
  | .sub _ p _ _ => okUnit p
  | .sbc _ p _ _ => okUnit p
  | .cmp _ p _ _ => okUnit p
  | .and _ p _ _ => okUnit p
  | .or _ p _ _ => okUnit p
  | .xor _ p _ _ => okUnit p
  | .tst _ p _ _ => okUnit p
  | .neg _ p _ _ => okUnit p
  | .lsl _ p _ _ => okUnit p
  | .lsr _ p _ _ => okUnit p
  | .asr _ p _ _ => okUnit p
  | .ror _ p _ _ => okUnit p
  | .mul _ p _ _ => okUnit p
  | .movi _ p _ _ => okUnit p
  | .addi _ p _ _ => okUnit p
  | .subi _ p _ _ => okUnit p
  | .cmpi _ p _ _ => okUnit p
  | .andi _ p _ _ => okUnit p
  | .ori _ p _ _ => okUnit p
  | .xori _ p _ _ => okUnit p
  | .tsti _ p _ _ => okUnit p
  | .muli _ p _ _ => okUnit p
  | .lsli _ p _ _ => okUnit p
  | .lsri _ p _ _ => okUnit p
  | .asri _ p _ _ => okUnit p
  | .rori _ p _ _ => okUnit p
  | .rtog _ p _ => okUnit p
  | .gtor _ p _ => okUnit p
  | .rnot _ p => okUnit p
  | .rset _ p => okUnit p
  | .rclr _ p => okUnit p
  | .movsb _ p run => okUnit p && okRun run
  | .movsh _ p run => okUnit p && okRun run
  | .movsw _ p run => okUnit p && okRun run
  | .fillw _ p _ run => okUnit p && okRun run
  | .divs _ p _ _ => okUnit p
  | .divu _ p _ _ => okUnit p
  | .ldb _ p _ _ => okUnit p
  | .ldbs _ p _ _ => okUnit p
  | .ldh _ p _ _ => okUnit p
  | .ldhs _ p _ _ => okUnit p
  | .ldw _ p _ _ => okUnit p
  | .stb _ p _ _ => okUnit p
  | .sth _ p _ _ => okUnit p
  | .stw _ p _ _ => okUnit p
  | .mfs _ p _ _ => okUnit p
  | .mts _ p _ _ => okUnit p
  | .fadd _ p _ _ => okUnit p
  | .fsub _ p _ _ => okUnit p
  | .fmul _ p _ _ => okUnit p
  | .fdiv _ p _ _ => okUnit p
  | .fcmp _ p _ _ => okUnit p
  | .ftoi _ p _ _ => okUnit p
  | .itof _ p _ _ => okUnit p
  | .skcc _ p _ => okUnit p
  | .skz _ p _ => okUnit p
  | .sknz _ p _ => okUnit p
  | .bcc _ p _ _ => okUnit p
  | .bra _ p _ => okUnit p
  | .call _ p _ => okUnit p
  | .br _ p _ => okUnit p
  | .callr _ p _ => okUnit p
  | .ret _ p => okUnit p
  | .loop _ p _ _ => okUnit p
  | .leave _ p => okUnit p
  | .rep _ pre post _ run => okUnit pre && okUnit post && okRun run
  | .crcb _ p _ => okUnit p
  | .crch _ p _ => okUnit p
  | .crcw _ p _ => okUnit p
  | .crcmb _ p run => okUnit p && okRun run
  | .crcmh _ p run => okUnit p && okRun run
  | .crcmw _ p run => okUnit p && okRun run
  | .crci _ p => okUnit p
  | .crcf _ p _ => okUnit p
  | .par _ p _ => okUnit p
  | .brev _ p _ _ => okUnit p
  | .brevb _ p _ _ => okUnit p
  | .chk _ p => okUnit p
  | .halt _ p errs => okUnit p && okErrs errs
  | .sys _ p _ _ => okUnit p
  | .cfg _ p _ _ => okUnit p
  | .fret _ p _ _ => okUnit p
  | .fretc _ p _ _ => okUnit p
  | .canopyLoadReturn dt _ _ => okSpan dt
  | .windowFill dt _ _ => okSpan dt
  | .instructionFetch dt _ _ => okSpan dt
  | .pstoreRewrite dt _ _ => okSpan dt
  | .pstoreScrub dt _ => okSpan dt
  | .cyclicRelease dt _ => okSpan dt
  | .eventTrigger dt _ => okSpan dt
  | .latchedRelease dt _ => okSpan dt
  | .taskAged dt _ _ => okSpan dt
  | .commit dt _ => okSpan dt
  | .outputRelease dt _ => okSpan dt
  | .taskWatchdogVerdict dt _ => okSpan dt
  | .atTimeExpiry dt _ => okSpan dt
  | .taskTrigger _ p _ => okUnit p
  | .releaseTime _ p _ => okUnit p
  | .atTime _ p _ => okUnit p
  | .snapInfo _ p _ => okUnit p
  | .canopyScrub dt errs => okSpan dt && okErrs errs
  | .compareGate dt _ => okSpan dt
  | .spareWaitEnd dt _ => okSpan dt
  | .spareWake dt _ => okSpan dt
  | .pairVote dt _ => okSpan dt
  | .pairStraggler dt _ => okSpan dt
  | .laneSelfTestEnd dt _ _ => okSpan dt
  | .standInReturn dt _ => okSpan dt
  | .spareTestStart dt => okSpan dt
  | .loopSample dt _ => okSpan dt
  | .loopClassCommit dt _ => okSpan dt
  | .tuneTimeout dt _ => okSpan dt
  | .loopRead _ p _ => okUnit p
  | .loopTune _ p _ => okUnit p
  | .loopCapture _ p _ => okUnit p
  | .loopAbort _ p _ => okUnit p
  | .countEdge dt _ _ _ _ => okSpan dt
  | .wireError dt _ => okSpan dt
  | .wireFaultTimeout dt _ => okSpan dt
  | .velocityUpdate dt => okSpan dt
  | .fretEvaluation dt => okSpan dt
  | .fretLead dt _ _ => okSpan dt
  | .fretMissed dt _ => okSpan dt
  | .shaftRead _ p _ => okUnit p
  | .portSignalDetect dt _ => okSpan dt
  | .portLink dt _ => okSpan dt
  | .partnerIdleTimeout dt _ => okSpan dt
  | .portLinkLoss dt _ => okSpan dt
  | .ylPortRetired dt _ => okSpan dt
  | .admissionPassEnd dt _ => okSpan dt
  | .rediscovery dt _ => okSpan dt
  | .linkCycleStart dt _ => okSpan dt
  | .inputReadPoint dt _ => okSpan dt
  | .attemptTimeout dt _ => okSpan dt
  | .imgr dt _ f => okSpan dt && okFrame f
  | .ack dt _ f => okSpan dt && okFrame f
  | .nak dt _ f => okSpan dt && okFrame f
  | .ident dt _ f => okSpan dt && okFrame f
  | .syncReply dt _ f => okSpan dt && okFrame f
  | .mbxResponse dt _ f => okSpan dt && okFrame f
  | .cycReturn dt _ f => okSpan dt && okFrame f
  | .mbxTimeout dt _ => okSpan dt
  | .syncMeasurement dt _ => okSpan dt
  | .injectDelayExpiry dt _ => okSpan dt
  | .fabricTagGrant dt => okSpan dt
  | .ylReadmit _ p _ => okUnit p
  | .ylMbxSend _ p _ => okUnit p
  | .ylMbxRead _ p _ => okUnit p
  | .ylStaInfo _ p _ => okUnit p
  | .ylCount _ p _ => okUnit p
  | .downFrameTick dt => okSpan dt
  | .downFrameDeferred dt => okSpan dt
  | .refresh dt _ => okSpan dt
  | .safeFrame dt _ => okSpan dt
  | .config dt _ => okSpan dt
  | .idle dt _ => okSpan dt
  | .releaseFrame dt _ => okSpan dt
  | .darkTestEnd dt _ _ => okSpan dt
  | .upFrame dt _ => okSpan dt
  | .bridgeLoss dt => okSpan dt
  | .silence dt => okSpan dt
  | .channelHoldExpiry dt _ => okSpan dt
  | .timedChange dt _ => okSpan dt
  | .fieldInputChange dt _ _ => okSpan dt
  | .overload dt _ => okSpan dt
  | .groupLimit dt _ => okSpan dt
  | .readback dt _ _ => okSpan dt
  | .vfLoss dt _ => okSpan dt
  | .vfReturn dt _ => okSpan dt
  | .faultFollowResume dt _ => okSpan dt
  | .fldReadmit _ p _ => okUnit p
  | .canRxFrame dt _ stamp f => okSpan dt && okSpan stamp && okCan f
  | .canTxAttempt dt _ => okSpan dt
  | .canTxSuccess dt _ => okSpan dt
  | .canError dt _ tec _ => okSpan dt && okTec tec
  | .cbusBusOn dt _ => okSpan dt
  | .cbusSend _ p _ => okUnit p
  | .cbusAbort _ p _ => okUnit p
  | .cbusRecover _ p _ => okUnit p
  | .cbusReadmit _ p _ => okUnit p
  | .cmdTail dt _ wr _ => okSpan dt && okWrites wr
  | .cplHead dt _ _ => okSpan dt
  | .taskBell dt _ => okSpan dt
  | .notify dt _ _ => okSpan dt
  | .irqMask dt _ _ => okSpan dt
  | .irqPend dt _ _ => okSpan dt
  | .slotId dt _ _ => okSpan dt
  | .slotReset dt _ => okSpan dt
  | .qspiWriteFrame dt _ f => okSpan dt && okFrame f
  | .qspiReadFrame dt _ f => okSpan dt && okFrame f
  | .identify dt _ => okSpan dt
  | .ownerChallenge dt _ => okSpan dt
  | .ownerProve dt _ => okSpan dt
  | .release dt _ => okSpan dt
  | .slotBind dt _ => okSpan dt
  | .keyEnrol dt _ => okSpan dt
  | .keyRemove dt _ => okSpan dt
  | .start dt _ => okSpan dt
  | .stop dt _ => okSpan dt
  | .hold dt _ => okSpan dt
  | .holdLimit dt => okSpan dt
  | .resume dt _ => okSpan dt
  | .clearExit dt _ => okSpan dt
  | .ackFault dt _ => okSpan dt
  | .reset dt _ => okSpan dt
  | .standby dt _ => okSpan dt
  | .recover dt _ => okSpan dt
  | .read dt _ => okSpan dt
  | .write dt _ => okSpan dt
  | .sysread dt _ => okSpan dt
  | .linkCount dt _ => okSpan dt
  | .recRead dt _ => okSpan dt
  | .recClear dt _ => okSpan dt
  | .readmit dt _ => okSpan dt
  | .hostLoopTune dt _ => okSpan dt
  | .hostLoopCapture dt _ => okSpan dt
  | .hostLoopAbort dt _ => okSpan dt
  | .pkgOpen dt _ => okSpan dt
  | .pkgWrite dt _ => okSpan dt
  | .pkgClose dt _ => okSpan dt
  | .pkgAbort dt _ => okSpan dt
  | .activate dt _ => okSpan dt
  | .revert dt _ => okSpan dt
  | .exchangePlan dt _ => okSpan dt
  | .exchange dt _ => okSpan dt
  | .exchangeEpoch dt => okSpan dt
  | .exchangeAbort dt _ => okSpan dt
  | .ownerLeaseExpiry dt => okSpan dt
  | .nonceLapse dt _ => okSpan dt
  | .hostNotify _ p _ => okUnit p
  | .safePassword dt _ => okSpan dt
  | .safeConfirm dt _ => okSpan dt
  | .safeRevoke dt _ => okSpan dt
  | .safeLogRead dt _ => okSpan dt
  | .safeLockoutEnd dt => okSpan dt
  | .safeStop _ p _ => okUnit p
  | .safeStatus _ p _ => okUnit p
  | .nvRead _ p _ => okUnit p
  | .nvWrite _ p _ => okUnit p
  | .nvAbort _ p _ => okUnit p
  | .nvCount _ p _ => okUnit p
  | .nvCountRead _ p _ => okUnit p
  | .recUser _ p _ => okUnit p
  | .userRecordWrite dt => okSpan dt
  | .counterIncrement dt => okSpan dt
  | .operatingMinute dt => okSpan dt
  | .systemRecordWrite dt _ => okSpan dt
  | .recorderWrite dt => okSpan dt
  | .mergedRecordRewrite dt => okSpan dt
  | .nvScrub dt errs => okSpan dt && okNvErrs errs
  | .periodicWarmSave dt => okSpan dt
  | .warmCopy dt => okSpan dt
  | .handshakeRequest dt => okSpan dt
  | .handshakeAnswer dt _ => okSpan dt
  | .handshakeTimeout dt => okSpan dt
  | .fwInfo dt _ => okSpan dt
  | .fwOpen dt _ => okSpan dt
  | .fwWrite dt _ => okSpan dt
  | .fwClose dt _ => okSpan dt
  | .fwAbort dt _ => okSpan dt
  | .fwInstall dt _ => okSpan dt
  | .fwRefresh dt _ => okSpan dt
  | .norRefreshDue dt => okSpan dt
  | .norRefreshBlock dt => okSpan dt
  | .norPageCheck dt blk _ _ => okSpan dt && okBlock blk
  | .norEraseEnd dt => okSpan dt
  | .supwdLongErase dt blk => okSpan dt && okBlock blk
  | .supwdKick dt _ => okSpan dt
  | .supwdDis dt _ => okSpan dt
  | .supwdLock dt _ => okSpan dt
  | .supwdCfg dt _ => okSpan dt
  | .supwdExpired dt => okSpan dt
  | .clockStopped dt _ => okSpan dt
  | .supwdMonLost dt _ => okSpan dt
  | .powerOnResetRelease dt _ => okSpan dt
  | .vlogBelowPrst dt => okSpan dt
  | .powerWarning dt => okSpan dt
  | .powerRideThrough dt => okSpan dt
  | .nreset dt => okSpan dt
  | .loadSwitchOpen dt => okSpan dt
  | .wakeEdge dt => okSpan dt
  | .qspiCsWake dt => okSpan dt
  | .can0Wake dt => okSpan dt
  | .pllLock dt _ => okSpan dt
  | .pllLockRetry dt _ => okSpan dt
  | .pllLossOfLock dt => okSpan dt
  | .bootComplete dt failed => okSpan dt && okLanes (failed.map Prod.fst)
  | .setupLimit dt => okSpan dt
  | .testLogicReset dt => okSpan dt
  | .extest dt => okSpan dt
  | .samplePreload dt => okSpan dt
  | .idcode dt => okSpan dt
  | .clamp dt => okSpan dt
  | .highz dt => okSpan dt
  | .bypass dt => okSpan dt
  | .unassignedEncoding _ p w => okUnit p && okUnassigned w
  | .sysc _ p _ _ => okUnit p
  | .nresetRelease dt => okSpan dt
  | .pcieLinkUp dt _ => okSpan dt
  | .zRisingEdge dt _ => okSpan dt
  | .wireErrorCleared dt _ => okSpan dt

end Sys2Proof
end

