-- ==== Sys2Proof/Certificates/Slice0/Obligations.lean ====
section
/-! DEFINITION. The statements for the provers. `Runs` says that a lane executes the command; `Ends` that exec answers a next
state and what it holds; `Only` which parts of the state may differ. -/
open Sys2Proof Sys2Proof.Machine

/-- MOV, ADD, ADC, SUB, SBC, CMP and NEG of the register ALU: results, flags and frame -/
def Obligations.RegisterSums : Prop :=
  ∀ (s : State) (l : LaneId) (p : List Pre) (k : Nat) (c : Copy) (d r : BitVec 4),
    let a := c.reg d.toNat
    let b := c.reg r.toNat
    let cy := c.regs.fl.getLsbD 2
    (Runs s (.mov l p d r) k c →
      Ends (exec (.mov l p d r) s) (Wrote s k c (p.length + 1) [(d.toNat, b)] c.regs)) ∧
    (Runs s (.add l p d r) k c →
      Ends (exec (.add l p d r) s) (Wrote s k c (p.length + 1) [(d.toNat, a + b)] { c.regs with fl := sumFlags c.regs.fl a b false })) ∧
    (Runs s (.adc l p d r) k c →
      Ends (exec (.adc l p d r) s) (Wrote s k c (p.length + 1) [(d.toNat, a + b + BitVec.ofNat 32 cy.toNat)] { c.regs with fl := sumFlags c.regs.fl a b cy })) ∧
    (Runs s (.sub l p d r) k c →
      Ends (exec (.sub l p d r) s) (Wrote s k c (p.length + 1) [(d.toNat, a - b)] { c.regs with fl := sumFlags c.regs.fl a (~~~b) true })) ∧
    (Runs s (.sbc l p d r) k c →
      Ends (exec (.sbc l p d r) s) (Wrote s k c (p.length + 1) [(d.toNat, a + ~~~b + BitVec.ofNat 32 cy.toNat)] { c.regs with fl := sumFlags c.regs.fl a (~~~b) cy })) ∧
    (Runs s (.cmp l p d r) k c →
      Ends (exec (.cmp l p d r) s) (Wrote s k c (p.length + 1) [] { c.regs with fl := sumFlags c.regs.fl a (~~~b) true })) ∧
    (Runs s (.neg l p d r) k c →
      Ends (exec (.neg l p d r) s) (Wrote s k c (p.length + 1) [(d.toNat, -b)] { c.regs with fl := sumFlags c.regs.fl 0 (~~~b) true }))

/-- AND, OR, XOR, TST and their immediate forms, MOVI, ADDI, SUBI and CMPI: results, flags and frame -/
def Obligations.BitwiseAndImmediate : Prop :=
  ∀ (s : State) (l : LaneId) (p : List Pre) (k : Nat) (c : Copy) (d r : BitVec 4) (e : BitVec 4) (imm : BitVec 2),
    let a := c.reg d.toNat
    let b := c.reg r.toNat
    let x := c.reg e.toNat
    let i := immOf p imm
    (Runs s (.and l p d r) k c →
      Ends (exec (.and l p d r) s) (Wrote s k c (p.length + 1) [(d.toNat, a &&& b)] { c.regs with fl := resultFlags c.regs.fl (a &&& b) })) ∧
    (Runs s (.or l p d r) k c →
      Ends (exec (.or l p d r) s) (Wrote s k c (p.length + 1) [(d.toNat, a ||| b)] { c.regs with fl := resultFlags c.regs.fl (a ||| b) })) ∧
    (Runs s (.xor l p d r) k c →
      Ends (exec (.xor l p d r) s) (Wrote s k c (p.length + 1) [(d.toNat, a ^^^ b)] { c.regs with fl := resultFlags c.regs.fl (a ^^^ b) })) ∧
    (Runs s (.tst l p d r) k c →
      Ends (exec (.tst l p d r) s) (Wrote s k c (p.length + 1) [] { c.regs with fl := resultFlags c.regs.fl (a &&& b) })) ∧
    (Runs s (.andi l p e imm) k c →
      Ends (exec (.andi l p e imm) s) (Wrote s k c (p.length + 1) [(e.toNat, x &&& i)] { c.regs with fl := resultFlags c.regs.fl (x &&& i) })) ∧
    (Runs s (.ori l p e imm) k c →
      Ends (exec (.ori l p e imm) s) (Wrote s k c (p.length + 1) [(e.toNat, x ||| i)] { c.regs with fl := resultFlags c.regs.fl (x ||| i) })) ∧
    (Runs s (.xori l p e imm) k c →
      Ends (exec (.xori l p e imm) s) (Wrote s k c (p.length + 1) [(e.toNat, x ^^^ i)] { c.regs with fl := resultFlags c.regs.fl (x ^^^ i) })) ∧
    (Runs s (.tsti l p e imm) k c →
      Ends (exec (.tsti l p e imm) s) (Wrote s k c (p.length + 1) [] { c.regs with fl := resultFlags c.regs.fl (x &&& i) })) ∧
    (Runs s (.movi l p e imm) k c →
      Ends (exec (.movi l p e imm) s) (Wrote s k c (p.length + 1) [(e.toNat, i)] c.regs)) ∧
    (Runs s (.addi l p e imm) k c →
      Ends (exec (.addi l p e imm) s) (Wrote s k c (p.length + 1) [(e.toNat, x + i)] { c.regs with fl := sumFlags c.regs.fl x i false })) ∧
    (Runs s (.subi l p e imm) k c →
      Ends (exec (.subi l p e imm) s) (Wrote s k c (p.length + 1) [(e.toNat, x - i)] { c.regs with fl := sumFlags c.regs.fl x (~~~i) true })) ∧
    (Runs s (.cmpi l p e imm) k c →
      Ends (exec (.cmpi l p e imm) s) (Wrote s k c (p.length + 1) [] { c.regs with fl := sumFlags c.regs.fl x (~~~i) true }))

/-- LSL, LSR, ASR, ROR and their immediate forms at every count from 0 to 255: result, C, Z, N, frame. Where the spec leaves it open it follows the model's readings of log entry 82. -/
def Obligations.ShiftResults : Prop :=
  ∀ (s : State) (l : LaneId) (p : List Pre) (k : Nat) (c : Copy) (d r : BitVec 4) (e : BitVec 4) (imm : BitVec 2),
    let a := c.reg d.toNat
    let n := (c.reg r.toNat).toNat % 256
    let x := c.reg e.toNat
    let m := (joinZ p imm.toNat 2).toNat % 256
    let cy := c.regs.fl.getLsbD 2
    (Runs s (.lsl l p d r) k c →
      Ends (exec (.lsl l p d r) s) (Wrote s k c (p.length + 1) [(d.toNat, a <<< n)] { c.regs with fl := carryFlags c.regs.fl (a <<< n) (if n = 0 then cy else if n ≤ 32 then a.getLsbD (32 - n) else false) })) ∧
    (Runs s (.lsr l p d r) k c →
      Ends (exec (.lsr l p d r) s) (Wrote s k c (p.length + 1) [(d.toNat, a >>> n)] { c.regs with fl := carryFlags c.regs.fl (a >>> n) (if n = 0 then cy else a.getLsbD (n - 1)) })) ∧
    (Runs s (.asr l p d r) k c →
      Ends (exec (.asr l p d r) s) (Wrote s k c (p.length + 1) [(d.toNat, a.sshiftRight n)] { c.regs with fl := carryFlags c.regs.fl (a.sshiftRight n) (if n = 0 then cy else if n ≤ 31 then a.getLsbD (n - 1) else a.msb) })) ∧
    (Runs s (.ror l p d r) k c →
      Ends (exec (.ror l p d r) s) (Wrote s k c (p.length + 1) [(d.toNat, a.rotateRight n)] { c.regs with fl := carryFlags c.regs.fl (a.rotateRight n) (if n % 32 = 0 then cy else a.getLsbD (n % 32 - 1)) })) ∧
    (Runs s (.lsli l p e imm) k c →
      Ends (exec (.lsli l p e imm) s) (Wrote s k c (p.length + 1) [(e.toNat, x <<< m)] { c.regs with fl := carryFlags c.regs.fl (x <<< m) (if m = 0 then cy else if m ≤ 32 then x.getLsbD (32 - m) else false) })) ∧
    (Runs s (.lsri l p e imm) k c →
      Ends (exec (.lsri l p e imm) s) (Wrote s k c (p.length + 1) [(e.toNat, x >>> m)] { c.regs with fl := carryFlags c.regs.fl (x >>> m) (if m = 0 then cy else x.getLsbD (m - 1)) })) ∧
    (Runs s (.asri l p e imm) k c →
      Ends (exec (.asri l p e imm) s) (Wrote s k c (p.length + 1) [(e.toNat, x.sshiftRight m)] { c.regs with fl := carryFlags c.regs.fl (x.sshiftRight m) (if m = 0 then cy else if m ≤ 31 then x.getLsbD (m - 1) else x.msb) })) ∧
    (Runs s (.rori l p e imm) k c →
      Ends (exec (.rori l p e imm) s) (Wrote s k c (p.length + 1) [(e.toNat, x.rotateRight m)] { c.regs with fl := carryFlags c.regs.fl (x.rotateRight m) (if m % 32 = 0 then cy else x.getLsbD (m % 32 - 1)) }))

/-- MUL, MULI, DIVS and DIVU: results at every operand, flags and frame -/
def Obligations.ProductsAndQuotients : Prop :=
  ∀ (s : State) (l : LaneId) (p : List Pre) (k : Nat) (c : Copy) (d r : BitVec 4) (e : BitVec 4) (imm : BitVec 2) (q v : BitVec 3),
    let a := c.reg d.toNat
    let b := c.reg r.toNat
    let x := c.reg e.toNat
    let i := immOf p imm
    let y := c.reg (2 * q.toNat)
    let z := c.reg v.toNat
    let dz := c.regs.fl.getLsbD 4
    let big := fun (u w : Word) => decide (u.toInt * w.toInt < -(2 ^ 31) ∨ 2 ^ 31 - 1 < u.toInt * w.toInt)
    (Runs s (.mul l p d r) k c →
      Ends (exec (.mul l p d r) s) (Wrote s k c (p.length + 1) [(d.toNat, a * b)] { c.regs with fl := overflowFlags c.regs.fl (a * b) (big a b) dz })) ∧
    (Runs s (.muli l p e imm) k c →
      Ends (exec (.muli l p e imm) s) (Wrote s k c (p.length + 1) [(e.toNat, x * i)] { c.regs with fl := overflowFlags c.regs.fl (x * i) (big x i) dz })) ∧
    (Runs s (.divs l p q v) k c → (z = 0 → tDzTrap s.cfg (keyTask k) = false) →
      Ends (exec (.divs l p q v) s) (Wrote s k c (p.length + 1) [(2 * q.toNat, if z = 0 then (if y.msb then 0x80000000 else 0x7FFFFFFF) else BitVec.ofInt 32 (y.toInt.tdiv z.toInt)), (2 * q.toNat + 1, if z = 0 then y else BitVec.ofInt 32 (y.toInt.tmod z.toInt))]
        { c.regs with fl := overflowFlags c.regs.fl (if z = 0 then (if y.msb then 0x80000000 else 0x7FFFFFFF) else BitVec.ofInt 32 (y.toInt.tdiv z.toInt)) (decide (y = 0x80000000 ∧ z = 0xFFFFFFFF)) (dz || z == 0) })) ∧
    (Runs s (.divu l p q v) k c → (z = 0 → tDzTrap s.cfg (keyTask k) = false) →
      Ends (exec (.divu l p q v) s) (Wrote s k c (p.length + 1) [(2 * q.toNat, if z = 0 then 0xFFFFFFFF else y / z), (2 * q.toNat + 1, if z = 0 then y else y % z)]
        { c.regs with fl := overflowFlags c.regs.fl (if z = 0 then 0xFFFFFFFF else y / z) false (dz || z == 0) }))

/-- FADD, FSUB, FMUL, FDIV, FCMP, FTOI and ITOF: where the binary32 result goes, the flags and the frame -/
def Obligations.FloatResults : Prop :=
  ∀ (s : State) (l : LaneId) (p : List Pre) (k : Nat) (c : Copy) (x y : BitVec 3),
    let a := c.reg x.toNat
    let b := c.reg y.toNat
    (Runs s (.fadd l p x y) k c →
      Ends (exec (.fadd l p x y) s) (Wrote s k c (p.length + 1) [(x.toNat, fAdd a b)] c.regs)) ∧
    (Runs s (.fsub l p x y) k c →
      Ends (exec (.fsub l p x y) s) (Wrote s k c (p.length + 1) [(x.toNat, fSub a b)] c.regs)) ∧
    (Runs s (.fmul l p x y) k c →
      Ends (exec (.fmul l p x y) s) (Wrote s k c (p.length + 1) [(x.toNat, fMul a b)] c.regs)) ∧
    (Runs s (.fdiv l p x y) k c →
      Ends (exec (.fdiv l p x y) s) (Wrote s k c (p.length + 1) [(x.toNat, fDiv a b)] c.regs)) ∧
    (Runs s (.fcmp l p x y) k c →
      Ends (exec (.fcmp l p x y) s) (Wrote s k c (p.length + 1) [] { c.regs with fl := flCmp c.regs.fl a b })) ∧
    (Runs s (.ftoi l p x y) k c →
      Ends (exec (.ftoi l p x y) s) (Wrote s k c (p.length + 1) [(x.toNat, (fToInt b).1)] { c.regs with fl := overflowFlags c.regs.fl (fToInt b).1 (fToInt b).2 (c.regs.fl.getLsbD 4) })) ∧
    (Runs s (.itof l p x y) k c →
      Ends (exec (.itof l p x y) s) (Wrote s k c (p.length + 1) [(x.toNat, fOfInt b.toInt)] c.regs))

/-- RTOG, GTOR, RNOT, RSET, RCLR, PAR, BREV and BREVB: RLO, the register written and the frame -/
def Obligations.RloAndBitMoves : Prop :=
  ∀ (s : State) (l : LaneId) (p : List Pre) (k : Nat) (c : Copy) (d r : BitVec 4) (x y : BitVec 3),
    let b := c.reg r.toNat
    let z := c.reg y.toNat
    let ones := fun (u : Word) => ((List.range 32).filter fun j => u.getLsbD j).length
    (Runs s (.rtog l p d) k c →
      Ends (exec (.rtog l p d) s) (Wrote s k c (p.length + 1) [(d.toNat, BitVec.ofNat 32 c.regs.rlo.toNat)] c.regs)) ∧
    (Runs s (.gtor l p r) k c →
      Ends (exec (.gtor l p r) s) (Wrote s k c (p.length + 1) [] { c.regs with rlo := decide (b ≠ 0) })) ∧
    (Runs s (.rnot l p) k c →
      Ends (exec (.rnot l p) s) (Wrote s k c (p.length + 1) [] { c.regs with rlo := !c.regs.rlo })) ∧
    (Runs s (.rset l p) k c →
      Ends (exec (.rset l p) s) (Wrote s k c (p.length + 1) [] { c.regs with rlo := true })) ∧
    (Runs s (.rclr l p) k c →
      Ends (exec (.rclr l p) s) (Wrote s k c (p.length + 1) [] { c.regs with rlo := false })) ∧
    (Runs s (.par l p r) k c →
      Ends (exec (.par l p r) s) (Wrote s k c (p.length + 1) [] { c.regs with rlo := decide (ones b % 2 = 1) })) ∧
    (Runs s (.brev l p x y) k c →
      Ends (exec (.brev l p x y) s) (Wrote s k c (p.length + 1) [(x.toNat, z.reverse)] c.regs)) ∧
    (Runs s (.brevb l p x y) k c → ∃ v : Word, (∀ j < 32, v.getLsbD j = z.getLsbD (j / 8 * 8 + (7 - j % 8))) ∧
      Ends (exec (.brevb l p x y) s) (Wrote s k c (p.length + 1) [(x.toNat, v)] c.regs))

/-- CRCB, CRCH, CRCW, CRCI and CRCF: CA, the result register and the frame -/
def Obligations.CrcOnRegisters : Prop :=
  ∀ (s : State) (l : LaneId) (p : List Pre) (k : Nat) (c : Copy) (d r : BitVec 4),
    let b := (c.reg r.toNat).toNat
    let w := fld c.regs.cm 0 5 + 1
    let inp := fun (u v : Nat) => if c.regs.cm.getLsbD 9 then revBits u v else v
    let fin := (fun v => if c.regs.cm.getLsbD 10 then revBits w v else v) (c.regs.ca.toNat % 2 ^ w)
    (Runs s (.crcb l p r) k c →
      Ends (exec (.crcb l p r) s) (Wrote s k c (p.length + 1) [] { c.regs with ca := BitVec.ofNat 32 (crcUnit w c.regs.cp.toNat 8 (inp 8 (b % 2 ^ 8)) c.regs.ca.toNat) })) ∧
    (Runs s (.crch l p r) k c →
      Ends (exec (.crch l p r) s) (Wrote s k c (p.length + 1) [] { c.regs with ca := BitVec.ofNat 32 (crcUnit w c.regs.cp.toNat 16 (inp 16 (b % 2 ^ 16)) c.regs.ca.toNat) })) ∧
    (Runs s (.crcw l p r) k c →
      Ends (exec (.crcw l p r) s) (Wrote s k c (p.length + 1) [] { c.regs with ca := BitVec.ofNat 32 (crcUnit w c.regs.cp.toNat 32 (inp 32 (b % 2 ^ 32)) c.regs.ca.toNat) })) ∧
    (Runs s (.crci l p) k c →
      Ends (exec (.crci l p) s) (Wrote s k c (p.length + 1) [] { c.regs with ca := if c.regs.cm.getLsbD 8 then BitVec.ofNat 32 (2 ^ w - 1) else 0 })) ∧
    (Runs s (.crcf l p d) k c →
      Ends (exec (.crcf l p d) s) (Wrote s k c (p.length + 1) [(d.toNat, BitVec.ofNat 32 (if c.regs.cm.getLsbD 11 then 2 ^ w - 1 - fin else fin))] c.regs))

/-- MFS and MTS: the special registers read and written by number, and nothing else -/
def Obligations.SpecialRegisterMoves : Prop :=
  ∀ (s : State) (l : LaneId) (p : List Pre) (k : Nat) (c : Copy) (sr : BitVec 5) (g : BitVec 3),
    let v := c.reg g.toNat
    (Runs s (.mfs l p sr g) k c →
      Ends (exec (.mfs l p sr g) s) (Wrote s k c (p.length + 1) [(g.toNat, srRead c.regs sr)] c.regs)) ∧
    (Runs s (.mts l p sr g) k c → Ends (exec (.mts l p sr g) s) (Wrote s k c (p.length + 1) [] (srWrite c.regs sr v))) ∧
    (srRead c.regs 0 = BitVec.ofNat 32 c.regs.rlo.toNat ∧ srRead c.regs 1 = c.regs.fl.setWidth 32 ∧ srRead c.regs 2 = c.regs.bw ∧
      srRead c.regs 3 = c.regs.rc ∧ srRead c.regs 4 = c.regs.rs ∧ srRead c.regs 5 = c.regs.rd ∧ srRead c.regs 6 = c.regs.cp ∧
      srRead c.regs 7 = c.regs.ca ∧ srRead c.regs 8 = c.regs.cm) ∧
    (∀ n : BitVec 5, srLegal n = true → n ≠ 0 → n ≠ 1 → n ≠ 8 → n.toNat < 0x10 ∨ 0x18 ≤ n.toNat → srRead (srWrite c.regs n v) n = v) ∧
    (∀ n : BitVec 5, 0x10 ≤ n.toNat → n.toNat < 0x18 → srRead (srWrite c.regs n v) n = v &&& 0x1FFFFF) ∧
    ((srWrite c.regs 0 v).rlo = v.getLsbD 0 ∧ (srWrite c.regs 1 v).fl = v.setWidth 5 ∧ (srWrite c.regs 8 v).cm = v &&& 0xF1F) ∧
    (∀ n m : BitVec 5, srLegal n = true → srLegal m = true → n ≠ m → srRead (srWrite c.regs n v) m = srRead c.regs m)

/-- BLD, BLDN, BAND, BANDN and BOR: the bit addressed from BW and the joined index, RLO and the frame -/
def Obligations.BitReads : Prop :=
  ∀ (s : State) (l : LaneId) (p : List Pre) (k : Nat) (c : Copy) (n : BitVec 9),
    let u := (slotBegins s k c).1
    let i := (joinZ p n.toNat 9).toNat
    let a := (winBase c + i / 8) % 2 ^ 32
    let v := if isScratch a then copyByte u k c a else lineByte c.win (a % 64)
    let x := v.getLsbD (i % 8)
    checkAccess s (keyTask k) a 1 false = none → isScratch a = true ∨ a / 64 = winBase c / 64 ∧ c.winFull = true →
    (Runs s (.bld l p n) k c → 
      Ends (exec (.bld l p n) s) (Wrote s k c (p.length + 1) [] { c.regs with rlo := x })) ∧
    (Runs s (.bldn l p n) k c → 
      Ends (exec (.bldn l p n) s) (Wrote s k c (p.length + 1) [] { c.regs with rlo := !x })) ∧
    (Runs s (.band l p n) k c → 
      Ends (exec (.band l p n) s) (Wrote s k c (p.length + 1) [] { c.regs with rlo := c.regs.rlo && x })) ∧
    (Runs s (.bandn l p n) k c → 
      Ends (exec (.bandn l p n) s) (Wrote s k c (p.length + 1) [] { c.regs with rlo := c.regs.rlo && !x })) ∧
    (Runs s (.bor l p n) k c → 
      Ends (exec (.bor l p n) s) (Wrote s k c (p.length + 1) [] { c.regs with rlo := c.regs.rlo || x }))

/-- BST, BSET and BRST: the one bit written, at the address computed from BW and the joined index, and the frame -/
def Obligations.BitWrites : Prop :=
  ∀ (s : State) (l : LaneId) (p : List Pre) (k : Nat) (c : Copy) (n : BitVec 9),
    let i := (joinZ p n.toNat 9).toNat
    let a := (winBase c + i / 8) % 2 ^ 32
    let v := if isScratch a then copyByte (slotBegins s k c).1 k c a else lineByte c.win (a % 64)
    let one := v ||| BitVec.ofNat 8 (2 ^ (i % 8))
    let zero := v &&& ~~~ BitVec.ofNat 8 (2 ^ (i % 8))
    let o := c.regs.rlo
    checkAccess s (keyTask k) a 1 true = none → Room s k c a →
      isScratch a = true ∨ a / 64 = winBase c / 64 ∧ c.winFull = true →
    (Runs s (.bst l p n) k c → 
      Ends (exec (.bst l p n) s) (Stored s k c (p.length + 1) [] c.regs ([(a, if o then one else zero)]) (Plain c))) ∧
    (Runs s (.bset l p n) k c → 
      Ends (exec (.bset l p n) s) (Stored s k c (p.length + 1) [] c.regs (if o then [(a, one)] else []) (Plain c))) ∧
    (Runs s (.brst l p n) k c → 
      Ends (exec (.brst l p n) s) (Stored s k c (p.length + 1) [] c.regs (if o then [(a, zero)] else []) (Plain c)))

/-- A bit instruction waits for the fill of the window copy or for its byte, and completes when that is reported. Where the spec leaves it open it follows the model's readings of log entries 20, 80. -/
def Obligations.WindowCopyFill : Prop :=
  ∀ (s : State) (l : LaneId) (p : List Pre) (k : Nat) (c : Copy) (n : BitVec 9) (dt : Nat),
    let i := (joinZ p n.toNat 9).toNat
    let a := (winBase c + i / 8) % 2 ^ 32
    let j : Fin 8 := ⟨i % 8, Nat.mod_lt _ (by decide)⟩
    (∀ (b : Instr) (op : BitVec 3), (b, op) ∈ [(Instr.bld l p n, 0), (.bldn l p n, 1), (.band l p n, 2), (.bandn l p n, 3),
        (.bor l p n, 4), (.bst l p n, 5), (.bset l p n, 6), (.brst l p n, 7)] → Runs s b k c →
      checkAccess s (keyTask k) a 1 (decide (5 ≤ op.toNat)) = none → isScratch a = false →
      let wait : PendBit := { op := op, addr := BitVec.ofNat 32 a, bit := j, words := p.length + 1 }
      (a / 64 = winBase c / 64 → c.winFull = false →
        Ends (exec b s) fun t => ∃ x, t.copy k = some x ∧ x.regs = c.regs ∧ x.shadow = c.shadow ∧ x.stall = .window wait ∧
          Only [.ln] s t) ∧
      (a / 64 ≠ winBase c / 64 →
        Ends (exec b s) fun t => ∃ x, t.copy k = some x ∧ x.regs = c.regs ∧ x.shadow = c.shadow ∧ x.stall = .bit wait ∧
          Only [.ln] s t)) ∧
    (∀ y : PendBit, (s.lane l.val).running = some k → s.copy k = some c → c.ended = none →
      stopping s (keyTask k) = false → c.restart = none →
      let v := copyByte s k c y.addr.toNat
      let x := v.getLsbD y.bit.val
      let one := v ||| BitVec.ofNat 8 (2 ^ y.bit.val)
      let zero := v &&& ~~~ BitVec.ofNat 8 (2 ^ y.bit.val)
      let o := c.regs.rlo
      let read := [x, !x, o && x, o && !x, o || x].getD y.op.toNat false
      let put := if y.op.toNat = 5 then [(y.addr.toNat, if o then one else zero)] else if o then
          [(y.addr.toNat, if y.op.toNat = 6 then one else zero)] else []
      let done := fun (r : Bool) (bs : List (Nat × Byte)) (t : State) => ∃ z, t.copy k = some z ∧ z.stall ≠ .window y ∧
        z.stall ≠ .bit y ∧ z.regs.rlo = r ∧
        (c.regs.depth = 0 → z.regs.pc = c.regs.pc + BitVec.ofNat 21 y.words) ∧ z.regs.fl = c.regs.fl ∧
        (∀ r, r < 16 → quiet c r → z.reg r = c.reg r) ∧
        (∀ a, copyByte t k z a = (bs.lookup a).getD (copyByte s k c a))
      (c.stall = .window y → ∀ ws : List (Fin 16 × Ecc),
        ((∀ w ∈ ws, w.2 = .none ∨ w.2 = .corrected) → y.op.toNat < 5 → Ends (exec (.windowFill dt l ws) s) fun t =>
          done read [] t ∧ Only [.free, .ln, .can, .host, .nv, .out] (elapse dt s) t ∧
          ((∀ w ∈ ws, w.2 = .none) → Only [.ln] (elapse dt s) t ∧ ∃ z, t.copy k = some z ∧ z.winFull = true ∧
            ∀ n < 64, lineByte z.win n = copyByte s k c (winBase c + n))) ∧
        ((∀ w ∈ ws, w.2 = .none ∨ w.2 = .corrected) → 5 ≤ y.op.toNat → Room s k c y.addr.toNat →
          Ends (exec (.windowFill dt l ws) s) fun t =>
          done o put t ∧ Only [.free, .ln, .can, .host, .nv, .out] (elapse dt s) t ∧
          ((∀ w ∈ ws, w.2 = .none) → Only [.ln, .can] (elapse dt s) t)) ∧
        (∀ w : Fin 16, ws = [(w, .corrected)] → Ends (exec (.windowFill dt l ws) s) fun t =>
          t.can.ceCount = satInc s.can.ceCount ∧ t.can.ueCount = s.can.ueCount) ∧
        (∀ w : Fin 16, ws = [(w, .uncorrectable)] → Ends (exec (.windowFill dt l ws) s) fun t =>
          t.can.ueCount = satInc s.can.ueCount ∧ t.can.ceCount = s.can.ceCount)) ∧
      (c.stall = .bit y → (∀ x ∈ c.loads, x.arrived = true) →
        (y.op.toNat < 5 → Ends (exec (.canopyLoadReturn dt l .none) s) fun t => done read [] t ∧ Only [.ln] (elapse dt s) t) ∧
        (5 ≤ y.op.toNat → Room s k c y.addr.toNat → Ends (exec (.canopyLoadReturn dt l .none) s) fun t =>
          done o put t ∧ Only [.ln, .can] (elapse dt s) t)))

/-- LDB, LDBS, LDH, LDHS and LDW open a load shadow; what the end of a slot does to the load shadows. Where the spec leaves it open it follows the model's readings of log entry 80. -/
def Obligations.LoadsAndShadows : Prop :=
  (∀ (s : State) (l : LaneId) (p : List Pre) (k : Nat) (c : Copy) (d b : BitVec 4),
    let a := c.reg b.toNat + joinS p 0 0
    let v := fun n => copyValue (slotBegins s k c).1 k c a.toNat n
    let left := fun (w : Word) (n : Nat) (g : Bool) (x : Copy) => x.shadow = c.shadow ∧ Plain c x ∧
      x.loads.getLast? = some { dst := d, val := w, addr := a, left := 2, arrived := isScratch a.toNat, size := n, signed := g }
    (Runs s (.ldb l p d b) k c → checkAccess s (keyTask k) a.toNat 1 false = none →
      Ends (exec (.ldb l p d b) s) (Passed s k c (p.length + 1) [] c.regs [] [] (left (BitVec.ofNat 32 (v 1)) 1 false))) ∧
    (Runs s (.ldbs l p d b) k c → checkAccess s (keyTask k) a.toNat 1 false = none →
      Ends (exec (.ldbs l p d b) s) (Passed s k c (p.length + 1) [] c.regs [] [] (left ((BitVec.ofNat 8 (v 1)).signExtend 32) 1 true))) ∧
    (Runs s (.ldh l p d b) k c → checkAccess s (keyTask k) a.toNat 2 false = none →
      Ends (exec (.ldh l p d b) s) (Passed s k c (p.length + 1) [] c.regs [] [] (left (BitVec.ofNat 32 (v 2)) 2 false))) ∧
    (Runs s (.ldhs l p d b) k c → checkAccess s (keyTask k) a.toNat 2 false = none →
      Ends (exec (.ldhs l p d b) s) (Passed s k c (p.length + 1) [] c.regs [] [] (left ((BitVec.ofNat 16 (v 2)).signExtend 32) 2 true))) ∧
    (Runs s (.ldw l p d b) k c → checkAccess s (keyTask k) a.toNat 4 false = none →
      Ends (exec (.ldw l p d b) s) (Passed s k c (p.length + 1) [] c.regs [] [] (left (BitVec.ofNat 32 (v 4)) 4 false)))) ∧
  (∀ (c : Copy) (j : Nat), j < 16 →
    let due := c.loads.filter fun x => decide (x.left ≤ 1) && x.arrived
    let mine := due.filter fun x => decide (x.dst.toNat = j)
    (tickLoads c).reg j = (match mine.getLast? with | some x => x.val | none => c.reg j) ∧
    (tickLoads c).loads = (c.loads.filter fun x => !(decide (x.left ≤ 1) && x.arrived)).map (fun x => { x with left := x.left - 1 }) ∧
    ((tickLoads c).stall = .load ↔ ∃ x ∈ c.loads, x.left ≤ 1 ∧ x.arrived = false) ∧
    (tickLoads c).shadow = c.shadow ∧ (tickLoads c).regs.pc = c.regs.pc ∧ (tickLoads c).regs.fl = c.regs.fl)

/-- STB, STH and STW: the address computed, the bytes stored there and nothing else; a store beyond the quota stalls -/
def Obligations.Stores : Prop :=
  (∀ (s : State) (l : LaneId) (p : List Pre) (k : Nat) (c : Copy) (r b : BitVec 4),
    let a := c.reg b.toNat + joinS p 0 0
    let v := (c.reg r.toNat).toNat
    Room s k c a.toNat →
    (Runs s (.stb l p r b) k c → checkAccess s (keyTask k) a.toNat 1 true = none →
      Ends (exec (.stb l p r b) s) (Stored s k c (p.length + 1) [] c.regs (cells a.toNat 1 v) (Plain c))) ∧
    (Runs s (.sth l p r b) k c → checkAccess s (keyTask k) a.toNat 2 true = none →
      Ends (exec (.sth l p r b) s) (Stored s k c (p.length + 1) [] c.regs (cells a.toNat 2 v) (Plain c))) ∧
    (Runs s (.stw l p r b) k c → checkAccess s (keyTask k) a.toNat 4 true = none →
      Ends (exec (.stw l p r b) s) (Stored s k c (p.length + 1) [] c.regs (cells a.toNat 4 v) (Plain c)))) ∧
  (∀ (s : State) (l : LaneId) (p : List Pre) (k : Nat) (c : Copy) (r b : BitVec 4) (i : Instr) (n : Nat),
    let a := c.reg b.toNat + joinS p 0 0
    (i, n) ∈ [(Instr.stb l p r b, 1), (.sth l p r b, 2), (.stw l p r b, 4)] →
    Runs s i k c → checkAccess s (keyTask k) a.toNat n true = none → ¬ Room s k c a.toNat →
      Ends (exec i s) fun t => ∃ x, t.copy k = some x ∧ x.stall = .quota ∧ x.regs = c.regs ∧ x.shadow = c.shadow ∧
        Logs s t 0x0304 [.b1 (keyTask k), .b1 c.lane, .b4 c.regs.pc.toNat,
          .b4 (tQuota (ownCfg s (keyTask k)) (keyTask k))] ∧ Only [.ln, .host, .nv, .out] s t)

/-- MOVSB, MOVSH, MOVSW and FILLW: one element, its bytes, RS and RD, alone or as the last element of a REP -/
def Obligations.StringElements : Prop :=
  ∀ (s : State) (l : LaneId) (p : List Pre) (k : Nat) (c : Copy) (r : BitVec 4) (run : Nat),
    let u := (slotBegins s k c).1
    let rs := c.regs.rs
    let rd := c.regs.rd
    let rc := if repCount p = 0 then c.regs.rc else 0
    let from_ := fun n => (List.range n).map fun j => (rd.toNat + j, copyByte u k c (rs.toNat + j))
    let may := fun n => checkAccess s (keyTask k) rs.toNat n false = none ∧ checkAccess s (keyTask k) rd.toNat n true = none
    (repCount p = 0 ∨ c.regs.rc = 1 ∧ 0 < run) → Room s k c rd.toNat →
    (Runs s (.movsb l p run) k c → may 1 →
      Ends (exec (.movsb l p run) s) (Stored s k c (p.length + 1) [] { c.regs with rs := rs + 1, rd := rd + 1, rc := rc } (from_ 1) (Plain c))) ∧
    (Runs s (.movsh l p run) k c → may 2 →
      Ends (exec (.movsh l p run) s) (Stored s k c (p.length + 1) [] { c.regs with rs := rs + 2, rd := rd + 2, rc := rc } (from_ 2) (Plain c))) ∧
    (Runs s (.movsw l p run) k c → may 4 →
      Ends (exec (.movsw l p run) s) (Stored s k c (p.length + 1) [] { c.regs with rs := rs + 4, rd := rd + 4, rc := rc } (from_ 4) (Plain c))) ∧
    (Runs s (.fillw l p r run) k c → checkAccess s (keyTask k) rd.toNat 4 true = none →
      Ends (exec (.fillw l p r run) s) (Stored s k c (p.length + 1) [] { c.regs with rd := rd + 4, rc := rc } (cells rd.toNat 4 (c.reg r.toNat).toNat) (Plain c)))

/-- CRCMB, CRCMH and CRCMW: CA stepped over the unit at RS, RS advanced, alone or as the last element of a REP -/
def Obligations.CrcOverMemory : Prop :=
  ∀ (s : State) (l : LaneId) (p : List Pre) (k : Nat) (c : Copy) (run : Nat),
    let u := (slotBegins s k c).1
    let rs := c.regs.rs
    let w := fld c.regs.cm 0 5 + 1
    let rc := if repCount p = 0 then c.regs.rc else 0
    let inp := fun (n v : Nat) => if c.regs.cm.getLsbD 9 then revBits n v else v
    let ca := fun n => BitVec.ofNat 32 (crcUnit w c.regs.cp.toNat (8 * n) (inp (8 * n) (copyValue u k c rs.toNat n)) c.regs.ca.toNat)
    (repCount p = 0 ∨ c.regs.rc = 1 ∧ 0 < run) →
    (Runs s (.crcmb l p run) k c → checkAccess s (keyTask k) rs.toNat 1 false = none →
      Ends (exec (.crcmb l p run) s) (Wrote s k c (p.length + 1) [] { c.regs with ca := ca 1, rs := rs + 1, rc := rc })) ∧
    (Runs s (.crcmh l p run) k c → checkAccess s (keyTask k) rs.toNat 2 false = none →
      Ends (exec (.crcmh l p run) s) (Wrote s k c (p.length + 1) [] { c.regs with ca := ca 2, rs := rs + 2, rc := rc })) ∧
    (Runs s (.crcmw l p run) k c → checkAccess s (keyTask k) rs.toNat 4 false = none →
      Ends (exec (.crcmw l p run) s) (Wrote s k c (p.length + 1) [] { c.regs with ca := ca 4, rs := rs + 4, rc := rc }))

/-- REP: no element for RC = 0, a switch between elements with the unit still to go on, and the last element -/
def Obligations.RepeatedElements : Prop :=
  ∀ (s : State) (l : LaneId) (pre post : List Pre) (k : Nat) (c : Copy) (w : Fin 3) (r : BitVec 4) (run : Nat),
    let p := pre ++ [Pre.rep] ++ post
    let n := p.length + 1
    (c.regs.rc = 0 →
      (Runs s (.rep l pre post (.movs w) run) k c → Ends (exec (.rep l pre post (.movs w) run) s) (Wrote s k c n [] c.regs)) ∧
      (Runs s (.rep l pre post (.fillw r) run) k c → Ends (exec (.rep l pre post (.fillw r) run) s) (Wrote s k c n [] c.regs)) ∧
      (Runs s (.rep l pre post (.crcm w) run) k c → Ends (exec (.rep l pre post (.crcm w) run) s) (Wrote s k c n [] c.regs))) ∧
    (1 < c.regs.rc.toNat → checkAccess s (keyTask k) c.regs.rd.toNat 4 true = none → Room s k c c.regs.rd.toNat →
      Runs s (.rep l pre post (.fillw r) 1) k c →
      Ends (exec (.rep l pre post (.fillw r) 1) s) fun t => LowMark s t ∧
        UnitLeft s k c [] { c.regs with rd := c.regs.rd + 4, rc := c.regs.rc - 1 }
        (cells c.regs.rd.toNat 4 (c.reg r.toNat).toNat) [.can]
        (fun x => Plain c x ∧ x.regs.pc = c.regs.pc ∧ x.loads = c.loads) t) ∧
    (c.regs.rc = 1 → 0 < run → checkAccess s (keyTask k) c.regs.rs.toNat (2 ^ w.val) false = none →
      checkAccess s (keyTask k) c.regs.rd.toNat (2 ^ w.val) true = none → Room s k c c.regs.rd.toNat →
      Runs s (.rep l pre post (.movs w) run) k c →
      Ends (exec (.rep l pre post (.movs w) run) s) (Stored s k c n []
        { c.regs with rs := c.regs.rs + BitVec.ofNat 32 (2 ^ w.val), rd := c.regs.rd + BitVec.ofNat 32 (2 ^ w.val), rc := 0 }
        ((List.range (2 ^ w.val)).map fun j => (c.regs.rd.toNat + j, copyByte (slotBegins s k c).1 k c (c.regs.rs.toNat + j)))
        (Plain c)))

/-- SKcc, SKZ and SKNZ mark the next unit, and every unit so marked passes without any effect of its own -/
def Obligations.Skips : Prop :=
  ∀ (s : State) (l : LaneId) (p : List Pre) (k : Nat) (c : Copy) (cc r : BitVec 4),
    let left := fun (y : Bool) (x : Copy) => x.shadow = c.shadow ∧ x.ws = c.ws ∧ x.items = c.items ∧ x.chk = c.chk ∧ x.skip = y
    (Runs s (.skcc l p cc) k c → 
      Ends (exec (.skcc l p cc) s) (Passed s k c (p.length + 1) [] c.regs [] [] (left (condition cc c.regs.rlo c.regs.fl)))) ∧
    (Runs s (.skz l p r) k c → 
      Ends (exec (.skz l p r) s) (Passed s k c (p.length + 1) [] c.regs [] [] (left (c.reg r.toNat == 0)))) ∧
    (Runs s (.sknz l p r) k c → 
      Ends (exec (.sknz l p r) s) (Passed s k c (p.length + 1) [] c.regs [] [] (left (c.reg r.toNat != 0)))) ∧
    (∀ (i : Instr) (d : Dec) (q : List Pre), laneUnit i = some (l, q, d) → laneCopy s l.val = some (k, c) →
      inCode s k c.regs.pc (q.length + 1) = true → c.skip = true → stopping s (keyTask k) = false → c.restart = none →
      Ends (exec i s) (Passed s k c (q.length + 1) [] c.regs [] [] (left false)))

/-- Bcc, BRA, BR, RET, CALL and CALLR: the target, the link register and the loop levels left active -/
def Obligations.TransfersOfControl : Prop :=
  ∀ (s : State) (l : LaneId) (p : List Pre) (k : Nat) (c : Copy) (cc o r : BitVec 4) (f : BitVec 6) (m : Nat),
    let own := c.regs.pc + BitVec.ofNat 21 p.length
    let near := own + 1 + (joinS p o.toNat 4).setWidth 21
    let far := own + 1 + (joinS p f.toNat 6).setWidth 21
    let reg := (c.reg r.toNat).setWidth 21
    let lr := own.setWidth 32 + 1
    (Runs s (.bcc l p cc o) k c → condition cc c.regs.rlo c.regs.fl = false → Ends (exec (.bcc l p cc o) s) (Wrote s k c (p.length + 1) [] c.regs)) ∧
    (Runs s (.bcc l p cc o) k c → condition cc c.regs.rlo c.regs.fl = true → Leaves c.regs own near m →
      Ends (exec (.bcc l p cc o) s) (Went s k c [] c.regs near m fun x => x.regs.lc = c.regs.lc)) ∧
    (Runs s (.bra l p f) k c → Leaves c.regs own far m →
      Ends (exec (.bra l p f) s) (Went s k c [] c.regs far m fun x => x.regs.lc = c.regs.lc)) ∧
    (Runs s (.br l p r) k c → Leaves c.regs own reg m →
      Ends (exec (.br l p r) s) (Went s k c [] c.regs reg m fun x => x.regs.lc = c.regs.lc)) ∧
    (Runs s (.ret l p) k c → Leaves c.regs own ((c.reg 14).setWidth 21) m →
      Ends (exec (.ret l p) s) (Went s k c [] c.regs ((c.reg 14).setWidth 21) m fun x => x.regs.lc = c.regs.lc)) ∧
    (Runs s (.call l p f) k c → 
      Ends (exec (.call l p f) s) (Went s k c [(14, lr)] c.regs far c.regs.depth.val fun x => x.regs.lc = c.regs.lc)) ∧
    (Runs s (.callr l p r) k c → 
      Ends (exec (.callr l p r) s) (Went s k c [(14, lr)] c.regs reg c.regs.depth.val fun x => x.regs.lc = c.regs.lc)) ∧
    (∀ t : BitVec 21, ∃ n, Leaves c.regs own t n)

/-- LOOP, LEAVE and the end of a loop body: levels opened, closed and counted down. Where the spec leaves it open it follows the model's readings of log entry 84. -/
def Obligations.LoopLevels : Prop :=
  ∀ (s : State) (l : LaneId) (p : List Pre) (k : Nat) (c : Copy) (r len : BitVec 4) (m : Nat),
    let own := c.regs.pc + BitVec.ofNat 21 p.length
    let n := (joinZ p len.toNat 4).setWidth 21
    let d := c.regs.depth.val - 1
    (Runs s (.loop l p r len) k c → c.regs.depth.val < 4 → c.reg r.toNat ≠ 0 → Leaves c.regs own (own + 1) m →
      Ends (exec (.loop l p r len) s) (Went s k c []
        { c.regs with ls := c.regs.ls.setIfInBounds m (own + 1), le := c.regs.le.setIfInBounds m (own + n) } (own + 1) (m + 1)
        fun x => x.regs.lc = c.regs.lc.setIfInBounds m (c.reg r.toNat))) ∧
    (Runs s (.loop l p r len) k c → c.regs.depth.val < 4 → c.reg r.toNat = 0 → Leaves c.regs own (own + 1 + n) m →
      Ends (exec (.loop l p r len) s) (Went s k c [] c.regs (own + 1 + n) m fun x => x.regs.lc = c.regs.lc)) ∧
    (Runs s (.leave l p) k c → c.regs.depth.val = 0 → Ends (exec (.leave l p) s) (Wrote s k c (p.length + 1) [] c.regs)) ∧
    (Runs s (.leave l p) k c → 0 < c.regs.depth.val →
      Ends (exec (.leave l p) s) (Went s k c [] c.regs (c.regs.leAt d + 1) d fun x => x.regs.lc = c.regs.lc)) ∧
    (Runs s (.rset l p) k c → 0 < c.regs.depth.val → p.length + 1 ≤ (c.regs.leAt d - c.regs.pc).toNat →
      Ends (exec (.rset l p) s) (Went s k c [] { c.regs with rlo := true } (c.regs.pc + BitVec.ofNat 21 (p.length + 1)) (d + 1)
        fun x => x.regs.lc = c.regs.lc)) ∧
    (Runs s (.rset l p) k c → 0 < c.regs.depth.val → (c.regs.leAt d - c.regs.pc).toNat < p.length + 1 → 1 < (c.regs.lcAt d).toNat →
      Ends (exec (.rset l p) s) (Went s k c [] { c.regs with rlo := true } (c.regs.lsAt d) (d + 1)
        fun x => x.regs.lc = c.regs.lc.setIfInBounds d (c.regs.lcAt d - 1))) ∧
    (Runs s (.rset l p) k c → c.regs.depth.val = 1 → (c.regs.leAt 0 - c.regs.pc).toNat < p.length + 1 → (c.regs.lcAt 0).toNat ≤ 1 →
      Ends (exec (.rset l p) s) (Went s k c [] { c.regs with rlo := true } (c.regs.pc + BitVec.ofNat 21 (p.length + 1)) 0
        fun x => x.regs.lc = c.regs.lc))

/-- Every lane command: nothing without an issuing copy, and the fetch and decode faults in their order. Where the spec leaves it open it follows the model's readings of log entries 52, 84. -/
def Obligations.DecodeFaults : Prop :=
  ∀ (s : State) (i : Instr) (l : LaneId) (p : List Pre) (d : Dec) (k : Nat) (c : Copy),
    laneUnit i = some (l, p, d) →
    let t0 := keyTask k
    let ext := extCount p
    let rep := repCount p
    (laneCopy s l.val = none → exec i s = .next s) ∧
    (laneCopy s l.val = some (k, c) → t0 < 64 → inCode s k c.regs.pc (p.length + 1) = false →
      Ends (exec i s) fun t => (t.task t0).fault = 0x0D) ∧
    (laneCopy s l.val = some (k, c) → t0 < 64 → inCode s k c.regs.pc (p.length + 1) = true → c.skip = false →
      (d.legal = false → Ends (exec i s) fun t => (t.task t0).fault = 0x01) ∧
      (d.legal = true → 3 < ext → Ends (exec i s) fun t => (t.task t0).fault = 0x03) ∧
      (d.legal = true → ext ≤ 3 → 0 < rep → d.writesRep = true → Ends (exec i s) fun t => (t.task t0).fault = 0x04) ∧
      (d.legal = true → ext ≤ 3 → rep = 0 ∨ d.writesRep = false → 1 < rep ∨ 0 < ext ∧ d.ext = false ∨ 0 < rep ∧ d.rep = false →
        Ends (exec i s) fun t => (t.task t0).fault = 0x02))

/-- A store or a load that fails a check: ALIGN, SCRATCH, ADDRESS, OWNERSHIP in their order, and what the copy leaves. Where the spec leaves it open it follows the model's readings of log entry 52. -/
def Obligations.AccessFaults : Prop :=
  ∀ (s : State) (l : LaneId) (p : List Pre) (k : Nat) (c : Copy) (r b : BitVec 4),
    let a := (c.reg b.toNat + joinS p 0 0).toNat
    let t0 := keyTask k
    let faults := fun (i : Instr) (f : Byte) => Ends (exec i s) fun t => (t.task t0).fault = f ∧
      (pairedCopy s k = true → ∃ x, t.copy k = some x ∧ x.ended = some (.fault f c.regs.pc) ∧ x.regs = c.regs ∧ x.shadow = [])
    t0 < 64 →
    (Runs s (.stw l p r b) k c → a % 4 ≠ 0 → faults (.stw l p r b) 0x07) ∧
    (Runs s (.stw l p r b) k c → a % 4 = 0 → isScratch a = true → a < (frameOf s t0).1 ∨ (frameOf s t0).2 < a + 4 →
      faults (.stw l p r b) 0x08) ∧
    (Runs s (.stw l p r b) k c → a % 4 = 0 → isScratch a = false → areaOf a = none → faults (.stw l p r b) 0x06) ∧
    (Runs s (.stw l p r b) k c → a % 4 = 0 → isScratch a = false → areaOf a ≠ none → mayStore s t0 a = false →
      faults (.stw l p r b) 0x09) ∧
    (Runs s (.ldh l p r b) k c → a % 2 ≠ 0 → faults (.ldh l p r b) 0x07) ∧
    (Runs s (.ldh l p r b) k c → a % 2 = 0 → isScratch a = true → a < (frameOf s t0).1 ∨ (frameOf s t0).2 < a + 2 →
      faults (.ldh l p r b) 0x08) ∧
    (Runs s (.ldh l p r b) k c → a % 2 = 0 → isScratch a = false → areaOf a = none → faults (.ldh l p r b) 0x06)

/-- DIVZERO, LOOPDEPTH, PRIVILEGE and ILLEGAL: where the operation itself faults -/
def Obligations.OperationFaults : Prop :=
  ∀ (s : State) (l : LaneId) (p : List Pre) (k : Nat) (c : Copy) (q v : BitVec 3) (r len : BitVec 4) (sr : BitVec 2) (w : BitVec 14),
    let t0 := keyTask k
    let faults := fun (i : Instr) (f : Byte) => Ends (exec i s) fun t => (t.task t0).fault = f
    t0 < 64 →
    (Runs s (.divs l p q v) k c → c.reg v.toNat = 0 → tDzTrap s.cfg t0 = true → faults (.divs l p q v) 0x0A) ∧
    (Runs s (.divu l p q v) k c → c.reg v.toNat = 0 → tDzTrap s.cfg t0 = true → faults (.divu l p q v) 0x0A) ∧
    (Runs s (.loop l p r len) k c → c.regs.depth.val = 4 → faults (.loop l p r len) 0x0B) ∧
    (Runs s (.cfg l p r sr) k c → faults (.cfg l p r sr) 0x05) ∧
    (Runs s (.sys l p r sr) k c → sysReg s s.cfg (joinZ p sr.toNat 2).toNat = none → faults (.sys l p r sr) 0x01) ∧
    (laneCopy s l.val = some (k, c) → inCode s k c.regs.pc (p.length + 1) = true → c.skip = false → assignedWord w = false →
      faults (.unassignedEncoding l p w) 0x01) ∧
    (assignedWord w = true → exec (.unassignedEncoding l p w) s = .next s)

/-- CHK checks the instance in once, a second CHK sets EXCESS, and HALT hands the write set to its commit or ends it. Where the spec leaves it open it follows the model's readings of log entry 84. -/
def Obligations.CheckInAndHalt : Prop :=
  ∀ (s : State) (l : LaneId) (p : List Pre) (k : Nat) (c : Copy),
    let t0 := keyTask k
    let left := fun (n : Nat) (x : Copy) => x.shadow = c.shadow ∧ x.ws = c.ws ∧ x.items = c.items ∧ x.skip = false ∧ x.chk = n
    (Runs s (.chk l p) k c → t0 < 64 → c.chk = 0 →
      Ends (exec (.chk l p) s) fun t => Passed s k c (p.length + 1) [] c.regs [] [.seq] (left 1) t ∧
        (∀ i, s.inst t0 = some i → t.seq = { s.seq with wins := s.seq.wins.map fun w => if w.task = t0 ∧ w.num = i.num then { w with chk := true } else w })) ∧
    (Runs s (.chk l p) k c → t0 < 64 → c.chk ≠ 0 →
      Ends (exec (.chk l p) s) fun t =>
        ((∀ i, s.inst t0 = some i → i.rel ≠ s.now) → Passed s k c (p.length + 1) [] c.regs [] [.seq, .host, .nv, .out] (left 2) t) ∧
        (∃ x, t.copy k = some x ∧ left 2 x ∧ SpecialAs c.regs x.regs ∧ (∀ j, j < 16 → quiet c j → x.reg j = c.reg j)) ∧
        t.task t0 = { s.task t0 with excess := true } ∧ t.seq.wins = s.seq.wins ∧ Only [.ln, .seq, .host, .nv, .out] s t ∧
        Logs s t 0x0203 [.b1 t0, .b1 c.lane, .b4 c.regs.pc.toNat]) ∧
    (Runs s (.chk l p) k c → 64 ≤ t0 → Ends (exec (.chk l p) s) (Wrote s k c (p.length + 1) [] c.regs)) ∧
    (∀ i, Runs s (.halt l p []) k c → t0 < 64 → s.inst t0 = some i → pairedCopy s k = false → c.chk ≠ 0 → c.shadowUe = false →
      Ends (exec (.halt l p []) s) fun t => (∃ x, t.copy k = some x ∧ x.ended = some .halt ∧ x.loads = [] ∧
          x.regs.depth = 0 ∧ x.regs.g = c.regs.g ∧ x.regs.fl = c.regs.fl ∧ x.shadow = c.shadow ∧ x.ws = c.ws ∧ x.chk = c.chk) ∧
        (∃ m, t.inst t0 = some { i with phase := .passed, snap := m } ∧ (i.rel ≠ s.now → m = i.snap)) ∧
        Only [.ln, .seq, .host, .nv, .out] s t) ∧
    (∀ i, Runs s (.halt l p []) k c → t0 < 64 → s.inst t0 = some i → pairedCopy s k = true →
      Ends (exec (.halt l p []) s) fun t => (∃ x, t.copy k = some x ∧ x.ended = some .halt ∧ x.shadow = c.shadow ∧ x.ws = c.ws) ∧
        (∃ m, t.inst t0 = some { i with snap := m } ∧ (i.rel ≠ s.now → m = i.snap)) ∧ Only [.ln, .seq, .host, .nv, .out] s t) ∧
    (∀ i, Runs s (.halt l p []) k c → t0 < 64 → s.inst t0 = some i → pairedCopy s k = false → c.chk = 0 ∨ c.shadowUe = true →
      s.pkg.exch.run = none → s.inst (nextKey t0) = none →
      Ends (exec (.halt l p []) s) fun t => t.inst t0 = none ∧ t.copy k = none ∧ (t.task t0).live = (s.task t0).live)

/-- A stop and a takeover that wait for a copy act at its next permitted boundary, not inside an open load shadow. Where the spec leaves it open it follows the model's readings of log entry 19. -/
def Obligations.StopsAtBoundaries : Prop :=
  ∀ (s : State) (l : LaneId) (p : List Pre) (k : Nat) (c : Copy) (i : Inst) (n : Nat),
    let t0 := keyTask k
    let alone := pairedCopy s k = false ∧ (copiesOf s t0).length = 1
    laneCopy s l.val = some (k, c) → inCode s k c.regs.pc (p.length + 1) = true → c.skip = false → extCount p = 0 → repCount p = 0 →
      t0 < 64 → s.inst t0 = some i →
    (i.stopDue = true → c.loads = [] → alone → s.pkg.exch.run = none →
      Ends (exec (.rset l p) s) fun t => t.inst t0 = none ∧ t.copy k = none ∧ (t.lane c.lane).running ≠ some k ∧
        (∀ w ∈ t.seq.wins, w.task ≠ t0) ∧ (∀ o ∈ t.seq.outs, o.task ≠ t0) ∧ t.can.mem = s.can.mem ∧ t.seq.shown = s.seq.shown) ∧
    (i.stopDue = true → c.loads = [] → k % 4 ≠ 3 → 1 < (copiesOf s t0).length →
      Ends (exec (.rset l p) s) fun t => t.copy k = none ∧ (t.inst t0).isSome = true ∧ t.can.mem = s.can.mem) ∧
    (i.stopDue = true → (∃ x ∈ c.loads, 2 ≤ x.left) →
      Ends (exec (.rset l p) s) fun t => ∃ x, t.copy k = some x ∧ x.loads ≠ [] ∧ t.inst t0 = some i) ∧
    (i.stopDue = false → c.restart = some n → c.loads = [] →
      Ends (exec (.rset l p) s) fun t => ∃ x, t.copy k = some x ∧ x.lane = n ∧ x.started = false ∧ x.ws = [] ∧ x.items = [] ∧
        x.shadow = [] ∧ x.regs = startRegs (tEntry s.cfg t0) (64 * (tFrame s.cfg t0).2) ∧ t.can.mem = s.can.mem)

/-- SYS and CFG: the register read or written, the value that twins share, and the frame -/
def Obligations.SystemRegisters : Prop :=
  ∀ (s : State) (l : LaneId) (p : List Pre) (k : Nat) (c : Copy) (d : BitVec 4) (n : BitVec 2) (v w : Word) (r : RegRow),
    let u := (slotBegins s k c).1
    let t0 := keyTask k
    let srn := (joinZ p n.toNat 2).toNat
    let alone := pairedCopy s k = false ∨ 64 ≤ t0
    let read := fun (x : Copy) => x.shadow = c.shadow ∧ x.ws = c.ws ∧ x.chk = c.chk ∧ x.skip = false ∧
      x.items = c.items ++ 4 :: leBytes 2 srn ∧ x.order = c.order + 1
    (Runs s (.sys l p d n) k c → alone → sysReg u (cfgOf s t0) srn = some v →
      srn ≠ 0x0C17 → (srn < 0x0410 ∨ 0x0430 ≤ srn ∨ srn % 8 ≠ 5) →
      Ends (exec (.sys l p d n) s) (Passed s k c (p.length + 1) [(d.toNat, v)] c.regs [] [] read)) ∧
    (Runs s (.sys l p d n) k c → alone → srn = 0x0C16 →
      Ends (exec (.sys l p d n) s) (Passed s k c (p.length + 1) [(d.toNat, BitVec.ofNat 32 s.now)] c.regs [] []
        fun x => read x ∧ x.tbHi = some (BitVec.ofNat 32 (s.now / 2 ^ 32)))) ∧
    (Runs s (.sys l p d n) k c → alone → srn = 0x0C17 → c.tbHi = some w →
      Ends (exec (.sys l p d n) s) (Passed s k c (p.length + 1) [(d.toNat, w)] c.regs [] [] read)) ∧
    (∀ i m, Runs s (.sys l p d n) k c → t0 < 64 → pairedCopy s k = true → s.inst t0 = some i → i.imm[c.order]? = some m →
      m.isSys = true → m.num = BitVec.ofNat 16 srn → sysReg u s.cfg srn ≠ none → resAt m.res 0 = some w →
      Ends (exec (.sys l p d n) s) (Passed s k c (p.length + 1) [(d.toNat, w)] c.regs [] [] read)) ∧
    (Runs s (.cfg l p d n) k c → t0 = 64 → regRow srn = some r → r.acc = .rw → serviceOnly srn = false →
      Ends (exec (.cfg l p d n) s) fun t => Passed s k c (p.length + 1) [] c.regs [] [.cfg, .yl] (fun x => x.shadow = c.shadow ∧ Plain c x) t ∧
        t.cfg = rWrite s.cfg srn (c.reg d.toNat) ∧ (srn < 0x0510 ∨ 0x0518 ≤ srn → t.yl = s.yl)) ∧
    (Runs s (.cfg l p d n) k c → 64 ≤ t0 → regRow srn = some r → r.acc ≠ .rw → serviceOnly srn = false →
      Ends (exec (.cfg l p d n) s) (Wrote s k c (p.length + 1) [] c.regs)) ∧
    (∀ (x : Tab Word) (m : Mem), Runs s (.cfg l p d n) k c → t0 = 65 → s.pkg.exch.staged = some (x, m) → regRow srn = some r → r.acc = .rw →
      serviceOnly srn = false →
      Ends (exec (.cfg l p d n) s) fun t => Passed s k c (p.length + 1) [] c.regs [] [.pkg] (fun x => x.shadow = c.shadow ∧ Plain c x) t ∧
        t.pkg.exch.staged = some (rWrite x srn (c.reg d.toNat), m))

/-- FRET and FRETC: the status, the entry or cancellation put into the write set, and the frame. Where the spec leaves it open it follows the model's readings of log entries 53, 90. -/
def Obligations.FretEntries : Prop :=
  ∀ (s : State) (l : LaneId) (p : List Pre) (k : Nat) (c : Copy) (d r : BitVec 3),
    let t0 := keyTask k
    let a := (c.reg r.toNat).toNat
    let bs := copyBytes (slotBegins s k c).1 k c a 16
    let n := (c.ws.filter fun i => match i with | .call .. => false | _ => true).length
    let st := if t0 < 64 ∧ releasable s t0 = true then (if 128 ≤ n then 0x09 else 0x00) else 0x06
    let left := fun (it : List Byte) (ws : List WItem) (x : Copy) => x.shadow = c.shadow ∧ x.chk = c.chk ∧ x.skip = false ∧
      x.items = c.items ++ it ∧ x.ws = c.ws ++ ws
    (Runs s (.fret l p d r) k c → checkAccess s t0 a 16 false = none → fretBad (slotBegins s k c).1 t0 bs = false →
      Ends (exec (.fret l p d r) s) (Passed s k c (p.length + 1) [(d.toNat, BitVec.ofNat 32 st)] c.regs [] []
        (left (1 :: bs ++ [BitVec.ofNat 8 st]) (if st = 0 then [.fret bs] else [])))) ∧
    (Runs s (.fret l p d r) k c → checkAccess s t0 a 16 false = none → fretBad (slotBegins s k c).1 t0 bs = true →
      Ends (exec (.fret l p d r) s) (Passed s k c (p.length + 1) [(d.toNat, 0x07)] c.regs [] [] (left (1 :: bs ++ [0x07]) []))) ∧
    (Runs s (.fretc l p d r) k c →
      Ends (exec (.fretc l p d r) s) (Passed s k c (p.length + 1) [(d.toNat, BitVec.ofNat 32 st)] c.regs [] []
        (left (2 :: leBytes 4 a ++ [BitVec.ofNat 8 st]) (if st = 0 then [.cancel (c.reg r.toNat)] else []))))

/-- SYSC of the committed calls: status, the call put into the write set, the item of the stream, and the frame. Where the spec leaves it open it follows the model's readings of log entries 50, 83, 93. -/
def Obligations.CommittedCalls : Prop :=
  ∀ (s : State) (l : LaneId) (p : List Pre) (k : Nat) (c : Copy) (d : BitVec 4) (w : BitVec 2) (i : Instr) (n : Nat),
    (i, n) ∈ [(Instr.sysc l p d w, (joinZ p w.toNat 2).toNat),
      (.taskTrigger l p d, 0x0200), (.atTime l p d, 0x0202), (.ylReadmit l p d, 0x0500), (.ylMbxSend l p d, 0x0501),
      (.loopTune l p d, 0x0601), (.loopCapture l p d, 0x0602), (.loopAbort l p d, 0x0603), (.fldReadmit l p d, 0x0700),
      (.cbusSend l p d, 0x0800), (.cbusAbort l p d, 0x0801), (.cbusRecover l p d, 0x0802), (.cbusReadmit l p d, 0x0803),
      (.hostNotify l p d, 0x0900), (.safeStop l p d, 0x0A00), (.nvWrite l p d, 0x0B01), (.nvAbort l p d, 0x0B02),
      (.nvCount l p d, 0x0B03), (.recUser l p d, 0x0B05)] →
    let g := c.reg
    let calls := (c.ws.filter fun x => match x with | .call .. => true | _ => false).length
    let it : List Byte := 3 :: leBytes 2 n ++ leBytes 4 (g 0).toNat ++ leBytes 4 (g 1).toNat ++ leBytes 4 (g 2).toNat ++ leBytes 4 (g 3).toNat
    let left := fun (ws : List WItem) (x : Copy) => x.shadow = c.shadow ∧ x.chk = c.chk ∧ x.skip = false ∧ x.items = c.items ++ it ∧ x.ws = c.ws ++ ws
    Runs s i k c → callCommitted n = true → callLevel s.cfg (keyTask k) n = true →
      callForm s k n (g 0) (g 1) (g 2) = true →
      (callAtIssue (cfgOf s (keyTask k)) n (g 0) = none → calls < 16 →
        Ends (exec i s) (Passed s k c (p.length + 1) [(d.toNat, 0)] c.regs [] []
          (left [.call (BitVec.ofNat 16 n) (g 0) (g 1) (g 2) (g 3)]))) ∧
      (callAtIssue (cfgOf s (keyTask k)) n (g 0) = none → 16 ≤ calls →
        Ends (exec i s) (Passed s k c (p.length + 1) [(d.toNat, 0x09)] c.regs [] [] (left []))) ∧
      (∀ st, callAtIssue (cfgOf s (keyTask k)) n (g 0) = some st →
        Ends (exec i s) (Passed s k c (p.length + 1) [(d.toNat, BitVec.ofNat 32 st)] c.regs [] [] (left [])))

/-- SYSC of the immediate calls that read device state: results, status and frame. Where the spec leaves it open it follows the model's readings of log entries 83, 85. -/
def Obligations.ImmediateCalls : Prop :=
  ∀ (s : State) (l : LaneId) (p : List Pre) (k : Nat) (c : Copy) (d : BitVec 4) (v1 v2 v3 : Word),
    let t0 := keyTask k
    let u := (slotBegins s k c).1
    let g := c.reg
    let alone := pairedCopy s k = false ∨ 64 ≤ t0
    let lo := fun (v : Nat) => BitVec.ofNat 32 v
    let key := 32 * fld (g 0) 8 3 + fld (g 0) 0 5
    let read := fun (n : Nat) (x : Copy) => x.ws = c.ws ∧ x.chk = c.chk ∧ x.skip = false ∧ x.items = c.items ++ 5 :: leBytes 2 n ∧
      x.order = c.order + 1
    (∀ i, s.inst t0 = some i → (Runs s (.releaseTime l p d) k c → alone → d.toNat ≠ 0 → d.toNat ≠ 1 → d.toNat ≠ 2 → callLevel s.cfg t0 0x0201 = true → callForm u k 0x0201 (g 0) (g 1) (g 2) = true → 
      Ends (exec (.releaseTime l p d) s) (Passed s k c (p.length + 1) ([(d.toNat, 0)] ++ [(0, lo i.rel), (1, lo (i.rel / 2 ^ 32)), (2, i.num)]) c.regs [] [] (read 0x0201)))) ∧
    (∀ i (x : Nat × Bool × Nat), s.inst t0 = some i → i.groups.find? (fun y => y.1 == (g 0).toNat) = some x →
      (Runs s (.snapInfo l p d) k c → alone → d.toNat ≠ 1 → d.toNat ≠ 2 → callLevel s.cfg t0 0x0203 = true → callForm u k 0x0203 (g 0) (g 1) (g 2) = true → 
      Ends (exec (.snapInfo l p d) s) (Passed s k c (p.length + 1) ([(d.toNat, 0)] ++ [(1, BitVec.ofNat 32 x.2.1.toNat), (2, lo x.2.2)]) c.regs [] [] (read 0x0203)))) ∧
    (∀ i x, s.inst t0 = some i → i.shafts[fld (g 0) 0 2]? = some x → (g 0).getLsbD 8 = false → shOn (cfgOf s t0) (fld (g 0) 0 2) = true →
      (Runs s (.shaftRead l p d) k c → alone → d.toNat ≠ 1 → d.toNat ≠ 2 → d.toNat ≠ 3 → callLevel s.cfg t0 0x0400 = true → callForm u k 0x0400 (g 0) (g 1) (g 2) = true → 
      Ends (exec (.shaftRead l p d) s) (Passed s k c (p.length + 1) ([(d.toNat, 0)] ++ [(1, x.pos.setWidth 32), (2, put x.stat.toNat 24 8 ||| put (x.pos.toNat / 2 ^ 32) 0 8), (3, x.vel)]) c.regs [] [] (read 0x0400)))) ∧
    (Runs s (.ylStaInfo l p d) k c → alone → d.toNat ≠ 1 → d.toNat ≠ 2 → d.toNat ≠ 3 → callLevel s.cfg t0 0x0503 = true → callForm u k 0x0503 (g 0) (g 1) (g 2) = true → 
      Ends (exec (.ylStaInfo l p d) s) (Passed s k c (p.length + 1) ([(d.toNat, 0)] ++ [(1, staWord u key), (2, (s.sta key).type), (3, (s.sta key).rtt)]) c.regs [] [] (read 0x0503))) ∧
    (Runs s (.ylCount l p d) k c → alone → d.toNat ≠ 1 → callLevel s.cfg t0 0x0504 = true → callForm u k 0x0504 (g 0) (g 1) (g 2) = true → 
      Ends (exec (.ylCount l p d) s) (Passed s k c (p.length + 1) ([(d.toNat, 0)] ++ [(1, tabGet 0 s.yl.counts (16 * fld (g 0) 0 3 + fld (g 0) 8 4))]) c.regs [] [] (read 0x0504))) ∧
    (Runs s (.loopRead l p d) k c → alone → d.toNat ≠ 1 → d.toNat ≠ 2 → d.toNat ≠ 3 → callLevel s.cfg t0 0x0600 = true → callForm u k 0x0600 (g 0) (g 1) (g 2) = true → lOn (cfgOf s t0) (fld (g 0) 0 8) = true → ((s.inst t0).bind fun i => tabGet none i.loopRd (fld (g 0) 0 8)) = none →
      Ends (exec (.loopRead l p d) s) (Passed s k c (p.length + 1) ([(d.toNat, 0)] ++ [(1, (s.loop (fld (g 0) 0 8)).uPrev), (2, loopStat u (fld (g 0) 0 8)), (3, (s.loop (fld (g 0) 0 8)).i)]) c.regs [] [.seq] (read 0x0600))) ∧
    (∀ i m, s.inst t0 = some i → tabGet none i.loopRd (fld (g 0) 0 8) = some m → m.data = [] → m.res = [(1, v1), (2, v2), (3, v3)] → m.status = 0 →
      (Runs s (.loopRead l p d) k c → alone → d.toNat ≠ 1 → d.toNat ≠ 2 → d.toNat ≠ 3 → callLevel s.cfg t0 0x0600 = true → callForm u k 0x0600 (g 0) (g 1) (g 2) = true → 
      Ends (exec (.loopRead l p d) s) (Passed s k c (p.length + 1) ([(d.toNat, 0)] ++ [(1, v1), (2, v2), (3, v3)]) c.regs [] [] (read 0x0600)))) ∧
    (lOn (cfgOf s t0) (fld (g 0) 0 8) = false → ((s.inst t0).bind fun i => tabGet none i.loopRd (fld (g 0) 0 8)) = none →
      (Runs s (.loopRead l p d) k c → alone → callLevel s.cfg t0 0x0600 = true → callForm u k 0x0600 (g 0) (g 1) (g 2) = true → 
      Ends (exec (.loopRead l p d) s) (Passed s k c (p.length + 1) ([(d.toNat, 0x0A)] ++ []) c.regs [] [.seq] (read 0x0600)))) ∧
    ((g 0).getLsbD 8 = false → shOn (cfgOf s t0) (fld (g 0) 0 2) = false →
      (Runs s (.shaftRead l p d) k c → alone → callLevel s.cfg t0 0x0400 = true → callForm u k 0x0400 (g 0) (g 1) (g 2) = true → 
      Ends (exec (.shaftRead l p d) s) (Passed s k c (p.length + 1) ([(d.toNat, 0x0A)] ++ []) c.regs [] [] (read 0x0400)))) ∧
    (Runs s (.safeStatus l p d) k c → alone → d.toNat ≠ 1 → d.toNat ≠ 2 → d.toNat ≠ 3 → callLevel s.cfg t0 0x0A01 = true → callForm u k 0x0A01 (g 0) (g 1) (g 2) = true → 
      Ends (exec (.safeStatus l p d) s) (Passed s k c (p.length + 1) ([(d.toNat, 0)] ++ [(1, guardUsable u), (2, safeStat u), (3, devStateReg u)]) c.regs [] [] (read 0x0A01))) ∧
    (∀ v, v = (tabGet ({} : Ctr) s.nv.ctrs ((g 0).toNat % 32 + 2)).value → freeTags u (taskTags u.cfg t0) ≠ [] →
      (Runs s (.nvCountRead l p d) k c → alone → d.toNat ≠ 1 → d.toNat ≠ 2 → callLevel s.cfg t0 0x0B04 = true → callForm u k 0x0B04 (g 0) (g 1) (g 2) = true → 
      Ends (exec (.nvCountRead l p d) s) (Passed s k c (p.length + 1) ([(d.toNat, 0)] ++ [(1, lo v), (2, lo (v / 2 ^ 32 % 256))]) c.regs [] [.free, .yl, .host, .nv, .out] (read 0x0B04))))

/-- SYSC of YL_MBX_READ and NV_READ: the bytes copied and the results; the calls that wait for a tag or are refused at issue. Where the spec leaves it open it follows the model's readings of log entries 53, 83, 85, 91. -/
def Obligations.ImmediateCallsWithData : Prop :=
  ∀ (s : State) (l : LaneId) (p : List Pre) (k : Nat) (c : Copy) (d : BitVec 4),
    let t0 := keyTask k
    let u := (slotBegins s k c).1
    let g := c.reg
    let a := (g 1).toNat
    let key := 32 * fld (g 0) 8 3 + fld (g 0) 0 5
    let bytes := fun (b : List Byte) => b.zipIdx.map fun e => (a + e.2, e.1)
    let left := fun (n : Nat) (x : Copy) => x.ws = c.ws ∧ x.chk = c.chk ∧ x.skip = false ∧ x.items = c.items ++ 5 :: leBytes 2 n
    let may := fun (b : List Byte) => canWrite s t0 a (min b.length (g 2).toNat)
    let tags := freeTags u (taskTags u.cfg t0)
    (pairedCopy s k = false ∨ 64 ≤ t0 → d.toNat ≠ 1 → d.toNat ≠ 2 → tags ≠ [] →
    (∀ b, Runs s (.ylMbxRead l p d) k c → callLevel s.cfg t0 0x0502 = true → within (g 0) 0x071F = true →
      may b = true → (s.sta key).mbxHeld = some b →
      (copyStoreAll (passTag (u.modSta key fun y => { y with mbxHeld := none }) (taskTags u.cfg t0) 0) k
        { (slotBegins s k c).2 with order := c.order + 1 } (bytes (b.take (g 2).toNat))).isSome = true →
      Ends (exec (.ylMbxRead l p d) s) fun t =>
        Passed s k c (p.length + 1) [(d.toNat, 0), (1, BitVec.ofNat 32 b.length)] c.regs (bytes (b.take (g 2).toNat)) [.free, .yl, .can] (left 0x0502) t ∧
        LowMark s t ∧ t.sta key = { s.sta key with mbxHeld := none }) ∧
    (∀ q b, Runs s (.nvRead l p d) k c → callLevel s.cfg t0 0x0B00 = true → within (g 0) 0x3FF = true →
      may b = true → tabGet none s.nv.mirror (g 0).toNat = some (q, b) →
      (copyStoreAll (passTag u (taskTags u.cfg t0) 0) k
        { (slotBegins s k c).2 with order := c.order + 1 } (bytes (b.take (g 2).toNat))).isSome = true →
      Ends (exec (.nvRead l p d) s) fun t =>
        Passed s k c (p.length + 1) [(d.toNat, 0), (1, BitVec.ofNat 32 b.length), (2, q)] c.regs (bytes (b.take (g 2).toNat)) [.free, .yl, .can] (left 0x0B00) t ∧
        LowMark s t) ∧
    (Runs s (.ylMbxRead l p d) k c → callLevel s.cfg t0 0x0502 = true → within (g 0) 0x071F = true →
      (∀ b, (s.sta key).mbxHeld = some b → may b = false →
        Ends (exec (.ylMbxRead l p d) s) (Passed s k c (p.length + 1) [(d.toNat, 0x06)] c.regs [] [.free, .yl] (left 0x0502))) ∧
      ((s.sta key).mbxHeld = none →
        Ends (exec (.ylMbxRead l p d) s) (Passed s k c (p.length + 1) [(d.toNat, if (s.sta key).mbxTimeout then 0x05 else 0x0A)] c.regs [] [.free, .yl]
          (left 0x0502)))) ∧
    (Runs s (.nvRead l p d) k c → callLevel s.cfg t0 0x0B00 = true → within (g 0) 0x3FF = true →
      (∀ q b, tabGet none s.nv.mirror (g 0).toNat = some (q, b) → may b = false →
        Ends (exec (.nvRead l p d) s) (Passed s k c (p.length + 1) [(d.toNat, 0x06)] c.regs [] [.free, .yl] (left 0x0B00))) ∧
      (tabGet none s.nv.mirror (g 0).toNat = none →
        Ends (exec (.nvRead l p d) s) (Passed s k c (p.length + 1) [(d.toNat, 0x0A)] c.regs [] [.free, .yl] (left 0x0B00))))) ∧
    (∀ (i : Instr) (n : Nat), (i, n) ∈ [(Instr.ylMbxRead l p d, 0x0502), (.nvRead l p d, 0x0B00), (.nvCountRead l p d, 0x0B04)] →
      pairedCopy s k = false ∨ 64 ≤ t0 → Runs s i k c → callLevel s.cfg t0 n = true → callForm u k n (g 0) (g 1) (g 2) = true → tags = [] →
      Ends (exec i s) fun t => (∃ x, t.copy k = some x ∧ x.stall = .tag (taskTags u.cfg t0) ∧ x.regs = c.regs ∧ x.shadow = c.shadow ∧
        x.items = c.items) ∧ t.yl = { s.yl with waitCount := satInc s.yl.waitCount } ∧ Only [.ln, .yl] s t) ∧
    (∀ (w : BitVec 2) (n : Nat), n = (joinZ p w.toNat 2).toNat → Runs s (.sysc l p d w) k c →
      (callCommitted n = false → callImmediate n = false →
        Ends (exec (.sysc l p d w) s) (Wrote s k c (p.length + 1) [(d.toNat, 0x07)] c.regs)) ∧
      (callCommitted n = true ∨ callImmediate n = true → callLevel s.cfg t0 n = false → t0 < 64 →
        Ends (exec (.sysc l p d w) s) fun t => (t.task t0).fault = 0x05) ∧
      (callCommitted n = true ∨ callImmediate n = true → callLevel s.cfg t0 n = true → callForm u k n (g 0) (g 1) (g 2) = false →
        Ends (exec (.sysc l p d w) s) (Wrote s k c (p.length + 1) [(d.toNat, 0x07)] c.regs)))

/-- Cyclic releases, triggers, latched releases, ageing and AT_TIME: what the task sequencer does at each of its events. Where the spec leaves it open it follows the model's readings of log entries 55, 85. -/
def Obligations.TaskReleases : Prop :=
  ∀ (s : State) (dt : Nat) (n : TaskId) (l : LaneId),
    let u := elapse dt s
    let x := u.task n.val
    let sel := tEnable u.cfg n.val = true ∧ tEvent u.cfg n.val = true
    let per : Int := 1000 * tPeriod u.cfg n.val
    let bound := tEnable u.cfg n.val = true ∧ tEvent u.cfg n.val = false ∧ per ≠ 0 ∧
      ((u.now : Int) - 1000 * tPhase u.cfg n.val) % per = 0 ∧ x.lastDue ≠ some u.now ∧
      (tGuard u.cfg n.val = true ∨ u.seq.after < u.now)
    let skipped := fun t : State => t.task n.val = { x with skips := satInc x.skips, lastDue := some u.now } ∧
      (∀ m, SameInst u (u.inst m) (t.inst m)) ∧ t.seq.wins = u.seq.wins ∧ Only [.seq] u t
    let gap := ∀ a, x.lastRel = some a → a + 1000 * tGap u.cfg n.val ≤ u.now
    let may := releasable u n.val = true ∧ x.gstop = 0 ∧ x.cleared = false
    (bound → Free u n.val → u.inst (nextKey n.val) = none → Ends (exec (.cyclicRelease dt n) s) fun t => Released u n.val t ∧ (t.task n.val).lastDue = some u.now) ∧
    (bound → u.dev.state = .hold → tGuard u.cfg n.val = false →
      Ends (exec (.cyclicRelease dt n) s) skipped) ∧
    (bound → may → (u.inst (nextKey n.val)).isSome = true → Ends (exec (.cyclicRelease dt n) s) skipped) ∧
    (bound → may → u.pkg.exch.run = none → (u.inst n.val).isSome = true → u.inst (nextKey n.val) = none →
      Ends (exec (.cyclicRelease dt n) s) fun t => SameInst u (u.inst n.val) (t.inst n.val) ∧
        (∃ j, t.inst (nextKey n.val) = some j ∧ j.rel = u.now ∧ j.num = x.num + 1 ∧ j.due = u.now + 1000 * tDeadline u.cfg n.val ∧
          j.outAt = u.now + 1000 * tMargin u.cfg n.val ∧ j.phase = .going ∧
          { task := n.val, num := j.num, at_ := j.outAt } ∈ t.seq.outs) ∧
        t.task n.val = { x with num := x.num + 1, lastRel := some u.now, lastDue := some u.now } ∧ Only [.seq] u t) ∧
    (∀ g, u.seq.trigs.find? (fun y => y.task == n.val) = some g → sel → x.armed = true → Free u n.val → x.latched = false →
      x.heldAt = none → gap →
      Ends (exec (.eventTrigger dt n) s) fun t => Released u n.val t ∧
        t.seq.trigs = u.seq.trigs.eraseP fun y => y.task == n.val) ∧
    (∀ g, u.seq.trigs.find? (fun y => y.task == n.val) = some g → sel → x.armed = true → releasable u n.val = true →
      x.gstop = 0 → x.latched = false → (u.inst n.val).isSome = true →
      Ends (exec (.eventTrigger dt n) s) fun t => t.task n.val = { x with latched := true } ∧ (∀ m, SameInst u (u.inst m) (t.inst m)) ∧
        t.seq.trigs = (u.seq.trigs.eraseP fun y => y.task == n.val) ∧ Only [.seq] u t) ∧
    (∀ g, u.seq.trigs.find? (fun y => y.task == n.val) = some g → sel → x.armed = true → releasable u n.val = true →
      x.gstop = 0 → x.latched = true →
      Ends (exec (.eventTrigger dt n) s) fun t => t.task n.val = { x with skips := satInc x.skips } ∧ (∀ m, SameInst u (u.inst m) (t.inst m)) ∧
        Logs u t 0x0207 [.b1 n.val, .b1 g.source.toNat] ∧ Only [.seq, .host, .nv, .out] u t) ∧
    (x.latched = true → x.heldAt = none → Free u n.val → gap →
      Ends (exec (.latchedRelease dt n) s) fun t => Released u n.val t ∧ (t.task n.val).latched = false) ∧
    (∀ k c, (k, c) ∈ copiesOf u n.val → c.lane = l.val → ageDue u k c = true → c.ended = none → isFrozen u n.val = false →
      Ends (exec (.taskAged dt n l) s) fun t => (∃ y, t.copy k = some y ∧ y.aged = true ∧ y.regs = c.regs) ∧
        (t.task n.val).aged = true ∧ Only [.ln, .seq, .host, .nv, .out] u t) ∧
    (∀ a, x.atTime = some a → a ≤ u.now →
      Ends (exec (.atTimeExpiry dt n) s) fun t => t.task n.val = { x with atTime := none } ∧
        (sel → x.armed = true → t.seq.trigs = u.seq.trigs ++ [{ task := n.val, source := 0, at_ := u.now }]) ∧
        (∀ m, SameInst u (u.inst m) (t.inst m)) ∧ Only [.seq] u t)

/-- COMMIT, OUTPUT_RELEASE and TASK_WATCHDOG_VERDICT: what becomes the current version, what is presented, what stops. Where the spec leaves it open it follows the model's readings of log entries 18, 21, 28, 56, 57. -/
def Obligations.CommitsAndVerdicts : Prop :=
  ∀ (s : State) (dt : Nat) (n : TaskId) (i : Inst) (c : Copy) (o : OutRel) (w : Win),
    let u := elapse dt s
    let r := releaseOut u n.val
    let mine := fun a => ∃ e ∈ ownTable u.cfg, e.2.2.2 = n.val ∧ Area.q.has e.2.1 = true ∧ e.2.1 ≤ a ∧ a < e.2.2.1
    let passed := u.inst n.val = some i ∧ u.copy (4 * n.val) = some c ∧ i.phase = .passed
    (passed → commitInOrder u n.val = true → c.shadowUe = false → mustWait u n.val c = false → c.ws = [] →
      tabWf none c.shadow = true → u.pkg.exch.run = none →
      Ends (exec (.commit dt n) s) fun t =>
        (u.inst (nextKey n.val) = none → t.inst n.val = none ∧ t.copy (4 * n.val) = none) ∧
        (∀ j, u.inst (nextKey n.val) = some j → t.inst (nextKey n.val) = none ∧ (∃ m, t.inst n.val = some { j with snap := m }) ∧
          ∃ x, t.copy (4 * n.val) = some x ∧ x.lane = copyLane u n.val 0 ∧
            x.regs = startRegs (tEntry u.cfg n.val) (64 * (tFrame u.cfg n.val).2) ∧ x.ws = [] ∧ x.shadow = [] ∧ x.ended = none) ∧
        (t.task n.val).live = true ∧ (t.task n.val).lastCommit = some u.now ∧
        (∀ a, t.can.mem.byte a = match tabGet none c.shadow (a / 64) with
          | some x => lineByte x.data (a % 64)
          | none => u.can.mem.byte a) ∧ (u.can.mem.wf = true → t.can.mem.wf = true) ∧
        Only [.free, .ln, .seq, .can, .fret, .yl, .fld, .cb, .host, .nv, .out] u t ∧
        (u.seq.callsAt ≠ u.now ∨ u.seq.calls = [] → u.inst (nextKey n.val) = none → Only [.ln, .seq, .can, .fld, .host, .nv, .out] u t)) ∧
    (passed → commitInOrder u n.val = true → c.shadowUe = true → u.copy (4 * n.val + 1) = none → u.pkg.exch.run = none →
      u.inst (nextKey n.val) = none →
      Ends (exec (.commit dt n) s) fun t => t.inst n.val = none ∧ t.copy (4 * n.val) = none ∧ t.can.mem = u.can.mem ∧
        (t.task n.val).lastCommit = (u.task n.val).lastCommit) ∧
    (passed → commitInOrder u n.val = true → c.shadowUe = false → mustWait u n.val c = true → i.waitFrom = none →
      Ends (exec (.commit dt n) s) fun t => SameInst u (some { i with waitFrom := some u.now }) (t.inst n.val) ∧ Only [.seq] u t) ∧
    (commitInOrder u n.val = false → Ends (exec (.commit dt n) s) fun t => (∀ m, SameInst u (u.inst m) (t.inst m)) ∧ Only [.seq] u t) ∧
    (outDue u n.val = some o → outOpen u o = false →
      r.seq.outs = u.seq.outs.erase o ∧ (∀ a, mine a → r.seq.shown.byte a = u.can.mem.byte a) ∧
        (∀ a, ¬ mine a → r.seq.shown.byte a = u.seq.shown.byte a) ∧
        (r.fld.startDue = (u.fld.startDue || fieldOwner u.cfg == some n.val || guardOwner u.cfg == some n.val)) ∧ Only [.seq, .fld] u r) ∧
    (outDue u n.val = some o → outOpen u o = true →
      let due := u.fld.startDue || fieldOwner u.cfg == some n.val || guardOwner u.cfg == some n.val
      (o.at_ = u.now → o.begun = true → r = u) ∧
      (o.at_ = u.now → o.begun = false → r.fld.startDue = due ∧
        r.seq = { u.seq with outs := u.seq.outs.map fun x => if x = o then { x with begun := true } else x } ∧ Only [.seq, .fld] u r) ∧
      (o.at_ < u.now → r.seq = { u.seq with outs := u.seq.outs.erase o } ∧ r.fld.startDue = (if o.begun then u.fld.startDue else due) ∧
        Only [.seq, .fld] u r)) ∧
    (bridgeOn r = false ∨ r.fld.startDue = false →
      Ends (exec (.outputRelease dt n) s) fun t => t.seq.outs = r.seq.outs ∧ t.seq.shown = r.seq.shown ∧ t.seq.shownG = r.seq.shownG ∧
        (∀ m, SameInst u (u.inst m) (t.inst m)) ∧ Only [.seq] r t) ∧
    (bridgeOn r = true → r.fld.startDue = true → wireBusy (settled r) = false →
      Ends (exec (.outputRelease dt n) s) fun t => t.out = (settled r).out ++ [.bridge (buildFrame (settled r)).bytes] ∧
        t.seq.shown = (settled r).seq.shown ∧ t.seq.readAt = some u.now ∧ Only [.seq, .yl, .fld, .out] (settled r) t) ∧
    (winDue u n.val = some w → u.dev.state = .run →
      Ends (exec (.taskWatchdogVerdict dt n) s) fun t => t.dev.state = .stop ∧ t.dev.last.cause = 0x0F ∧
        t.dev.fault.getLsbD 0 = true ∧ (w.chk = true → (t.task n.val).overrun = true) ∧ (w.chk = false → (t.task n.val).miss = true) ∧
        (∀ m, tGuard u.cfg m = false → (t.task m).latched = true → m ∉ tAll u.cfg)) ∧
    (winDue u n.val = some w → supervised u n.val = false →
      Ends (exec (.taskWatchdogVerdict dt n) s) fun t => t.seq.wins = u.seq.wins.erase w ∧ t.seq.outs = u.seq.outs ∧
        (∀ m, t.task m = u.task m) ∧ (∀ m, SameInst u (u.inst m) (t.inst m)) ∧ Only [.seq] u t)

/-- COMPARE_GATE, SPARE_WAIT_END, SPARE_WAKE, PAIR_VOTE and PAIR_STRAGGLER: what becomes of a paired instance. Where the spec leaves it open it follows the model's readings of log entries 18, 27, 47, 49, 88, 95. -/
def Obligations.PairedInstances : Prop :=
  ∀ (s : State) (dt : Nat) (n : TaskId) (i : Inst) (a b r : Copy) (m : Nat),
    let u := elapse dt s
    let t0 := n.val
    (u.inst t0 = some i → u.copy (4 * t0) = some a → u.copy (4 * t0 + 1) = some b → i.phase = .going → i.frozenAt = none →
      a.ended.isSome = true → b.ended.isSome = true → tabWf none u.seq.insts = true →
      (agree a b = true → a.chk ≠ 0 → Ends (exec (.compareGate dt n) s) fun t =>
        SameInst u (some { i with phase := .passed }) (t.inst t0) ∧ t.seq.wins = u.seq.wins ∧ Only [.seq] u t) ∧
      (agree a b = false → sameFault a b = false → u.dev.state = .run → pickSpare u (tLanes u.cfg t0) = some m →
        (∀ x ∈ waitingTasks u, waitsBefore u (t0, u.now) x = true) →
        Ends (exec (.compareGate dt n) s) fun t => SameInst u (some { i with phase := .waking m u.now }) (t.inst t0) ∧
          (t.lane m).role = .awake ∧ (t.lane m).scratch = [] ∧ t.ln.replays = satInc u.ln.replays ∧ Logs u t 0x0103 [] ∧
          t.copy (4 * t0) = some a ∧ t.copy (4 * t0 + 1) = some b ∧ Only [.ln, .seq, .host, .nv, .out] u t) ∧
      (agree a b = false → sameFault a b = false → u.dev.state = .run → (∃ x ∈ waitingTasks u, x.1 ≠ t0 ∧ waitsBefore u (t0, u.now) x = false) →
        anyOutside u = true →
        Ends (exec (.compareGate dt n) s) fun t => SameInst u (some { i with phase := .waitSpare u.now }) (t.inst t0) ∧
          t.ln = u.ln ∧ Logs u t 0x0103 [] ∧ Only [.seq, .host, .nv, .out] u t) ∧
      (agree a b = false → sameFault a b = true → u.pkg.exch.run = none → u.inst (nextKey t0) = none →
        Ends (exec (.compareGate dt n) s) fun t => t.inst t0 = none ∧ t.can.mem = u.can.mem)) ∧
    (servedNext u t0 = true → pickSpare u (tLanes u.cfg t0) = some m → u.inst t0 = some i →
      Ends (exec (.spareWaitEnd dt n) s) fun t => SameInst u (some { i with phase := .waking m u.now }) (t.inst t0) ∧ (t.lane m).role = .awake ∧
        t.ln.replays = satInc u.ln.replays ∧ Only [.ln, .seq] u t) ∧
    (∀ a0, u.inst t0 = some i → i.phase = .waking m a0 → mayReplay u t0 = true →
      Ends (exec (.spareWake dt n) s) fun t => (∃ x, t.copy (4 * t0 + 2) = some x ∧ x.lane = m ∧
          x.regs = startRegs (tEntry u.cfg t0) (64 * (tFrame u.cfg t0).2) ∧ x.ws = [] ∧ x.shadow = []) ∧
        SameInst u (some { i with phase := .replaying m }) (t.inst t0) ∧ Only [.free, .ln, .seq, .host, .nv, .out] u t) ∧
    (u.inst t0 = some i → u.copy (4 * t0) = some a → u.copy (4 * t0 + 1) = some b → u.copy (4 * t0 + 2) = some r →
      i.phase = .replaying m → i.frozenAt = none → commitInOrder u t0 = true → agree r a = true → agree r b = false → a.chk ≠ 0 → a.ws = [] →
      (u.lane b.lane).role = .bound → (u.lane b.lane).test = none → u.pkg.exch.run = none →
      Ends (exec (.pairVote dt n) s) fun t => (t.lane b.lane).role = .testing ∧ (t.lane b.lane).test = some (.vote, u.now) ∧
        (mustWait u t0 a = false → (u.inst (nextKey t0) = none → t.inst t0 = none) ∧ (t.task t0).lastCommit = some u.now)) ∧
    (u.inst t0 = some i → u.copy (4 * t0) = some a → u.copy (4 * t0 + 1) = some b → i.phase = .going → i.frozenAt = none →
      i.lateAt ≤ u.now → a.ended.isSome = true → b.ended = none → b.mayStop = true → u.dev.state = .run → pickSpare u (tLanes u.cfg t0) = some m →
      Ends (exec (.pairStraggler dt n) s) fun t => (∃ x, t.copy (4 * t0 + 1) = some x ∧ x.ended = some .stopped ∧ x.unknown = true ∧
          x.shadow = []) ∧ t.ln.stragglers = satInc u.ln.stragglers ∧ Only [.ln, .seq, .host, .nv, .out] u t)

/-- LANE_SELF_TEST_END, STAND_IN_RETURN and SPARE_TEST_START: verdicts of periodic tests, stand-ins, the next test. Where the spec leaves it open it follows the model's readings of log entries 47, 86, 88, 95. -/
def Obligations.LaneTestsAndStandIns : Prop :=
  ∀ (s : State) (dt : Nat) (l : LaneId) (a m z x : Nat) (f : TestPart),
    let u := elapse dt s
    let lane := u.lane l.val
    (lane.test = some (.periodic, a) → u.dev.state = .run → u.ln.takeoverDue = false →
      (a + 180000 ≤ u.now → Ends (exec (.laneSelfTestEnd dt l none) s) fun t =>
        t.lane l.val = { lane with role := .spare, test := none } ∧ (∀ j, j ≠ l.val → t.lane j = u.lane j) ∧
        t.ln.copies = u.ln.copies ∧ Seen u t ∧ Only [.ln, .seq] u t) ∧
      (a + testNs (some f) ≤ u.now → Ends (exec (.laneSelfTestEnd dt l (some f)) s) fun t =>
        (t.lane l.val).role = .retired ∧ (t.lane l.val).cause = 5 ∧ (t.lane l.val).acts = none ∧ (t.lane l.val).test = none ∧
        Logs u t 0x0109 [.b1 l.val, .b1 5, .b1 (partNo (some f))] ∧ Only [.ln, .seq, .host, .nv, .out] u t) ∧
      (u.now < a + testNs none → Ends (exec (.laneSelfTestEnd dt l none) s) fun t => Seen u t ∧ Only [.seq] u t)) ∧
    (testNs (some .oscillator) = 10000 ∧ testNs (some .logic) = 40000 ∧ testNs (some .bufferStore) = 80000 ∧ testNs none = 180000) ∧
    (lane.standsFor = some z → lane.acts = some x → z ≠ l.val → laneBusy u l.val = false → (u.lane z).role = .testing →
      (u.lane z).test = none →
      Ends (exec (.standInReturn dt l) s) fun t => (t.lane z).role = .bound ∧ (t.lane z).acts = some x ∧ (t.lane z).standIn = none ∧
        (t.lane l.val).role = .spare ∧ (t.lane l.val).acts = none ∧ (t.lane l.val).standsFor = none ∧
        Only [.ln, .seq, .host, .nv, .out] u t) ∧
    (u.dev.state = .run → u.dev.pkgOk = true → u.ln.spareFrom + u.ln.spareLen ≤ u.op → (∀ j, j < 40 → (u.lane j).role ≠ .spareTest) →
      nextSpare u = some m →
      Ends (exec (.spareTestStart dt) s) fun t => (t.lane m).role = .spareTest ∧ (t.lane m).test = some (.periodic, u.now) ∧
        (t.lane m).scratch = [] ∧ (t.lane m).buf = [] ∧ t.ln.spareLast = m ∧ (∀ j, j ≠ m → t.lane j = u.lane j) ∧
        t.ln.copies = u.ln.copies ∧ Seen u t ∧ Only [.ln, .seq] u t)

/-- CANOPY_LOAD_RETURN, INSTRUCTION_FETCH, PSTORE_REWRITE, PSTORE_SCRUB and CANOPY_SCRUB: data, counters, reactions. Where the spec leaves it open it follows the model's readings of log entries 20, 54, 80. -/
def Obligations.MemoryReturnsAndScrubs : Prop :=
  ∀ (s : State) (dt : Nat) (l : LaneId) (k : Nat) (c : Copy) (x : PendLoad) (a : BitVec 21) (ok by_ cnt : Bool) (e : EccErr)
    (w : BitVec 21),
    let u := elapse dt s
    let stall := if c.stall = .none ∨ c.stall = .load then Stall.none else c.stall
    let at_ := c.regs.pc + w
    let rs := u.ps.rewrites.filter fun r => r.1 == a
    let gone := fun t : State => ∀ j, j < 40 → ∀ w ∈ (t.lane j).buf, w.2 ≠ some a
    let gives := fun (v : Word) (t : State) => ∃ z, t.copy k = some z ∧ z.stall = stall ∧ z.regs.pc = c.regs.pc ∧ z.regs.fl = c.regs.fl ∧
      (x.left = 0 → z.loads = [] ∧ ∀ j, j < 16 → z.reg j = if j = x.dst.toNat then v else c.reg j) ∧
      (x.left ≠ 0 → z.loads = [{ x with arrived := true, val := v }] ∧ z.regs = c.regs)
    let back := fun t : State => gives x.val t ∧ ∃ z, t.copy k = some z ∧ z.shadow = c.shadow
    (u.copy k = some c → (u.lane l.val).running = some k → c.loads = [x] → x.arrived = false → stopping u (keyTask k) = false →
      c.restart = none →
      (Ends (exec (.canopyLoadReturn dt l .none) s) fun t => back t ∧ Only [.ln] u t) ∧
      (Ends (exec (.canopyLoadReturn dt l .corrected) s) fun t => back t ∧ t.can = { u.can with ceCount := satInc u.can.ceCount, lastErr := t.can.lastErr } ∧
        Logs u t 0x0301 [] ∧ Only [.free, .ln, .can, .host, .nv, .out] u t) ∧
      (Ends (exec (.canopyLoadReturn dt l (.wrong cnt)) s) fun t => gives (x.taken (Config.freeWord u.free)) t ∧
        t.can.ueCount = u.can.ueCount ∧ t.can.ceCount = (if cnt then satInc u.can.ceCount else u.can.ceCount) ∧
        Only [.free, .ln, .seq, .can, .host, .nv, .out] u t) ∧
      (u.dev.state = .clearing → twdDue u = false → Area.g.has x.addr.toNat = false →
        Ends (exec (.canopyLoadReturn dt l .uncorrectable) s) fun t => gives 0 t ∧ t.can.ueCount = satInc u.can.ueCount ∧
          t.dev.state = .clearing ∧ t.dev.fault.getLsbD 4 = true)) ∧
    (laneCopy u l.val = some (k, c) →
      (inCode u k c.regs.pc 1 = true → Ends (exec (.instructionFetch dt l .good) s) fun t => tabGet none (t.lane l.val).buf (c.regs.pc.toNat % 4096) = some c.regs.pc ∧
        t.ln.copies = u.ln.copies ∧ Only [.ln] u t) ∧
      (inCode u k c.regs.pc (w.toNat + 1) = true → Ends (exec (.instructionFetch dt l (.corrected w by_)) s) fun t => t.ps = { u.ps with ceCount := satInc u.ps.ceCount, lastErr := psErr false by_ l.val at_.toNat, rewrites := if by_ then u.ps.rewrites else u.ps.rewrites ++ [(at_, BitVec.ofNat 8 (keyTask k), false)] } ∧
        Logs u t 0x0101 [.b4 t.ps.lastErr.toNat, .b4 t.ps.ceCount.toNat] ∧ Only [.ps, .ln, .host, .nv, .out] u t) ∧
      (inCode u k c.regs.pc (w.toNat + 1) = true → keyTask k < 64 → Ends (exec (.instructionFetch dt l (.uncorrectable w by_)) s) fun t => (t.task (keyTask k)).fault = 0x0C ∧
        t.ps = { u.ps with ueCount := satInc u.ps.ueCount, lastErr := psErr true by_ l.val at_.toNat, rewrites := if by_ then u.ps.rewrites else u.ps.rewrites ++ [(at_, BitVec.ofNat 8 (keyTask k), true)] })) ∧
    (rs ≠ [] → Ends (exec (.pstoreRewrite dt a ok) s) fun t => t.ps = { u.ps with rewrites := u.ps.rewrites.filter fun r => r.1 != a } ∧
        (ok = true → gone t) ∧ t.ln.copies = u.ln.copies ∧
        (∀ r, rs.filter (fun r => r.2.2) = [r] → Logs u t 0x0102 [.b4 u.ps.lastErr.toNat, .b1 r.2.1.toNat, .b1 (if ok then 1 else 2)]) ∧
        ((∀ r ∈ rs, r.2.2 = false) → Only [.ps, .ln] u t) ∧ Only [.ps, .ln, .host, .nv, .out] u t) ∧
    (powered u = true →
      (Ends (exec (.pstoreScrub dt [(a, false)]) s) fun t => t.ps = { u.ps with ceCount := satInc u.ps.ceCount, lastErr := psErr false false 0x3F a.toNat, rewrites := u.ps.rewrites.filter fun r => r.1 != a || r.2.2 } ∧
        gone t ∧ t.ln.copies = u.ln.copies ∧ Only [.ps, .ln, .host, .nv, .out] u t) ∧
      (Ends (exec (.pstoreScrub dt [(a, true)]) s) fun t => t.ps = { u.ps with ueCount := satInc u.ps.ueCount, lastErr := psErr true false 0x3F a.toNat, rewrites := u.ps.rewrites ++ [(a, 0xFF, true)] } ∧
        Only [.ps] u t) ∧
      (errReal u e = true → e.ecc = .corrected → Ends (exec (.canopyScrub dt [e]) s) fun t => t.can = { u.can with ceCount := satInc u.can.ceCount, lastErr := t.can.lastErr } ∧
        Logs u t 0x0301 [] ∧ Only [.free, .can, .host, .nv, .out] u t) ∧
      (errReal u e = true → e.ecc = .uncorrectable → e.loc = .area → Area.g.has e.addr = false → u.dev.state = .run → twdDue u = false →
        Ends (exec (.canopyScrub dt [e]) s) fun t => t.can.ueCount = satInc u.can.ueCount ∧ e.addr / 4 * 4 ∈ t.can.bad ∧
          t.dev.state = .clearing ∧ t.dev.last.cause = 0x17 ∧ t.dev.fault.getLsbD 4 = true ∧
          (∀ b, e.addr / 4 * 4 ≤ b → b < e.addr / 4 * 4 + 4 → canByte t b = 0)) ∧
      (errReal u e = true → e.ecc = .wrong false → e.loc = .area → u.can.mem.wf = true → Ends (exec (.canopyScrub dt [e]) s) fun t =>
        (∀ j, j < 4 → t.can.mem.byte (e.addr / 4 * 4 + j) = BitVec.ofNat 8 ((Config.freeWord u.free).toNat / 2 ^ (8 * j))) ∧
        t.can.ceCount = u.can.ceCount ∧ t.can.ueCount = u.can.ueCount ∧ Only [.free, .ln, .seq, .can] u t))

/-- DOWN_FRAME_TICK, DOWN_FRAME_DEFERRED and the five down frames: what is sent, and what the field die does with it. Where the spec leaves it open it follows the model's readings of log entries 16, 22, 63, 80. -/
def Obligations.BridgeDownFrames : Prop :=
  ∀ (s : State) (dt : Nat) (d : DownFrame) (k : ChanId) (at_ : Nat) (rest : List Flight),
    let u := elapse dt s
    let f := u.fld
    let v := settled (canRepair u Area.s.has)
    let sent := fun v t : State =>
      let ty : DownType := if v.dev.state = .boot ∨ v.dev.state = .recovery ∨ v.dev.state = .setup then .idle
        else if v.fld.safeDue.isSome ∧ v.fld.safeTag.ready = true then .safe else if v.fld.cfgDue ≠ [] then .config
        else if v.fld.relDue ≠ 0 then .release else .refresh
      Only [.seq, .yl, .fld, .out] v t ∧ t.yl = { v.yl with ended := t.yl.ended } ∧ t.fld.chans = v.fld.chans ∧ t.seq = { v.seq with readAt := some v.now } ∧
      ∃ e, t.fld.wire = v.fld.wire ++ [{ frame := e, at_ := v.fld.dieNs }] ∧ e.type = ty ∧ e.seq = v.fld.downSeq + 1 ∧ e.time = v.now ∧
        t.fld.downSeq = e.seq ∧ t.out = v.out ++ [.bridge e.bytes] ∧ (ty = .safe → e.mask = v.fld.safeDue.getD 0 ∧ t.fld.safeDue = none) ∧
        (ty = .config → t.fld.cfgDue = v.fld.cfgDue.drop 1) ∧ (ty = .release → e.mask = v.fld.relDue ∧ t.fld.relDue = 0) ∧
        (ty = .refresh ∨ ty = .safe ∨ ty = .release → ∀ j, j < 32 → e.values.getLsbD j = (presented v j).1)
    let takes := fun t : State => Only [.free, .fld, .out] u t ∧ t.fld.wire = rest ∧ t.fld.dieSeq = some d.seq ∧
      t.fld.dieLastEnd = at_ + 1280 ∧ t.fld.dieTime = d.time + 1280 ∧ t.fld.silent = false ∧
      (∃ z a, t.fld.answers = f.answers ++ [z] ∧ z.frame = some a ∧ z.at_ = at_ ∧ z.news = t.fld.news ∧ a.seq = d.seq ∧
        a.hot = Config.freeBit u.free ∧ t.out = u.out ++ [.bridgeUp a.bytes]) ∧ t.fld.readmits = 0 ∧ (t.chan k.val).edge = false
    let x := u.chan k.val
    let back := x.retired && f.readmits.getLsbD k.val
    let drives := fun t : State => (t.chan k.val).driver = ((t.chan k.val).value && !(x.retired && !back) &&
      (back || x.fault == 0) && !f.vfLost.getLsbD (k.val / 8) && (t.chan k.val).test.isNone)
    let here := f.wire = { frame := d, at_ := at_ } :: rest ∧ at_ + 1500 ≤ f.dieNs
    let mine := fun e : DownType => here ∧ d.type = e ∧ f.dieSeq ≠ some d.seq
    (bridgeOn u = true → u.now % 10000 = 0 ∨ f.startDue = true → wireBusy v = false → Ends (exec (.downFrameTick dt) s) (sent v)) ∧
    (bridgeOn u = true → u.now % 10000 = 0 ∨ f.startDue = true → wireBusy v = true →
      Ends (exec (.downFrameTick dt) s) fun t => t.fld = { v.fld with startDue := true } ∧ Only [.fld] v t) ∧
    ((∀ w ∈ u.lp.pend, u.now < w.at_) → (∀ o ∈ u.seq.outs, u.now < o.at_) → (∀ p, cycleOver u p = false) →
      (settled u = u ∧ ((∀ b ∈ u.can.bad, Area.s.has b = false) → v = u))) ∧
    (bridgeOn u = true → f.startDue = true → wireBusy u = false → Ends (exec (.downFrameDeferred dt) s) (sent (settled u))) ∧
    (∀ e : DownFrame, e.bytes.length = 32 ∧ e.bytes.drop 28 = leBytes 4 (crc32c (e.bytes.take 28)) ∧
      byteAt e.bytes 0 = BitVec.ofNat 8 (16 * e.type.code + e.seq.toNat)) ∧
    (mine .refresh → x.newCfg = none → x.active = true → chMode x.cfg = 3 → x.expired = false →
      Ends (exec (.refresh dt true) s) fun t => takes t ∧ (t.chan k.val).value = d.values.getLsbD k.val ∧ drives t) ∧
    (mine .safe → x.newCfg = none → x.active = true → chMode x.cfg = 3 → d.mask.getLsbD k.val = true →
      Ends (exec (.safeFrame dt true) s) fun t => takes t ∧ (t.chan k.val).value = chSafe x.cfg ∧ (t.chan k.val).test = none ∧ drives t) ∧
    (∀ n w p q, mine .config → d.cfg = some (n, w, p, q) →
      Ends (exec (.config dt true) s) fun t => takes t ∧ (t.chan n.toNat).newCfg = some (w, p, chHold u.cfg w) ∧
        t.fld.newFldCfg = some q ∧ t.fld.fldCfg = f.fldCfg ∧
        (f.timed = [] → (t.chan n.toNat).value = (u.chan n.toNat).value)) ∧
    (∀ w p h, mine .refresh → x.newCfg = some (w, p, h) →
      Ends (exec (.refresh dt true) s) fun t => takes t ∧ (t.chan k.val).cfg = w ∧ (t.chan k.val).pwm = p ∧ (t.chan k.val).hold = h ∧
        (t.chan k.val).newCfg = none ∧ (t.chan k.val).active = true ∧ t.fld.fldCfg = f.newFldCfg.getD f.fldCfg) ∧
    (mine .refresh → back = true → Ends (exec (.refresh dt true) s) fun t => takes t ∧ (t.chan k.val).retired = false ∧
      (t.chan k.val).strikes = [] ∧ (t.chan k.val).fault = 0) ∧
    (mine .idle → Ends (exec (.idle dt true) s) fun t => takes t ∧ t.fld.idle = true ∧ (t.chan k.val).driver = false ∧
      (t.chan k.val).value = false ∧ (t.chan k.val).cfg = x.cfg) ∧
    (mine .release → d.mask.getLsbD k.val = true → x.active = true → chMode x.cfg = 3 →
      Ends (exec (.releaseFrame dt true) s) fun t => takes t ∧ (t.chan k.val).expired = false ∧
        (t.chan k.val).value = d.values.getLsbD k.val ∧ drives t) ∧
    (∀ e c, (e, c) ∈ [(DownType.refresh, Instr.refresh dt false), (.safe, .safeFrame dt false), (.config, .config dt false),
        (.idle, .idle dt false), (.release, .releaseFrame dt false)] →
      (here → d.type = e → Ends (exec c s) fun t =>
        t.fld = { f with wire := rest, answers := f.answers ++ [{ frame := none, at_ := at_ }] } ∧ Only [.fld] u t) ∧
      (f.wire = { frame := d, at_ := at_ } :: rest → d.type ≠ e ∨ f.dieNs < at_ + 1500 → exec c s = .next u))

/-- UP_FRAME, BRIDGE_LOSS, SILENCE, CHANNEL_HOLD_EXPIRY and TIMED_CHANGE: inputs, the stream, held and timed outputs. Where the spec leaves it open it follows the model's readings of log entries 16, 18, 63, 68. -/
def Obligations.BridgeUpFramesAndSilence : Prop :=
  ∀ (s : State) (dt : Nat) (w : UpFrame) (k : ChanId) (l1 l2 : List Change) (c : Change) (id : BitVec 4) (ms : Nat) (a : Answer) (r : List Answer),
    let u := elapse dt s
    let f := u.fld
    let x := u.chan k.val
    let all := fun t : State => ∀ j, j ≠ k.val → t.chan j = u.chan j
    let due := readOpen u = true ∧ f.answers = a :: r ∧ a.at_ + 3200 ≤ f.dieNs
    (due → a.frame = some w → f.lastUpSeq ≠ some w.seq →
      Ends (exec (.upFrame dt true) s) fun t => t.fld.answers = r ∧ t.fld.lastUp = some w ∧ t.fld.lastUpAt = u.now ∧
        t.fld.goodRun = f.goodRun + 1 ∧ t.fld.valid = (f.valid || decide (3 ≤ f.goodRun + 1)) ∧
        (∀ j, j < 4 → t.can.mem.byte (0x10000000 + j) = BitVec.ofNat 8 (w.input.toNat / 2 ^ (8 * j)) ∧
          t.can.mem.byte (0x10000004 + j) = BitVec.ofNat 8 (w.readback.toNat / 2 ^ (8 * j))) ∧
        (∀ a, a < 0x10000000 ∨ 0x10000008 ≤ a → t.can.mem.byte a = u.can.mem.byte a) ∧ t.fld.chans = f.chans ∧
        t.fld.view = a.view ∧ (a.news = f.news → t.fld.news = []) ∧
        (∀ j kind m, f.valid = true → u.can.bad = [] → f.news = [.fault j kind m] → a.news = f.news →
          Logs u t 0x0703 [.b1 j, .b1 kind.toNat, .b4 m]) ∧
        Only [.seq, .can, .fld, .host, .nv, .out] u t) ∧
    (∀ ok, due → a.frame = some w → ok = false ∨ f.lastUpSeq = some w.seq →
      Ends (exec (.upFrame dt ok) s) fun t => t.fld = { f with answers := r, errs := satInc f.errs, goodRun := 0 } ∧ Only [.seq, .fld] u t) ∧
    (∀ ok, due → a.frame = none →
      Ends (exec (.upFrame dt ok) s) fun t => t.fld = { f with answers := r, goodRun := 0 } ∧ Only [.seq, .fld] u t) ∧
    (∀ ok, f.answers = a :: r → readOpen u = false ∨ f.dieNs < a.at_ + 3200 → exec (.upFrame dt ok) s = .next u) ∧
    (f.valid = true → f.lastUpAt + 30000 ≤ u.now →
      Ends (exec (.bridgeLoss dt) s) fun t =>
        t.fld = { f with valid := false, lostAt := u.now, losses := satInc f.losses, goodRun := 0 } ∧
        Logs u t 0x0701 [.b8 f.lastUpAt, .b4 f.errs.toNat] ∧ Only [.fld, .host, .nv, .out] u t) ∧
    (f.silent = false → f.dieLastEnd + 30000 ≤ f.dieNs →
      Ends (exec (.silence dt) s) fun t => t.fld.silent = true ∧ t.fld.timed = [] ∧ (t.chan k.val).test = none ∧
        (x.mode ≠ 5 ∨ f.timed = [] → (t.chan k.val).value = x.value) ∧ (t.chan k.val).expired = x.expired ∧ Only [.fld] u t) ∧
    (f.silent = true → x.isOut = true → x.expired = false → x.hold = some ms → f.dieLastEnd + 1000000 * ms ≤ f.dieNs →
      Ends (exec (.channelHoldExpiry dt k) s) fun t => (t.chan k.val).expired = true ∧ (t.chan k.val).value = chSafe x.cfg ∧
        all t ∧ Only [.fld] u t) ∧
    (x.expired = true → exec (.channelHoldExpiry dt k) s = .next u) ∧
    (List.Pairwise (fun a b => ahead a.stamp (dieClock u) ≤ ahead b.stamp (dieClock u)) (dueChanges u (dieClock u)) ∧
      (∀ y, y ∈ dueChanges u (dieClock u) ↔ y ∈ f.timed ∧ ahead y.stamp (dieClock u) ≤ 0)) ∧
    (dueChanges u (dieClock u) = l1 ++ c :: l2 → c.id = id → (∀ y ∈ l1, y.id ≠ id) →
      Ends (exec (.timedChange dt id) s) fun t => t.fld.timed = (l1 ++ [c]).foldl (fun m y => m.erase y) f.timed ∧
        (x.mode = 5 → x.expired = false → (t.chan k.val).value = (match ((l1 ++ [c]).filter fun y => y.channels.getLsbD k.val).getLast? with
          | some y => y.vals.getLsbD k.val
          | none => x.value)) ∧
        ((∀ y ∈ l1 ++ [c], y.channels.getLsbD k.val = false) → t.chan k.val = x) ∧ Only [.fld] u t)

/-- Field inputs, OVERLOAD, GROUP_LIMIT, READBACK, DARK_TEST_END, VF_LOSS, VF_RETURN and FAULT_FOLLOW_RESUME. Where the spec leaves it open it follows the model's readings of log entry 63. -/
def Obligations.FieldChannelFaults : Prop :=
  ∀ (s : State) (dt : Nat) (k : ChanId) (g : Fin 4) (lvl : Bool) (a : Nat),
    let u := elapse dt s
    let f := u.fld
    let x := u.chan k.val
    let vf := !f.vfLost.getLsbD (k.val / 8)
    let on := vf && !f.idle
    let all := fun t : State => ∀ j, j ≠ k.val → t.chan j = u.chan j
    let recent := x.recent f.fldCfg u.op
    let strikes := recent ++ [u.op]
    let limit := (fldStrikes f.fldCfg).1 ≤ strikes.length
    let faulted := fun (n : Byte) (t : State) => (t.chan k.val).fault = n ∧ (t.chan k.val).lastKind = n ∧
      (t.chan k.val).driver = false ∧ (t.chan k.val).test = none ∧ (t.chan k.val).strikes = strikes ∧
      (t.chan k.val).retired = (x.retired || decide limit) ∧
      t.fld.news = f.news ++ .fault k.val n strikes.length :: (if limit ∧ x.retired = false then [.retired k.val n] else []) ∧
      all t ∧ Only [.fld] u t
    (x.isIn = true → vf = true → x.input ≠ lvl → x.inAt + x.filterNs ≤ f.dieNs →
      Ends (exec (.fieldInputChange dt k lvl) s) fun t => t.chan k.val = { x with input := lvl, edge := true, inAt := f.dieNs } ∧ all t ∧ Only [.fld] u t) ∧
    (x.input = lvl ∨ vf = false ∨ f.dieNs < x.inAt + x.filterNs → exec (.fieldInputChange dt k lvl) s = .next u) ∧
    (x.driver = true → Ends (exec (.overload dt k) s) (faulted 1)) ∧
    (k.val / 8 = g.val → x.isOut = true →
      Ends (exec (.groupLimit dt g) s) fun t => (t.chan k.val).fault = 2 ∧ (t.chan k.val).driver = false ∧
        (t.chan k.val).strikes = recent ∧ (t.chan k.val).retired = x.retired ∧
        .fault k.val 2 recent.length ∈ t.fld.news ∧ Only [.fld] u t) ∧
    (readbackChecked u x = true → lvl ≠ x.driver → Ends (exec (.readback dt k lvl) s) fun t => (t.chan k.val).fault = 3 ∧
      (t.chan k.val).readback = lvl ∧ (t.chan k.val).driver = false ∧ (t.chan k.val).strikes = strikes ∧ all t ∧
      Only [.fld] u t) ∧
    (x.isOut = true → lvl = x.driver ∨ f.dieNs ≤ x.swAt + fldReadback u → Ends (exec (.readback dt k lvl) s) fun t => t.chan k.val = { x with readback := lvl } ∧ all t ∧
      Only [.fld] u t) ∧
    (x.test = some a → a + fldTest u ≤ f.dieNs → Ends (exec (.darkTestEnd dt k false) s) fun t => (t.chan k.val).test = none ∧
      (t.chan k.val).fault = x.fault ∧ (t.chan k.val).driver = (x.isOut && x.value && !x.retired && x.fault == 0 && on) ∧ all t ∧ Only [.fld] u t) ∧
    (x.test = some a → a + fldTest u ≤ f.dieNs → Ends (exec (.darkTestEnd dt k true) s) (faulted 4)) ∧
    (k.val / 8 = g.val → f.vfLost.getLsbD g.val = false → x.mode ≠ 0 →
      Ends (exec (.vfLoss dt g) s) fun t => t.fld.vfLost.getLsbD g.val = true ∧ (t.chan k.val).fault = x.fault ∧ chanFaulty t k.val = true ∧
        (t.chan k.val).lastKind = 5 ∧ (t.chan k.val).driver = false ∧
        (t.chan k.val).input = false ∧ (t.chan k.val).edge = (x.edge || x.input) ∧ (t.chan k.val).retired = x.retired ∧
        .fault k.val 5 recent.length ∈ t.fld.news ∧ Only [.fld] u t) ∧
    (k.val / 8 = g.val → f.vfLost.getLsbD g.val = true → x.mode ≠ 0 →
      Ends (exec (.vfReturn dt g) s) fun t => t.fld.vfLost.getLsbD g.val = false ∧ (t.chan k.val).fault = x.fault ∧
        chanFaulty t k.val = (x.fault != 0) ∧ (t.chan k.val).value = x.value ∧ Only [.fld] u t) ∧
    (1 ≤ x.fault.toNat → x.fault.toNat ≤ 4 → x.retired = false → x.faultAt + 100000000 ≤ f.dieNs →
      Ends (exec (.faultFollowResume dt k) s) fun t => (t.chan k.val).fault = 0 ∧
        (t.chan k.val).driver = (x.isOut && x.value && on && !(x.test.isSome && x.value)) ∧ (x.mode ≠ 0 → chanFaulty t k.val = !vf) ∧ all t ∧
        Only [.fld] u t)

/-- CAN_RX_FRAME, CAN_TX_ATTEMPT, CAN_TX_SUCCESS, CAN_ERROR and CBUS_BUS_ON on a channel in normal mode. Where the spec leaves it open it follows the model's readings of log entries 20, 65. -/
def Obligations.CanChannels : Prop :=
  ∀ (s : State) (dt : Nat) (n : CanId) (f : CanFrame) (stamp : Nat) (y : TxFrame) (tec : BitVec 9) (r : Byte),
    let u := elapse dt s
    let x := u.canCh n.val
    let a := 0x13000000 + n.val * 0x50000 + 80 * (x.seq.toNat % 4096)
    let all := fun t : State => ∀ j, j ≠ n.val → t.canCh j = u.canCh j
    (canMode u n.val = 1 → x.live = true → x.onBus = none → f.fdf = false ∨ wbit (cCfg u.cfg n.val) 28 = true →
      Ends (exec (.canRxFrame dt n stamp f) s) fun t =>
        (∀ j, j < 80 → t.can.mem.byte (a + j) = byteAt (ringEntry stamp f false x.seq) j) ∧
        (∀ b, b < a ∨ a + 80 ≤ b → t.can.mem.byte b = u.can.mem.byte b) ∧ (t.canCh n.val).seq = x.seq + 1 ∧
        (t.canCh n.val).rxCount = satInc x.rxCount ∧ (t.canCh n.val).queue = x.queue ∧
        (x.recv.toNat ≤ 127 → (t.canCh n.val).recv = BitVec.ofNat 8 (x.recv.toNat - 1)) ∧ all t ∧
        Only [.free, .seq, .can, .cb, .host, .nv, .out] u t) ∧
    (canMode u n.val = 1 ∨ canMode u n.val = 2 → x.live = true → f.fdf = true → wbit (cCfg u.cfg n.val) 28 = false →
      (x.onBus = none → exec (.canRxFrame dt n stamp f) s = .next u) ∧
      (x.onBus = some y → y.aborted = none → y.oneShot = false → y.last = false →
        Ends (exec (.canRxFrame dt n stamp f) s) fun t => t.canCh n.val = { x with onBus := none, queue := requeue y x.queue } ∧
          all t ∧ Only [.cb] u t)) ∧
    (canMode u n.val = 1 ∨ canMode u n.val = 3 → x.live = true → x.onBus = none → txBest u x.queue = some y →
      y ∈ x.queue ∧ offered u y.task = true ∧ (∀ z ∈ x.queue, offered u z.task = true → arbKey y.frame ≤ arbKey z.frame) ∧
      Ends (exec (.canTxAttempt dt n) s) fun t => t.canCh n.val = { x with queue := dropFirst y x.queue, onBus := some { y with sof := u.now } } ∧
        all t ∧ Only [.cb] u t) ∧
    (x.onBus = some y → y.aborted = none → y.echo = false → canMode u n.val = 1 →
      Ends (exec (.canTxSuccess dt n) s) fun t => (t.canCh n.val).onBus = none ∧ (t.canCh n.val).txCount = satInc x.txCount ∧
        (t.canCh n.val).tec = (if x.tec = 0 then 0 else x.tec - 1) ∧ (t.canCh n.val).queue = x.queue ∧
        t.out = u.out ++ [.can n.val y.frame] ∧ all t ∧ Only [.cb, .out] u t) ∧
    (canMode u n.val = 1 → x.live = true → x.onBus = none → tec.toNat ≤ 255 →
      Ends (exec (.canError dt n tec r) s) fun t => t.canCh n.val = { x with tec := tec, recv := r, errFrames := satInc x.errFrames, err := if 127 < tec.toNat ∨ 127 < r.toNat then 2 else 1 } ∧ all t ∧ Only [.cb, .host, .nv, .out] u t) ∧
    (canMode u n.val = 1 → x.live = true → 255 < tec.toNat →
      Ends (exec (.canError dt n tec r) s) fun t => (t.canCh n.val).busOffs = satInc x.busOffs ∧ (t.canCh n.val).busOffAt = u.now ∧
        ((t.canCh n.val).err = 3 ∨ (t.canCh n.val).err = 4) ∧ (t.canCh n.val).onBus = none ∧ all t ∧ Only [.cb, .host, .nv, .out] u t) ∧
    (x.err = 4 → canMode u n.val ≠ 0 →
      Ends (exec (.cbusBusOn dt n) s) fun t => t.canCh n.val = { x with err := 1, tec := 0, recv := 0 } ∧
        Logs u t 0x0803 [.b1 n.val, .b4 ((u.now - x.busOffAt) / 1000)] ∧ all t ∧ Only [.cb, .host, .nv, .out] u t)

/-- COUNT_EDGE, Z_RISING_EDGE, the wire errors and VELOCITY_UPDATE: what a shaft counts, when it is referenced, when it fails. Where the spec leaves it open it follows the model's readings of log entries 8, 58, 87, 90. -/
def Obligations.ShaftEvents : Prop :=
  ∀ (s : State) (dt : Nat) (n : ShaftId) (a b z : Bool) (e0 em e1 : Nat × Int) (at_ : Nat),
    let u := elapse dt s
    let k := n.val
    let x := u.shaft k
    let tt := u.now / 5 * 5
    let wait := 5 * shFilt u.cfg k
    let full := max 1 (shN u.cfg k)
    let raw := (a, b, z)
    let since := (if x.raw.1 = a then x.since.1 else tt, if x.raw.2.1 = b then x.since.2.1 else tt, if x.raw.2.2 = z then x.since.2.2 else tt)
    let accepts := at_ + wait ≤ u.now ∧ ((x.raw = (x.a, x.b, x.z) ∧ at_ = tt) ∨ (x.raw = raw ∧ (a ≠ x.a → x.since.1 = at_) ∧
      (b ≠ x.b → x.since.2.1 = at_) ∧ (z ≠ x.z → x.since.2.2 = at_)))
    let waits := (x.raw.1 ≠ x.a → u.now < x.since.1 + wait) ∧ (x.raw.2.1 ≠ x.b → u.now < x.since.2.1 + wait) ∧
      (x.raw.2.2 ≠ x.z → u.now < x.since.2.2 + wait) ∧ (a ≠ x.a → u.now < since.1 + wait) ∧ (b ≠ x.b → u.now < since.2.1 + wait) ∧
      (z ≠ x.z → u.now < since.2.2 + wait)
    let zs := x.zArmed || (z && !x.z)
    let fwd := (if a ≠ x.a then a != b else a == b) != shInv u.cfg k
    let mark := z && zs && fwd
    let cnt := if fwd then (if x.cnt + 1 = full then 0 else x.cnt + 1) else (if x.cnt = 0 then full - 1 else x.cnt - 1)
    let rev := if fwd then (if x.cnt + 1 = full then x.rev + 1 else x.rev) else (if x.cnt = 0 then x.rev - 1 else x.rev)
    let v1 := x.v + x.acc * usOf ((at_ : Int) - (x.t1 : Int))
    let hits := (x.strikes.filter fun y => decide (u.op ≤ y + 60000000000)) ++ [u.op]
    let others := fun t : State => ∀ j, j ≠ k → t.shaft j = u.shaft j
    let failed := fun t : State => (t.shaft k).fault = true ∧ (t.shaft k).v = 0 ∧ (t.shaft k).acc = 0 ∧ (t.shaft k).cnt = x.cnt ∧
      (t.shaft k).rev = x.rev ∧ (t.shaft k).holdPos = shaftPos u k ∧ others t ∧
      ∀ e ∈ t.fret.queue, e.shaft.val = k → e.fired = true ∧ e.repeats = false
    let live := shaftLive u k = true
    let one := a ≠ x.a ↔ b = x.b
    let slow := ∀ q, x.edgeAt = some q → q + 50 ≤ at_
    let counts := live ∧ accepts ∧ x.fault = false ∧ one ∧ slow
    let illegal := live ∧ accepts ∧ a ≠ x.a ∧ b ≠ x.b
    let c0 : Int := (shZero u.cfg k : Int) - (cnt : Int)
    let w := acceptShafts u
    let y := w.shaft k
    (counts → mark = false →
      Ends (exec (.countEdge dt n a b z) s) fun t => (t.shaft k).cnt = cnt ∧ (t.shaft k).rev = rev ∧
        (t.shaft k).a = a ∧ (t.shaft k).b = b ∧ (t.shaft k).z = z ∧ (t.shaft k).raw = raw ∧ (t.shaft k).since = since ∧
        (t.shaft k).zArmed = zs ∧ (t.shaft k).t1 = at_ ∧ (t.shaft k).edgeAt = some at_ ∧ (t.shaft k).backward = !fwd ∧
        (t.shaft k).v = (if (fwd = true ∧ v1 < 0) ∨ (fwd = false ∧ 0 < v1) then 0 else v1) ∧
        (t.shaft k).referenced = x.referenced ∧ others t ∧ Only [.free, .fret, .yl, .fld] u t) ∧
    (counts → mark = true → x.referenced = false →
      Ends (exec (.countEdge dt n a b z) s) fun t => (t.shaft k).referenced = true ∧ (t.shaft k).cnt = shZero u.cfg k ∧
        (t.shaft k).rev = 0 ∧ (t.shaft k).zArmed = false ∧ others t) ∧
    (counts → mark = true → x.referenced = true → shZero u.cfg k < shN u.cfg k →
      Ends (exec (.countEdge dt n a b z) s) fun t => (t.shaft k).cnt = shZero u.cfg k ∧ (t.shaft k).zArmed = false ∧
        (t.shaft k).rev = (if (shN u.cfg k : Int) < 2 * c0 then rev - 1 else if 2 * c0 < -(shN u.cfg k : Int) then rev + 1 else rev) ∧
        (t.shaft k).strikes = (if shZtol u.cfg k < (zeroDiff (shN u.cfg k) cnt (shZero u.cfg k)).natAbs then hits else x.strikes) ∧
        others t) ∧
    (live → accepts → one → ¬ slow → mark = false → hits.length < 3 ∨ x.fault = true →
      Ends (exec (.countEdge dt n a b z) s) fun t => (t.shaft k).strikes = hits ∧ (t.shaft k).lastKind = 2 ∧
        (t.shaft k).edgeAt = some at_ ∧ (t.shaft k).cnt = (if x.fault then x.cnt else cnt) ∧ others t) ∧
    (live → accepts → one → slow → x.fault = true → mark = false →
      Ends (exec (.countEdge dt n a b z) s) fun t =>
        t.shaft k = { x with a := a, b := b, z := z, raw := raw, since := since, zArmed := zs, edgeAt := some at_, backward := !fwd } ∧
        others t ∧ Only [.fret] u t) ∧
    (illegal → hits.length < 3 ∨ x.fault = true →
      Ends (exec (.countEdge dt n a b z) s) fun t =>
        t.shaft k = { x with a := a, b := b, z := z, raw := raw, since := since, zArmed := zs, strikes := hits, lastKind := 1 } ∧
        Logs u t 0x0407 [.b1 k, .b1 1, .b4 x.cnt, .b4 hits.length] ∧ others t ∧ Only [.fret, .host, .nv, .out] u t) ∧
    (illegal → x.fault = false → 3 ≤ hits.length → Ends (exec (.countEdge dt n a b z) s) failed) ∧
    (live → accepts → a = x.a → b = x.b →
      Ends (exec (.countEdge dt n a b z) s) fun t =>
        t.shaft k = { x with z := z, raw := raw, since := since, zArmed := zs } ∧ others t ∧ Only [.fret] u t) ∧
    (live → waits → Ends (exec (.countEdge dt n a b z) s) fun t =>
      t.shaft k = { x with raw := raw, since := since } ∧ others t ∧ Only [.fret] u t) ∧
    (exec (.zRisingEdge dt n) s = exec (.countEdge dt n x.raw.1 x.raw.2.1 true) s ∧
      (live → accepts → raw = (x.a, x.b, true) → Ends (exec (.zRisingEdge dt n) s) fun t =>
        t.shaft k = { x with z := true, raw := raw, since := since, zArmed := x.zArmed || !x.z } ∧ others t ∧ Only [.fret] u t)) ∧
    (live → x.wire = false →
      Ends (exec (.wireError dt n) s) fun t => (t.shaft k).wire = true ∧ (t.shaft k).wireAt = u.now ∧ (t.shaft k).strikes = hits ∧
        (t.shaft k).lastKind = 4 ∧ (t.shaft k).fault = (x.fault || decide (3 ≤ hits.length)) ∧ (t.shaft k).cnt = x.cnt ∧ others t) ∧
    (shaftLive u k = false → exec (.countEdge dt n a b z) s = .next u ∧ exec (.zRisingEdge dt n) s = .next u ∧
      exec (.wireError dt n) s = .next u) ∧
    (Ends (exec (.wireErrorCleared dt n) s) fun t => t.shaft k = { x with wire := false } ∧ others t ∧ Only [.fret] u t) ∧
    (x.wire = true → x.wireAt + 1000000 ≤ u.now → x.fault = false → Ends (exec (.wireFaultTimeout dt n) s) failed) ∧
    (x.wire = false ∨ u.now < x.wireAt + 1000000 ∨ x.fault = true → exec (.wireFaultTimeout dt n) s = .next u) ∧
    ((∀ j, j < 4 → shOn u.cfg j = true → (u.shaft j).raw = ((u.shaft j).a, (u.shaft j).b, (u.shaft j).z)) → w = u) ∧
    (u.now % 25000 = 0 → u.dev.state.served = true → w.dev.state ≠ .hold →
      Ends (exec (.velocityUpdate dt) s) fun t => Only [.free, .fret] w t ∧ (t.shaft k).cnt = y.cnt ∧ (t.shaft k).edges = y.edges ∧
        t.fret.queue = (w.fret.queue.map fun e => { e with row := e.row.map fun r => if r.armed then r else { r with deadline := rowDeadline t e } }) ∧
        (shOn w.cfg k = true → y.fault = false → (∀ e ∈ y.edges, e.1 + 50000000 ≤ u.now) →
          (t.shaft k).v = 0 ∧ (t.shaft k).acc = 0 ∧ (t.shaft k).stopped = true) ∧
        (shOn w.cfg k = true → y.fault = false → y.edges = [e1, em, e0] → u.now < e1.1 + 50000000 →
          let va : Rat := ((em.2 - e0.2 : Int) : Rat) / usOf ((em.1 : Int) - (e0.1 : Int))
          let vb : Rat := ((e1.2 - em.2 : Int) : Rat) / usOf ((e1.1 : Int) - (em.1 : Int))
          let acc := (vb - va) / (usOf ((e1.1 : Int) - (e0.1 : Int)) / 2)
          (t.shaft k).acc = acc ∧ (t.shaft k).v = vb + acc * usOf ((e1.1 : Int) - (em.1 : Int)) / 2 ∧ (t.shaft k).stopped = false) ∧
        (shOn w.cfg k = true → y.fault = true → t.shaft k = { y with stopped := (match y.edgeAt with | some q => decide (q + 50000000 ≤ u.now) | none => true) }) ∧
        (shOn w.cfg k = false → t.shaft k = y)) ∧
    (u.now % 25000 = 0 → u.dev.state.served = true → w.dev.state = .hold → twdDue w = false → w.dev.holdLeft ≠ 0 → shOn w.cfg k = true →
      y.fault = true → Ends (exec (.velocityUpdate dt) s) fun t => Moved w t 0x16 .stop)

/-- FRET_EVALUATION, FRET_LEAD, FRET_MISSED, LOOP_SAMPLE, LOOP_CLASS_COMMIT and TUNE_TIMEOUT. Where the spec leaves it open it follows the model's readings of log entries 9, 18, 58, 62, 87, 90, 92. -/
def Obligations.FretQueueAndLoopEvents : Prop :=
  ∀ (s : State) (dt : Nat) (e : FretE) (k : Fin 8) (l : Fin 256) (row : BitVec 16) (pt : PortId) (r : RowSt) (m c q0 : Nat) (w : LoopWs)
    (g : Tune) (y : Nat × Nat × Nat),
    let u := elapse dt s
    let f := acceptShafts u
    let d := e.dist (shaftPos f e.shaft.val)
    let e1 := { e with lastD := d }
    let judged := u.now % 25 = 0 ∧ u.dev.state.served = true ∧ f.fret.queue = [e] ∧ (f.shaft e.shaft.val).referenced = true ∧
      (f.shaft e.shaft.val).fault = false ∧ shOn f.cfg e.shaft.val = true ∧ e.judged = true ∧ e.fired = false ∧ e.change = none
    let crosses := e.crosses e.lastD d = true
    let ahead := e.projected f.cfg (f.shaft e.shaft.val)
    let nears := e.before d = true ∧ e.before (e.dist (anchorPos f.cfg e.shaft.val (f.shaft e.shaft.val))) = true
    let v := departAll u
    let a := slotAt v pt.val 5
    let first := reqWait y.1 4 0 (rowBody e r y.2.1 y.2.2 0 (min 1464 y.2.2)) (.row r.id 0 (min 1464 y.2.2))
    let q := settled u
    (judged → e.kind ≠ 1 → e.kind ≠ 2 → e.armed = true → crosses →
      Ends (exec (.fretEvaluation dt) s) fun t =>
        t.fret.queue = (if e.repeats then [{ e1 with fired := true, armed := false }] else []) ∧
        t.fret.spent = f.fret.spent ++ (if e.repeats then [] else [(e.task, e.key)]) ∧
        t.seq.trigs = f.seq.trigs ++ (if tEnable f.cfg (e.sub.toNat % 64) && tEvent f.cfg (e.sub.toNat % 64) &&
            (f.task (e.sub.toNat % 64)).armed then [{ task := e.sub.toNat % 64, source := 0xA, at_ := u.now }] else []) ∧
        Only [.seq, .fret] f t) ∧
    (judged → e.kind = 2 → e.armed = true → e.row = some r → crosses →
      Ends (exec (.fretEvaluation dt) s) fun t => t.fret.queue = [] ∧ t.fret.missCount = satInc f.fret.missCount) ∧
    (judged → e.kind = 1 → e.armed = true →
      (crosses ∧ (∀ i, ahead = some i → m = min i u.now) ∧ (ahead = none → m = u.now)) ∨
        (¬ crosses ∧ nears ∧ ahead = some m ∧ m ≤ u.now + 10000) →
      Ends (exec (.fretEvaluation dt) s) fun t =>
        t.fret.queue = [{ e1 with fired := true, armed := false, change := some (f.fret.nextChange, m) }] ∧
        t.fld.startDue = true ∧ (∃ g, t.fld.changeQ = f.fld.changeQ ++ [{ op := 1, id := f.fret.nextChange, half := e.sub.getLsbD 0, mask := BitVec.ofNat 16 (fld e.word 16 16), values := BitVec.ofNat 16 (fld e.word 0 16), stamp := m, tag := g }]) ∧
        t.fret.nextChange = f.fret.nextChange + 1 ∧ Only [.free, .yl, .fret, .fld] f t) ∧
    (judged → e.armed = true → ¬ crosses → (e.kind = 1 → nears → ∀ i, ahead = some i → u.now + 10000 < i) →
      Ends (exec (.fretEvaluation dt) s) fun t => t.fret = { f.fret with queue := [{ e1 with armed := !e.crossesBack e.lastD d }] } ∧
        Only [.fret] f t) ∧
    (judged → e.armed = false → e.rearms ((2 ^ shHyst f.cfg e.shaft.val : Nat) : Int) d = true →
      Ends (exec (.fretEvaluation dt) s) fun t => t.fret = { f.fret with queue := [{ e1 with armed := true, sideNeg := decide (d < 0) }] } ∧
        Only [.fret] f t) ∧
    (judged → e.armed = false → e.rearms ((2 ^ shHyst f.cfg e.shaft.val : Nat) : Int) d = false →
      Ends (exec (.fretEvaluation dt) s) fun t => t.fret = { f.fret with queue := [e1] } ∧ Only [.fret] f t) ∧
    (u.now % 25 ≠ 0 ∨ u.dev.state.served = false → exec (.fretEvaluation dt) s = .next u) ∧
    (leadDue v row pt.val = some c → (v.port (homePort v.cfg pt.val)).t0 = none →
      Ends (exec (.fretLead dt row pt) s) fun t =>
        (∃ f i, rowEntry t row = some f ∧ f.row = some i ∧ (pt.val, c) ∈ i.leadOpen) ∧ Only [.fret] v t) ∧
    (leadDue v row pt.val = some c → (v.port pt.val).t0 = some q0 → homePort v.cfg pt.val = pt.val → lineState v pt.val = 4 →
      v.dev.state ≠ .setup → v.fret.queue = [e] → e.row = some r → r.commitAt ≤ q0 → r.parts = [y] → y.1 / 32 = pt.val →
      mayStream v y.1 0 = true → 0 < y.2.2 → fitsAt v first a = true → freeTags v first.reserved ≠ [] →
      Ends (exec (.fretLead dt row pt) s) fun t =>
        (∃ f i, rowEntry t row = some f ∧ f.row = some i ∧ 0 < tabGet 0 i.sent y.1 ∧
          (u.now < a → (pt.val, c) ∈ i.leadOpen) ∧ (a = u.now → pt.val ∈ i.leadSaid)) ∧
        (u.now < a → ∃ d ∈ t.yl.plan, d.port = pt.val ∧ d.at_ = a ∧ d.for_ = first.for_) ∧
        (a = u.now → Logs v t 0x0405 [.b1 e.shaft.val, .b4 e.key.toNat, .b1 pt.val, .b8 (BitVec.ofInt 64 ((a : Int) - (c : Int))).toNat])) ∧
    (leadDue v row pt.val = some c → (v.port pt.val).t0 = some q0 → homePort v.cfg pt.val = pt.val → v.fret.queue = [e] →
      e.row = some r → q0 < r.commitAt →
      Ends (exec (.fretLead dt row pt) s) fun t => (∃ f i, rowEntry t row = some f ∧ f.row = some i ∧ (pt.val, c) ∈ i.leadOpen) ∧
        t.yl = v.yl ∧ Only [.fret] v t) ∧
    (leadDue v row pt.val = none → Ends (exec (.fretLead dt row pt) s) fun t => Only [] v t) ∧
    (missDue u row = some (e, r) →
      Ends (exec (.fretMissed dt row) s) fun t => e ∉ t.fret.queue ∧ t.fret.missCount = satInc u.fret.missCount ∧
        t.seq.trigs = u.seq.trigs ++ raised u 0x4 (fun a => a.testBit e.shaft.val) ∧ t.can.mem = u.can.mem ∧
        Only [.seq, .can, .fret, .yl, .host, .nv, .out] u t) ∧
    (missDue u row = none → exec (.fretMissed dt row) s = .next u) ∧
    (classDue u k.val = true →
      Ends (exec (.loopSample dt k) s) fun t => ∃ w, t.lp.pend = q.lp.pend ++ [w] ∧ w.cls = k.val ∧
        w.at_ = u.now + 200 + 150 * loopsUpTo u.cfg k.val ∧ tabGet none t.lp.sampled k.val = some u.now ∧
        t.seq.readAt = some u.now ∧ Only [.seq, .lp, .host, .nv, .out] q t ∧
        ((lAll u.cfg).filter (fun j => lClass u.cfg j == k.val && loopRuns u j) = [l.val] → groupOf u.cfg l.val = none →
          cmdMode q l.val = 0 → q.lp.cap = none →
          w.bytes = lWriteSafe q l.val ∧ w.capEnds = none ∧ w.capHead = [] ∧
          ((q.loop l.val).tune = none →
            t.loop l.val = { LoopSt.cleared q l.val (q.loop l.val) with mode := 0, selected := false, rested := true } ∧ w.tunes = [] ∧ w.aux = []) ∧
          (∀ i, (q.loop l.val).tune = some g → g.ending = some i →
            t.loop l.val = { LoopSt.cleared q l.val (q.loop l.val) with mode := 0, selected := false, rested := true, tune := none } ∧
              w.tunes = [(l.val, i, 0, 0)] ∧ w.aux = [(l.val, auxLine q l.val i [])]))) ∧
    (classDue u k.val = false → exec (.loopSample dt k) s = .next u) ∧
    (classReady u k.val = [w] → w.tunes = [] → w.capEnds = none →
      let all := w.bytes ++ (w.aux.flatMap fun x => x.2) ++ w.capHead
      Ends (exec (.loopClassCommit dt k) s) fun t =>
        (∀ i, t.can.mem.byte i = (all.reverse.lookup i).getD (u.can.mem.byte i)) ∧ (u.can.mem.wf = true → t.can.mem.wf = true) ∧
        t.lp.pend = (u.lp.pend.filter fun y => !(y.cls == k.val && decide (y.at_ ≤ u.now))) ∧ t.lp.loops = u.lp.loops ∧
        (t.task 64).live = true ∧ (t.task 64).lastCommit = some u.now ∧ Only [.seq, .can, .lp, .host, .nv, .out] u t) ∧
    (classReady u k.val = [] → exec (.loopClassCommit dt k) s = .next u) ∧
    ((u.loop l.val).tune = some g → g.ending = none → g.startAt + g.limitNs ≤ u.now →
      Ends (exec (.tuneTimeout dt l) s) fun t =>
        t.loop l.val = { u.loop l.val with tune := some { g with ending := some 0x05 } } ∧
        (∀ j, j ≠ l.val → t.loop j = u.loop j) ∧ Only [.lp] u t) ∧
    ((u.loop l.val).tune = none ∨ ((u.loop l.val).tune = some g ∧ (g.ending ≠ none ∨ u.now < g.startAt + g.limitNs)) →
      exec (.tuneTimeout dt l) s = .next u)

/-- CMD_TAIL, CPL_HEAD, TASK_BELL, NOTIFY, IRQ_MASK, IRQ_PEND, SLOT_ID, SLOT_RESET, PCIE_LINK_UP and the two QSPI frames. Where the spec leaves it open it follows the model's readings of log entries 10, 23, 35, 36, 78. -/
def Obligations.SlotMapWrites : Prop :=
  ∀ (s : State) (dt : Nat) (n : SlotId) (b : Bool) (f : List Byte) (v w : Word) (o : BitVec 16) (wr : List (BitVec 16 × Word)),
    let u := elapse dt s
    let x := u.slot n.val
    let others := fun t : State => ∀ m, m ≠ n.val → t.slot m = u.slot m
    let up := hostUp u n.val = true
    let now1 : Word := if x.notifySet.1 = u.op then x.notifySet.2 else 0
    let now2 : BitVec 4 := if x.pendSet.1 = u.op then x.pendSet.2 else 0
    let inQueue := fun a : BitVec 16 => a.toNat % 4 = 0 ∧ (0x1000 ≤ a.toNat ∧ a.toNat < 0x1800 ∨ 0x4000 ≤ a.toNat ∧ a.toNat < 0x8000)
    let fresh := fun t : State => (∃ y : Slot, t.slot n.val = { y with role := x.base, cmdTail := 0, cmdHead := 0, cplTail := 0, cplHead := 0, mask := 0, pend := 0, qerr := false, owed := [], pba := 0, msixOn := false, map := x.map, front := x.front, nonce := x.nonce }) ∧
      (∀ y ∈ t.host.waits, y.slot = n.val → y.live = false)
    (up → (∀ e ∈ wr, inQueue e.1) → inQueue o →
      Ends (exec (.cmdTail dt n (wr ++ [(o, w)]) v) s) fun t => wordAt ((t.slot n.val).map.bytes o.toNat 4) 0 = w ∧
        ((x.cmdTail + 32 - x.cmdHead) % 32 ≤ (v.toNat % 32 + 32 - x.cmdHead) % 32 →
          (t.slot n.val).cmdTail = v.toNat % 32 ∧ (t.slot n.val).qerr = x.qerr) ∧
        ((v.toNat % 32 + 32 - x.cmdHead) % 32 < (x.cmdTail + 32 - x.cmdHead) % 32 →
          (t.slot n.val).cmdTail = x.cmdTail ∧ (t.slot n.val).qerr = true ∧ Only [.host, .out] u t) ∧
        (t.slot n.val).role = x.role ∧ others t ∧ Only [.host, .out] u t) ∧
    (up → (v.toNat % 32 + 32 - x.cplHead) % 32 ≤ (x.cplTail + 32 - x.cplHead) % 32 →
      Ends (exec (.cplHead dt n v) s) fun t => (t.slot n.val).cplHead = v.toNat % 32 ∧ (t.slot n.val).qerr = x.qerr ∧ others t ∧
        Only [.host, .out] u t) ∧
    (up → (x.cplTail + 32 - x.cplHead) % 32 < (v.toNat % 32 + 32 - x.cplHead) % 32 →
      Ends (exec (.cplHead dt n v) s) fun t => t.slot n.val = { x with qerr := true } ∧ others t ∧ Only [.host] u t) ∧
    (up → x.role ≠ .observer → u.dev.state ≠ .clearing →
      Ends (exec (.taskBell dt n) s) fun t => t.seq.trigs = u.seq.trigs ++ raised u 0x9 (fun a => a % 4 == n.val) ∧
        t.seq.tasks = u.seq.tasks ∧ Only [.seq] u t) ∧
    (x.role = .observer ∨ u.dev.state = .clearing → exec (.taskBell dt n) s = .next u) ∧
    (up → Ends (exec (.notify dt n v) s) fun t => t.slot n.val = { x with notify := x.notify &&& ~~~(v &&& ~~~now1) } ∧ others t ∧ Only [.host] u t) ∧
    (up → Ends (exec (.irqMask dt n v) s) fun t => (t.slot n.val).mask = BitVec.ofNat 4 v.toNat ∧ (t.slot n.val).pend = x.pend ∧ others t ∧
      (∀ k, k < 4 → v.getLsbD k = true → x.mask.getLsbD k = false → x.pend.getLsbD k = true → x.msixOn = true → x.pcie = true →
        x.vecMasked k = false → Out.msix n.val k ∈ t.out) ∧
      (x.pend = 0 → t.out = u.out) ∧ Only [.host, .out] u t) ∧
    (up → Ends (exec (.irqPend dt n v) s) fun t => t.slot n.val = { x with pend := x.pend &&& ~~~(BitVec.ofNat 4 v.toNat &&& ~~~now2) } ∧ others t ∧
      Only [.host] u t) ∧
    (up → x.pcie = false → Ends (exec (.slotId dt n 0) s) fun t => fresh t ∧ Only [.ln, .host, .nv, .out] u t) ∧
    (x.pcie = true ∨ v ≠ 0 → exec (.slotId dt n v) s = .next u) ∧
    (up → x.pcie = true → Ends (exec (.slotReset dt n) s) fun t => fresh t ∧ Only [.free, .ln, .host, .nv, .out] u t) ∧
    (up → x.pcie = true →
      Ends (exec (.pcieLinkUp dt n) s) fun t => (∃ c, t.slot n.val = { x with pcieUp := true, msixOn := c }) ∧ t.clk.refclk = true ∧
        t.out = u.out ++ ((List.range 4).map fun k => Out.enumerates k (pcieId u) (frontRead t k 0)) ∧
        others t ∧ Only [.free, .clk, .host, .out] u t) ∧
    (slotsUp u = true → slotOf u (4 + b2n b) = some n.val → byteAt f 0 = 0x01 ∨ byteAt f 0 = 0x11 → writeFrameOk f = true →
      frameCount f = 1 → 0x4000 ≤ frameOff f → frameOff f < 0x8000 →
      Ends (exec (.qspiWriteFrame dt b f) s) fun t => wordAt ((t.slot n.val).map.bytes (frameOff f) 4) 0 = wordAt f 5 ∧
        (t.slot n.val).qspiAt = some u.op ∧ (t.slot n.val).qerr = x.qerr ∧ others t ∧ Only [.host, .out] u t) ∧
    (slotsUp u = true → slotOf u (4 + b2n b) = some n.val → byteAt f 0 = 0x01 ∨ byteAt f 0 = 0x11 → writeFrameOk f = false →
      Ends (exec (.qspiWriteFrame dt b f) s) fun t => t.slot n.val = { x with qerr := true } ∧ others t ∧ Only [.host] u t) ∧
    (slotsUp u = true → slotOf u (4 + b2n b) = some n.val → byteAt f 0 = 0x02 ∨ byteAt f 0 = 0x12 → f.length = 5 → frameOff f % 4 = 0 →
      Ends (exec (.qspiReadFrame dt b f) s) fun t =>
        (let body := f ++ ((List.range (frameCount f)).map fun k => frontRead u (4 + b2n b) (frameOff f + 4 * k)).flatMap fun y => leBytes 4 y.toNat
         t.out = u.out ++ [.qspi (4 + b2n b) (body ++ (leBytes 2 (crc16 body)).reverse)]) ∧
        t.slot n.val = { x with qspiAt := some u.op } ∧ others t ∧ Only [.host, .out] u t) ∧
    (slotsUp u = true → slotOf u (4 + b2n b) = none → byteAt f 0 = 0x02 ∨ byteAt f 0 = 0x12 → f.length = 5 → frameOff f % 4 = 0 →
      Ends (exec (.qspiReadFrame dt b f) s) fun t =>
        (let body := f ++ ((List.range (frameCount f)).map fun k =>
            if frameOff f + 4 * k = 0 then slotIdReg (4 + b2n b) 0 false else 0).flatMap fun y => leBytes 4 y.toNat
         t.out = u.out ++ [.qspi (4 + b2n b) (body ++ (leBytes 2 (crc16 body)).reverse)]) ∧ Only [.out] u t) ∧
    (hostUp u n.val = false → exec (.notify dt n v) s = .next u ∧ exec (.cmdTail dt n wr v) s = .next u ∧
      exec (.cplHead dt n v) s = .next u ∧ exec (.irqMask dt n v) s = .next u ∧ exec (.irqPend dt n v) s = .next u)

/-- START, STOP, HOLD, HOLD_LIMIT, RESUME, CLEAR_EXIT, ACK_FAULT, RESET, STANDBY and RECOVER: role, state, transition, completion. Where the spec leaves it open it follows the model's readings of log entries 18, 21, 32, 33, 91. -/
def Obligations.DeviceCommands : Prop :=
  ∀ (s : State) (dt : Nat) (n : SlotId) (k : Nat) (i : Inst) (f : Nat),
    let u := elapse dt s
    let x := u.slot n.val
    let e := headEntry x
    let fresh : BitVec 8 := if u.dev.faultSet.1 = u.op then u.dev.faultSet.2 else 0
    let m : BitVec 8 := BitVec.ofNat 8 (leAt e 8 4) &&& ~~~fresh
    let owner := x.role = .owner
    let done := fun (op : Nat) (t : State) => Answered u t n.val op 0 0 0 0
    let timely := twdDue u = false ∧ (u.dev.state = .hold → u.dev.holdLeft ≠ 0)
    let still := timely ∧ u.moving = false ∧ Calm u
    (Asked u n.val 0x10 → x.role ≠ .observer → still → u.dev.state = .stop → allReady u = true →
      Ends (exec (.start dt n) s) fun t => Moved u t 0x0D .run ∧ done 0x10 t ∧ t.seq.after = u.now ∧
        (k ∈ nonGuardTasks u.cfg → (t.task k).live = false) ∧ t.can.mem = u.can.mem) ∧
    (Asked u n.val 0x10 → x.role ≠ .observer → timely → u.moving = false → u.dev.state = .stop → allReady u = false →
      Ends (exec (.start dt n) s) fun t => Answered u t n.val 0x10 0x06 0 0 0 ∧ t.dev = u.dev ∧
        Logs u t 0x0003 [.b1 0x10, .b4 (devReady u).toNat] ∧ Only [.host, .nv, .out] u t) ∧
    (Asked u n.val 0x11 → x.role ≠ .observer → still → isRunning u = true →
      Ends (exec (.stop dt n) s) fun t => Moved u t 0x0E .stop ∧ done 0x11 t ∧ t.fld.safeDue.isSome = true ∧
        (∀ y ∈ t.fret.queue, y.fired = true ∧ y.repeats = false) ∧
        (k ∈ nonGuardTasks u.cfg → (t.task k).live = false ∧ t.inst (nextKey k) = none ∧ (hasPassed u k = false →
          ((∀ y ∈ copiesOf u k, y.2.mayStop = true) → t.inst k = none) ∧
          (u.inst k = some i → i.frozenAt = none → (∃ y ∈ copiesOf u k, y.2.mayStop = false ∧ (u.lane y.2.lane).running = some y.1) →
            ∃ j, t.inst k = some j ∧ j.stopDue = true)))) ∧
    (Asked u n.val 0x11 → x.role ≠ .observer → Calm u → isRunning u = true → twdDue u = true →
      Ends (exec (.stop dt n) s) fun t => Moved u t 0x0F .stop ∧ t.dev.fault.getLsbD 0 = true ∧ Answered u t n.val 0x11 0x09 0 0 0) ∧
    (Asked u n.val 0x12 → owner → still → u.dev.state = .run → holdPending u = none → holdBlocker u = none →
      Ends (exec (.hold dt n) s) fun t => Moved u t 0x13 .hold ∧ done 0x12 t ∧
        t.dev.holdLeft = 1000000000 * fld (rGet u.cfg 0x0013 0) 0 12 ∧
        (k < 64 → tGuard u.cfg k = false → u.inst k = some i → i.rel ≠ u.now → i.phase = .going → (∃ y ∈ copiesOf u k, y.2.ended = none) →
          t.inst k = some { i with frozenAt := some u.now })) ∧
    (Asked u n.val 0x12 → owner → timely → u.moving = false → u.dev.state = .run → holdPending u = none → holdBlocker u = some k →
      Ends (exec (.hold dt n) s) fun t => Answered u t n.val 0x12 0x06 0 0 0 ∧ t.dev = u.dev ∧ Logs u t 0x0002
        [.b1 k, .b2 ((shaftRpm u k).toNat % 65536)] ∧ Only [.host, .nv, .out] u t) ∧
    (Asked u n.val 0x12 → owner → timely → u.moving = false → u.dev.state = .run → holdPending u = some k →
      Ends (exec (.hold dt n) s) fun t => Answered u t n.val 0x12 0x06 0 0 0 ∧ t.dev = u.dev ∧ Logs u t 0x0002 [.b1 k] ∧
        Only [.host, .nv, .out] u t) ∧
    (Asked u n.val 0x13 → owner → still → u.dev.state = .hold →
      Ends (exec (.resume dt n) s) fun t => Moved u t 0x14 .run ∧ done 0x13 t ∧ t.seq.after = u.now ∧
        (u.inst k = some i → i.rel ≠ u.now → i.frozenAt = some f →
          t.inst k = some { i with due := i.due + (u.now - f), lateAt := i.lateAt + (u.now - f), frozenAt := none })) ∧
    (Asked u n.val 0x14 → owner → still → u.dev.state = .clearing → allReady u = true →
      Ends (exec (.clearExit dt n) s) fun t => Moved u t 0x18 .run ∧ done 0x14 t ∧ t.seq.after = u.now) ∧
    (Asked u n.val 0x15 → owner → u.dev.state = .stop ∨ u.dev.state = .clearing →
      Ends (exec (.ackFault dt n) s) fun t => done 0x15 t ∧
        t.dev = { u.dev with fault := (u.dev.fault &&& ~~~m) ||| (m &&& standingFaults u) } ∧
        (k < 64 → (t.task k).gstop = (u.task k).gstop &&& ~~~(m &&& ~~~(standingFaults u))) ∧ Only [.dev, .seq, .host, .out] u t) ∧
    (Asked u n.val 0x16 → owner → u.dev.state ≠ .recovery →
      Ends (exec (.reset dt n) s) fun t => Moved u t 0x04 .boot ∧ t.clk.rstSrc = 5 ∧ t.clk.rstSlot = BitVec.ofNat 2 n.val ∧
        t.clk.lock = false ∧ t.cfg = [] ∧ t.seq = {} ∧ t.can = {} ∧ t.host.waits = [] ∧ t.dev.fault = 0) ∧
    (Asked u n.val 0x17 → owner → still → u.dev.state = .stop → noWake u = false → freeTags u true ≠ [] →
      Ends (exec (.standby dt n) s) fun t => Moved u t 0x19 .standby ∧ done 0x17 t ∧
        t.clk.wakeArmed = some (BitVec.ofNat 3 (fld (rGet u.cfg 0x0C18 0) 0 3)) ∧ t.clk.wakeHeld = none) ∧
    (Asked u n.val 0x17 → owner → timely → u.moving = false → u.dev.state = .stop → noWake u = false → freeTags u true = [] →
      Ends (exec (.standby dt n) s) fun t => t.slot n.val = { x with tagWait := true } ∧
        t.yl.waitCount = (if x.tagWait then u.yl.waitCount else satInc u.yl.waitCount) ∧
        Only [.host, .yl] u t) ∧
    (Asked u n.val 0x18 → owner → timely → u.moving = false → u.dev.state = .stop →
      Ends (exec (.recover dt n) s) fun t => Moved u t 0x04 .boot ∧ t.clk.recoveryReq = true ∧ t.clk.recoveryByWake = false ∧
        t.clk.rstSrc = 5) ∧
    (u.dev.state = .hold → u.dev.holdLeft = 0 → Calm u → twdDue u = false →
      Ends (exec (.holdLimit dt) s) fun t => Moved u t 0x15 .stop ∧ t.fld.safeDue.isSome = true ∧ t.dev.fault = u.dev.fault) ∧
    (u.dev.state ≠ .hold ∨ u.dev.holdLeft ≠ 0 → exec (.holdLimit dt) s = .next u) ∧
    (∀ op c, (op, c) ∈ [(0x12, Instr.hold dt n), (0x13, .resume dt n), (0x14, .clearExit dt n), (0x15, .ackFault dt n),
        (0x16, .reset dt n), (0x17, .standby dt n), (0x18, .recover dt n)] → Asked u n.val op → x.role ≠ .owner → timely →
      u.dev.state ≠ .recovery → Ends (exec c s) fun t => Answered u t n.val op 0x06 0 0 0 ∧ Only [.host, .out] u t) ∧
    (∀ op c, (op, c) ∈ [(0x10, Instr.start dt n), (0x11, .stop dt n), (0x12, .hold dt n), (0x13, .resume dt n),
        (0x14, .clearExit dt n), (0x17, .standby dt n), (0x18, .recover dt n)] → Asked u n.val op → owner → timely → u.moving = true →
      Ends (exec c s) fun t => Answered u t n.val op 0x09 0 0 0 ∧ Only [.host, .out] u t)

/-- IDENTIFY, READ, WRITE, SYSREAD, LINK_COUNT, REC_READ and REC_CLEAR: results, window, Canopy, recorder, completion status. Where the spec leaves it open it follows the model's readings of log entries 18, 29, 31, 40, 41, 59. -/
def Obligations.HostReadsAndWrites : Prop :=
  ∀ (s : State) (dt : Nat) (n : SlotId) (v : Word),
    let u := elapse dt s
    let x := u.slot n.val
    let e := headEntry x
    let a := leAt e 8 4
    let len := leAt e 12 4
    let off := leAt e 16 2
    let lo := u.now % 2 ^ 32
    let hi := u.now / 2 ^ 32
    let ans := fun (op st v0 v1 v2 : Nat) (t : State) => Answered u t n.val op st v0 v1 v2
    let reply := fun t : State => Only [.host, .out] u t ∧ ∀ m, m ≠ n.val → t.slot m = u.slot m
    let tag := (freeTags u false).isEmpty = false
    let tagged := fun t : State => Only [.free, .yl, .host, .out] u t ∧ t.yl = { u.yl with peak := t.yl.peak, ended := t.yl.ended } ∧
      (t.slot n.val).tagWait = false ∧ ∀ m, m ≠ n.val → t.slot m = u.slot m
    let served := u.dev.state.served = true
    let readForm := 0 < len ∧ len ≤ 16384 ∧ winOk off len 4 = true ∧ inOneArea a len = true
    let writeForm := 0 < len ∧ len ≤ 4096 ∧ winOk off len 4 = true ∧ inOneArea a len = true
    let owned := (spanLines a len).all (fun l => Area.h.has l && ownerOf u.cfg l == some (slotOwner n.val))
    let c := leAt e 12 2
    let first : Word := BitVec.ofNat 32 a
    let newest := u.nv.newest
    let oldest := recOldest u
    let q := if first = 0 ∨ seqNewer oldest first = true then oldest else first
    let run := seqRun q newest c
    (Asked u n.val 0x01 →
      Ends (exec (.identify dt n) s) fun t => ans 0x01 0 (roReg u 0x0000).toNat (roReg u 0x0001).toNat (devStateReg u).toNat t ∧ reply t) ∧
    (Asked u n.val 0x20 → tag → readForm → served → u.dev.state ≠ .setup →
      Ends (exec (.read dt n) s) fun t => ans 0x20 0 lo hi 0 t ∧ tagged t ∧
        ∀ j, j < len → (t.slot n.val).map.byte (0x4000 + off + j) = canByte u (a + j)) ∧
    (Asked u n.val 0x20 → tag → readForm → u.dev.state = .setup → Ends (exec (.read dt n) s) fun t => ans 0x20 0x09 0 0 0 t ∧ tagged t) ∧
    (Asked u n.val 0x20 → tag → ¬ readForm → Ends (exec (.read dt n) s) fun t => ans 0x20 0x07 0 0 0 t ∧ tagged t) ∧
    (Asked u n.val 0x20 → ¬ tag → x.tagWait = false →
      Ends (exec (.read dt n) s) fun t => t.slot n.val = { x with tagWait := true } ∧
        t.yl = { u.yl with waitCount := satInc u.yl.waitCount } ∧ Only [.yl, .host] u t) ∧
    (Asked u n.val 0x20 → ¬ tag → x.tagWait = true → exec (.read dt n) s = .next u) ∧
    (readOpen u = false → exec (.write dt n) s = .next u) ∧
    (Asked u n.val 0x21 → tag → readOpen u = true → writeForm → x.role ≠ .observer → inSrh u = true → owned = true →
      Ends (exec (.write dt n) s) fun t => ans 0x21 0 lo hi 0 t ∧ (u.can.mem.wf = true → t.can.mem.wf = true) ∧
        (∀ k, a ≤ k → k < a + len → t.can.mem.byte k = x.map.byte (0x4000 + off + (k - a))) ∧
        (∀ k, k < a ∨ a + len ≤ k → t.can.mem.byte k = u.can.mem.byte k) ∧ Only [.free, .seq, .can, .yl, .host, .nv, .out] u t) ∧
    (Asked u n.val 0x21 → tag → readOpen u = true → writeForm → x.role ≠ .observer → inSrh u = true → owned = false →
      Ends (exec (.write dt n) s) fun t => ans 0x21 0x0B 0 0 0 t ∧ tagged t) ∧
    (Asked u n.val 0x21 → tag → readOpen u = true → writeForm → x.role = .observer ∨ inSrh u = false →
      Ends (exec (.write dt n) s) fun t => ans 0x21 0x06 0 0 0 t ∧ tagged t) ∧
    (Asked u n.val 0x22 → served → sysReg (popCmd u n.val) u.cfg (leAt e 8 2) = some v →
      Ends (exec (.sysread dt n) s) fun t => ans 0x22 0 v.toNat 0 0 t ∧ reply t) ∧
    (Asked u n.val 0x22 → ¬ served → sysReg (popCmd u n.val) u.cfg (leAt e 8 2) = some v →
      Ends (exec (.sysread dt n) s) fun t => ans 0x22 0x06 0 0 0 t ∧ reply t) ∧
    (Asked u n.val 0x22 → sysReg (popCmd u n.val) u.cfg (leAt e 8 2) = none →
      Ends (exec (.sysread dt n) s) fun t => ans 0x22 0x07 0 0 0 t ∧ reply t) ∧
    (Asked u n.val 0x23 → served → (byteAt e 8).toNat ≤ 7 → (byteAt e 9).toNat ≤ 12 →
      Ends (exec (.linkCount dt n) s) fun t =>
        ans 0x23 0 (tabGet 0 u.yl.counts (16 * (byteAt e 8).toNat + (byteAt e 9).toNat)).toNat 0 0 t ∧ reply t) ∧
    (Asked u n.val 0x24 → served ∨ u.dev.state = .recovery → 0 < c → c ≤ 128 → winOk off (128 * c) 128 = true → newest ≠ 0 →
      first = 0 ∨ seqNewer first newest = false →
      Ends (exec (.recRead dt n) s) fun t => ans 0x24 0 q.toNat run.length newest.toNat t ∧ reply t ∧
        ∀ j, j < (run.flatMap (recBytes u)).length → (t.slot n.val).map.byte (0x4000 + off + j) = byteAt (run.flatMap (recBytes u)) j) ∧
    (Asked u n.val 0x24 → served ∨ u.dev.state = .recovery → 0 < c → c ≤ 128 → winOk off (128 * c) 128 = true → newest ≠ 0 →
      first ≠ 0 → seqNewer first newest = true → Ends (exec (.recRead dt n) s) fun t => ans 0x24 0x0A 0 0 0 t ∧ reply t) ∧
    (Asked u n.val 0x25 → x.role = .owner → u.dev.state = .stop → seqNewer newest first = false →
      Ends (exec (.recClear dt n) s) fun t => t.nv.buf = u.nv.buf ∧ t.nv.newest = nextSeq newest ∧ t.nv.clearMark = u.nv.clearMark ∧
        (∃ r, tabGet none t.nv.recs (recSlot (nextSeq newest)) = some r ∧ r.code = 0x0B0C ∧ r.seq = nextSeq newest) ∧ Waiting u t n.val 0x25 (.sysRecord 0xF006) ∧
        Only [.host, .nv, .out] u t) ∧
    (Asked u n.val 0x25 → x.role = .owner → u.dev.state = .stop → seqNewer newest first = true →
      Ends (exec (.recClear dt n) s) fun t => ans 0x25 0x08 0 0 0 t ∧ reply t)

/-- Ownership, slot binding, keys, READMIT and the host loop commands, OWNER_LEASE_EXPIRY and NONCE_LAPSE. Where the spec leaves it open it follows the model's readings of log entries 29, 37, 38, 39, 91, 96. -/
def Obligations.OwnershipAndRequests : Prop :=
  ∀ (s : State) (dt : Nat) (n : SlotId) (key : List Byte) (q : Nat) (i a : Nat) (g : Tune) (y : Cap),
    let u := elapse dt s
    let x := u.slot n.val
    let e := headEntry x
    let k := (byteAt e 8).toNat
    let off := leAt e 9 2
    let ans := fun (op st : Nat) (t : State) => Answered u t n.val op st 0 0 0
    let reply := fun t : State => Only [.host, .out] u t
    let seen := fun t : State => t.seq = { u.seq with insts := t.seq.insts } ∧ ∀ m j, u.inst m = some j →
      if j.rel = u.now then ∃ y, t.inst m = some { j with snap := y } else t.inst m = some j
    let owner := x.role = .owner
    let canOwn := u.dev.state = .setup ∨ inSrh u = true
    let proof := k ≤ 3 ∧ winOk off 64 4 = true ∧ canOwn ∧ tabGet none u.pkg.keys k = some key ∧ liveNonce u n.val = some q ∧
      (∀ m, m < 4 → m ≠ n.val → (u.slot m).role ≠ .owner) ∧ (recentFails u n.val).length < 3 ∧ x.long = none
    let good := Config.ecdsaP256 key (Config.sha256 (proofMessage u n.val k q)) (winBytes u n.val off 64)
    let keys := sysStaged u 0xF002
    let g0 : Word := BitVec.ofNat 32 a
    let l := fld g0 0 8
    let loops := leAt e 8 4 = a ∧ x.role ≠ .observer ∧ (u.dev.state = .run ∨ u.dev.state = .hold) ∧ lOn u.cfg l = true
    let g1 : Word := BitVec.ofNat 32 (leAt e 12 4)
    let g2 : Word := BitVec.ofNat 32 (leAt e 16 4)
    let g3 := (BitVec.ofNat 32 (leAt e 20 4) : Word).toNat
    (Asked u n.val 0x02 → canOwn →
      Ends (exec (.ownerChallenge dt n) s) fun t => ans 0x02 0 t ∧ (t.slot n.val).nonce = some (u.free, u.op) ∧ t.free = u.free + 1 ∧
        (∀ j, j < 32 → (t.slot n.val).map.byte (0x4000 + j) = Config.randomByte u.free j) ∧ Only [.free, .host, .out] u t) ∧
    (Asked u n.val 0x03 → proof → good = true →
      Ends (exec (.ownerProve dt n) s) fun t => ans 0x03 0 t ∧ (t.slot n.val).role = .owner ∧ (t.slot n.val).key = k ∧
        (t.slot n.val).nonce = none ∧ (t.slot n.val).leaseAt = u.op ∧ Logs u t 0x0901 [.b1 n.val, .b1 k] ∧ Only [.host, .nv, .out] u t) ∧
    (Asked u n.val 0x03 → proof → good = false →
      Ends (exec (.ownerProve dt n) s) fun t => ans 0x03 0x08 t ∧ (t.slot n.val).role = x.role ∧ (t.slot n.val).nonce = none ∧
        (t.slot n.val).fails = u.op :: recentFails u n.val ∧ Logs u t 0x0902 [.b1 n.val, .b1 k] ∧ Only [.host, .nv, .out] u t) ∧
    (Asked u n.val 0x04 → owner → canOwn →
      Ends (exec (.release dt n) s) fun t => ans 0x04 0 t ∧ (t.slot n.val).role = x.base ∧ Logs u t 0x0903 [.b1 n.val, .b1 1] ∧
        Only [.host, .nv, .out] u t) ∧
    (Asked u n.val 0x05 → k ≤ 3 → (byteAt e 9).toNat ≤ 5 ∨ (byteAt e 9).toNat = 7 → (byteAt e 10).toNat ≤ 1 →
      (byteAt e 9).toNat = 7 ∨ (∀ m, m < 4 → m ≠ k → (byteAt (sysStaged u 0xF001) (4 * m)).toNat ≠ (byteAt e 9).toNat) →
      owner → u.dev.state = .stop →
      Ends (exec (.slotBind dt n) s) fun t => Waiting u t n.val 0x05 (.sysRecord 0xF001) ∧
        sysStaged t 0xF001 = patch (sysStaged u 0xF001) (4 * k) (leBytes 1 (byteAt e 9).toNat ++ leBytes 1 (byteAt e 10).toNat) ∧
        (∀ m, (t.slot m).front = (u.slot m).front ∧ (t.slot m).base = (u.slot m).base) ∧ Only [.host, .nv, .out] u t) ∧
    (Asked u n.val 0x06 → k ≤ 3 → winOk off 64 4 = true → owner ∨ (noKeys u = true ∧ x.base = .operator) → u.dev.state = .stop →
      Ends (exec (.keyEnrol dt n) s) fun t => Waiting u t n.val 0x06 (.sysRecord 0xF002) ∧
        sysStaged t 0xF002 = patch (patch keys 0 [byteAt keys 0 ||| BitVec.ofNat 8 (1 <<< k)]) (8 + 64 * k) (winBytes u n.val off 64) ∧
        Only [.host, .nv, .out] u t) ∧
    (Asked u n.val 0x07 → k ≤ 3 → owner → u.dev.state = .stop → (byteAt keys 0).getLsbD k = true →
      byteAt keys 0 ≠ BitVec.ofNat 8 (1 <<< k) → keySigned u k = false →
      Ends (exec (.keyRemove dt n) s) fun t => Waiting u t n.val 0x07 (.sysRecord 0xF002) ∧
        sysStaged t 0xF002 = patch (patch keys 0 [byteAt keys 0 &&& ~~~(BitVec.ofNat 8 (1 <<< k))]) (8 + 64 * k) (List.replicate 64 0) ∧
        Only [.host, .nv, .out] u t) ∧
    (Asked u n.val 0x07 → k ≤ 3 → owner → u.dev.state = .stop → (byteAt keys 0).getLsbD k = true →
      byteAt keys 0 = BitVec.ofNat 8 (1 <<< k) ∨ keySigned u k = true →
      Ends (exec (.keyRemove dt n) s) fun t => ans 0x07 0x0B t ∧ reply t) ∧
    (Asked u n.val 0x30 → k = 2 → leAt e 12 4 = i → i < 32 → owner → inSrh u = true → x.long = none → (u.seenChan i).retired = true →
      Ends (exec (.readmit dt n) s) fun t => ans 0x30 0 t ∧ t.fld = logicReadmits u.fld (setBit 0 i true) ∧
        Logs u t 0x0705 [.b1 i, .b1 0, .b1 (0x44 + n.val)] ∧ seen t ∧ Only [.fld, .seq, .host, .nv, .out] u t) ∧
    (Asked u n.val 0x30 → k = 2 → leAt e 12 4 = i → i < 32 → owner → inSrh u = true → (u.seenChan i).retired = false →
      Ends (exec (.readmit dt n) s) fun t => ans 0x30 0x0A t ∧ Logs u t 0x0705 [.b1 i, .b1 0x0A, .b1 (0x44 + n.val)] ∧
        seen t ∧ Only [.seq, .host, .nv, .out] u t) ∧
    (Asked u n.val 0x30 → k = 3 → leAt e 12 4 = i → i < 4 → owner → inSrh u = true → x.long = none → (u.canCh i).retired = true →
      Ends (exec (.readmit dt n) s) fun t => ans 0x30 0 t ∧
        t.canCh i = { u.canCh i with retired := false, strikes := [], tec := 0, recv := 0, err := 1 } ∧
        (∀ j, j ≠ i → t.canCh j = u.canCh j) ∧ Logs u t 0x0805 [.b1 i, .b1 0, .b1 (0x44 + n.val)] ∧ seen t ∧ Only [.cb, .seq, .host, .nv, .out] u t) ∧
    (Asked u n.val 0x30 → k = 0 → leAt e 12 4 = i → i < 40 → owner → u.dev.state = .stop ∨ u.dev.state = .run → x.long = none →
      (u.lane i).role = .retired →
      Ends (exec (.readmit dt n) s) fun t => (t.lane i).role = .testing ∧ (t.lane i).test = some (.readmit n.val (headCid x) true, u.now) ∧
        (∀ j, j ≠ i → t.lane j = u.lane j) ∧ (t.slot n.val).long = some (headCid x) ∧ (t.slot n.val).cplTail = x.cplTail ∧
        (t.slot n.val).cmdHead = x.cmdTail ∧ seen t ∧ Only [.ln, .seq, .host] u t) ∧
    (Asked u n.val 0x30 → k = 0 → leAt e 12 4 = i → i < 40 → owner → u.dev.state = .stop ∨ u.dev.state = .run →
      (u.lane i).role ≠ .retired → Ends (exec (.readmit dt n) s) fun t => ans 0x30 0x0A t ∧ seen t ∧ Only [.seq, .host, .out] u t) ∧
    (Asked u n.val 0x30 → k = 0 → leAt e 12 4 = i → i < 40 → owner → u.dev.state = .stop ∨ u.dev.state = .run →
      (u.lane i).role = .retired → x.long.isSome = true → Ends (exec (.readmit dt n) s) fun t => ans 0x30 0x09 t ∧ seen t ∧ Only [.seq, .host, .out] u t) ∧
    (Asked u n.val 0x31 → leAt e 8 4 = a → tuneForm g0 = false → Ends (exec (.hostLoopTune dt n) s) fun t => ans 0x31 0x07 t ∧ reply t) ∧
    (Asked u n.val 0x31 → leAt e 8 4 = a → tuneForm g0 = true → x.role = .observer ∨ (u.dev.state ≠ .run ∧ u.dev.state ≠ .hold) →
      Ends (exec (.hostLoopTune dt n) s) fun t => ans 0x31 0x06 t ∧ reply t) ∧
    (Asked u n.val 0x32 → leAt e 8 4 = a → capForm g0 g2 = false → Ends (exec (.hostLoopCapture dt n) s) fun t => ans 0x32 0x07 t ∧ reply t) ∧
    (Asked u n.val 0x31 → loops → fld g0 8 2 ≠ 3 → 2 ≤ fld g0 12 4 → fld g0 12 4 ≤ 14 → groupOf u.cfg l = none →
      cmdMode u l ≠ 0 → (u.loop l).mode ≠ 3 → (u.loop l).tune = none → tunePending u l = false → (∀ y, u.lp.cap = some y → y.loop ≠ l) →
      Ends (exec (.hostLoopTune dt n) s) fun t => ans 0x31 0 t ∧ t.loop l = { u.loop l with tune := some { rule := BitVec.ofNat 2 (fld g0 8 2), cycles := fld g0 12 4, mode := BitVec.ofNat 2 (cmdMode u l), dr := g1, eps := g2, limitNs := 1000000 * g3, startAt := u.now } } ∧
        (∀ j, j ≠ l → t.loop j = u.loop j) ∧ Only [.lp, .host, .out] u t) ∧
    (Asked u n.val 0x32 → loops → fld g0 8 4 = 0 → 64 + 16 * g3 ≤ (capBuf u.cfg).2 → u.lp.cap = none →
      Ends (exec (.hostLoopCapture dt n) s) fun t => ans 0x32 0 t ∧ t.lp = { u.lp with cap := some { loop := l, form := 0, atSp := wbit g0 12, dec := max 1 (fld g0 16 12), amp := g1, par := g2, records := g3 } } ∧ Only [.lp, .host, .out] u t) ∧
    (Asked u n.val 0x33 → readOpen u = true → loops → wbit g0 8 = false → (u.loop l).tune = some g →
      Ends (exec (.hostLoopAbort dt n) s) fun t => ans 0x33 0 t ∧
        t.loop l = { u.loop l with tune := some { g with ending := some 0x01 } } ∧ (∀ j, j ≠ l → t.loop j = u.loop j) ∧
        Only [.lp, .host, .out] u t) ∧
    (Asked u n.val 0x33 → readOpen u = true → loops → wbit g0 8 = false → (u.loop l).tune = none → tunePending u l = true →
      Ends (exec (.hostLoopAbort dt n) s) fun t => ans 0x33 0 t ∧ t.lp = { u.lp with pend := u.lp.pend.map (LoopWs.abortTune u l) } ∧
        Only [.lp, .host, .out] u t) ∧
    (Asked u n.val 0x33 → readOpen u = true → loops → wbit g0 8 = true → u.lp.cap = some y → y.loop = l →
      Ends (exec (.hostLoopAbort dt n) s) fun t => ans 0x33 0 t ∧ t.lp.cap = none ∧
        (∀ w ∈ t.lp.pend, w.capEnds = none ∧ w.capHead = []) ∧
        ((capBuf u.cfg).1 ≠ 0 → t.can.mem.byte (capBuf u.cfg).1 = 0x01) ∧ Logs u t 0x0603 [.b1 l, .b1 0x01, .b4 0]) ∧
    (Asked u n.val 0x33 → readOpen u = true → loops → wbit g0 8 = true → (∀ w, u.lp.cap = some w → w.loop ≠ l) →
      Ends (exec (.hostLoopAbort dt n) s) fun t => ans 0x33 0x02 t ∧ reply t) ∧
    (Asked u n.val 0x33 → readOpen u = true → loops → wbit g0 8 = false → (u.loop l).tune = none → tunePending u l = false →
      Ends (exec (.hostLoopAbort dt n) s) fun t => ans 0x33 0x02 t ∧ reply t) ∧
    (readOpen u = false → exec (.hostLoopAbort dt n) s = .next u) ∧
    (Ends (exec (.ownerLeaseExpiry dt) s) fun t => Only [.host, .nv, .out] u t ∧
      (owner → 60000000000 ≤ leaseUsed u x → (t.slot n.val).role = x.base) ∧
      (x.role ≠ .owner ∨ leaseUsed u x < 60000000000 → (t.slot n.val).role = x.role)) ∧
    (x.nonce = some (q, a) → a + 30000000000 ≤ u.op →
      Ends (exec (.nonceLapse dt n) s) fun t => t.slot n.val = { x with nonce := none } ∧ (∀ m, m ≠ n.val → t.slot m = u.slot m) ∧
        Only [.host] u t) ∧
    (x.nonce = some (q, a) → u.op < a + 30000000000 → exec (.nonceLapse dt n) s = .next u)

/-- SAFE_PASSWORD, SAFE_CONFIRM, SAFE_REVOKE, SAFE_LOG_READ and SAFE_LOCKOUT_END: password, confirmed values, lockout. Where the spec leaves it open it follows the model's readings of log entries 46, 66. -/
def Obligations.SafetyCommands : Prop :=
  ∀ (s : State) (dt : Nat) (n : SlotId),
    let u := elapse dt s
    let x := u.slot n.val
    let e := headEntry x
    let k := (byteAt e 8).toNat
    let v : Word := BitVec.ofNat 32 (leAt e 12 4)
    let len := (byteAt e 16).toNat
    let given := winBytes u n.val (leAt e 18 2) len
    let oldLen := (byteAt e 8).toNat
    let newLen := (byteAt e 9).toNat
    let window := leAt e 10 2
    let now : Word := BitVec.ofNat 32 u.opSec
    let fails := (now :: u.safe.fails).take 3
    let failed := fun (op : Nat) (t : State) => Answered u t n.val op 0x08 1 0 0 ∧ t.safe.fails = fails ∧
      t.safe.password = u.safe.password ∧ t.safe.confA = u.safe.confA ∧ t.safe.confB = u.safe.confB ∧
      t.safe.lockEnd = (if fails.length = 3 ∧ u.opSec ≤ (fails.getD 2 0).toNat + 60 then now + 300 else u.safe.lockEnd) ∧
      Only [.host, .safe, .nv, .out] u t
    let staged := fun (op : Nat) (t : State) => Waiting u t n.val op (.sysRecord 0xF005) ∧ t.nv.sysW.contains 0xF005 = true ∧ t.safe = u.safe
    let owner := x.role = .owner
    let form := k ≤ 1 ∧ passLen len = true ∧ winOk (leAt e 18 2) len 4 = true
    let free := u.safe.password.isSome = true ∧ lockedOut u = false
    let active := (k == 1) = u.pkg.active
    let right := passwordOk u given = true
    let may := owner ∧ (active → u.dev.state = .stop) ∧ (¬ active → u.dev.state = .run ∧ u.pkg.exch.plan.isSome = true)
    (Asked u n.val 0x50 → owner → u.dev.state = .stop → lockedOut u = false → oldLen = 0 ∨ passLen oldLen = true → passLen newLen = true →
      winOk window (oldLen + newLen) 4 = true → u.safe.password = none ∨ passwordOk u (winBytes u n.val window oldLen) = true →
      Ends (exec (.safePassword dt n) s) fun t => staged 0x50 t ∧ Only [.free, .host, .nv, .out] u t) ∧
    (Asked u n.val 0x50 → owner → u.dev.state = .stop → lockedOut u = false → oldLen = 0 ∨ passLen oldLen = true → passLen newLen = true →
      winOk window (oldLen + newLen) 4 = true → u.safe.password.isSome = true → passwordOk u (winBytes u n.val window oldLen) = false →
      Ends (exec (.safePassword dt n) s) (failed 0x50)) ∧
    (Asked u n.val 0x51 → form → may → free → right → v = confirmValue u (k == 1) →
      Ends (exec (.safeConfirm dt n) s) fun t => staged 0x51 t ∧ Only [.host, .nv, .out] u t) ∧
    (Asked u n.val 0x51 → form → may → free → right → v ≠ confirmValue u (k == 1) →
      Ends (exec (.safeConfirm dt n) s) fun t => Answered u t n.val 0x51 0x08 2 0 0 ∧ Only [.host, .out] u t) ∧
    (Asked u n.val 0x51 → form → may → free → ¬ right → Ends (exec (.safeConfirm dt n) s) (failed 0x51)) ∧
    (Asked u n.val 0x52 → form → owner → u.dev.state = .stop → free → right →
      Ends (exec (.safeRevoke dt n) s) fun t => staged 0x52 t ∧ Only [.host, .nv, .out] u t) ∧
    (Asked u n.val 0x52 → form → owner → u.dev.state = .stop → free → ¬ right → Ends (exec (.safeRevoke dt n) s) (failed 0x52)) ∧
    (Asked u n.val 0x52 → form → owner → u.dev.state = .stop → u.safe.password.isSome = true → lockedOut u = true →
      Ends (exec (.safeRevoke dt n) s) fun t => Answered u t n.val 0x52 0x09 0 0 0 ∧ Only [.host, .out] u t) ∧
    (Asked u n.val 0x53 → winOk (leAt e 8 2) 512 4 = true → u.dev.state.served = true →
      Ends (exec (.safeLogRead dt n) s) fun t => Answered u t n.val 0x53 0 u.safe.logCount.toNat 0 0 ∧ Only [.host, .out] u t ∧
        ∀ i j, i < 16 → j < 32 → (t.slot n.val).map.byte (0x4000 + leAt e 8 2 + 32 * i + j) = byteAt (tabGet [] u.safe.log i) j) ∧
    (u.safe.lockEnd ≠ 0 → lockedOut u = false → slotsUp u = true →
      Ends (exec (.safeLockoutEnd dt) s) fun t => t.safe = { u.safe with lockEnd := 0 } ∧ t.nv.sysW.contains 0xF005 = true ∧
        Only [.safe, .nv] u t) ∧
    (lockedOut u = true → exec (.safeLockoutEnd dt) s = .next u)

/-- The service core's work on the parameter store: records, counters, recorder, scrub, warm save and copy. Where the spec leaves it open it follows the model's readings of log entries 59, 66, 98. -/
def Obligations.ServiceCoreWork : Prop :=
  ∀ (s : State) (dt : Nat) (w : UserW) (ws : List UserW) (k : Nat) (g : TagSt) (ks : List (Nat × TagSt)) (h : Word) (id : BitVec 16) (r : Rec) (rs : List Rec)
    (a : Nat) (y : Wait) (img : Bool),
    let u := elapse dt s
    let v := u.nv
    let c := tabGet ({} : Ctr) v.ctrs k
    let d := sysCommitData u id.toNat
    let on := u.dev.state ≠ .off ∧ u.dev.state ≠ .standby
    let at_ := a / 8 * 8
    let user := (at_ - 0x20000) / 128 % 1024
    let b := warmTarget u
    let lines := rangeLines ((retRanges u.cfg).map fun q => (q.1, (q.2 - q.1) / 64, activeHash u q.1))
    (on → v.sysW = [] → incReady u = false → v.userW = w :: ws → w.tag.ready = true →
      Ends (exec (.userRecordWrite dt) s) fun t => t.nv.userW = ws ∧ (∃ q, tabGet none t.nv.mirror w.rno = some (q, w.data)) ∧
        (userRec t w.rno).payload = some w.data ∧ (∀ j, j ≠ w.rno → userRec t j = userRec u j) ∧
        t.yl = { u.yl with ended := t.yl.ended } ∧ Only [.yl, .nv] u t) ∧
    (incReady u = true ∨ (∀ y ∈ v.userW, y.tag.ready = false) → exec (.userRecordWrite dt) s = .next u) ∧
    (incReady u = false → exec (.counterIncrement dt) s = .next u) ∧
    (on → v.sysW = [] → v.incW = (k, g) :: ks → g.ready = true → c.hiA = some h → c.tag = some h → h ≠ 0xFFFFFFFF ∨ c.cells ≠ BitVec.allOnes 256 →
      Ends (exec (.counterIncrement dt) s) fun t => t.nv.incW = ks ∧ (tabGet ({} : Ctr) t.nv.ctrs k).value = c.value + 1 ∧
        (∀ j, j ≠ k → tabGet ({} : Ctr) t.nv.ctrs j = tabGet {} v.ctrs j) ∧
        t.yl = { u.yl with ended := t.yl.ended } ∧ Only [.yl, .host, .nv, .out] u t) ∧
    (v.sysW ≠ [] → exec (.userRecordWrite dt) s = .next u ∧ exec (.counterIncrement dt) s = .next u) ∧
    (on → u.op % 60000000000 = 0 → v.minutes < u.op / 60000000000 →
      Ends (exec (.operatingMinute dt) s) fun t => t.nv = { v with minutes := u.op / 60000000000, incW := v.incW ++ [(0, .no)] } ∧ Only [.nv] u t) ∧
    (on → v.sysW.head? = some id → id.toNat ∈ sysIds → id ≠ 0xF003 → u.host.waits = [] →
      Ends (exec (.systemRecordWrite dt id) s) fun t => t.nv.sysW = v.sysW.filter (· != id) ∧ (sysRec t id.toNat).payload = some d ∧
        (∀ j, j ≠ id.toNat → sysRec t j = sysRec u j) ∧
        (id = 0xF002 → t.pkg.keys = keysOf d) ∧ (id = 0xF005 → t.safe = { safeOf u.safe d with fails := u.safe.fails }) ∧
        (id = 0xF006 → t.nv.clearMark = wordAt d 0 ∧ (v.overflow = 0 → t.nv.buf = v.buf.filter fun q => !seqNewer (wordAt d 0) q.seq)) ∧
        (id ≠ 0xF006 ∨ v.overflow = 0 → Only [.pkg, .safe, .nv] u t) ∧ Only [.pkg, .safe, .host, .nv, .out] u t) ∧
    (on → v.sysW.head? = some id → id.toNat ∈ sysIds → id ≠ 0xF003 → u.host.waits = [y] → y.for_ = .sysRecord id → y.live = true →
      (u.slot y.slot).cplFull = false → (u.slot y.slot).owed = [] →
      Ends (exec (.systemRecordWrite dt id) s) fun t => t.host.waits = [] ∧
        (t.slot y.slot).map.bytes (0x1800 + 16 * ((u.slot y.slot).cplTail % 32)) 16 = cplEntry y.cid 0 y.op.toNat y.val0.toNat 0 0 ∧
        (t.slot y.slot).pend.getLsbD 0 = true) ∧
    (v.sysW.head? ≠ some id → exec (.systemRecordWrite dt id) s = .next u) ∧
    (on → v.buf = r :: rs → v.overflow = 0 →
      Ends (exec (.recorderWrite dt) s) fun t => t.nv.buf = rs ∧ tabGet none t.nv.recs (recSlot r.seq) = some r ∧
        t.nv.newest = v.newest ∧ Only [.nv] u t) ∧
    (on → Ends (exec (.mergedRecordRewrite dt) s) fun t => t.nv = { v with dirty := v.dirty.drop 1, saving := none } ∧ Only [.nv] u t) ∧
    (on → a < 0x40000 →
      Ends (exec (.nvScrub dt [(a, false)]) s) fun t => t.nv.ceCount = satInc v.ceCount ∧ t.nv.user = v.user ∧ t.nv.sys = v.sys ∧
        Logs u t 0x0B01 [.b4 at_, .b4 (satInc v.ceCount).toNat] ∧ Only [.host, .nv, .out] u t) ∧
    (on → 0x20000 ≤ a → a < 0x40000 →
      Ends (exec (.nvScrub dt [(a, true)]) s) fun t => t.nv.ueCount = satInc v.ueCount ∧ Logs u t 0x0B02 [.b4 at_] ∧
        ((userRec t user).copy (decide (64 ≤ at_ % 128))).valid = false ∧
        ((userRec t user).copy (!decide (64 ≤ at_ % 128))) = (userRec u user).copy (!decide (64 ≤ at_ % 128)) ∧
        Only [.host, .nv, .out] u t) ∧
    (periodicDue u = true → freeTags u true = [] →
      Ends (exec (.periodicWarmSave dt) s) fun t => t.nv = { v with saveWait := some 4 } ∧
        t.yl = { u.yl with waitCount := satInc u.yl.waitCount } ∧ Only [.yl, .nv] u t) ∧
    (periodicDue u = true → freeTags u true ≠ [] →
      Ends (exec (.periodicWarmSave dt) s) fun t => (t.warm b).valid = true ∧ (t.warm b).seq = warmNextSeq u ∧ (t.warm b).reason = 4 ∧
        (t.warm b).tb = u.now ∧ (∀ j, j < lines.length → tabGet 0 (t.warm b).lines j = lineOf (canBytes u (lines.getD j 0) 64)) ∧
        t.warm (!b) = u.warm (!b) ∧ t.nv.copyDue = true ∧ t.nv.saveFrom = some u.now ∧ Only [.free, .yl, .nv] u t) ∧
    (periodicDue u = false → exec (.periodicWarmSave dt) s = .next u) ∧
    (on → v.copyDue = true → newestWarm u = some img →
      Ends (exec (.warmCopy dt) s) fun t => t.warm (!img) = u.warm img ∧ t.warm img = u.warm img ∧ t.nv.copyDue = false ∧ Only [.nv] u t)

/-- Loading, ACTIVATE, REVERT and the online exchange: PKG_OPEN to EXCHANGE_ABORT and EXCHANGE_EPOCH. Where the spec leaves it open it follows the model's readings of log entries 42, 43, 44, 81, 91, 93, 97. -/
def Obligations.PackageCommands : Prop :=
  ∀ (s : State) (dt : Nat) (n : SlotId) (l : Load) (p : Plan) (a st m : Nat),
    let u := elapse dt s
    let x := u.slot n.val
    let e := headEntry x
    let owner := x.role = .owner
    let may := owner ∧ inSrh u = true
    let b := !u.pkg.active
    let ans := fun (op st v2 : Nat) (t : State) => Answered u t n.val op st 0 0 v2
    let reply := fun t : State => Only [.host, .out] u t
    let len := leAt e 8 4
    let o := leAt e 8 4
    let n4 := leAt e 12 4
    let off := leAt e 16 2
    let loading := u.pkg.load = some l ∧ erasing u .load = false ∧ l.closing = none
    let usable := ∃ j, j < 40 ∧ (u.lane j).role ≠ .retired ∧ (u.lane j).test = none
    (Asked u n.val 0x40 → 0 < len → len % 4 = 0 → len ≤ slotSize → may → u.pkg.load = none → u.pkg.exch.run = none →
      u.pkg.exch.staged = none → x.long = none → (∀ y ∈ u.host.waits, y.for_ ≠ .sysRecord 0xF003) →
      Ends (exec (.pkgOpen dt n) s) fun t => Waiting u t n.val 0x40 .erase ∧ t.pkg.load = some { slotB := b, len := len } ∧ t.pkg.st b = 1 ∧
        t.pkg.st u.pkg.active = u.pkg.st u.pkg.active ∧ t.pkg.exch.plan = none ∧ t.safe.conf b = none ∧
        (sysRec t 0xF003).payload = some (pkgPayload t.pkg) ∧
        t.svc.erases = u.svc.erases ++ (slotBlocks b).map (fun j => (j, EraseUse.load)) ∧ Only [.host, .pkg, .safe, .nv, .svc, .wd, .out] u t) ∧
    (Asked u n.val 0x41 → 0 < n4 → n4 ≤ 16384 → n4 % 4 = 0 → winOk off n4 4 = true → may → loading → o + n4 ≤ l.len →
      Ends (exec (.pkgWrite dt n) s) fun t => ans 0x41 0 0 t ∧ Only [.free, .host, .svc, .out] u t ∧
        ∀ j, j < n4 → norByte u (slotBase l.slotB + o + j) = 0xFF →
          norByte t (slotBase l.slotB + o + j) = x.map.byte (0x4000 + off + j)) ∧
    (Asked u n.val 0x42 → may → loading → x.long = none → pkgCheck u l.slotB = 0 →
      Ends (exec (.pkgClose dt n) s) fun t => Waiting u t n.val 0x42 (.sysRecord 0xF003) ∧
        t.pkg.load = some { l with closing := some (pkgMark u l.slotB) } ∧ Only [.host, .pkg, .nv, .out] u t) ∧
    (Asked u n.val 0x42 → may → loading → x.long = none → pkgCheck u l.slotB = st → st ≠ 0 →
      Ends (exec (.pkgClose dt n) s) fun t => ans 0x42 st 0 t ∧ t.pkg = { u.pkg with load := none } ∧
        Logs u t 0x0905 [.b1 (b2n l.slotB), .b1 st] ∧ Only [.host, .pkg, .nv, .out] u t) ∧
    (Asked u n.val 0x43 → may → u.pkg.load = some l → u.host.waits = [] →
      Ends (exec (.pkgAbort dt n) s) fun t => ans 0x43 0 0 t ∧ t.pkg = { u.pkg with load := none } ∧ Only [.host, .pkg, .svc, .out] u t) ∧
    (∀ op c, (op, c) ∈ [(0x42, Instr.pkgClose dt n), (0x43, .pkgAbort dt n)] → Asked u n.val op → may → u.pkg.load = none →
      Ends (exec c s) fun t => ans op 0x0A 0 t ∧ reply t) ∧
    (∀ op want c, (op, want, c) ∈ [(0x44, 2, Instr.activate dt n), (0x45, 4, .revert dt n)] → Asked u n.val op → owner → u.moving = false →
      twdDue u = false → Calm u → u.dev.state = .stop → x.long = none →
      (u.pkg.st b = want → freeTags u true = [] → Ends (exec c s) fun t => t.slot n.val = { x with tagWait := true } ∧ Only [.host, .yl] u t) ∧
      (u.pkg.st b = want → usable → freeTags u true ≠ [] → Ends (exec c s) fun t => ans op 0 0 t ∧ Moved u t 0x0C .setup ∧ t.pkg.active = b ∧ t.pkg.st b = 3 ∧
        t.pkg.st u.pkg.active = (if u.pkg.st u.pkg.active = 3 then 4 else u.pkg.st u.pkg.active)) ∧
      (u.pkg.st b ≠ want → Ends (exec c s) fun t => ans op 0x0A 0 t ∧ reply t)) ∧
    (Asked u n.val 0x46 → owner → u.dev.state = .run → exchangeable u ((byteAt e 8).getLsbD 0) = true → stageSpare u = some m →
      u.pkg.exch.staged = none → u.pkg.exch.run = none → x.long = none →
      Ends (exec (.exchangePlan dt n) s) fun t => Waiting u t n.val 0x46 .plan ∧ t.pkg.exch.staged.isSome = true ∧ t.pkg.exch.stagedLane = m ∧
        t.pkg.exch.plan = none ∧ (t.lane m).role = .awake ∧ (t.inst 65).isSome = true ∧ t.can.mem = u.can.mem ∧ t.cfg = u.cfg) ∧
    (Asked u n.val 0x46 → owner → u.dev.state = .run → exchangeable u ((byteAt e 8).getLsbD 0) = false →
      Ends (exec (.exchangePlan dt n) s) fun t => ans 0x46 0x06 1 t ∧ reply t) ∧
    (Asked u n.val 0x47 → owner → u.dev.state = .run → u.pkg.exch.plan = some p → p.unconfirmed = false → p.id.toNat = leAt e 8 2 → p.pause = n4 →
      u.pkg.exch.run = none → x.long = none →
      Ends (exec (.exchange dt n) s) fun t => Waiting u t n.val 0x47 .exchange ∧ t.pkg = { u.pkg with exch := { u.pkg.exch with run := some (p, (u.now + 1999999) / 1000000 * 1000000), epochPassed := false, switchAt := none, longestHold := 0 } } ∧
        Only [.host, .pkg, .out] u t) ∧
    (Asked u n.val 0x47 → owner → u.dev.state = .run → (∀ q, u.pkg.exch.plan = some q → q.unconfirmed = true) →
      Ends (exec (.exchange dt n) s) fun t => ans 0x47 0x0A 0 t ∧ reply t) ∧
    (Asked u n.val 0x48 → owner → u.dev.state = .run → u.pkg.exch.run.isSome = true → u.pkg.exch.epochPassed = false → u.host.waits = [] →
      Ends (exec (.exchangeAbort dt n) s) fun t => ans 0x48 0 0 t ∧ t.pkg = { u.pkg with exch := { u.pkg.exch with run := none, plan := none } } ∧
        Logs u t 0x090B [.b1 1] ∧ Only [.host, .pkg, .nv, .out] u t) ∧
    (Asked u n.val 0x48 → owner → u.dev.state = .run → u.pkg.exch.run = none ∨ u.pkg.exch.epochPassed = true →
      Ends (exec (.exchangeAbort dt n) s) fun t => ans 0x48 0x02 0 t ∧ reply t) ∧
    (u.pkg.exch.run = some (p, a) → u.pkg.exch.epochPassed = false → a ≤ u.now → u.pkg.load = none →
      Ends (exec (.exchangeEpoch dt) s) fun t => t.pkg.active = b ∧ t.pkg.st b = 3 ∧ t.pkg.exch.plan = none ∧ t.dev = u.dev) ∧
    (u.pkg.exch.run = some (p, a) → u.now < a → exec (.exchangeEpoch dt) s = .next u)

/-- The handshake, firmware download and install, erases, and the refresh of the NOR die. Where the spec leaves it open it follows the model's readings of log entries 15, 69, 70, 71, 94. -/
def Obligations.FirmwareService : Prop :=
  ∀ (s : State) (dt : Nat) (n : SlotId) (blk bits b2 q b : Nat) (use : EraseUse) (r : HsReq) (y : Wait) (rest : List (Nat × EraseUse)),
    let u := elapse dt s
    let x := u.slot n.val
    let e := headEntry x
    let v := u.svc
    let w := u.wd
    let ans := fun (op st v0 v1 v2 : Nat) (t : State) => Answered u t n.val op st v0 v1 v2
    let reply := fun t : State => Only [.host, .out] u t
    let may := fwMay u n.val = true
    let len := leAt e 8 4
    let ldr := byteAt e 12 == 1
    let n4 := leAt e 12 4
    let off := leAt e 16 2
    let told := v.hsReqs.map fun y => if y.n = q then { y with answered := some true } else y
    let late := v.hsReqs.map fun y => if y.answered.isNone && decide (y.issued + 2000000 ≤ u.now) then { y with answered := some false } else y
    let inRow := fun (k : Nat) (ok : Bool) (l : List HsReq) => ∃ pre mid post, l = pre ++ mid ++ post ∧ mid.length = k ∧ ∀ y ∈ mid, y.answered = some ok
    let opened := v.cap.state = 1 ∧ erasing u .capture = false
    let served := u.dev.state.served = true
    (v.hsOn = true → served → u.now % 1000000 = 0 →
      Ends (exec (.handshakeRequest dt) s) fun t => t.svc = { v with hsNext := v.hsNext + 1, hsReqs := hsKeep (v.hsReqs ++ [{ n := v.hsNext, issued := u.now }]) } ∧ Only [.svc] u t) ∧
    (r ∈ v.hsReqs → r.n = q → r.answered = none → u.now ≤ r.issued + 2000000 → v.install = none →
      Ends (exec (.handshakeAnswer dt q) s) fun t => Only [.svc] u t ∧
        (v.answering = true ∨ ¬ inRow 3 true told → t.svc = { v with hsReqs := told }) ∧
        (v.answering = false → inRow 3 true told → t.svc = { v with answering := true, hsReqs := t.svc.hsReqs })) ∧
    (r ∈ v.hsReqs → r.n = q → r.answered = none → u.now ≤ r.issued + 2000000 → v.install = some (false, b) → erasing u .firmware = false →
      u.dev.state ≠ .recovery → b + v.cap.pause * 1000000 ≤ u.op →
      Ends (exec (.handshakeAnswer dt q) s) fun t => t.svc.install = none ∧ t.svc.issue = v.cap.issue ∧ t.svc.build = v.cap.build ∧
        t.host.paused = false) ∧
    ((∀ y ∈ v.hsReqs, y.n = q → y.answered = none → y.issued + 2000000 < u.now) → exec (.handshakeAnswer dt q) s = .next u) ∧
    (served → v.answering = false ∨ ¬ inRow 10 false late →
      Ends (exec (.handshakeTimeout dt) s) fun t => t.svc = { v with hsReqs := late } ∧ Only [.svc] u t) ∧
    (u.dev.state = .run → v.answering = true → inRow 10 false late → twdDue u = false → Calm u →
      Ends (exec (.handshakeTimeout dt) s) fun t => Moved u t 0x17 .clearing ∧ t.svc.answering = false ∧ t.svc.losses = satInc v.losses ∧
        t.dev.fault = u.dev.fault ||| 0x40) ∧
    (Asked u n.val 0x60 →
      Ends (exec (.fwInfo dt n) s) fun t => ans 0x60 0 (roReg u 0x0D00).toNat (fwStat u).toNat v.refresh.due.toNat t ∧ reply t) ∧
    (Asked u n.val 0x61 → (byteAt e 12).toNat ≤ 1 → 0 < len → len % 4 = 0 → len ≤ (imageRegion ldr).2 → may → v.install = none →
      erasing u .capture = false →
      Ends (exec (.fwOpen dt n) s) fun t => Waiting u t n.val 0x61 .erase ∧ t.svc.cap = { state := 1, loader := ldr, len := len } ∧
        t.svc.erases = v.erases ++ capBlocks.map (fun j => (j, EraseUse.capture)) ∧ Only [.host, .svc, .wd, .out] u t) ∧
    (Asked u n.val 0x62 → 0 < n4 → n4 ≤ 16384 → n4 % 4 = 0 → winOk off n4 4 = true → may → opened → len + n4 ≤ v.cap.len →
      Ends (exec (.fwWrite dt n) s) fun t => ans 0x62 0 0 0 0 t ∧ t.svc.cap = v.cap ∧ Only [.free, .host, .svc, .out] u t ∧
        ∀ j, j < n4 → norByte u (capBase + len + j) = 0xFF → norByte t (capBase + len + j) = x.map.byte (0x4000 + off + j)) ∧
    (Asked u n.val 0x63 → may → opened → imageFails u capBase v.cap.loader = 0 →
      Ends (exec (.fwClose dt n) s) fun t => ans 0x63 0 (installPause v.cap.loader (capLength u)) 0 0 t ∧ t.svc.cap.state = 2 ∧
        t.svc.cap.pause = installPause v.cap.loader (capLength u) ∧ t.svc.cap.loader = v.cap.loader ∧
        Logs u t 0x0D04 [.b1 (b2n v.cap.loader), .b1 (norByte u (capBase + 4)).toNat, .b4 (imageField u capBase 12 4),
          .b4 (installPause v.cap.loader (capLength u))] ∧ Only [.host, .nv, .svc, .out] u t) ∧
    (Asked u n.val 0x63 → may → opened → imageFails u capBase v.cap.loader ≠ 0 →
      (let st := if imageForm u capBase v.cap.loader then 0x08 else 0x07
       Ends (exec (.fwClose dt n) s) fun t => ans 0x63 st 0 0 0 t ∧ t.svc.cap = {} ∧ Logs u t 0x0D05 [.b1 st] ∧
        Only [.host, .nv, .svc, .out] u t)) ∧
    (Asked u n.val 0x64 → may → v.cap.state = 1 → u.host.waits = [] →
      Ends (exec (.fwAbort dt n) s) fun t => ans 0x64 0 0 0 0 t ∧ t.svc.cap = {} ∧ Only [.host, .svc, .out] u t) ∧
    (Asked u n.val 0x64 → may → v.cap.state ≠ 1 → v.install = none → Ends (exec (.fwAbort dt n) s) fun t => ans 0x64 0x0A 0 0 0 t ∧ reply t) ∧
    (Asked u n.val 0x64 → may → v.cap.state ≠ 1 → v.installBegun = true →
      Ends (exec (.fwAbort dt n) s) fun t => ans 0x64 0x02 0 0 0 t ∧ reply t) ∧
    (Asked u n.val 0x64 → may → v.cap.state ≠ 1 → v.install.isSome = true → v.installBegun = false → u.host.waits = [] →
      Ends (exec (.fwAbort dt n) s) fun t => ans 0x64 0 0 0 0 t ∧ t.svc.install = none ∧ t.svc.nor = v.nor ∧ t.host.paused = false ∧
        (∀ y ∈ t.svc.erases, y ∈ v.erases) ∧ Only [.host, .svc, .out] u t) ∧
    (Asked u n.val 0x64 → may → v.cap.state ≠ 1 → v.install.isSome = true → v.installBegun = false → u.host.waits = [y] → y.for_ = .install →
      y.live = true → y.slot ≠ n.val → (u.slot y.slot).cplFull = false → (u.slot y.slot).owed = [] →
      Ends (exec (.fwAbort dt n) s) fun t => ans 0x64 0 0 0 0 t ∧ t.svc.install = none ∧ t.host.waits = [] ∧
        (t.slot y.slot).map.bytes (0x1800 + 16 * ((u.slot y.slot).cplTail % 32)) 16 = cplEntry y.cid 0x01 y.op.toNat y.val0.toNat 0 0) ∧
    (Asked u n.val 0x65 → may → v.cap.state = 2 → u.pkg.load = none → v.install = none → n4 = v.cap.pause →
      v.cap.loader = true ∨ u.dev.state = .recovery ∨ regionFails u true = 0 →
      Ends (exec (.fwInstall dt n) s) fun t => Waiting u t n.val 0x65 .install ∧ t.svc.install = some (v.cap.loader, u.op) ∧
        t.host.paused = (!v.cap.loader && u.dev.state != .recovery) ∧
        t.svc.erases = v.erases ++ (imageBlocks v.cap.loader (capLength u)).map (fun j => (j, installUse v.cap.loader)) ∧
        Only [.host, .svc, .wd, .out] u t) ∧
    (Asked u n.val 0x65 → may → v.cap.state = 2 → u.pkg.load = none → v.install = none → n4 ≠ v.cap.pause →
      Ends (exec (.fwInstall dt n) s) fun t => ans 0x65 0x08 0 0 0 t ∧ reply t) ∧
    (Asked u n.val 0x66 → x.role = .owner → inSrh u = true → v.refresh.running = false →
      Ends (exec (.fwRefresh dt n) s) fun t => ans 0x66 0 0 0 0 t ∧
        t.svc = { v with refresh := { v.refresh with running := true, next := 0, startS := u.opSec, blockS := none } } ∧
        Only [.host, .svc, .out] u t) ∧
    (slotsUp u = true → v.erases = (blk, use) :: (b2, use) :: rest → use ≠ .refresh → u.op - v.eraseAt ≤ 600000000 →
      Ends (exec (.norEraseEnd dt) s) fun t => t.svc.erases = (b2, use) :: rest ∧ t.svc.eraseAt = u.op ∧ t.wd.suspended = true ∧ t.wd.count = 0 ∧
        (∀ a, norByte t a = if a / 0x40000 = blk then 0xFF else norByte u a) ∧ Only [.svc, .wd] u t) ∧
    (slotsUp u = true → v.erases = (blk, use) :: rest → v.eraseAt + 600000000 ≤ u.op →
      Ends (exec (.supwdLongErase dt blk) s) fun t => t.wd = { w with suspended := false } ∧ Only [.wd] u t) ∧
    (served → u.clk.fwRuns = true → v.refresh.due.toNat ≤ u.opSec → v.refresh.running = false →
      Ends (exec (.norRefreshDue dt) s) fun t =>
        t.svc = { v with refresh := { v.refresh with running := true, next := 0, startS := u.opSec, blockS := none } } ∧ Only [.svc] u t) ∧
    (refreshMay u = true → refreshNext u = some blk →
      Ends (exec (.norRefreshBlock dt) s) fun t => t.svc.refresh.pending = some blk ∧ t.svc.erases = [(blk, EraseUse.refresh)] ∧
        t.svc.nor = v.nor ∧ t.wd.suspended = true ∧ Only [.svc, .wd] u t) ∧
    (served → u.clk.fwRuns = true → blk < 226 → bits < 2 → exec (.norPageCheck dt blk bits false) s = .next u) ∧
    (served → u.clk.fwRuns = true → blk < 226 → 2 ≤ bits →
      Ends (exec (.norPageCheck dt blk bits false) s) fun t => (∃ y ∈ t.svc.refresh.extra, y.1 = blk) ∧ t.svc.nor = v.nor ∧ Only [.svc] u t) ∧
    (served → u.clk.fwRuns = true → blk < 226 →
      Ends (exec (.norPageCheck dt blk bits true) s) fun t => blk ∈ t.svc.bad ∧ (∀ y ∈ v.bad, y ∈ t.svc.bad) ∧ (blk < 16 → regionFails t false ≠ 0) ∧
        Logs u t 0x0D09 [.b4 blk, .b1 (Config.regionCode (regionOf blk)).toNat] ∧ Only [.host, .nv, .svc, .out] u t)

/-- Power-on, loss of power, wakes, power warnings, nRESET, clocks and the supervisory watchdog. Where the spec leaves it open it follows the model's readings of log entries 21, 72, 73, 98. -/
def Obligations.PowerClocksAndWatchdog : Prop :=
  ∀ (s : State) (dt src : Nat) (high xfo : Bool) (v : Word) (cfg : BitVec 3) (a : Nat),
    let u := elapse dt s
    let c := u.clk
    let w := u.wd
    let on := u.dev.state ≠ .off ∧ u.dev.state ≠ .standby
    let low := fld v 0 16
    let lost := fun t : State => t.cfg = [] ∧ t.can = {} ∧ t.seq = {} ∧ t.ps = {} ∧ t.yl = {} ∧ t.lp = {} ∧ t.cb = {} ∧ t.host.waits = [] ∧
      t.nv.sysW = [] ∧ t.nv.incW = [] ∧ t.nv.userW = []
    let kept := fun t : State => t.nv.sys = u.nv.sys ∧ (∀ j, (∀ y ∈ u.nv.userW, y.rno ≠ j) → userRec t j = userRec u j) ∧
      (∀ j, (∀ y ∈ u.nv.incW, y.1 ≠ j) → tabGet ({} : Ctr) t.nv.ctrs j = tabGet {} u.nv.ctrs j) ∧
      (savingNow u = none → ∀ b, u.nv.copyDue = false ∨ newestWarm u = some b → t.warm b = u.warm b) ∧
      (u.svc.install = none → t.svc.nor = u.svc.nor) ∧ t.safe.password = u.safe.password ∧ t.pkg.active = u.pkg.active ∧
      t.clk.opNs = c.opNs
    let resets := fun (code : BitVec 3) (t : State) => Moved u t 0x04 .boot ∧ t.clk.rstSrc = code ∧ t.clk.rstFrom = u.dev.state ∧
      t.clk.lock = false ∧ t.clk.awaitLock = true ∧ t.clk.fwRuns = false ∧ t.dev.fault = 0 ∧ t.fld.chans = u.fld.chans ∧ lost t ∧ kept t
    (u.dev.state = .off →
      Ends (exec (.powerOnResetRelease dt high) s) fun t => Moved u t 0x01 .boot ∧ t.dev.trans = 0 ∧ t.tap = { testEn := high } ∧
        t.wd = {} ∧ t.clk = { opNs := c.opNs, relAt := c.opNs, cycleDue := some t.dev.last } ∧ Only [.dev, .clk, .seq, .host, .nv, .wd, .tap, .out] u t) ∧
    (u.dev.state ≠ .off → exec (.powerOnResetRelease dt high) s = .next u) ∧
    (u.dev.state ≠ .off →
      Ends (exec (.vlogBelowPrst dt) s) fun t => Moved u t 0x03 .off ∧ lost t ∧ kept t ∧ t.fld = { vfLost := u.fld.vfLost } ∧ t.fret = {} ∧ t.clk.vlog = false ∧
        t.clk.loadOn = false ∧ t.clk.wakeArmed = none ∧ t.tap = { testEn := u.tap.testEn }) ∧
    (u.dev.state = .off → exec (.vlogBelowPrst dt) s = .next u) ∧
    (u.dev.state = .standby → c.loadOn = true → u.dev.lastMove.getD 0 + 1000000 ≤ u.now → c.wakeHeld = none →
      Ends (exec (.loadSwitchOpen dt) s) fun t => t.dev.state = .standby ∧ t.clk.loadOn = false ∧ t.clk.lfo = false ∧
        t.clk.wakeArmed = c.wakeArmed ∧ lost t ∧ kept t ∧ t.fld = { vfLost := u.fld.vfLost } ∧ t.fret = {}) ∧
    (∀ i, (src, i) ∈ [(1, Instr.wakeEdge dt), (2, .qspiCsWake dt), (3, .can0Wake dt)] → u.dev.state = .standby →
      (c.wakeArmed = some cfg → cfg.getLsbD (src - 1) = false → c.loadOn = false → c.warn = false →
        Ends (exec i s) fun t => Moved u t 0x02 .boot ∧ t.clk.wakeStat = BitVec.ofNat 2 src ∧ t.clk.rstSrc = 1 ∧ t.clk.loadOn = true ∧
          t.clk.awaitLock = true ∧ t.clk.wakeArmed = none) ∧
      (c.wakeArmed = some cfg → cfg.getLsbD (src - 1) = false → c.loadOn = true ∨ c.warn = true → c.wakeHeld = none →
        Ends (exec i s) fun t => t.clk = { c with wakeHeld := some (BitVec.ofNat 2 src) } ∧ Only [.clk] u t) ∧
      (c.wakeArmed = some cfg → cfg.getLsbD (src - 1) = true → exec i s = .next u)) ∧
    (u.dev.state = .stop ∨ isRunning u = true → c.warn = false → freeTags u true ≠ [] →
      Ends (exec (.powerWarning dt) s) fun t => t.clk = { c with warn := true, warnAt := u.op, warnSaved := true } ∧
        ((∀ y, savingNow u = some y → y.slot = none) →
          (t.warm (warmTarget u)).valid = true ∧ (t.warm (warmTarget u)).reason = 1 ∧ (t.warm (warmTarget u)).seq = warmNextSeq u ∧
          t.warm (!warmTarget u) = u.warm (!warmTarget u)) ∧ t.seq.trigs = u.seq.trigs ++ raised u 0x5 (fun _ => true) ∧
        t.nv.dirty = [] ∧ Only [.free, .clk, .seq, .yl, .host, .nv, .out] u t) ∧
    (u.dev.state = .stop ∨ isRunning u = true → c.warn = false → freeTags u true = [] → (∀ y, savingNow u = some y → y.slot = none) →
      Ends (exec (.powerWarning dt) s) fun t => t.clk = { c with warn := true, warnAt := u.op, warnSaved := false } ∧ t.nv.saveWait = some 1 ∧
        t.nv.warmA = u.nv.warmA ∧ t.nv.warmB = u.nv.warmB ∧ t.yl = { u.yl with waitCount := satInc u.yl.waitCount } ∧
        t.seq.trigs = u.seq.trigs ++ raised u 0x5 (fun _ => true) ∧ Only [.free, .clk, .seq, .yl, .host, .nv, .out] u t) ∧
    (on → c.warn = true →
      Ends (exec (.powerRideThrough dt) s) fun t => t.clk = { c with warn := false, rides := satInc c.rides } ∧
        Logs u t 0x0C07 [.b4 ((u.op - c.warnAt) / 1000), .b1 (b2n c.warnSaved)] ∧ Only [.clk, .host, .nv, .out] u t) ∧
    (on → Ends (exec (.nreset dt) s) fun t => resets 2 t ∧ t.clk.nresetLow = true) ∧
    (Ends (exec (.nresetRelease dt) s) fun t => t.clk = { c with nresetLow := false, relAt := if c.nresetLow then c.opNs else c.relAt } ∧ Only [.clk] u t) ∧
    (on → c.lock = true →
      Ends (exec (.pllLossOfLock dt) s) fun t => t.clk = { c with lock := false, xfo := false } ∧ Only [.clk] u t) ∧
    (wdCounts u = true → wdLimit u ≤ w.count →
      Ends (exec (.supwdExpired dt) s) fun t => resets 3 t ∧ t.wd.expTimeout = w.timeout ∧ t.wd.expXfo = w.clkXfo ∧ t.wd.lock = w.lock) ∧
    (wdCounts u = false ∨ w.count < wdLimit u → exec (.supwdExpired dt) s = .next u) ∧
    (on → w.clkXfo = xfo → Ends (exec (.clockStopped dt xfo) s) fun t => resets 4 t ∧ t.clk.rstClock = if xfo then 2 else 1) ∧
    (on → w.clkXfo ≠ xfo → w.monOk = true →
      Ends (exec (.supwdMonLost dt xfo) s) fun t => t.wd = { w with monOk := false } ∧
        t.clk = (if xfo then { c with xfo := false, lock := false } else { c with lfo := false }) ∧
        Logs u t 0x0C03 [.b1 (if xfo then 2 else 1)] ∧ Only [.clk, .host, .nv, .wd, .out] u t) ∧
    (on → low = 0x5EED →
      Ends (exec (.supwdKick dt v) s) fun t => t.wd.count = 0 ∧ t.wd.enabled = true ∧ t.wd.next = none ∧
        t.wd.timeout = (match w.next with | some y => BitVec.ofNat 13 (fld y 0 13) | none => w.timeout) ∧ Only [.wd] u t) ∧
    (low ≠ 0x5EED → exec (.supwdKick dt v) s = .next u) ∧
    (on → w.lock = false → low = 0xA5C3 → Ends (exec (.supwdDis dt v) s) fun t => t.wd = { w with disAt := some u.op } ∧ Only [.wd] u t) ∧
    (on → w.lock = false → low = 0x3C5A → w.disAt = some a → u.op ≤ a + 100000 →
      Ends (exec (.supwdDis dt v) s) fun t => t.wd = { w with disAt := none, enabled := false } ∧ Logs u t 0x0C04 [] ∧
        Only [.host, .nv, .wd, .out] u t) ∧
    (w.lock = true → exec (.supwdDis dt v) s = .next u) ∧
    (on → low = 0x4C4B → Ends (exec (.supwdLock dt v) s) fun t => t.wd = { w with lock := true } ∧ Only [.wd] u t) ∧
    (low ≠ 0x4C4B → exec (.supwdLock dt v) s = .next u) ∧
    (on → Ends (exec (.supwdCfg dt v) s) fun t => t.wd = { w with next := some (if clockPresent u (wbit v 31) then v &&& 0x80001FFF else put (b2n (wbit (wdCfg u) 31)) 31 1 ||| v &&& 0x1FFF) } ∧ Only [.wd] u t)

/-- PLL_LOCK, PLL_LOCK_RETRY, BOOT_COMPLETE and SETUP_LIMIT: the boot ROM, the firmware, the package that runs, the limit of SETUP. Where the spec leaves it open it follows the model's readings of log entries 45, 72, 86, 94, 95. -/
def Obligations.BootAndSetupLimit : Prop :=
  ∀ (s : State) (dt : Nat) (high : Bool) (failed : List (LaneId × TestPart)) (k : LaneId) (i : Inst),
    let u := elapse dt s
    let waits := awaitsLock u = true
    let a := u.pkg.active
    let ready := u.dev.state = .boot ∧ u.clk.fwRuns = true ∧ u.clk.lock = true
    let usable := ∃ j : LaneId, (∀ y ∈ failed, y.1 ≠ j) ∧ (u.lane j.val).role ≠ .retired ∧ (u.lane j.val).test = none
    let tested := fun t : State => (∃ y ∈ failed, y.1 = k) → (t.lane k.val).role = .retired
    let locked := fun t : State => t.clk.lock = true ∧ t.clk.xfo = true ∧ t.clk.tb = 0 ∧ t.clk.noLock = false ∧ t.clk.awaitLock = false
    (waits → u.tap.testEn = false → u.clk.recoveryReq = false → high = false → regionFails u false = 0 →
      Ends (exec (.pllLock dt high) s) fun t => locked t ∧ t.dev = u.dev ∧ t.clk.fwRuns = true ∧ t.wd.timeout = 250 ∧ t.wd.clkXfo = true ∧
        t.wd.enabled = true ∧ t.wd.count = 0 ∧ t.svc.refresh.pending = none) ∧
    (waits → u.tap.testEn = false → u.clk.recoveryReq = true ∨ high = true ∨ regionFails u false ≠ 0 →
      Ends (exec (.pllLock dt high) s) fun t => locked t ∧ Moved u t 0x05 .recovery ∧ t.clk.recoveryReq = false ∧
        t.clk.fwRuns = u.clk.fwRuns) ∧
    (waits → u.tap.testEn = true →
      Ends (exec (.pllLock dt high) s) fun t => locked t ∧ t.dev = u.dev ∧ t.clk.fwRuns = u.clk.fwRuns ∧ t.tap = u.tap) ∧
    (waits → Ends (exec (.pllLockRetry dt false) s) fun t => t.clk = { u.clk with noLock := true } ∧ Only [.clk] u t) ∧
    (waits → Ends (exec (.pllLockRetry dt true) s) fun t => locked t ∧ (t.dev.state = .boot ∨ t.dev.state = .recovery)) ∧
    (awaitsLock u = false → exec (.pllLock dt high) s = .next u ∧ exec (.pllLockRetry dt high) s = .next u) ∧
    (ready → u.pkg.st a = 3 → pkgCheck u a = 0 → usable →
      Ends (exec (.bootComplete dt failed) s) fun t => Moved u t 0x06 .setup ∧ t.pkg.active = a ∧ (t.inst 64).isSome = true ∧
        t.seq.setupAt = u.now ∧ tested t) ∧
    (ready → (u.pkg.st a ≠ 3 ∨ pkgCheck u a ≠ 0) → u.pkg.st (!a) = 2 ∨ u.pkg.st (!a) = 4 → pkgCheck u (!a) = 0 → usable →
      Ends (exec (.bootComplete dt failed) s) fun t => Moved u t 0x06 .setup ∧ t.pkg.active = (!a) ∧ t.pkg.st (!a) = 3 ∧ t.pkg.st a = 1 ∧
        tested t) ∧
    (ready → (u.pkg.st a ≠ 3 ∨ pkgCheck u a ≠ 0) → ((u.pkg.st (!a) ≠ 2 ∧ u.pkg.st (!a) ≠ 4) ∨ pkgCheck u (!a) ≠ 0) →
      Ends (exec (.bootComplete dt failed) s) fun t => Moved u t 0x07 .stop ∧ t.dev.pkgOk = false ∧ t.pkg = u.pkg ∧ tested t) ∧
    (¬ ready → exec (.bootComplete dt failed) s = .next u) ∧
    (u.dev.state = .setup → u.seq.setupAt + 5000000000 ≤ u.now →
      Ends (exec (.setupLimit dt) s) fun t => Moved u t 0x0B .stop ∧ t.dev.pkgOk = false ∧ t.inst 64 = none) ∧
    (u.dev.state ≠ .setup → u.inst 65 = some i → i.rel + 5000000000 ≤ u.now → u.pkg.exch.staged.isSome = true →
      Ends (exec (.setupLimit dt) s) fun t => t.inst 65 = none ∧ t.pkg.exch.staged = none ∧ t.dev = u.dev) ∧
    (u.dev.state ≠ .setup → u.inst 65 = none → exec (.setupLimit dt) s = .next u)

/-- The instructions of the test access port, and what EXTEST, CLAMP and HIGHZ do without board test -/
def Obligations.TapInstructions : Prop :=
  ∀ (s : State) (dt : Nat),
    let u := elapse dt s
    let p := u.tap
    let on := u.dev.state ≠ .off ∧ u.dev.state ≠ .standby
    let plain := { p with padsFromCells := false, padsHighZ := false }
    let sets := fun (i : Instr) (q : Tap) => Ends (exec i s) fun t => t.tap = q ∧ Only [.tap] u t
    (on → sets (.testLogicReset dt) { plain with ir := .idcode } ∧ sets (.idcode dt) { plain with ir := .idcode } ∧
      sets (.bypass dt) { plain with ir := .bypass }) ∧
    (on → p.testEn = true → sets (.extest dt) { plain with ir := .extest, padsFromCells := true } ∧
      sets (.clamp dt) { plain with ir := .clamp, padsFromCells := true } ∧ sets (.highz dt) { plain with ir := .highz, padsHighZ := true }) ∧
    (on → p.testEn = false → sets (.extest dt) { plain with ir := .bypass } ∧ sets (.clamp dt) { plain with ir := .bypass } ∧
      sets (.highz dt) { plain with ir := .bypass }) ∧
    (on → Ends (exec (.samplePreload dt) s) fun t => (∃ c, t.tap = { plain with ir := .sample, cells := c }) ∧ Only [.free, .tap] u t) ∧
    (¬ on → ∀ i ∈ [Instr.testLogicReset dt, .idcode dt, .bypass dt, .extest dt, .clamp dt, .highz dt, .samplePreload dt],
      exec i s = .next u)

/-- The states of a Yelx port, the admission pass, the start of a link cycle and its input read point. Where the spec leaves it open it follows the model's readings of log entries 18, 26, 59, 91, 96. -/
def Obligations.YelxLinkAndCycle : Prop :=
  ∀ (s : State) (dt : Nat) (pt : PortId) (k : Nat) (b : List Byte) (e : Nat) (fd : Bool) (rf : BitVec 2),
    let v := departAll (elapse dt s)
    let q := settled v
    let p := pt.val
    let x := v.port p
    let h := homePort v.cfg p
    let idle : Host.Outcome State Fault Refusal := .next (seeS v)
    let only := fun (ps : List Part) (t : State) => Only (.seq :: ps) v t ∧ Seen v t
    let single := pClosed v.cfg p = false
    let bare := v.yl.trans = [] ∧ v.yl.waits = []
    let others := fun t : State => ∀ q, q ≠ p → t.port q = v.port q
    let asked := fun t : State => (∃ w ∈ t.yl.waits, w.frame.key = k ∧ w.for_ = .discover) ∨
      (∃ y ∈ t.yl.trans, y.frame.key = k ∧ y.for_ = .discover)
    let said := fun t : State => t.seq.trigs = v.seq.trigs ++ raised v 0x7 (fun a => a.testBit p)
    let counted := fun (w t : State) (c : Nat) => tabGet 0 t.yl.counts (16 * p + c) = satInc (tabGet 0 w.yl.counts (16 * p + c))
    let absent := fun j : Nat => (v.sta j).admitted = false ∧ (v.sta j).discoverAt + 100000000 ≤ v.now
    let starts := pOn v.cfg p = true ∧ x.state ≠ 0 ∧ v.now % pCycle v.cfg p = 0 ∧ x.t0 ≠ some v.now
    let linked := fun t : State => (t.port p).state = 3 ∧ (t.port p).admitAt = v.now ∧ only [.free, .yl, .out] t ∧
      (single → k ∈ pStas v.cfg p → (v.sta k).admitted = false → (∀ j ∈ pStas v.cfg p, j < k → (v.sta j).admitted = true) → asked t)
    (x.state = 1 →
      Ends (exec (.portSignalDetect dt pt) s) fun t => t.port p = { x with state := 2, syncingAt := v.now } ∧ others t ∧ only [.yl] t) ∧
    (x.state ≠ 1 → exec (.portSignalDetect dt pt) s = idle) ∧
    (x.state = 2 → fd = true → rf = 0 → Ends (exec (.portLink dt ⟨pt, fd, rf⟩) s) linked) ∧
    (x.state ≠ 2 ∨ fd = false ∨ rf ≠ 0 → exec (.portLink dt ⟨pt, fd, rf⟩) s = idle) ∧
    (x.state = 2 → x.syncingAt + 10000000 ≤ v.now → Ends (exec (.partnerIdleTimeout dt pt) s) linked) ∧
    (x.state ≠ 2 ∨ v.now < x.syncingAt + 10000000 → exec (.partnerIdleTimeout dt pt) s = idle) ∧
    (x.state = 2 ∨ x.state = 3 ∨ x.state = 4 →
      Ends (exec (.portLinkLoss dt pt) s) fun t => (t.port p).state = 1 ∧
        (single → bare → Logs v t 0x0502 [.b1 p, .b1 x.state.toNat] ∧ said t ∧
          (x.link = true → counted v t 9 ∧ (t.port p).noLinkAt = v.now) ∧ others t ∧ Only [.seq, .yl, .host, .nv, .out] v t)) ∧
    (pClosed v.cfg p = true → x.link = true → (v.port (pairPort p)).link = false → bare → (v.port (p / 2 * 2)).lossSaid = false →
      lineBasic v.cfg (p / 2 * 2) = true → v.dev.state = .run ∨ (v.dev.state = .hold ∧ v.dev.holdLeft ≠ 0) → twdDue v = false → Calm v →
      Ends (exec (.portLinkLoss dt pt) s) fun t => Moved v t 0x17 .clearing ∧ t.dev.fault.getLsbD 7 = true ∧ (t.port p).state = 1 ∧
        (t.port (p / 2 * 2)).lossSaid = true) ∧
    (x.state = 0 ∨ x.state = 1 ∨ x.state = 5 → exec (.portLinkLoss dt pt) s = idle) ∧
    (x.state = 1 ∨ x.state = 2 → x.noLinkAt + yPortLoss v.cfg ≤ v.now →
      Ends (exec (.ylPortRetired dt pt) s) fun t => (t.port p).state = 5 ∧
        (single → t.port p = { x with state := 5 } ∧ Logs v t 0x0503 [.b1 p] ∧ said t ∧ others t ∧ Only [.seq, .yl, .host, .nv, .out] v t)) ∧
    ((x.state ≠ 1 ∧ x.state ≠ 2) ∨ v.now < x.noLinkAt + yPortLoss v.cfg → exec (.ylPortRetired dt pt) s = idle) ∧
    (x.state = 3 → 32 ≤ x.passSta → x.admitAt + 10000000 ≤ v.now →
      Ends (exec (.admissionPassEnd dt pt) s) fun t => t.port p = { x with state := 4 } ∧
        Logs v t 0x0501 [.b1 p, .b4 ((pStas v.cfg h).filter fun j => (v.sta j).admitted).length] ∧ said t ∧ others t ∧
        Only [.seq, .yl, .host, .nv, .out] v t) ∧
    (x.state ≠ 3 ∨ x.passSta < 32 ∨ v.now < x.admitAt + 10000000 → exec (.admissionPassEnd dt pt) s = idle) ∧
    (h = p → x.state = 4 → bare → x.discovers < 4 → k ∈ pStas v.cfg p → absent k → (∀ j ∈ pStas v.cfg p, j < k → ¬ absent j) →
      Ends (exec (.rediscovery dt pt) s) fun t => asked t ∧ x.discovers < (t.port p).discovers ∧ (t.port p).discovers ≤ 4 ∧
        only [.free, .yl, .out] t) ∧
    (x.state ≠ 4 ∧ (v.port (pairPort p)).state ≠ 4 ∨ 4 ≤ x.discovers →
      Ends (exec (.rediscovery dt pt) s) fun t => t.yl = { v.yl with ports := t.yl.ports } ∧ (∀ j, t.port j = v.port j) ∧ only [.yl] t) ∧
    (starts →
      Ends (exec (.linkCycleStart dt pt) s) fun t => (t.port p).t0 = some v.now ∧
        (t.port p).cycle = (if (q.port p).t0.isSome = true then (q.port p).cycle + 1 else (q.port p).cycle) ∧ counted q t 11 ∧
        t.seq.readAt = some v.now ∧ 
        (t.port p).discovers = (q.yl.waits.filter fun w => w.port == p && w.for_ == .discover).length ∧ t.can.mem = q.can.mem ∧
        Only [.free, .seq, .fret, .yl, .host, .nv, .out] q t ∧
        (single → (q.port p).link = true → (∀ y, activeHdr q = some y → y.testPermit = false) →
          ∃ f r, t.out = q.out ++ .yelx p f :: r ∧ byteAt f 14 = 0x11)) ∧
    (¬ starts → exec (.linkCycleStart dt pt) s = idle) ∧
    (x.t0 = some e → e + pCycle v.cfg p ≤ v.now →
      Ends (exec (.inputReadPoint dt pt) s) fun t => (t.port p).t0 = none ∧
        (single → bare →
          (t.port p).cycle = x.cycle + 1 ∧
          (∀ j ∈ pStas v.cfg p, (t.sta j).valid = (v.sta j).arrived.isSome ∧ (t.sta j).arrived = none) ∧
          (∀ j ∈ pStas v.cfg p, (v.sta j).arrived = some b →
            (∀ i ∈ pStas v.cfg p, i ≠ j → ∀ c, (v.sta i).arrived = some c →
              sI v.cfg i + c.length ≤ sI v.cfg j ∨ sI v.cfg j + b.length ≤ sI v.cfg i) →
            ∀ m, m < b.length → t.can.mem.byte (sI v.cfg j + m) = byteAt b m) ∧
          (∀ a, (∀ j ∈ pStas v.cfg p, ∀ c, (v.sta j).arrived = some c → ¬ (sI v.cfg j ≤ a ∧ a < sI v.cfg j + c.length)) →
            t.can.mem.byte a = v.can.mem.byte a))) ∧
    (x.t0 = none ∨ (x.t0 = some e ∧ v.now < e + pCycle v.cfg p) → exec (.inputReadPoint dt pt) s = idle)

/-- What a received Yelx frame does, by its type and its transaction, and what the timers of the ports do. Where the spec leaves it open it follows the model's readings of log entries 26, 59, 60, 89, 91. -/
def Obligations.YelxFramesAndTimers : Prop :=
  ∀ (s : State) (dt : Nat) (pt : PortId) (b : List Byte) (n : Nat) (i : Instr) (f : YFrame) (y : Trans) (tag : Fin 512) (w : YWait)
    (m : Nat × List Byte × Bool) (c : Change)
    (lane : Nat) (cp : Copy),
    let v := departAll (elapse dt s)
    let p := pt.val
    let x := v.port p
    let k := f.key
    let z := v.sta k
    let idle : Host.Outcome State Fault Refusal := .next (seeS v)
    let only := fun (ps : List Part) (t : State) => Only (.seq :: ps) v t ∧ Seen v t
    let received := (n, i) ∈ [(2, Instr.imgr dt pt b), (9, .ack dt pt b), (10, .nak dt pt b), (8, .ident dt pt b), (6, .syncReply dt pt b),
      (7, .mbxResponse dt pt b)]
    let plain := x.injHeld = [] ∧ ∀ h, activeHdr v = some h → h.testPermit = false
    let counted := fun (t : State) (q c : Nat) => tabGet 0 t.yl.counts (16 * q + c) = satInc (tabGet 0 v.yl.counts (16 * q + c))
    let kept := fun t : State => t.yl.stas = v.yl.stas ∧ t.yl.trans = v.yl.trans ∧ only [.yl] t
    let arrives := x.link = true ∧ plain ∧ fcsBad b = false
    let mine := f.up = true ∧ f.port.toNat = homePort v.cfg p
    let answers := arrives ∧ rxKind v p b = .good f ∧ mine ∧ answered v f = some y
    let newer := 1 ≤ (f.seq - z.seqFrom).toNat ∧ (f.seq - z.seqFrom).toNat ≤ 32767
    let gone := fun t : State => (∀ g ∈ t.yl.trans, g.tag ≠ y.tag) ∧ tabGet none t.yl.ended y.tag = some 0
    let asked := fun (t : State) (g : TransFor) => (∃ e ∈ t.yl.waits, e.frame.key = k ∧ e.for_ = g) ∨
      (∃ e ∈ t.yl.trans, e.frame.key = k ∧ e.for_ = g)
    let tried := fun t : State => ∃ e ∈ t.yl.trans, e.tag = y.tag ∧ e.frame = { y.frame with retry := true } ∧ e.retries = y.retries + 1
    let noted := fun t : State => t.sta k = { z with seqFrom := f.seq } ∧ ∀ j, j ≠ k → t.sta j = v.sta j
    let limit := if y.for_ = .retire then 0 else yRetries v.cfg
    let again := slotAt v p 3
    let noRow := ∀ c o l, y.for_ ≠ .row c o l
    let second := pClosed v.cfg p = true ∧ y.nakFrom = some (pairPort p)
    let stalled := fun e : Nat × Option Copy => match e.2 with
      | some c => (match c.stall with | .tag r => !(freeTags v r).isEmpty | _ => false)
      | none => false
    let noSave := saveGrantable v = false
    let noWait := v.yl.waits.find? (fun e => e.tag.grantable v) = none
    (received → x.link = false → exec i s = idle) ∧
    (received → x.link = true → fcsBad b = true → Ends (exec i s) fun t => counted t p 2 ∧ only [.yl] t) ∧
    (received → arrives → rxKind v p b = .discard → Ends (exec i s) fun t => counted t p 4 ∧ kept t) ∧
    (received → arrives → rxKind v p b = .inner → Ends (exec i s) fun t => counted t p 3 ∧ kept t) ∧
    (received → arrives → rxKind v p b = .good f → f.type.toNat ≠ n → exec i s = idle) ∧
    (received → arrives → rxKind v p b = .good f → f.type.toNat = n → ¬ mine → Ends (exec i s) fun t => counted t p 1 ∧ kept t) ∧
    (received → arrives → rxKind v p b = .good f → f.type.toNat = n → mine → answered v f = none → pClosed v.cfg p = false →
      Ends (exec i s) fun t => counted t p 1 ∧ (¬ newer → counted t p 5) ∧
        (newer → tabGet 0 t.yl.counts (16 * p + 5) = tabGet 0 v.yl.counts (16 * p + 5)) ∧ kept t) ∧
    (received → arrives → rxKind v p b = .good f → f.type.toNat = n → mine → answered v f = none → pClosed v.cfg p = true → n ≠ 6 →
      Ends (exec i s) fun t => t.yl.counts = v.yl.counts ∧ kept t) ∧
    (answers → f.type = 2 → y.for_ = .imgw → f.body.length = 16 + sIn v.cfg k →
      Ends (exec (.imgr dt pt b) s) fun t => counted t p 1 ∧ gone t ∧ (t.sta k).consec = 0 ∧ (t.sta k).seqFrom = f.seq ∧
        (t.sta k).state = (if (byteAt f.body 0).getLsbD 1 = true ∧ z.state = 2 then 3 else z.state) ∧
        (∀ a, (v.port y.frame.port.toNat).t0 = some a → a ≤ y.firstAt → (t.sta k).arrived = some ((f.body.drop 16).take (sIn v.cfg k))) ∧
        t.can.mem = v.can.mem) ∧
    (answers → f.type = 9 → y.for_ = .safe ∨ y.for_ = .release ∨ y.for_ = .retire →
      Ends (exec (.ack dt pt b) s) fun t => counted t p 1 ∧ gone t ∧ noted t ∧ only [.yl] t) ∧
    (answers → f.type = 9 → y.for_ = .admission false →
      Ends (exec (.ack dt pt b) s) fun t => (t.sta k).state = 2 ∧ (t.sta k).wasAdmitted = true ∧ (t.sta k).admitAt = v.now ∧
        Logs v t 0x0504 [.b1 (k / 32), .b1 (k % 32), .b1 2, .b4 z.type.toNat]) ∧
    (answers → f.type = 9 → y.for_ = .admission true →
      Ends (exec (.ack dt pt b) s) fun t => (t.sta k).state = 3 ∧ (t.sta k).wasAdmitted = true ∧
        t.seq.trigs = v.seq.trigs ++ raised v 0x6 (fun a => a.testBit (k / 32))) ∧
    (answers → f.type = 9 → (∃ c, y.for_ = .readmit c) →
      Ends (exec (.ack dt pt b) s) fun t => (t.sta k).state = 2 ∧ (t.sta k).strikes = [] ∧ (t.sta k).consec = 0 ∧ gone t ∧
        Logs v t 0x0509 [.b1 (k / 32), .b1 (k % 32), .b1 0]) ∧
    (answers → f.type = 10 → second →
      Ends (exec (.nak dt pt b) s) fun t => t.yl = { v.yl with trans := v.yl.trans.map fun e => if e.tag = y.tag then { e with nakFrom := none } else e } ∧ only [.yl] t) ∧
    (answers → f.type = 10 → ¬ second → byteAt f.body 0 = 0x02 → (∃ c o l, y.for_ = .row c o l) →
      Ends (exec (.nak dt pt b) s) fun t => counted t y.frame.port.toNat 8 ∧ noted t ∧ only [.yl] t ∧
        ∃ e ∈ t.yl.trans, e = { y with sentAt := none, nakFrom := if pClosed v.cfg p then some p else none }) ∧
    (answers → f.type = 10 → ¬ second → byteAt f.body 0 = 0x05 →
      Ends (exec (.nak dt pt b) s) fun t => counted t y.frame.port.toNat 8 ∧ counted t y.frame.port.toNat 7) ∧
    (answers → f.type = 8 → f.sub = 0x81 → f.body.length = 20 → y.for_ = .discover →
      Ends (exec (.ident dt pt b) s) fun t => (t.sta k).type = wordAt f.body 0 ∧
        (identMatches v k (leAt f.body 0 4) (leAt f.body 12 2) (leAt f.body 14 2) (byteAt f.body 16).toNat = true →
          asked t .sync ∧ (t.sta k).state = z.state) ∧
        (identMatches v k (leAt f.body 0 4) (leAt f.body 12 2) (leAt f.body 14 2) (byteAt f.body 16).toNat = false →
          (t.sta k).state = 1 ∧
          (z.state ≠ 1 → Logs v t 0x0505 [.b1 (k / 32), .b1 (k % 32), .b4 (leAt f.body 0 4), .b2 (leAt f.body 12 2),
            .b2 (leAt f.body 14 2)]))) ∧
    (answers → f.type = 6 → f.sub = 2 → f.body.length = 24 → y.for_ = .sync → pClosed v.cfg p = false →
      Ends (exec (.syncReply dt pt b) s) fun t =>
        let r := BitVec.ofInt 32 (((v.now : Int) - (z.syncT1 : Int)) - ((leAt f.body 16 8 : Int) - (leAt f.body 8 8 : Int)))
        (t.sta k).rtt = r ∧ (t.sta k).delayEven = BitVec.ofNat 32 (r.toNat / 2) ∧ (t.sta k).syncDue = true ∧
        (z.admitted = true → gone t) ∧
        (z.admitted = false → asked t (.admission (z.wasAdmitted || z.state == 4)))) ∧
    (answers → f.type = 7 → (∃ c, y.for_ = .mbx c) →
      Ends (exec (.mbxResponse dt pt b) s) fun t => counted t p 1 ∧ gone t ∧
        t.sta k = { z with seqFrom := f.seq, mbxHeld := some f.body, mbxTimeout := false } ∧ only [.yl] t) ∧
    (overdue v tag.val = some y → y.frame.port.toNat = p → y.retries < limit → again + spanNs v y.frame y.for_ ≤ attemptEnd v y →
      mayGo v y.asWait = true → (∀ d ∈ v.yl.plan, d.frame.tag ≠ some (BitVec.ofNat 9 y.tag)) →
      Ends (exec (.attemptTimeout dt tag) s) fun t => counted t p 6 ∧ tried t ∧ only [.fret, .yl, .host, .nv, .out] t ∧
        (noRow → only [.yl, .out] t)) ∧
    (overdue v tag.val = some y → y.frame.port.toNat = p →
      limit ≤ y.retries ∨ attemptEnd v y < again + spanNs v y.frame y.for_ ∨ mayGo v y.asWait = false →
      (v.now < attemptEnd v y →
        Ends (exec (.attemptTimeout dt tag) s) fun t => (∃ e ∈ t.yl.trans, e = { y with sentAt := none, dead := true }) ∧ only [.yl] t) ∧
      (attemptEnd v y ≤ v.now → lineLinked v p = true → Ends (exec (.attemptTimeout dt tag) s) fun t => counted t p 7)) ∧
    (overdue v tag.val = none → exec (.attemptTimeout dt tag) s = idle) ∧
    (arrives → rxKind v p b = .own → (b.drop 6).take 6 = portAddr v (pairPort p) →
      (yParse ((b.take (b.length - 4)).drop 14)).type = 1 → (yParse ((b.take (b.length - 4)).drop 14)).cycle = (v.port (p / 2 * 2)).cycle →
      (v.port (p / 2 * 2)).t0.isSome = true →
      Ends (exec (.cycReturn dt pt b) s) fun t => (t.port p).cycBack = true ∧ (t.port (p / 2 * 2)).lineOpen = false ∧
        ((v.port (p / 2 * 2)).lineOpen = true → Logs v t 0x050B [.b1 (p / 2)]) ∧ only [.yl, .host, .nv, .out] t) ∧
    (x.link = false ∨ fcsBad b = true ∨ rxKind v p b ≠ .own → exec (.cycReturn dt pt b) s = idle) ∧
    (mbxOverdue v tag.val = some y →
      Ends (exec (.mbxTimeout dt tag) s) fun t => (∀ g ∈ t.yl.trans, g.tag ≠ y.tag) ∧ tabGet none t.yl.ended y.tag = some 0x05 ∧
        (t.sta y.frame.key).mbxTimeout = true ∧ only [.yl] t) ∧
    (mbxOverdue v tag.val = none → exec (.mbxTimeout dt tag) s = idle) ∧
    (syncDueAt v p = [k] →
      Ends (exec (.syncMeasurement dt pt) s) fun t => (t.sta k).syncAt = v.now ∧ asked t .sync ∧ only [.free, .yl, .out] t) ∧
    (syncDueAt v p = [] → exec (.syncMeasurement dt pt) s = idle) ∧
    (injExpired v p = some m → m.2.2 = false → x.injHeld = [m] → x.link = true →
      Ends (exec (.injectDelayExpiry dt pt) s) fun t => t.out = v.out ++ [.yelx p m.2.1] ∧ (t.port p).injHeld = [] ∧ counted t p 0 ∧
        only [.yl, .out] t) ∧
    (injExpired v p = some m → x.link = false → m.2.2 = false →
      Ends (exec (.injectDelayExpiry dt pt) s) fun t => (t.port p).injHeld = x.injHeld.erase m ∧ only [.yl] t) ∧
    (injExpired v p = none → exec (.injectDelayExpiry dt pt) s = idle) ∧
    (noSave → v.yl.waits.find? (fun e => e.tag.grantable v) = some w → w.tag = .wait w.reserved → w.port < 8 →
      ((w.later = false ∧ mayGo v w = true ∧ (v.port w.port).t0.isSome = true ∧ fitsAt v w (slotAt v w.port w.for_.step) = true →
        Ends (exec (.fabricTagGrant dt) s) fun t => (∃ e ∈ t.yl.trans, e.frame.key = w.frame.key ∧ e.for_ = w.for_ ∧
          e.firstAt = slotAt v w.port w.for_.step ∧ e.retries = 1) ∧ (∃ more, t.yl.waits = v.yl.waits.erase w ++ more) ∧
          ((∀ d ∈ v.yl.plan, d.port = w.port → d.before w.for_.step = true) → t.yl.waits = v.yl.waits.erase w) ∧
          only [.free, .fret, .yl, .host, .nv, .out] t ∧ ((∀ c o l, w.for_ ≠ .row c o l) → only [.free, .yl, .out] t)) ∧
      (w.later = true ∨ mayGo v w = false ∨ (v.port w.port).t0 = none ∨ fitsAt v w (slotAt v w.port w.for_.step) = false →
        Ends (exec (.fabricTagGrant dt) s) fun t =>
          (∃ g, t.yl.waits = v.yl.waits.map fun e => if e = w then { e with tag := .has g } else e) ∧ t.yl.trans = v.yl.trans ∧
          only [.free, .yl] t))) ∧
    (noSave → noWait → v.fld.safeTag.grantable v = true → v.fld.safeTag = .wait true →
      Ends (exec (.fabricTagGrant dt) s) fun t => (∃ g, t.fld = { v.fld with safeTag := .has g }) ∧ only [.free, .yl, .fld] t) ∧
    (noSave → noWait → v.fld.safeTag.grantable v = false → v.fld.changeQ.find? (fun e => e.tag.grantable v) = some c →
      Ends (exec (.fabricTagGrant dt) s) fun t =>
        (∃ g, t.fld = { v.fld with changeQ := v.fld.changeQ.map fun e => if e = c then { e with tag := .has g } else e }) ∧
        only [.free, .yl, .fld] t) ∧
    (saveGrantable v = true → v.nv.saveWait = some 4 →
      Ends (exec (.fabricTagGrant dt) s) fun t => t.nv.saveWait = none ∧ (t.warm (warmTarget v)).valid = true ∧
        (t.warm (warmTarget v)).seq = warmNextSeq v ∧ (t.warm (warmTarget v)).reason = 4 ∧ only [.free, .yl, .nv] t) ∧
    (noSave → noWait → v.fld.safeTag.grantable v = false → v.fld.changeQ.find? (fun e => e.tag.grantable v) = none →
      v.nv.incW.find? (fun e => e.2.grantable v) = none → v.nv.userW.find? (fun e => e.tag.grantable v) = none →
      (v.ln.copies.find? stalled = some (lane, some cp) → v.copy lane = some cp →
        Ends (exec (.fabricTagGrant dt) s) fun t => t.copy lane = some { cp with stall := .none } ∧ only [.ln] t) ∧
      (v.ln.copies.find? stalled = none → exec (.fabricTagGrant dt) s = idle))

/-- A step takes the command at the front of the queue and runs exec on the rest. Where the spec leaves it open it follows the model's readings of log entry 1. -/
def Obligations.StepRunsTheFront : Prop :=
  ∀ (c : Instr) (r : List Instr) (s : State), step { s with pending := c :: r } = exec c { s with pending := r }

/-- What a step does on an empty queue, and what the passing of time changes. Where the spec leaves it open it follows the model's readings of log entries 2, 17. -/
def Obligations.IdleStepAndTime : Prop :=
  ∀ (s : State) (dt d : Nat),
    let t := elapse dt s
    let on := s.dev.state ≠ .off ∧ s.dev.state ≠ .standby
    (s.pending = [] → step s = .next (elapse 1 s)) ∧
    (t.clk.tb = if s.clk.lock = true then (s.clk.tb + dt) % 2 ^ 64 else s.clk.tb) ∧
    (on → t.clk.opNs = s.clk.opNs + dt ∧ t.fld.dieNs = s.fld.dieNs + dt) ∧
    (¬ on → t.clk.opNs = s.clk.opNs ∧ t.fld.dieNs = s.fld.dieNs) ∧
    (t.dev.holdLeft = if s.dev.state = .hold then s.dev.holdLeft - dt else s.dev.holdLeft) ∧
    (wdCounts s = true → t.wd.count = s.wd.count + dt) ∧ (wdCounts s = false → t.wd.count = s.wd.count) ∧
    (t.dev.state = s.dev.state ∧ t.dev.fault = s.dev.fault ∧ t.clk.lock = s.clk.lock ∧ t.fld.chans = s.fld.chans ∧
      t.wd.timeout = s.wd.timeout) ∧
    (s.clk.lock = true → (elapse d t).clk.tb = (elapse (dt + d) s).clk.tb) ∧
    Only [.clk, .dev, .wd, .fld] s t

/-- The machine right after a power-on reset: state, registers, memory, slots, watchdog, test access port. Where the spec leaves it open it follows the model's readings of log entry 3. -/
def Obligations.ResetState : Prop :=
  let s := State.reset
  let values : List (Nat × Word) :=
      [(0x0000, 0x5E709632), (0x0010, 0x00010002), (0x0013, 0x001E0258), (0x0100, 0x04080000), (0x0110, 0x280408B4)] ++
      [(0x0200, 0x40400D10), (0x0300, 0x80000400), (0x0305, 0x000000FF), (0x0306, 0x80008000), (0x0400, 0x0410400A)] ++
      [(0x0500, 0x08200200), (0x0600, 0x10082010), (0x0700, 0x2004100A), (0x0800, 0x04401000), (0x0900, 0x04200010)] ++
      [(0x0A00, 0x27101010), (0x0B00, 0x04002010), (0x0C00, 0x000007D0), (0x0C04, 0x900007D0), (0x0C15, 0x20000000)]
  let zeros : List Nat :=
      [0x0002, 0x0003, 0x0011, 0x0012, 0x0014, 0x0015, 0x0016, 0x0101, 0x0102, 0x0103, 0x0111, 0x0112, 0x0113, 0x0116] ++
      [0x0201, 0x0202, 0x0203, 0x0204, 0x0205, 0x0206, 0x0207, 0x0208, 0x0209, 0x020A, 0x020B, 0x020C, 0x020D, 0x020E] ++
      [0x020F, 0x0240, 0x0280, 0x0301, 0x0302, 0x0303, 0x0304, 0x0307, 0x0308, 0x0309, 0x030A, 0x0340, 0x0401, 0x0402] ++
      [0x0403, 0x0404, 0x0405, 0x0410, 0x0411, 0x0412, 0x0413, 0x0414, 0x0415, 0x0416, 0x0417, 0x0430, 0x0438, 0x0439] ++
      [0x0501, 0x0502, 0x0503, 0x0504, 0x0505, 0x0506, 0x0507, 0x0508, 0x0509, 0x0510, 0x0518, 0x0520, 0x0528, 0x0601] ++
      [0x0602, 0x0603, 0x0604, 0x0605, 0x0606, 0x0607, 0x0608, 0x0609, 0x060A, 0x060B, 0x060C, 0x0610, 0x0618, 0x0619] ++
      [0x061A, 0x061B, 0x061C, 0x061D, 0x0620, 0x0621, 0x0622, 0x0701, 0x0702, 0x0703, 0x0704, 0x0705, 0x0706, 0x0707] ++
      [0x0708, 0x0710, 0x0730, 0x0750, 0x0801, 0x0802, 0x0810, 0x0811, 0x0812, 0x0813, 0x0814, 0x0815, 0x0816, 0x0817] ++
      [0x0A01, 0x0A02, 0x0A08, 0x0A09, 0x0A0A, 0x0B01, 0x0B02, 0x0B03, 0x0B04, 0x0B05, 0x0B06, 0x0B07, 0x0B08, 0x0B09] ++
      [0x0B0A, 0x0B0B, 0x0B0C, 0x0B0D, 0x0C01, 0x0C02, 0x0C03, 0x0C10, 0x0C11, 0x0C13, 0x0C16, 0x0C17, 0x0C18, 0x0C19] ++
      [0x0D01, 0x0D04]
  s.pending = [] ∧ s.dev.state = .boot ∧ s.dev.last.cause = 0x01 ∧ s.dev.last.left = .off ∧ s.dev.fault = 0 ∧ s.clk.lock = false ∧
    s.clk.awaitLock = true ∧ s.clk.fwRuns = false ∧ s.clk.tb = 0 ∧
    (∀ e ∈ values, sysReg s s.cfg e.1 = some e.2) ∧ (∀ n ∈ zeros, sysReg s s.cfg n = some 0) ∧
    (∀ a, s.can.mem.byte a = 0) ∧ s.can.bad = [] ∧ s.can.retained = [] ∧
    (s.slot 0).role = .operator ∧ (s.slot 1).role = .observer ∧ (s.slot 2).role = .operator ∧ (s.slot 3).role = .observer ∧
    (∀ t, s.inst t = none) ∧ (∀ k, s.copy k = none) ∧ (∀ n, (s.chan n).driver = false ∧ (s.chan n).value = false) ∧
    (∀ b, s.pkg.st b = 0) ∧ s.wd.enabled = true ∧ s.wd.clkXfo = false ∧ s.wd.timeout = 2000 ∧
    s.tap.ir = .idcode ∧ s.tap.testEn = false ∧ tapOk s = true ∧ memOk s = true

/-- Every step keeps EXTEST, CLAMP and HIGHZ out of the test access port unless board test is on -/
def Obligations.TapInvariant : Prop :=
  ∀ s t : State, tapOk s = true → step s = .next t → tapOk t = true

/-- Every command, in every state, answers a next state, leaves the queue alone and changes only the parts of its frame. Where the spec leaves it open it follows the model's readings of log entries 16, 18, 76. -/
def Obligations.EveryCommandAnswersWithinItsFrame : Prop :=
  ∀ (c : Instr) (s : State), Ends (exec c s) fun t => t.pending = s.pending ∧ Only (touches c) s t

/-- Encoding: the words of every lane instruction decode to it, and what decodes is encoded by the words read. Where the spec leaves it open it follows the model's readings of log entries 1, 14. -/
def Obligations.UnitsEncodeAndDecode : Prop :=
  ∀ (run : Nat),
    (∀ (i : Instr) (ws rest : List (BitVec 14)), i.wf = true → encodeUnit i = some ws →
      ∃ l p w, unitOf i = some (l, p, w) ∧ ws = p.map Pre.word ++ [w] ∧
        decodeUnit l run [] (ws ++ rest) = some (readBack run i)) ∧
    (∀ (l : LaneId) (ws : List (BitVec 14)) (i : Instr), decodeUnit l run [] ws = some i →
      readBack run i = i ∧ ∃ us rest, encodeUnit i = some us ∧ ws = us ++ rest) ∧
    (∀ (l : LaneId) (ws : List (BitVec 14)),
      decodeUnit l run [] ws = none ↔ ∀ w ∈ ws, (prefixOf w).isSome = true)
end

