-- ==== Sys2Proof/Laws/Only.lean ====
section
/-! SUPPORT. Frames: how `Only` composes, and what the updates of one part leave alone. -/
namespace Sys2Proof.Machine

variable {ps : List Part} {s t u : State}

@[simp] theorem Only.refl : Only ps s s := by intro p _; cases p <;> rfl

theorem Only.trans (h : Only ps s t) (k : Only ps t u) : Only ps s u := by
  intro p hp
  have a := h p hp
  have b := k p hp
  cases p <;> exact b.trans a

theorem Only.mono {qs : List Part} (h : Only qs s t) (k : qs ⊆ ps) : Only ps s t :=
  fun p hp => h p fun x => hp (k x)

/-- A frame, part by part. -/
theorem only_iff : Only ps s t ↔
    (.pending ∈ ps ∨ t.pending = s.pending) ∧
    (.free ∈ ps ∨ t.free = s.free) ∧
    (.cfg ∈ ps ∨ t.cfg = s.cfg) ∧
    (.dev ∈ ps ∨ t.dev = s.dev) ∧
    (.clk ∈ ps ∨ t.clk = s.clk) ∧
    (.ps ∈ ps ∨ t.ps = s.ps) ∧
    (.ln ∈ ps ∨ t.ln = s.ln) ∧
    (.seq ∈ ps ∨ t.seq = s.seq) ∧
    (.can ∈ ps ∨ t.can = s.can) ∧
    (.fret ∈ ps ∨ t.fret = s.fret) ∧
    (.yl ∈ ps ∨ t.yl = s.yl) ∧
    (.lp ∈ ps ∨ t.lp = s.lp) ∧
    (.fld ∈ ps ∨ t.fld = s.fld) ∧
    (.cb ∈ ps ∨ t.cb = s.cb) ∧
    (.host ∈ ps ∨ t.host = s.host) ∧
    (.pkg ∈ ps ∨ t.pkg = s.pkg) ∧
    (.safe ∈ ps ∨ t.safe = s.safe) ∧
    (.nv ∈ ps ∨ t.nv = s.nv) ∧
    (.svc ∈ ps ∨ t.svc = s.svc) ∧
    (.wd ∈ ps ∨ t.wd = s.wd) ∧
    (.tap ∈ ps ∨ t.tap = s.tap) ∧
    (.out ∈ ps ∨ t.out = s.out) := by
  constructor
  · intro h
    exact ⟨or_iff_not_imp_left.mpr (h _),
      or_iff_not_imp_left.mpr (h _), or_iff_not_imp_left.mpr (h _), or_iff_not_imp_left.mpr (h _), or_iff_not_imp_left.mpr (h _), or_iff_not_imp_left.mpr (h _), or_iff_not_imp_left.mpr (h _), or_iff_not_imp_left.mpr (h _), or_iff_not_imp_left.mpr (h _), or_iff_not_imp_left.mpr (h _), or_iff_not_imp_left.mpr (h _), or_iff_not_imp_left.mpr (h _), or_iff_not_imp_left.mpr (h _), or_iff_not_imp_left.mpr (h _), or_iff_not_imp_left.mpr (h _), or_iff_not_imp_left.mpr (h _), or_iff_not_imp_left.mpr (h _), or_iff_not_imp_left.mpr (h _), or_iff_not_imp_left.mpr (h _), or_iff_not_imp_left.mpr (h _), or_iff_not_imp_left.mpr (h _), or_iff_not_imp_left.mpr (h _)⟩
  · intro h p hp
    obtain ⟨h_pending, h_free, h_cfg, h_dev, h_clk, h_ps, h_ln, h_seq, h_can, h_fret, h_yl, h_lp, h_fld, h_cb, h_host, h_pkg, h_safe, h_nv, h_svc, h_wd, h_tap, h_out⟩ := h
    cases p
    · exact h_pending.resolve_left hp
    · exact h_free.resolve_left hp
    · exact h_cfg.resolve_left hp
    · exact h_dev.resolve_left hp
    · exact h_clk.resolve_left hp
    · exact h_ps.resolve_left hp
    · exact h_ln.resolve_left hp
    · exact h_seq.resolve_left hp
    · exact h_can.resolve_left hp
    · exact h_fret.resolve_left hp
    · exact h_yl.resolve_left hp
    · exact h_lp.resolve_left hp
    · exact h_fld.resolve_left hp
    · exact h_cb.resolve_left hp
    · exact h_host.resolve_left hp
    · exact h_pkg.resolve_left hp
    · exact h_safe.resolve_left hp
    · exact h_nv.resolve_left hp
    · exact h_svc.resolve_left hp
    · exact h_wd.resolve_left hp
    · exact h_tap.resolve_left hp
    · exact h_out.resolve_left hp

theorem Only.pending_eq (h : Only ps s t) (k : .pending ∉ ps) : t.pending = s.pending := h .pending k
theorem Only.free_eq (h : Only ps s t) (k : .free ∉ ps) : t.free = s.free := h .free k
theorem Only.cfg_eq (h : Only ps s t) (k : .cfg ∉ ps) : t.cfg = s.cfg := h .cfg k
theorem Only.dev_eq (h : Only ps s t) (k : .dev ∉ ps) : t.dev = s.dev := h .dev k
theorem Only.clk_eq (h : Only ps s t) (k : .clk ∉ ps) : t.clk = s.clk := h .clk k
theorem Only.ps_eq (h : Only ps s t) (k : .ps ∉ ps) : t.ps = s.ps := h .ps k
theorem Only.ln_eq (h : Only ps s t) (k : .ln ∉ ps) : t.ln = s.ln := h .ln k
theorem Only.seq_eq (h : Only ps s t) (k : .seq ∉ ps) : t.seq = s.seq := h .seq k
theorem Only.can_eq (h : Only ps s t) (k : .can ∉ ps) : t.can = s.can := h .can k
theorem Only.fret_eq (h : Only ps s t) (k : .fret ∉ ps) : t.fret = s.fret := h .fret k
theorem Only.yl_eq (h : Only ps s t) (k : .yl ∉ ps) : t.yl = s.yl := h .yl k
theorem Only.lp_eq (h : Only ps s t) (k : .lp ∉ ps) : t.lp = s.lp := h .lp k
theorem Only.fld_eq (h : Only ps s t) (k : .fld ∉ ps) : t.fld = s.fld := h .fld k
theorem Only.cb_eq (h : Only ps s t) (k : .cb ∉ ps) : t.cb = s.cb := h .cb k
theorem Only.host_eq (h : Only ps s t) (k : .host ∉ ps) : t.host = s.host := h .host k
theorem Only.pkg_eq (h : Only ps s t) (k : .pkg ∉ ps) : t.pkg = s.pkg := h .pkg k
theorem Only.safe_eq (h : Only ps s t) (k : .safe ∉ ps) : t.safe = s.safe := h .safe k
theorem Only.nv_eq (h : Only ps s t) (k : .nv ∉ ps) : t.nv = s.nv := h .nv k
theorem Only.svc_eq (h : Only ps s t) (k : .svc ∉ ps) : t.svc = s.svc := h .svc k
theorem Only.wd_eq (h : Only ps s t) (k : .wd ∉ ps) : t.wd = s.wd := h .wd k
theorem Only.tap_eq (h : Only ps s t) (k : .tap ∉ ps) : t.tap = s.tap := h .tap k
theorem Only.out_eq (h : Only ps s t) (k : .out ∉ ps) : t.out = s.out := h .out k

@[simp] theorem only_set_pending {v} (h : Only ps s t) (k : Part.pending ∈ ps) : Only ps s { t with pending := v } :=
  h.trans fun p hp => by cases p <;> first | rfl | exact absurd k hp
@[simp] theorem only_set_free {v} (h : Only ps s t) (k : Part.free ∈ ps) : Only ps s { t with free := v } :=
  h.trans fun p hp => by cases p <;> first | rfl | exact absurd k hp
@[simp] theorem only_set_cfg {v} (h : Only ps s t) (k : Part.cfg ∈ ps) : Only ps s { t with cfg := v } :=
  h.trans fun p hp => by cases p <;> first | rfl | exact absurd k hp
@[simp] theorem only_set_dev {v} (h : Only ps s t) (k : Part.dev ∈ ps) : Only ps s { t with dev := v } :=
  h.trans fun p hp => by cases p <;> first | rfl | exact absurd k hp
@[simp] theorem only_set_clk {v} (h : Only ps s t) (k : Part.clk ∈ ps) : Only ps s { t with clk := v } :=
  h.trans fun p hp => by cases p <;> first | rfl | exact absurd k hp
@[simp] theorem only_set_ps {v} (h : Only ps s t) (k : Part.ps ∈ ps) : Only ps s { t with ps := v } :=
  h.trans fun p hp => by cases p <;> first | rfl | exact absurd k hp
@[simp] theorem only_set_ln {v} (h : Only ps s t) (k : Part.ln ∈ ps) : Only ps s { t with ln := v } :=
  h.trans fun p hp => by cases p <;> first | rfl | exact absurd k hp
@[simp] theorem only_set_seq {v} (h : Only ps s t) (k : Part.seq ∈ ps) : Only ps s { t with seq := v } :=
  h.trans fun p hp => by cases p <;> first | rfl | exact absurd k hp
@[simp] theorem only_set_can {v} (h : Only ps s t) (k : Part.can ∈ ps) : Only ps s { t with can := v } :=
  h.trans fun p hp => by cases p <;> first | rfl | exact absurd k hp
@[simp] theorem only_set_fret {v} (h : Only ps s t) (k : Part.fret ∈ ps) : Only ps s { t with fret := v } :=
  h.trans fun p hp => by cases p <;> first | rfl | exact absurd k hp
@[simp] theorem only_set_yl {v} (h : Only ps s t) (k : Part.yl ∈ ps) : Only ps s { t with yl := v } :=
  h.trans fun p hp => by cases p <;> first | rfl | exact absurd k hp
@[simp] theorem only_set_lp {v} (h : Only ps s t) (k : Part.lp ∈ ps) : Only ps s { t with lp := v } :=
  h.trans fun p hp => by cases p <;> first | rfl | exact absurd k hp
@[simp] theorem only_set_fld {v} (h : Only ps s t) (k : Part.fld ∈ ps) : Only ps s { t with fld := v } :=
  h.trans fun p hp => by cases p <;> first | rfl | exact absurd k hp
@[simp] theorem only_set_cb {v} (h : Only ps s t) (k : Part.cb ∈ ps) : Only ps s { t with cb := v } :=
  h.trans fun p hp => by cases p <;> first | rfl | exact absurd k hp
@[simp] theorem only_set_host {v} (h : Only ps s t) (k : Part.host ∈ ps) : Only ps s { t with host := v } :=
  h.trans fun p hp => by cases p <;> first | rfl | exact absurd k hp
@[simp] theorem only_set_pkg {v} (h : Only ps s t) (k : Part.pkg ∈ ps) : Only ps s { t with pkg := v } :=
  h.trans fun p hp => by cases p <;> first | rfl | exact absurd k hp
@[simp] theorem only_set_safe {v} (h : Only ps s t) (k : Part.safe ∈ ps) : Only ps s { t with safe := v } :=
  h.trans fun p hp => by cases p <;> first | rfl | exact absurd k hp
@[simp] theorem only_set_nv {v} (h : Only ps s t) (k : Part.nv ∈ ps) : Only ps s { t with nv := v } :=
  h.trans fun p hp => by cases p <;> first | rfl | exact absurd k hp
@[simp] theorem only_set_svc {v} (h : Only ps s t) (k : Part.svc ∈ ps) : Only ps s { t with svc := v } :=
  h.trans fun p hp => by cases p <;> first | rfl | exact absurd k hp
@[simp] theorem only_set_wd {v} (h : Only ps s t) (k : Part.wd ∈ ps) : Only ps s { t with wd := v } :=
  h.trans fun p hp => by cases p <;> first | rfl | exact absurd k hp
@[simp] theorem only_set_tap {v} (h : Only ps s t) (k : Part.tap ∈ ps) : Only ps s { t with tap := v } :=
  h.trans fun p hp => by cases p <;> first | rfl | exact absurd k hp
@[simp] theorem only_set_out {v} (h : Only ps s t) (k : Part.out ∈ ps) : Only ps s { t with out := v } :=
  h.trans fun p hp => by cases p <;> first | rfl | exact absurd k hp

@[simp] theorem only_ite {c : Prop} [Decidable c] {a b : State} (h : Only ps s a) (k : Only ps s b) :
    Only ps s (if c then a else b) := by split <;> assumption

@[simp] theorem only_when {b : Bool} {f : State → State} (h : Only ps s t) (k : ∀ u, Only ps u (f u)) :
    Only ps s (t.when b f) := by
  unfold State.when
  split
  · exact h.trans (k t)
  · exact h

@[simp] theorem only_foldl {α : Type} {f : State → α → State} {l : List α} (h : Only ps s t)
    (k : ∀ u a, Only ps u (f u a)) : Only ps s (l.foldl f t) := by
  induction l generalizing t with
  | nil => exact h
  | cons a l ih => exact ih (h.trans (k t a))

@[simp] theorem only_foldl_fst {α β : Type} {f : State × β → α → State × β} {l : List α} {x : State × β}
    (h : Only ps s x.1) (k : ∀ y a, Only ps y.1 (f y a).1) : Only ps s (l.foldl f x).1 := by
  induction l generalizing x with
  | nil => exact h
  | cons a l ih => exact ih (h.trans (k x a))

end Sys2Proof.Machine
end

