-- ==== Sys2Proof/Laws/FramesOps.lean ====
section
/-! SUPPORT. Frames of the shared operations: time, lanes, recorder, host queues, tasks and outputs. Each lemma says which parts of the state an
operation can change. -/
namespace Sys2Proof.Machine

variable {ps : List Part} {s t u : State}

@[simp] theorem only_modLane {n : Nat} {f : Lane → Lane} (h : Only ps s t) (k : [.ln] ⊆ ps) :
    Only ps s (State.modLane t n f) := by
  simp only [List.cons_subset, List.nil_subset, and_true] at k
  unfold State.modLane
  try dsimp only
  repeat' (first | (simp (maxDischargeDepth := 30) [*]; done) | (rw [only_iff] at h ⊢; simp_all; done) | split)

@[simp] theorem only_setCopy {x1 : Nat} {c : Option Copy} (h : Only ps s t) (k : [.ln] ⊆ ps) :
    Only ps s (State.setCopy t x1 c) := by
  simp only [List.cons_subset, List.nil_subset, and_true] at k
  unfold State.setCopy
  try dsimp only
  repeat' (first | (simp (maxDischargeDepth := 30) [*]; done) | (rw [only_iff] at h ⊢; simp_all; done) | split)

@[simp] theorem only_modTask {t1 : Nat} {f : TaskSt → TaskSt} (h : Only ps s t) (k : [.seq] ⊆ ps) :
    Only ps s (State.modTask t t1 f) := by
  simp only [List.cons_subset, List.nil_subset, and_true] at k
  unfold State.modTask
  try dsimp only
  repeat' (first | (simp (maxDischargeDepth := 30) [*]; done) | (rw [only_iff] at h ⊢; simp_all; done) | split)

@[simp] theorem only_setInst {t1 : Nat} {i : Option Inst} (h : Only ps s t) (k : [.seq] ⊆ ps) :
    Only ps s (State.setInst t t1 i) := by
  simp only [List.cons_subset, List.nil_subset, and_true] at k
  unfold State.setInst
  try dsimp only
  repeat' (first | (simp (maxDischargeDepth := 30) [*]; done) | (rw [only_iff] at h ⊢; simp_all; done) | split)

@[simp] theorem only_modShaft {n : Nat} {f : Shaft → Shaft} (h : Only ps s t) (k : [.fret] ⊆ ps) :
    Only ps s (State.modShaft t n f) := by
  simp only [List.cons_subset, List.nil_subset, and_true] at k
  unfold State.modShaft
  try dsimp only
  repeat' (first | (simp (maxDischargeDepth := 30) [*]; done) | (rw [only_iff] at h ⊢; simp_all; done) | split)

@[simp] theorem only_modPort {p : Nat} {f : Port → Port} (h : Only ps s t) (k : [.yl] ⊆ ps) :
    Only ps s (State.modPort t p f) := by
  simp only [List.cons_subset, List.nil_subset, and_true] at k
  unfold State.modPort
  try dsimp only
  repeat' (first | (simp (maxDischargeDepth := 30) [*]; done) | (rw [only_iff] at h ⊢; simp_all; done) | split)

@[simp] theorem only_modSta {x1 : Nat} {f : Sta → Sta} (h : Only ps s t) (k : [.yl] ⊆ ps) :
    Only ps s (State.modSta t x1 f) := by
  simp only [List.cons_subset, List.nil_subset, and_true] at k
  unfold State.modSta
  try dsimp only
  repeat' (first | (simp (maxDischargeDepth := 30) [*]; done) | (rw [only_iff] at h ⊢; simp_all; done) | split)

@[simp] theorem only_modLoop {n : Nat} {f : LoopSt → LoopSt} (h : Only ps s t) (k : [.lp] ⊆ ps) :
    Only ps s (State.modLoop t n f) := by
  simp only [List.cons_subset, List.nil_subset, and_true] at k
  unfold State.modLoop
  try dsimp only
  repeat' (first | (simp (maxDischargeDepth := 30) [*]; done) | (rw [only_iff] at h ⊢; simp_all; done) | split)

@[simp] theorem only_modChan {n : Nat} {f : Chan → Chan} (h : Only ps s t) (k : [.fld] ⊆ ps) :
    Only ps s (State.modChan t n f) := by
  simp only [List.cons_subset, List.nil_subset, and_true] at k
  unfold State.modChan
  try dsimp only
  repeat' (first | (simp (maxDischargeDepth := 30) [*]; done) | (rw [only_iff] at h ⊢; simp_all; done) | split)

@[simp] theorem only_modCan {n : Nat} {f : CanCh → CanCh} (h : Only ps s t) (k : [.cb] ⊆ ps) :
    Only ps s (State.modCan t n f) := by
  simp only [List.cons_subset, List.nil_subset, and_true] at k
  unfold State.modCan
  try dsimp only
  repeat' (first | (simp (maxDischargeDepth := 30) [*]; done) | (rw [only_iff] at h ⊢; simp_all; done) | split)

@[simp] theorem only_modSlot {n : Nat} {f : Slot → Slot} (h : Only ps s t) (k : [.host] ⊆ ps) :
    Only ps s (State.modSlot t n f) := by
  simp only [List.cons_subset, List.nil_subset, and_true] at k
  unfold State.modSlot
  try dsimp only
  repeat' (first | (simp (maxDischargeDepth := 30) [*]; done) | (rw [only_iff] at h ⊢; simp_all; done) | split)

@[simp] theorem only_emit {o : Out} (h : Only ps s t) (k : [.out] ⊆ ps) :
    Only ps s (State.emit t o) := by
  simp only [List.cons_subset, List.nil_subset, and_true] at k
  unfold State.emit
  try dsimp only
  repeat' (first | (simp (maxDischargeDepth := 30) [*]; done) | (rw [only_iff] at h ⊢; simp_all; done) | split)

@[simp] theorem only_sendIrq {n : Nat} {x2 : Nat} (h : Only ps s t) (k : [.host, .out] ⊆ ps) :
    Only ps s (sendIrq t n x2) := by
  simp only [List.cons_subset, List.nil_subset, and_true] at k
  unfold sendIrq
  try dsimp only
  repeat' (first | (simp (maxDischargeDepth := 30) [*]; done) | split)

@[simp] theorem only_raiseIrq {slot : Nat} {x2 : Nat} (h : Only ps s t) (k : [.host, .out] ⊆ ps) :
    Only ps s (raiseIrq t slot x2) := by
  simp only [List.cons_subset, List.nil_subset, and_true] at k
  unfold raiseIrq
  try dsimp only
  repeat' (first | (simp (maxDischargeDepth := 30) [*]; done) | split)

@[simp] theorem only_raiseIrqAll {x1 : Nat} (h : Only ps s t) (k : [.host, .out] ⊆ ps) :
    Only ps s (raiseIrqAll t x1) := by
  simp only [List.cons_subset, List.nil_subset, and_true] at k
  unfold raiseIrqAll
  try dsimp only
  repeat' (first | (simp (maxDischargeDepth := 30) [*]; done) | split | (refine only_foldl ?_ fun _ _ => ?_))

@[simp] theorem only_addRec {code : Nat} {items : List RItem} (h : Only ps s t) (k : [.nv] ⊆ ps) :
    Only ps s (addRec t code items) := by
  simp only [List.cons_subset, List.nil_subset, and_true] at k
  unfold addRec
  try dsimp only
  repeat' (first | (simp (maxDischargeDepth := 30) [*]; done) | (rw [only_iff] at h ⊢; simp_all; done) | split)

@[simp] theorem only_mergeRec {x1 : Rec} (h : Only ps s t) (k : [.nv] ⊆ ps) :
    Only ps s (mergeRec t x1) := by
  simp only [List.cons_subset, List.nil_subset, and_true] at k
  unfold mergeRec
  try dsimp only
  repeat' (first | (simp (maxDischargeDepth := 30) [*]; done) | split | (refine only_foldl ?_ fun _ _ => ?_) | (refine only_foldl_fst ?_ fun _ _ => ?_))

@[simp] theorem only_newRec {code : Nat} {items : List RItem} (h : Only ps s t) (k : [.host, .nv, .out] ⊆ ps) :
    Only ps s (newRec t code items) := by
  simp only [List.cons_subset, List.nil_subset, and_true] at k
  unfold newRec
  try dsimp only
  repeat' (first | (simp (maxDischargeDepth := 30) [*]; done) | split | (refine only_foldl ?_ fun _ _ => ?_) | (refine only_foldl_fst ?_ fun _ _ => ?_))

@[simp] theorem only_record {code : Nat} {items : List RItem} (h : Only ps s t) (k : [.host, .nv, .out] ⊆ ps) :
    Only ps s (record t code items) := by
  simp only [List.cons_subset, List.nil_subset, and_true] at k
  unfold record
  try dsimp only
  repeat' (first | (simp (maxDischargeDepth := 30) [*]; done) | (rw [only_iff] at h ⊢; simp_all; done) | split)

@[simp] theorem only_elapse {dt : Nat} (h : Only ps s t) (k : [.dev, .clk, .fld, .wd] ⊆ ps) :
    Only ps s (elapse dt t) := by
  simp only [List.cons_subset, List.nil_subset, and_true] at k
  unfold elapse
  try dsimp only
  repeat' (first | (simp (maxDischargeDepth := 30) [*]; done) | (rw [only_iff] at h ⊢; simp_all; done) | split)

@[simp] theorem only_onDev {f : Dev → Dev} (h : Only ps s t) (k : [.dev] ⊆ ps) :
    Only ps s (State.onDev t f) := by
  simp only [List.cons_subset, List.nil_subset, and_true] at k
  unfold State.onDev
  try dsimp only
  repeat' (first | (simp (maxDischargeDepth := 30) [*]; done) | (rw [only_iff] at h ⊢; simp_all; done) | split)

@[simp] theorem only_onClk {f : Clk → Clk} (h : Only ps s t) (k : [.clk] ⊆ ps) :
    Only ps s (State.onClk t f) := by
  simp only [List.cons_subset, List.nil_subset, and_true] at k
  unfold State.onClk
  try dsimp only
  repeat' (first | (simp (maxDischargeDepth := 30) [*]; done) | (rw [only_iff] at h ⊢; simp_all; done) | split)

@[simp] theorem only_onPs {f : PStore → PStore} (h : Only ps s t) (k : [.ps] ⊆ ps) :
    Only ps s (State.onPs t f) := by
  simp only [List.cons_subset, List.nil_subset, and_true] at k
  unfold State.onPs
  try dsimp only
  repeat' (first | (simp (maxDischargeDepth := 30) [*]; done) | (rw [only_iff] at h ⊢; simp_all; done) | split)

@[simp] theorem only_onLn {f : Lanes → Lanes} (h : Only ps s t) (k : [.ln] ⊆ ps) :
    Only ps s (State.onLn t f) := by
  simp only [List.cons_subset, List.nil_subset, and_true] at k
  unfold State.onLn
  try dsimp only
  repeat' (first | (simp (maxDischargeDepth := 30) [*]; done) | (rw [only_iff] at h ⊢; simp_all; done) | split)

@[simp] theorem only_onSeq {f : Seq → Seq} (h : Only ps s t) (k : [.seq] ⊆ ps) :
    Only ps s (State.onSeq t f) := by
  simp only [List.cons_subset, List.nil_subset, and_true] at k
  unfold State.onSeq
  try dsimp only
  repeat' (first | (simp (maxDischargeDepth := 30) [*]; done) | (rw [only_iff] at h ⊢; simp_all; done) | split)

@[simp] theorem only_onCan {f : Canopy → Canopy} (h : Only ps s t) (k : [.can] ⊆ ps) :
    Only ps s (State.onCan t f) := by
  simp only [List.cons_subset, List.nil_subset, and_true] at k
  unfold State.onCan
  try dsimp only
  repeat' (first | (simp (maxDischargeDepth := 30) [*]; done) | (rw [only_iff] at h ⊢; simp_all; done) | split)

@[simp] theorem only_onFret {f : Fret → Fret} (h : Only ps s t) (k : [.fret] ⊆ ps) :
    Only ps s (State.onFret t f) := by
  simp only [List.cons_subset, List.nil_subset, and_true] at k
  unfold State.onFret
  try dsimp only
  repeat' (first | (simp (maxDischargeDepth := 30) [*]; done) | (rw [only_iff] at h ⊢; simp_all; done) | split)

@[simp] theorem only_onYl {f : Yelx → Yelx} (h : Only ps s t) (k : [.yl] ⊆ ps) :
    Only ps s (State.onYl t f) := by
  simp only [List.cons_subset, List.nil_subset, and_true] at k
  unfold State.onYl
  try dsimp only
  repeat' (first | (simp (maxDischargeDepth := 30) [*]; done) | (rw [only_iff] at h ⊢; simp_all; done) | split)

@[simp] theorem only_onLp {f : Loops → Loops} (h : Only ps s t) (k : [.lp] ⊆ ps) :
    Only ps s (State.onLp t f) := by
  simp only [List.cons_subset, List.nil_subset, and_true] at k
  unfold State.onLp
  try dsimp only
  repeat' (first | (simp (maxDischargeDepth := 30) [*]; done) | (rw [only_iff] at h ⊢; simp_all; done) | split)

@[simp] theorem only_onFld {f : Field → Field} (h : Only ps s t) (k : [.fld] ⊆ ps) :
    Only ps s (State.onFld t f) := by
  simp only [List.cons_subset, List.nil_subset, and_true] at k
  unfold State.onFld
  try dsimp only
  repeat' (first | (simp (maxDischargeDepth := 30) [*]; done) | (rw [only_iff] at h ⊢; simp_all; done) | split)

@[simp] theorem only_onCb {f : Cans → Cans} (h : Only ps s t) (k : [.cb] ⊆ ps) :
    Only ps s (State.onCb t f) := by
  simp only [List.cons_subset, List.nil_subset, and_true] at k
  unfold State.onCb
  try dsimp only
  repeat' (first | (simp (maxDischargeDepth := 30) [*]; done) | (rw [only_iff] at h ⊢; simp_all; done) | split)

@[simp] theorem only_onHost {f : Hosts → Hosts} (h : Only ps s t) (k : [.host] ⊆ ps) :
    Only ps s (State.onHost t f) := by
  simp only [List.cons_subset, List.nil_subset, and_true] at k
  unfold State.onHost
  try dsimp only
  repeat' (first | (simp (maxDischargeDepth := 30) [*]; done) | (rw [only_iff] at h ⊢; simp_all; done) | split)

@[simp] theorem only_onPkg {f : Pkg → Pkg} (h : Only ps s t) (k : [.pkg] ⊆ ps) :
    Only ps s (State.onPkg t f) := by
  simp only [List.cons_subset, List.nil_subset, and_true] at k
  unfold State.onPkg
  try dsimp only
  repeat' (first | (simp (maxDischargeDepth := 30) [*]; done) | (rw [only_iff] at h ⊢; simp_all; done) | split)

@[simp] theorem only_onSafe {f : Safe → Safe} (h : Only ps s t) (k : [.safe] ⊆ ps) :
    Only ps s (State.onSafe t f) := by
  simp only [List.cons_subset, List.nil_subset, and_true] at k
  unfold State.onSafe
  try dsimp only
  repeat' (first | (simp (maxDischargeDepth := 30) [*]; done) | (rw [only_iff] at h ⊢; simp_all; done) | split)

@[simp] theorem only_onNv {f : Nv → Nv} (h : Only ps s t) (k : [.nv] ⊆ ps) :
    Only ps s (State.onNv t f) := by
  simp only [List.cons_subset, List.nil_subset, and_true] at k
  unfold State.onNv
  try dsimp only
  repeat' (first | (simp (maxDischargeDepth := 30) [*]; done) | (rw [only_iff] at h ⊢; simp_all; done) | split)

@[simp] theorem only_onSvc {f : Svc → Svc} (h : Only ps s t) (k : [.svc] ⊆ ps) :
    Only ps s (State.onSvc t f) := by
  simp only [List.cons_subset, List.nil_subset, and_true] at k
  unfold State.onSvc
  try dsimp only
  repeat' (first | (simp (maxDischargeDepth := 30) [*]; done) | (rw [only_iff] at h ⊢; simp_all; done) | split)

@[simp] theorem only_onWd {f : Wd → Wd} (h : Only ps s t) (k : [.wd] ⊆ ps) :
    Only ps s (State.onWd t f) := by
  simp only [List.cons_subset, List.nil_subset, and_true] at k
  unfold State.onWd
  try dsimp only
  repeat' (first | (simp (maxDischargeDepth := 30) [*]; done) | (rw [only_iff] at h ⊢; simp_all; done) | split)

@[simp] theorem only_drawn (h : Only ps s t) (k : [.free] ⊆ ps) :
    Only ps s (State.drawn t) := by
  simp only [List.cons_subset, List.nil_subset, and_true] at k
  unfold State.drawn
  try dsimp only
  repeat' (first | (simp (maxDischargeDepth := 30) [*]; done) | (rw [only_iff] at h ⊢; simp_all; done) | split)

@[simp] theorem only_notePool (h : Only ps s t) (k : [.can] ⊆ ps) :
    Only ps s (notePool t) := by
  simp only [List.cons_subset, List.nil_subset, and_true] at k
  unfold notePool
  try dsimp only
  repeat' (first | (simp (maxDischargeDepth := 30) [*]; done) | split)

@[simp] theorem only_ueReturned {l : List (Nat × Word)} (h : Only ps s t) (k : [.host, .nv, .out] ⊆ ps) :
    Only ps s (ueReturned t l) := by
  induction l generalizing t with
  | nil => exact h
  | cons w r ih => exact ih (only_record h (by simpa using k))

@[simp] theorem only_ueBack {x1 : Nat} (h : Only ps s t) (k : [.ln, .host, .nv, .out] ⊆ ps) :
    Only ps s (ueBack t x1) := by
  simp only [List.cons_subset, List.nil_subset, and_true] at k
  unfold ueBack
  try dsimp only
  repeat' (first | (simp (maxDischargeDepth := 30) [*]; done) | split | (refine only_foldl ?_ fun _ _ => ?_) | (refine only_foldl_fst ?_ fun _ _ => ?_))

@[simp] theorem only_freeRetained (h : Only ps s t) (k : [.can, .host, .nv, .out] ⊆ ps) :
    Only ps s (freeRetained t) := by
  simp only [List.cons_subset, List.nil_subset, and_true] at k
  unfold freeRetained
  try dsimp only
  repeat' (first | (simp (maxDischargeDepth := 30) [*]; done) | split)

@[simp] theorem only_unneed {t1 : Nat} (h : Only ps s t) (k : [.can, .host, .nv, .out] ⊆ ps) :
    Only ps s (unneed t t1) := by
  simp only [List.cons_subset, List.nil_subset, and_true] at k
  unfold unneed
  try dsimp only
  repeat' (first | (simp (maxDischargeDepth := 30) [*]; done) | split)

@[simp] theorem only_seeS (h : Only ps s t) (k : [.seq] ⊆ ps) :
    Only ps s (seeS t) := by
  simp only [List.cons_subset, List.nil_subset, and_true] at k
  unfold seeS
  try dsimp only
  repeat' (first | (simp (maxDischargeDepth := 30) [*]; done) | split | (refine only_foldl ?_ fun _ _ => ?_) | (refine only_foldl_fst ?_ fun _ _ => ?_))

@[simp] theorem only_ageCopy {x1 : Nat} {c : Copy} (h : Only ps s t) (k : [.ln, .seq, .host, .nv, .out] ⊆ ps) :
    Only ps s (ageCopy t x1 c) := by
  simp only [List.cons_subset, List.nil_subset, and_true] at k
  unfold ageCopy
  try dsimp only
  repeat' (first | (simp (maxDischargeDepth := 30) [*]; done) | split)

@[simp] theorem only_setRunning {n : Nat} {x2 : Option Nat} (h : Only ps s t) (k : [.ln] ⊆ ps) :
    Only ps s (setRunning t n x2) := by
  simp only [List.cons_subset, List.nil_subset, and_true] at k
  unfold setRunning
  try dsimp only
  repeat' (first | (simp (maxDischargeDepth := 30) [*]; done) | split)

@[simp] theorem only_chooseLane {n : Nat} (h : Only ps s t) (k : [.ln] ⊆ ps) :
    Only ps s (chooseLane t n) := by
  simp only [List.cons_subset, List.nil_subset, and_true] at k
  unfold chooseLane
  try dsimp only
  repeat' (first | (simp (maxDischargeDepth := 30) [*]; done) | split)

@[simp] theorem only_decideLane {n : Nat} (h : Only ps s t) (k : [.ln, .seq, .host, .nv, .out] ⊆ ps) :
    Only ps s (decideLane t n) := by
  simp only [List.cons_subset, List.nil_subset, and_true] at k
  unfold decideLane
  try dsimp only
  repeat' (first | (simp (maxDischargeDepth := 30) [*]; done) | split | (refine only_foldl ?_ fun _ _ => ?_))

@[simp] theorem only_decideLanes {l : List Nat} (h : Only ps s t) (k : [.ln, .seq, .host, .nv, .out] ⊆ ps) :
    Only ps s (decideLanes t l) := by
  simp only [List.cons_subset, List.nil_subset, and_true] at k
  unfold decideLanes
  try dsimp only
  repeat' (first | (simp (maxDischargeDepth := 30) [*]; done) | split | (refine only_foldl ?_ fun _ _ => ?_))

@[simp] theorem only_releaseSpare {n : Nat} (h : Only ps s t) (k : [.ln] ⊆ ps) :
    Only ps s (releaseSpare t n) := by
  simp only [List.cons_subset, List.nil_subset, and_true] at k
  unfold releaseSpare
  try dsimp only
  repeat' (first | (simp (maxDischargeDepth := 30) [*]; done) | split)

@[simp] theorem only_dropCopies {t1 : Nat} (h : Only ps s t) (k : [.ln, .seq, .host, .nv, .out] ⊆ ps) :
    Only ps s (dropCopies t t1) := by
  simp only [List.cons_subset, List.nil_subset, and_true] at k
  unfold dropCopies
  try dsimp only
  repeat' (first | (simp (maxDischargeDepth := 30) [*]; done) | split | (refine only_foldl ?_ fun _ _ => ?_))

@[simp] theorem only_placeCopies {t1 : Nat} (h : Only ps s t) (k : [.free, .ln, .seq, .host, .nv, .out] ⊆ ps) :
    Only ps s (placeCopies t t1) := by
  simp only [List.cons_subset, List.nil_subset, and_true] at k
  unfold placeCopies
  try dsimp only
  repeat' (first | (simp (maxDischargeDepth := 30) [*]; done) | split | (refine only_foldl ?_ fun _ _ => ?_) | (refine only_foldl_fst ?_ fun _ _ => ?_))

@[simp] theorem only_startNext {t1 : Nat} (h : Only ps s t) (k : [.free, .ln, .seq, .can, .host, .nv, .out] ⊆ ps) :
    Only ps s (startNext t t1) := by
  simp only [List.cons_subset, List.nil_subset, and_true] at k
  unfold startNext
  try dsimp only
  repeat' (first | (simp (maxDischargeDepth := 30) [*]; done) | split | (refine only_foldl ?_ fun _ _ => ?_) | (refine only_foldl_fst ?_ fun _ _ => ?_))

@[simp] theorem only_endInst {t1 : Nat} (h : Only ps s t) (k : [.free, .ln, .seq, .can, .host, .nv, .out] ⊆ ps) :
    Only ps s (endInst t t1) := by
  simp only [List.cons_subset, List.nil_subset, and_true] at k
  unfold endInst
  try dsimp only
  repeat' (first | (simp (maxDischargeDepth := 30) [*]; done) | split)

@[simp] theorem only_dropNext {t1 : Nat} (h : Only ps s t) (k : [.seq, .can, .host, .nv, .out] ⊆ ps) :
    Only ps s (dropNext t t1) := by
  simp only [List.cons_subset, List.nil_subset, and_true] at k
  unfold dropNext
  try dsimp only
  repeat' (first | (simp (maxDischargeDepth := 30) [*]; done) | split | (refine only_foldl ?_ fun _ _ => ?_) | (refine only_foldl_fst ?_ fun _ _ => ?_))

@[simp] theorem only_stopInst {t1 : Nat} (h : Only ps s t) (k : [.free, .ln, .seq, .can, .host, .nv, .out] ⊆ ps) :
    Only ps s (stopInst t t1) := by
  simp only [List.cons_subset, List.nil_subset, and_true] at k
  unfold stopInst
  try dsimp only
  repeat' (first | (simp (maxDischargeDepth := 30) [*]; done) | split)

@[simp] theorem only_dropCopy {x1 : Nat} {c : Copy} (h : Only ps s t) (k : [.ln, .seq, .host, .nv, .out] ⊆ ps) :
    Only ps s (dropCopy t x1 c) := by
  simp only [List.cons_subset, List.nil_subset, and_true] at k
  unfold dropCopy
  try dsimp only
  repeat' (first | (simp (maxDischargeDepth := 30) [*]; done) | split | (refine only_foldl ?_ fun _ _ => ?_) | (refine only_foldl_fst ?_ fun _ _ => ?_))

@[simp] theorem only_stopOpen {t1 : Nat} (h : Only ps s t) (k : [.free, .ln, .seq, .can, .host, .nv, .out] ⊆ ps) :
    Only ps s (stopOpen t t1) := by
  simp only [List.cons_subset, List.nil_subset, and_true] at k
  unfold stopOpen
  try dsimp only
  repeat' (first | (simp (maxDischargeDepth := 30) [*]; done) | split | (refine only_foldl ?_ fun _ _ => ?_) | (refine only_foldl_fst ?_ fun _ _ => ?_))

@[simp] theorem only_stopTasks {ts : List Nat} (h : Only ps s t) (k : [.free, .ln, .seq, .can, .host, .nv, .out] ⊆ ps) :
    Only ps s (stopTasks t ts) := by
  simp only [List.cons_subset, List.nil_subset, and_true] at k
  unfold stopTasks
  try dsimp only
  repeat' (first | (simp (maxDischargeDepth := 30) [*]; done) | split | (refine only_foldl ?_ fun _ _ => ?_))

@[simp] theorem only_stopCopy {x1 : Nat} (h : Only ps s t) (k : [.free, .ln, .seq, .can, .host, .nv, .out] ⊆ ps) :
    Only ps s (stopCopy t x1) := by
  simp only [List.cons_subset, List.nil_subset, and_true] at k
  unfold stopCopy
  try dsimp only
  repeat' (first | (simp (maxDischargeDepth := 30) [*]; done) | split | (refine only_foldl ?_ fun _ _ => ?_) | (refine only_foldl_fst ?_ fun _ _ => ?_))

@[simp] theorem only_raiseTrigger {t1 : Nat} {source : Nat} (h : Only ps s t) (k : [.seq] ⊆ ps) :
    Only ps s (raiseTrigger t t1 source) := by
  simp only [List.cons_subset, List.nil_subset, and_true] at k
  unfold raiseTrigger
  try dsimp only
  repeat' (first | (simp (maxDischargeDepth := 30) [*]; done) | split)

@[simp] theorem only_raiseSource {source : Nat} {sel : Nat → Bool} (h : Only ps s t) (k : [.seq] ⊆ ps) :
    Only ps s (raiseSource t source sel) := by
  simp only [List.cons_subset, List.nil_subset, and_true] at k
  unfold raiseSource
  try dsimp only
  repeat' (first | (simp (maxDischargeDepth := 30) [*]; done) | split | (refine only_foldl ?_ fun _ _ => ?_))

@[simp] theorem only_armTasks (h : Only ps s t) (k : [.seq] ⊆ ps) :
    Only ps s (armTasks t) := by
  simp only [List.cons_subset, List.nil_subset, and_true] at k
  unfold armTasks
  try dsimp only
  repeat' (first | (simp (maxDischargeDepth := 30) [*]; done) | split | (refine only_foldl ?_ fun _ _ => ?_))

@[simp] theorem only_retainLine {by_ : Option Nat} {line : Nat} (h : Only ps s t) (k : [.can] ⊆ ps) :
    Only ps s (retainLine by_ t line) := by
  simp only [List.cons_subset, List.nil_subset, and_true] at k
  unfold retainLine
  try dsimp only
  repeat' (first | (simp (maxDischargeDepth := 30) [*]; done) | split)

@[simp] theorem only_holdLine {id : BitVec 16} {line : Nat} (h : Only ps s t) (k : [.can] ⊆ ps) :
    Only ps s (holdLine id t line) := by
  simp only [List.cons_subset, List.nil_subset, and_true] at k
  unfold holdLine
  try dsimp only
  repeat' (first | (simp (maxDischargeDepth := 30) [*]; done) | split | (refine only_foldl ?_ fun _ _ => ?_) | (refine only_foldl_fst ?_ fun _ _ => ?_))

@[simp] theorem only_publish {by_ : Option Nat} {b : List (Nat × Byte)} (h : Only ps s t) (k : [.seq, .can] ⊆ ps) :
    Only ps s (publish t by_ b) := by
  simp only [List.cons_subset, List.nil_subset, and_true] at k
  unfold publish
  try dsimp only
  repeat' (first | (simp (maxDischargeDepth := 30) [*]; done) | split | (refine only_foldl ?_ fun _ _ => ?_))

@[simp] theorem only_canCorrected {loc : ErrLoc} {finder : Nat} {a : Nat} (h : Only ps s t) (k : [.free, .can, .host, .nv, .out] ⊆ ps) :
    Only ps s (canCorrected t loc finder a) := by
  simp only [List.cons_subset, List.nil_subset, and_true] at k
  unfold canCorrected
  try dsimp only
  repeat' (first | (simp (maxDischargeDepth := 30) [*]; done) | split)

@[simp] theorem only_snapWord {a : Nat} {w : Word} {sel : Nat → Inst → Bool} (h : Only ps s t) (k : [.seq] ⊆ ps) :
    Only ps s (snapWord t a w sel) := by
  simp only [List.cons_subset, List.nil_subset, and_true] at k
  unfold snapWord
  try dsimp only
  repeat' (first | (simp (maxDischargeDepth := 30) [*]; done) | split | (refine only_foldl ?_ fun _ _ => ?_) | (refine only_foldl_fst ?_ fun _ _ => ?_))

@[simp] theorem only_modVersion {a : Nat} {ver : Nat} {f : Retained → Retained} (h : Only ps s t) (k : [.can] ⊆ ps) :
    Only ps s (modVersion t a ver f) := by
  simp only [List.cons_subset, List.nil_subset, and_true] at k
  unfold modVersion
  try dsimp only
  repeat' (first | (simp (maxDischargeDepth := 30) [*]; done) | split | (refine only_foldl ?_ fun _ _ => ?_) | (refine only_foldl_fst ?_ fun _ _ => ?_))

@[simp] theorem only_locWord {loc : ErrLoc} {a : Nat} {w : Word} (h : Only ps s t) (k : [.ln, .seq, .can] ⊆ ps) :
    Only ps s (locWord t loc a w) := by
  simp only [List.cons_subset, List.nil_subset, and_true] at k
  unfold locWord
  try dsimp only
  repeat' (first | (simp (maxDischargeDepth := 30) [*]; done) | split | (refine only_foldl ?_ fun _ _ => ?_) | (refine only_foldl_fst ?_ fun _ _ => ?_))

@[simp] theorem only_canUncorrected {loc : ErrLoc} {finder : Nat} {a : Nat} (h : Only ps s t) (k : [.free, .ln, .seq, .can, .host, .nv, .out] ⊆ ps) :
    Only ps s (canUncorrected t loc finder a) := by
  simp only [List.cons_subset, List.nil_subset, and_true] at k
  unfold canUncorrected
  try dsimp only
  repeat' (first | (simp (maxDischargeDepth := 30) [*]; done) | split)

@[simp] theorem only_canWrong {loc : ErrLoc} {finder : Nat} {a : Nat} {counted : Bool} (h : Only ps s t) (k : [.free, .ln, .seq, .can, .host, .nv, .out] ⊆ ps) :
    Only ps s (canWrong t loc finder a counted) := by
  simp only [List.cons_subset, List.nil_subset, and_true] at k
  unfold canWrong
  try dsimp only
  repeat' (first | (simp (maxDischargeDepth := 30) [*]; done) | split | (refine only_foldl ?_ fun _ _ => ?_) | (refine only_foldl_fst ?_ fun _ _ => ?_))

@[simp] theorem only_canRepair {has : Nat → Bool} (h : Only ps s t) (k : [.can, .host, .nv, .out] ⊆ ps) :
    Only ps s (canRepair t has) := by
  simp only [List.cons_subset, List.nil_subset, and_true] at k
  unfold canRepair
  try dsimp only
  repeat' (first | (simp (maxDischargeDepth := 30) [*]; done) | split | (refine only_foldl ?_ fun _ _ => ?_))

@[simp] theorem only_publishWhole {b : List (Nat × Byte)} (h : Only ps s t) (k : [.seq, .can, .host, .nv, .out] ⊆ ps) :
    Only ps s (publishWhole t b) := by
  simp only [List.cons_subset, List.nil_subset, and_true] at k
  unfold publishWhole
  try dsimp only
  repeat' (first | (simp (maxDischargeDepth := 30) [*]; done) | split | (refine only_foldl ?_ fun _ _ => ?_) | (refine only_foldl_fst ?_ fun _ _ => ?_))

@[simp] theorem only_publishInputs {b : List (Nat × Byte)} (h : Only ps s t) (k : [.seq, .can, .host, .nv, .out] ⊆ ps) :
    Only ps s (publishInputs t b) := by
  simp only [List.cons_subset, List.nil_subset, and_true] at k
  unfold publishInputs
  try dsimp only
  repeat' (first | (simp (maxDischargeDepth := 30) [*]; done) | split | (refine only_foldl ?_ fun _ _ => ?_) | (refine only_foldl_fst ?_ fun _ _ => ?_))

@[simp] theorem only_noteShadow {x1 : Nat} {c : Copy} (h : Only ps s t) (k : [.ln, .can] ⊆ ps) :
    Only ps s (noteShadow t x1 c) := by
  simp only [List.cons_subset, List.nil_subset, and_true] at k
  unfold noteShadow
  try dsimp only
  repeat' (first | (simp (maxDischargeDepth := 30) [*]; done) | split | (refine only_foldl ?_ fun _ _ => ?_) | (refine only_foldl_fst ?_ fun _ _ => ?_))

theorem only_copyStore {n : Nat} {c : Copy} {a : Nat} {b : List Byte} {x : State × Copy} (h : Only ps s t)
    (k : [.ln, .can] ⊆ ps) (e : copyStore t n c a b = some x) : Only ps s x.1 := by
  simp only [List.cons_subset, List.nil_subset, and_true] at k
  unfold copyStore at e
  repeat' (first | (cases e; done) | (injection e with e; subst e; simp [*]; done) | split at e)

theorem only_copyStoreAll {n : Nat} {c : Copy} {l : List (Nat × Byte)} {x : State × Copy} (h : Only ps s t)
    (k : [.ln, .can] ⊆ ps) (e : copyStoreAll t n c l = some x) : Only ps s x.1 := by
  induction l generalizing t c with
  | nil =>
    injection e with e
    subst e
    exact h
  | cons y r ih =>
    unfold copyStoreAll at e
    split at e
    · rename_i hc
      exact ih (only_copyStore h k hc) e
    · cases e

@[simp] theorem only_bitAct {n : Nat} {c : Copy} {op : BitVec 3} {a : Nat} {b : Fin 8} (h : Only ps s t) (k : [.ln, .can] ⊆ ps) :
    Only ps s (bitAct t n c op a b).s := by
  unfold bitAct
  dsimp only
  split
  · exact h
  · split
    · rename_i hc
      exact only_copyStore h k hc
    · exact h

@[simp] theorem only_drawTag {reserved : Bool} (h : Only ps s t) (k : [.free, .yl] ⊆ ps) :
    Only ps s (drawTag t reserved).1 := by
  simp only [List.cons_subset, List.nil_subset, and_true] at k
  unfold drawTag
  try dsimp only
  repeat' (first | (simp (maxDischargeDepth := 30) [*]; done) | split | (refine only_foldl ?_ fun _ _ => ?_) | (refine only_foldl_fst ?_ fun _ _ => ?_))

@[simp] theorem only_endTags {l : List TagSt} {st : Nat} (h : Only ps s t) (k : [.yl] ⊆ ps) :
    Only ps s (endTags t l st) := by
  simp only [List.cons_subset, List.nil_subset, and_true] at k
  unfold endTags
  try dsimp only
  repeat' (first | (simp (maxDischargeDepth := 30) [*]; done) | split | (refine only_foldl ?_ fun _ _ => ?_) | (refine only_foldl_fst ?_ fun _ _ => ?_))

@[simp] theorem only_passTag {reserved : Bool} {st : Nat} (h : Only ps s t) (k : [.free, .yl] ⊆ ps) :
    Only ps s (passTag t reserved st) := by
  simp only [List.cons_subset, List.nil_subset, and_true] at k
  unfold passTag
  try dsimp only
  repeat' (first | (simp (maxDischargeDepth := 30) [*]; done) | split | (refine only_foldl ?_ fun _ _ => ?_) | (refine only_foldl_fst ?_ fun _ _ => ?_))

@[simp] theorem only_endTrans {sel : Trans → Bool} {st : Nat} (h : Only ps s t) (k : [.yl] ⊆ ps) :
    Only ps s (endTrans t sel st) := by
  simp only [List.cons_subset, List.nil_subset, and_true] at k
  unfold endTrans
  try dsimp only
  repeat' (first | (simp (maxDischargeDepth := 30) [*]; done) | split | (refine only_foldl ?_ fun _ _ => ?_) | (refine only_foldl_fst ?_ fun _ _ => ?_))

@[simp] theorem only_endWaits {sel : YWait → Bool} {st : Nat} (h : Only ps s t) (k : [.yl] ⊆ ps) :
    Only ps s (endWaits t sel st) := by
  simp only [List.cons_subset, List.nil_subset, and_true] at k
  unfold endWaits
  try dsimp only
  repeat' (first | (simp (maxDischargeDepth := 30) [*]; done) | split | (refine only_foldl ?_ fun _ _ => ?_) | (refine only_foldl_fst ?_ fun _ _ => ?_))

@[simp] theorem only_safeFrame {m : Word} (h : Only ps s t) (k : [.free, .yl, .fld] ⊆ ps) :
    Only ps s (safeFrame t m) := by
  simp only [List.cons_subset, List.nil_subset, and_true] at k
  unfold safeFrame
  try dsimp only
  repeat' (first | (simp (maxDischargeDepth := 30) [*]; done) | split)

@[simp] theorem only_withdrawReleases {x1 : Nat} (h : Only ps s t) (k : [.yl] ⊆ ps) :
    Only ps s (withdrawReleases t x1) := by
  simp only [List.cons_subset, List.nil_subset, and_true] at k
  unfold withdrawReleases
  try dsimp only
  repeat' (first | (simp (maxDischargeDepth := 30) [*]; done) | split | (refine only_foldl ?_ fun _ _ => ?_) | (refine only_foldl_fst ?_ fun _ _ => ?_))

@[simp] theorem only_admSafe {x1 : Nat} {due : Option (List (Nat × Nat)) → Option (List (Nat × Nat))} {safe : Nat → Bool} (h : Only ps s t) (k : [.yl] ⊆ ps) :
    Only ps s (admSafe t x1 due safe) := by
  simp only [List.cons_subset, List.nil_subset, and_true] at k
  unfold admSafe
  try dsimp only
  repeat' (first | (simp (maxDischargeDepth := 30) [*]; done) | split | (refine only_foldl ?_ fun _ _ => ?_) | (refine only_foldl_fst ?_ fun _ _ => ?_))

@[simp] theorem only_admSafeAll (h : Only ps s t) (k : [.yl] ⊆ ps) :
    Only ps s (admSafeAll t) := by
  simp only [List.cons_subset, List.nil_subset, and_true] at k
  unfold admSafeAll
  try dsimp only
  repeat' (first | (simp (maxDischargeDepth := 30) [*]; done) | split | (refine only_foldl ?_ fun _ _ => ?_))

@[simp] theorem only_admSafeOwned {sel : Nat → Bool} (h : Only ps s t) (k : [.yl] ⊆ ps) :
    Only ps s (admSafeOwned t sel) := by
  simp only [List.cons_subset, List.nil_subset, and_true] at k
  unfold admSafeOwned
  try dsimp only
  repeat' (first | (simp (maxDischargeDepth := 30) [*]; done) | split | (refine only_foldl ?_ fun _ _ => ?_))

@[simp] theorem only_admSafeWord {a : Nat} (h : Only ps s t) (k : [.yl] ⊆ ps) :
    Only ps s (admSafeWord t a) := by
  simp only [List.cons_subset, List.nil_subset, and_true] at k
  unfold admSafeWord
  try dsimp only
  repeat' (first | (simp (maxDischargeDepth := 30) [*]; done) | split | (refine only_foldl ?_ fun _ _ => ?_) | (refine only_foldl_fst ?_ fun _ _ => ?_))

@[simp] theorem only_canDrop {t1 : Nat} (h : Only ps s t) (k : [.cb] ⊆ ps) :
    Only ps s (canDrop t t1) := by
  simp only [List.cons_subset, List.nil_subset, and_true] at k
  unfold canDrop
  try dsimp only
  repeat' (first | (simp (maxDischargeDepth := 30) [*]; done) | split | (refine only_foldl ?_ fun _ _ => ?_))

@[simp] theorem only_dropRow {id : BitVec 16} (h : Only ps s t) (k : [.can, .yl, .host, .nv, .out] ⊆ ps) :
    Only ps s (dropRow t id) := by
  simp only [List.cons_subset, List.nil_subset, and_true] at k
  unfold dropRow
  try dsimp only
  repeat' (first | (simp (maxDischargeDepth := 30) [*]; done) | split)

@[simp] theorem only_cancelFrets {sel : FretE → Bool} (h : Only ps s t) (k : [.can, .fret, .yl, .host, .nv, .out] ⊆ ps) :
    Only ps s (cancelFrets t sel) := by
  simp only [List.cons_subset, List.nil_subset, and_true] at k
  unfold cancelFrets
  refine only_onFret (only_foldl h fun u e => ?_) (by simp [*])
  split <;> simp (maxDischargeDepth := 30) [*]

@[simp] theorem only_sendChange {t1 : Nat} {c : Change} (h : Only ps s t) (k : [.free, .yl, .fld] ⊆ ps) :
    Only ps s (sendChange t t1 c) := by
  simp only [List.cons_subset, List.nil_subset, and_true] at k
  unfold sendChange
  try dsimp only
  repeat' (first | (simp (maxDischargeDepth := 30) [*]; done) | split | (refine only_foldl ?_ fun _ _ => ?_) | (refine only_foldl_fst ?_ fun _ _ => ?_))

@[simp] theorem only_handOff {e : FretE} {stamp : Nat} {atFrame : Bool} (h : Only ps s t) (k : [.free, .fret, .yl, .fld] ⊆ ps) :
    Only ps s (handOff t e stamp atFrame).1 := by
  simp only [List.cons_subset, List.nil_subset, and_true] at k
  unfold handOff
  try dsimp only
  repeat' (first | (simp (maxDischargeDepth := 30) [*]; done) | split)

@[simp] theorem only_spend {e : FretE} (h : Only ps s t) (k : [.fret] ⊆ ps) :
    Only ps s (spend t e) := by
  simp only [List.cons_subset, List.nil_subset, and_true] at k
  unfold spend
  try dsimp only
  repeat' (first | (simp (maxDischargeDepth := 30) [*]; done) | split | (refine only_foldl ?_ fun _ _ => ?_) | (refine only_foldl_fst ?_ fun _ _ => ?_))

@[simp] theorem only_fireTrig {e : FretE} (h : Only ps s t) (k : [.seq] ⊆ ps) :
    Only ps s (fireTrig t e).1 := by
  simp only [List.cons_subset, List.nil_subset, and_true] at k
  unfold fireTrig
  try dsimp only
  repeat' (first | (simp (maxDischargeDepth := 30) [*]; done) | split)

@[simp] theorem only_fretLate {e : FretE} {d : Int} (h : Only ps s t) (k : [.fret, .host, .nv, .out] ⊆ ps) :
    Only ps s (fretLate t e d) := by
  simp only [List.cons_subset, List.nil_subset, and_true] at k
  unfold fretLate
  try dsimp only
  repeat' (first | (simp (maxDischargeDepth := 30) [*]; done) | split)

@[simp] theorem only_judge {e : FretE} (h : Only ps s t) (k : [.free, .seq, .can, .fret, .yl, .fld, .host, .nv, .out] ⊆ ps) :
    Only ps s (judge t e).1 := by
  simp only [List.cons_subset, List.nil_subset, and_true] at k
  unfold judge
  try dsimp only
  repeat' (first | (simp (maxDischargeDepth := 30) [*]; done) | split)

@[simp] theorem only_judgeAll {l : List FretE} (h : Only ps s t)
    (k : [.free, .seq, .can, .fret, .yl, .fld, .host, .nv, .out] ⊆ ps) : Only ps s (judgeAll t l).1 := by
  induction l generalizing t with
  | nil => exact h
  | cons e r ih =>
    unfold judgeAll
    exact ih (only_judge h k)

@[simp] theorem only_modRow {id : BitVec 16} {f : RowSt → RowSt} (h : Only ps s t) (k : [.fret] ⊆ ps) :
    Only ps s (modRow t id f) := by
  simp only [List.cons_subset, List.nil_subset, and_true] at k
  unfold modRow
  try dsimp only
  repeat' (first | (simp (maxDischargeDepth := 30) [*]; done) | split)

@[simp] theorem only_armRow {id : BitVec 16} (h : Only ps s t) (k : [.can, .fret, .yl, .host, .nv, .out] ⊆ ps) :
    Only ps s (armRow t id) := by
  simp only [List.cons_subset, List.nil_subset, and_true] at k
  unfold armRow
  try dsimp only
  repeat' (first | (simp (maxDischargeDepth := 30) [*]; done) | split)

@[simp] theorem only_putEntry {num : Nat} {o : Option FretE} (h : Only ps s t) (k : [.fret] ⊆ ps) :
    Only ps s (putEntry t num o) := by
  simp only [List.cons_subset, List.nil_subset, and_true] at k
  unfold putEntry
  try dsimp only
  repeat' (first | (simp (maxDischargeDepth := 30) [*]; done) | split | (refine only_foldl ?_ fun _ _ => ?_) | (refine only_foldl_fst ?_ fun _ _ => ?_))

@[simp] theorem only_judgeShaft {sh : Nat} (h : Only ps s t) (k : [.free, .seq, .can, .fret, .yl, .fld, .host, .nv, .out] ⊆ ps) :
    Only ps s (judgeShaft t sh) := by
  simp only [List.cons_subset, List.nil_subset, and_true] at k
  unfold judgeShaft
  try dsimp only
  repeat' (first | (simp (maxDischargeDepth := 30) [*]; done) | split | (refine only_foldl ?_ fun _ _ => ?_))

@[simp] theorem only_rowEnter {e : FretE} (h : Only ps s t) (k : [.can, .fret] ⊆ ps) :
    Only ps s (rowEnter t e).1 := by
  simp only [List.cons_subset, List.nil_subset, and_true] at k
  unfold rowEnter
  try dsimp only
  repeat' (first | (simp (maxDischargeDepth := 30) [*]; done) | split | (refine only_foldl ?_ fun _ _ => ?_) | (refine only_foldl_fst ?_ fun _ _ => ?_))

@[simp] theorem only_fretEnter {e : FretE} (h : Only ps s t) (k : [.free, .seq, .can, .fret, .yl, .fld, .host, .nv, .out] ⊆ ps) :
    Only ps s (fretEnter t e) := by
  simp only [List.cons_subset, List.nil_subset, and_true] at k
  unfold fretEnter
  try dsimp only
  repeat' (first | (simp (maxDischargeDepth := 30) [*]; done) | split)

@[simp] theorem only_fretCancel {task : Nat} {key : Word} (h : Only ps s t) (k : [.can, .fret, .yl, .host, .nv, .out] ⊆ ps) :
    Only ps s (fretCancel t task key) := by
  simp only [List.cons_subset, List.nil_subset, and_true] at k
  unfold fretCancel
  try dsimp only
  repeat' (first | (simp (maxDischargeDepth := 30) [*]; done) | split)

@[simp] theorem only_rowMissed {e : FretE} {r : RowSt} (h : Only ps s t) (k : [.seq, .can, .fret, .yl, .host, .nv, .out] ⊆ ps) :
    Only ps s (rowMissed t e r) := by
  simp only [List.cons_subset, List.nil_subset, and_true] at k
  unfold rowMissed
  try dsimp only
  repeat' (first | (simp (maxDischargeDepth := 30) [*]; done) | split | (refine only_foldl ?_ fun _ _ => ?_))

@[simp] theorem only_rowDeadlines (h : Only ps s t) (k : [.fret] ⊆ ps) :
    Only ps s (rowDeadlines t) := by
  simp only [List.cons_subset, List.nil_subset, and_true] at k
  unfold rowDeadlines
  try dsimp only
  repeat' (first | (simp (maxDischargeDepth := 30) [*]; done) | split | (refine only_foldl ?_ fun _ _ => ?_) | (refine only_foldl_fst ?_ fun _ _ => ?_))

@[simp] theorem only_evalEntry {pos : Nat} {e : FretE} (h : Only ps s t) (k : [.free, .seq, .can, .fret, .yl, .fld, .host, .nv, .out] ⊆ ps) :
    Only ps s (evalEntry t pos e).1 := by
  simp only [List.cons_subset, List.nil_subset, and_true] at k
  unfold evalEntry
  try dsimp only
  repeat' (first | (simp (maxDischargeDepth := 30) [*]; done) | split)

@[simp] theorem only_evalAll (h : Only ps s t) (k : [.free, .seq, .can, .fret, .yl, .fld, .host, .nv, .out] ⊆ ps) :
    Only ps s (evalAll t) := by
  simp only [List.cons_subset, List.nil_subset, and_true] at k
  unfold evalAll
  try dsimp only
  repeat' (first | (simp (maxDischargeDepth := 30) [*]; done) | split | (refine only_foldl ?_ fun _ _ => ?_))

@[simp] theorem only_reproject {sh : Nat} {reversed : Bool} (h : Only ps s t) (k : [.free, .fret, .yl, .fld] ⊆ ps) :
    Only ps s (reproject t sh reversed) := by
  simp only [List.cons_subset, List.nil_subset, and_true] at k
  unfold reproject
  try dsimp only
  repeat' (first | (simp (maxDischargeDepth := 30) [*]; done) | split | (refine only_foldl ?_ fun _ _ => ?_))

@[simp] theorem only_shaftFault {n : Nat} (h : Only ps s t) (k : [.seq, .can, .fret, .yl, .host, .nv, .out] ⊆ ps) :
    Only ps s (shaftFault t n) := by
  simp only [List.cons_subset, List.nil_subset, and_true] at k
  unfold shaftFault
  refine only_cancelFrets (only_foldl ?_ fun u e => ?_) (by simp [*])
  · simp (maxDischargeDepth := 30) [*]
  · split <;> simp (maxDischargeDepth := 30) [*]

@[simp] theorem only_encError {n : Nat} {kind : Nat} (h : Only ps s t) (k : [.seq, .can, .fret, .yl, .host, .nv, .out] ⊆ ps) :
    Only ps s (encError t n kind) := by
  simp only [List.cons_subset, List.nil_subset, and_true] at k
  unfold encError
  try dsimp only
  repeat' (first | (simp (maxDischargeDepth := 30) [*]; done) | split)

@[simp] theorem only_referenceEdge {n : Nat} (h : Only ps s t) (k : [.free, .seq, .can, .fret, .yl, .fld, .host, .nv, .out] ⊆ ps) :
    Only ps s (referenceEdge t n) := by
  simp only [List.cons_subset, List.nil_subset, and_true] at k
  unfold referenceEdge
  try dsimp only
  repeat' (first | (simp (maxDischargeDepth := 30) [*]; done) | split)

@[simp] theorem only_loopEvent {n : Nat} (h : Only ps s t) (k : [.seq] ⊆ ps) :
    Only ps s (loopEvent t n) := by
  simp only [List.cons_subset, List.nil_subset, and_true] at k
  unfold loopEvent
  try dsimp only
  repeat' (first | (simp (maxDischargeDepth := 30) [*]; done) | split)

@[simp] theorem only_loopFault {n : Nat} {reason : Nat} {r : Word} {y : Word} (h : Only ps s t) (k : [.seq, .lp, .host, .nv, .out] ⊆ ps) :
    Only ps s (loopFault t n reason r y) := by
  simp only [List.cons_subset, List.nil_subset, and_true] at k
  unfold loopFault
  try dsimp only
  repeat' (first | (simp (maxDischargeDepth := 30) [*]; done) | split)

@[simp] theorem only_tuneEnded {n : Nat} {st : Nat} {ku : Word} {tu : Word} (h : Only ps s t) (k : [.seq, .lp, .host, .nv, .out] ⊆ ps) :
    Only ps s (tuneEnded t n st ku tu) := by
  simp only [List.cons_subset, List.nil_subset, and_true] at k
  unfold tuneEnded
  try dsimp only
  repeat' (first | (simp (maxDischargeDepth := 30) [*]; done) | split)

@[simp] theorem only_tuneStart {n : Nat} {rule : Nat} {cycles : Nat} {dr : Word} {eps : Word} {limitMs : Nat} (h : Only ps s t) (k : [.seq, .can, .lp, .host, .nv, .out] ⊆ ps) :
    Only ps s (tuneStart t n rule cycles dr eps limitMs).1 := by
  simp only [List.cons_subset, List.nil_subset, and_true] at k
  unfold tuneStart
  try dsimp only
  repeat' (first | (simp (maxDischargeDepth := 30) [*]; done) | split)

@[simp] theorem only_tuneEndNow {n : Nat} {st : Nat} (h : Only ps s t) (k : [.seq, .can, .lp, .host, .nv, .out] ⊆ ps) :
    Only ps s (tuneEndNow t n st) := by
  simp only [List.cons_subset, List.nil_subset, and_true] at k
  unfold tuneEndNow
  try dsimp only
  repeat' (first | (simp (maxDischargeDepth := 30) [*]; done) | split)

@[simp] theorem only_tuneEndsAs {n : Nat} {st : Nat} (h : Only ps s t) (k : [.lp] ⊆ ps) :
    Only ps s (tuneEndsAs t n st) := by
  simp only [List.cons_subset, List.nil_subset, and_true] at k
  unfold tuneEndsAs
  try dsimp only
  repeat' (first | (simp (maxDischargeDepth := 30) [*]; done) | split | (refine only_foldl ?_ fun _ _ => ?_) | (refine only_foldl_fst ?_ fun _ _ => ?_))

@[simp] theorem only_tuneAbort {n : Nat} (h : Only ps s t) (k : [.seq, .can, .lp, .host, .nv, .out] ⊆ ps) :
    Only ps s (tuneAbort t n).1 := by
  simp only [List.cons_subset, List.nil_subset, and_true] at k
  unfold tuneAbort
  try dsimp only
  repeat' (first | (simp (maxDischargeDepth := 30) [*]; done) | split)

@[simp] theorem only_capEnded {n : Nat} {st : Nat} {count : Nat} (h : Only ps s t) (k : [.seq, .host, .nv, .out] ⊆ ps) :
    Only ps s (capEnded t n st count) := by
  simp only [List.cons_subset, List.nil_subset, and_true] at k
  unfold capEnded
  try dsimp only
  repeat' (first | (simp (maxDischargeDepth := 30) [*]; done) | split)

@[simp] theorem only_capStart {n : Nat} {form : Nat} {atSp : Bool} {dec : Nat} {amp : Word} {par : Word} {records : Nat} (h : Only ps s t) (k : [.seq, .lp, .host, .nv, .out] ⊆ ps) :
    Only ps s (capStart t n form atSp dec amp par records).1 := by
  simp only [List.cons_subset, List.nil_subset, and_true] at k
  unfold capStart
  try dsimp only
  repeat' (first | (simp (maxDischargeDepth := 30) [*]; done) | split)

@[simp] theorem only_capAbort {n : Nat} (h : Only ps s t) (k : [.seq, .can, .lp, .host, .nv, .out] ⊆ ps) :
    Only ps s (capAbort t n).1 := by
  simp only [List.cons_subset, List.nil_subset, and_true] at k
  unfold capAbort
  try dsimp only
  repeat' (first | (simp (maxDischargeDepth := 30) [*]; done) | split)

@[simp] theorem only_capSample {n : Nat} {r : Word} {y : Word} {x4 : Word} (h : Only ps s t) (k : [.lp] ⊆ ps) :
    Only ps s (capSample t n r y x4).1 := by
  simp only [List.cons_subset, List.nil_subset, and_true] at k
  unfold capSample
  try dsimp only
  repeat' (first | (simp (maxDischargeDepth := 30) [*]; done) | split)

@[simp] theorem only_acc_foldl {α : Type} {f : LoopAcc → α → LoopAcc} {l : List α} {a : LoopAcc} (h : Only ps s a.s)
    (k : ∀ b x, Only ps b.s (f b x).s) : Only ps s (l.foldl f a).s := by
  induction l generalizing a with
  | nil => exact h
  | cons x l ih => exact ih (h.trans (k a x))

@[simp] theorem only_add {a : LoopAcc} {b : List (Nat × Byte)} (h : Only ps s a.s) : Only ps s (a.add b).s := h

@[simp] theorem only_capture {a : LoopAcc} {n : Nat} {r y u : Word} (h : Only ps s a.s) (k : [.lp] ⊆ ps) :
    Only ps s (a.capture n r y u).s := by
  unfold LoopAcc.capture
  exact only_capSample h k

@[simp] theorem only_endTune {a : LoopAcc} {n st : Nat} (h : Only ps s a.s) (k : [.lp] ⊆ ps) :
    Only ps s (a.endTune n st).s := by
  unfold LoopAcc.endTune
  exact only_modLoop h k

@[simp] theorem only_region {a : LoopAcc} {n : Nat} {e : LoopEv} (h : Only ps s a.s)
    (k : [.host, .nv, .out] ⊆ ps) : Only ps s (a.region n e).s := by
  unfold LoopAcc.region
  dsimp only
  split
  · exact only_record h k
  · exact h

@[simp] theorem only_single {a : LoopAcc} {n : Nat} (h : Only ps s a.s)
    (k : [.seq, .lp, .host, .nv, .out] ⊆ ps) : Only ps s (a.single n).s := by
  simp only [List.cons_subset, List.nil_subset, and_true] at k
  have h1 : ∀ t : LoopAcc, Only ps s t.s → ∀ e, Only ps s (t.region n e).s := fun t ht e => by simp [*]
  unfold LoopAcc.single
  dsimp only
  repeat' (first | (simp (maxDischargeDepth := 30) [*]; done) | split)

@[simp] theorem only_group {a : LoopAcc} {g : Nat} (h : Only ps s a.s)
    (k : [.seq, .lp, .host, .nv, .out] ⊆ ps) : Only ps s (a.group g).s := by
  simp only [List.cons_subset, List.nil_subset, and_true] at k
  unfold LoopAcc.group
  dsimp only
  split
  · refine only_add (only_onLp (only_acc_foldl (only_acc_foldl (only_modLoop (only_acc_foldl h fun b m => ?_) ?_) fun b m => ?_)
      fun b m => ?_) ?_)
    · split <;> simp (maxDischargeDepth := 30) [*]
    all_goals simp (maxDischargeDepth := 30) [*]
  · split
    · refine only_acc_foldl (only_acc_foldl h fun b m => ?_) fun b m => ?_
      · split <;> simp (maxDischargeDepth := 30) [*]
      · simp (maxDischargeDepth := 30) [*]
    · refine only_add (only_onLp (only_acc_foldl h fun b m => ?_) ?_)
      · split <;> simp (maxDischargeDepth := 30) [*]
      · simp [*]

@[simp] theorem only_loop {a : LoopAcc} {n : Nat} (h : Only ps s a.s)
    (k : [.seq, .lp, .host, .nv, .out] ⊆ ps) : Only ps s (a.loop n).s := by
  simp only [List.cons_subset, List.nil_subset, and_true] at k
  unfold LoopAcc.loop
  dsimp only
  repeat' (first | (simp (maxDischargeDepth := 30) [*]; done) | split)

@[simp] theorem only_loopWsCommit {w : LoopWs} (h : Only ps s t) (k : [.seq, .can, .lp, .host, .nv, .out] ⊆ ps) :
    Only ps s (loopWsCommit t w) := by
  simp only [List.cons_subset, List.nil_subset, and_true] at k
  unfold loopWsCommit
  try dsimp only
  repeat' (first | (simp (maxDischargeDepth := 30) [*]; done) | split | (refine only_foldl ?_ fun _ _ => ?_))

@[simp] theorem only_loopWsDrop {w : LoopWs} (h : Only ps s t) (k : [.seq, .can, .lp, .host, .nv, .out] ⊆ ps) :
    Only ps s (loopWsDrop t w) := by
  simp only [List.cons_subset, List.nil_subset, and_true] at k
  unfold loopWsDrop
  try dsimp only
  repeat' (first | (simp (maxDischargeDepth := 30) [*]; done) | split | (refine only_foldl ?_ fun _ _ => ?_) | (refine only_foldl_fst ?_ fun _ _ => ?_))

@[simp] theorem only_loopFlush (h : Only ps s t) (k : [.seq, .can, .lp, .host, .nv, .out] ⊆ ps) :
    Only ps s (loopFlush t) := by
  simp only [List.cons_subset, List.nil_subset, and_true] at k
  unfold loopFlush
  try dsimp only
  repeat' (first | (simp (maxDischargeDepth := 30) [*]; done) | split | (refine only_foldl ?_ fun _ _ => ?_))

@[simp] theorem only_loopAborts {sel : Nat → Bool} (h : Only ps s t) (k : [.seq, .can, .lp, .host, .nv, .out] ⊆ ps) :
    Only ps s (loopAborts t sel) := by
  simp only [List.cons_subset, List.nil_subset, and_true] at k
  unfold loopAborts
  try dsimp only
  repeat' (first | (simp (maxDischargeDepth := 30) [*]; done) | split | (refine only_foldl ?_ fun _ _ => ?_))

@[simp] theorem only_loopStop {sel : Nat → Bool} (h : Only ps s t) (k : [.seq, .can, .lp, .host, .nv, .out] ⊆ ps) :
    Only ps s (loopStop t sel) := by
  simp only [List.cons_subset, List.nil_subset, and_true] at k
  unfold loopStop
  try dsimp only
  repeat' (first | (simp (maxDischargeDepth := 30) [*]; done) | split | (refine only_foldl ?_ fun _ _ => ?_))

@[simp] theorem only_loopFreeze (h : Only ps s t) (k : [.seq, .can, .lp, .host, .nv, .out] ⊆ ps) :
    Only ps s (loopFreeze t) := by
  simp only [List.cons_subset, List.nil_subset, and_true] at k
  unfold loopFreeze
  try dsimp only
  repeat' (first | (simp (maxDischargeDepth := 30) [*]; done) | split)

@[simp] theorem only_loopEnterRun (h : Only ps s t) (k : [.lp] ⊆ ps) :
    Only ps s (loopEnterRun t) := by
  simp only [List.cons_subset, List.nil_subset, and_true] at k
  unfold loopEnterRun
  try dsimp only
  repeat' (first | (simp (maxDischargeDepth := 30) [*]; done) | split | (refine only_foldl ?_ fun _ _ => ?_))

@[simp] theorem only_release {t1 : Nat} (h : Only ps s t) (k : [.free, .ln, .seq, .host, .nv, .out] ⊆ ps) :
    Only ps s (release t t1) := by
  simp only [List.cons_subset, List.nil_subset, and_true] at k
  unfold release
  try dsimp only
  repeat' (first | (simp (maxDischargeDepth := 30) [*]; done) | split | (refine only_foldl ?_ fun _ _ => ?_))

@[simp] theorem only_skipRelease {t1 : Nat} (h : Only ps s t) (k : [.seq] ⊆ ps) :
    Only ps s (skipRelease t t1) := by
  simp only [List.cons_subset, List.nil_subset, and_true] at k
  unfold skipRelease
  try dsimp only
  repeat' (first | (simp (maxDischargeDepth := 30) [*]; done) | split)

@[simp] theorem only_groupCycle {g : Nat} {complete : Bool} {got : List Nat} (h : Only ps s t) (k : [.seq] ⊆ ps) :
    Only ps s (groupCycle t g complete got) := by
  simp only [List.cons_subset, List.nil_subset, and_true] at k
  unfold groupCycle
  try dsimp only
  repeat' (first | (simp (maxDischargeDepth := 30) [*]; done) | split)

@[simp] theorem only_groupsEnterRun (h : Only ps s t) (k : [.seq] ⊆ ps) :
    Only ps s (groupsEnterRun t) := by
  simp only [List.cons_subset, List.nil_subset, and_true] at k
  unfold groupsEnterRun
  try dsimp only
  repeat' (first | (simp (maxDischargeDepth := 30) [*]; done) | split | (refine only_foldl ?_ fun _ _ => ?_))

@[simp] theorem only_complete {n : Nat} {cid : BitVec 16} {op : Nat} {st : Nat} {v0 : Nat} {v1 : Nat} {v2 : Nat} (h : Only ps s t) (k : [.host, .out] ⊆ ps) :
    Only ps s (complete t n cid op st v0 v1 v2) := by
  simp only [List.cons_subset, List.nil_subset, and_true] at k
  unfold complete
  try dsimp only
  repeat' (first | (simp (maxDischargeDepth := 30) [*]; done) | split)

@[simp] theorem only_payOwed {n : Nat} (h : Only ps s t) (k : [.host, .out] ⊆ ps) :
    Only ps s (payOwed t n) := by
  simp only [List.cons_subset, List.nil_subset, and_true] at k
  unfold payOwed
  try dsimp only
  repeat' (first | (simp (maxDischargeDepth := 30) [*]; done) | split | (refine only_foldl ?_ fun _ _ => ?_))

@[simp] theorem only_longEnd {n : Nat} {cid : BitVec 16} (h : Only ps s t) (k : [.host] ⊆ ps) :
    Only ps s (longEnd t n cid) := by
  simp only [List.cons_subset, List.nil_subset, and_true] at k
  unfold longEnd
  try dsimp only
  repeat' (first | (simp (maxDischargeDepth := 30) [*]; done) | split)

@[simp] theorem only_finishWait {st : Nat} {v0 : Nat} {v1 : Nat} {v2 : Nat} {w : Wait} (h : Only ps s t) (k : [.host, .out] ⊆ ps) :
    Only ps s (finishWait st v0 v1 v2 t w) := by
  simp only [List.cons_subset, List.nil_subset, and_true] at k
  unfold finishWait
  try dsimp only
  repeat' (first | (simp (maxDischargeDepth := 30) [*]; done) | split)

@[simp] theorem only_finishWaits {sel : Wait → Bool} {st : Nat} {v0 : Nat} {v1 : Nat} {v2 : Nat} (h : Only ps s t) (k : [.host, .out] ⊆ ps) :
    Only ps s (finishWaits t sel st v0 v1 v2) := by
  simp only [List.cons_subset, List.nil_subset, and_true] at k
  unfold finishWaits
  try dsimp only
  repeat' (first | (simp (maxDischargeDepth := 30) [*]; done) | split | (refine only_foldl ?_ fun _ _ => ?_))

@[simp] theorem only_waitEvents {sel : Wait → Bool} (h : Only ps s t) (k : [.host, .nv, .out] ⊆ ps) :
    Only ps s (waitEvents t sel) := by
  simp only [List.cons_subset, List.nil_subset, and_true] at k
  unfold waitEvents
  try dsimp only
  repeat' (first | (simp (maxDischargeDepth := 30) [*]; done) | split | (refine only_foldl ?_ fun _ _ => ?_))

@[simp] theorem only_installTask {p : Plan} {t1 : Nat} (h : Only ps s t) (k : [.cfg] ⊆ ps) :
    Only ps s (installTask p t t1) := by
  simp only [List.cons_subset, List.nil_subset, and_true] at k
  unfold installTask
  try dsimp only
  repeat' (first | (simp (maxDischargeDepth := 30) [*]; done) | split | (refine only_foldl ?_ fun _ _ => ?_) | (refine only_foldl_fst ?_ fun _ _ => ?_))

@[simp] theorem only_zeroGone {p : Plan} {ts : List Nat} (h : Only ps s t) (k : [.seq, .can] ⊆ ps) :
    Only ps s (zeroGone t p ts) := by
  simp only [List.cons_subset, List.nil_subset, and_true] at k
  unfold zeroGone
  try dsimp only
  repeat' (first | (simp (maxDischargeDepth := 30) [*]; done) | split | (refine only_foldl ?_ fun _ _ => ?_) | (refine only_foldl_fst ?_ fun _ _ => ?_))

@[simp] theorem only_switchTasks {p : Plan} {ts : List Nat} (h : Only ps s t) (k : [.cfg, .seq, .can, .host, .nv, .out] ⊆ ps) :
    Only ps s (switchTasks t p ts) := by
  simp only [List.cons_subset, List.nil_subset, and_true] at k
  unfold switchTasks
  try dsimp only
  repeat' (first | (simp (maxDischargeDepth := 30) [*]; done) | (rw [only_iff] at h ⊢; simp_all; done) | split | (refine only_foldl ?_ fun _ _ => ?_))

@[simp] theorem only_switchHeld {p : Plan} (h : Only ps s t) (k : [.cfg, .seq, .can, .host, .pkg, .nv, .out] ⊆ ps) :
    Only ps s (switchHeld t p) := by
  simp only [List.cons_subset, List.nil_subset, and_true] at k
  unfold switchHeld
  try dsimp only
  repeat' (first | (simp (maxDischargeDepth := 30) [*]; done) | split | (refine only_foldl ?_ fun _ _ => ?_) | (refine only_foldl_fst ?_ fun _ _ => ?_))

@[simp] theorem only_exchCheckDone (h : Only ps s t) (k : [.cfg, .seq, .can, .host, .pkg, .nv, .out] ⊆ ps) :
    Only ps s (exchCheckDone t) := by
  simp only [List.cons_subset, List.nil_subset, and_true] at k
  unfold exchCheckDone
  try dsimp only
  repeat' (first | (simp (maxDischargeDepth := 30) [*]; done) | (rw [only_iff] at h ⊢; simp_all; done) | split)

@[simp] theorem only_switchCoord {p : Plan} (h : Only ps s t) (k : [.free, .cfg, .ln, .seq, .can, .host, .pkg, .nv, .out] ⊆ ps) :
    Only ps s (switchCoord t p) := by
  simp only [List.cons_subset, List.nil_subset, and_true] at k
  unfold switchCoord
  try dsimp only
  repeat' (first | (simp (maxDischargeDepth := 30) [*]; done) | split | (refine only_foldl ?_ fun _ _ => ?_))

@[simp] theorem only_arrive {p : Plan} {t1 : Nat} (h : Only ps s t) (k : [.free, .cfg, .ln, .seq, .can, .host, .pkg, .nv, .out] ⊆ ps) :
    Only ps s (arrive t p t1) := by
  simp only [List.cons_subset, List.nil_subset, and_true] at k
  unfold arrive
  try dsimp only
  repeat' (first | (simp (maxDischargeDepth := 30) [*]; done) | split)

@[simp] theorem only_exchAbort {cause : Nat} (h : Only ps s t) (k : [.host, .pkg, .nv, .out] ⊆ ps) :
    Only ps s (exchAbort t cause) := by
  simp only [List.cons_subset, List.nil_subset, and_true] at k
  unfold exchAbort
  try dsimp only
  repeat' (first | (simp (maxDischargeDepth := 30) [*]; done) | split)

@[simp] theorem only_stagedEnd {st : Nat} {v2 : Nat} (h : Only ps s t) (k : [.free, .ln, .seq, .can, .host, .pkg, .nv, .out] ⊆ ps) :
    Only ps s (stagedEnd t st v2) := by
  simp only [List.cons_subset, List.nil_subset, and_true] at k
  unfold stagedEnd
  try dsimp only
  repeat' (first | (simp (maxDischargeDepth := 30) [*]; done) | split)

@[simp] theorem only_exchTransition {fromRun : Bool} (h : Only ps s t) (k : [.free, .cfg, .ln, .seq, .can, .host, .pkg, .nv, .out] ⊆ ps) :
    Only ps s (exchTransition t fromRun) := by
  simp only [List.cons_subset, List.nil_subset, and_true] at k
  unfold exchTransition
  try dsimp only
  repeat' (first | (simp (maxDischargeDepth := 30) [*]; done) | split)

@[simp] theorem only_setFault {b : Nat} (h : Only ps s t) (k : [.dev] ⊆ ps) :
    Only ps s (setFault t b) := by
  simp only [List.cons_subset, List.nil_subset, and_true] at k
  unfold setFault
  try dsimp only
  repeat' (first | (simp (maxDischargeDepth := 30) [*]; done) | split)

@[simp] theorem only_leasesKept (h : Only ps s t) (k : [.host] ⊆ ps) :
    Only ps s (leasesKept t) := by
  simp only [List.cons_subset, List.nil_subset, and_true] at k
  unfold leasesKept
  try dsimp only
  repeat' (first | (simp (maxDischargeDepth := 30) [*]; done) | split)

@[simp] theorem only_moveTo {cause : Nat} {to_ : DevState} (h : Only ps s t) (k : [.dev, .seq, .host, .nv, .out] ⊆ ps) :
    Only ps s (moveTo t cause to_) := by
  simp only [List.cons_subset, List.nil_subset, and_true] at k
  unfold moveTo
  try dsimp only
  repeat' (first | (simp (maxDischargeDepth := 30) [*]; done) | (rw [only_iff] at h ⊢; simp_all; done) | split)

@[simp] theorem only_notLive {ts : List Nat} (h : Only ps s t) (k : [.seq] ⊆ ps) :
    Only ps s (notLive t ts) := by
  simp only [List.cons_subset, List.nil_subset, and_true] at k
  unfold notLive
  try dsimp only
  repeat' (first | (simp (maxDischargeDepth := 30) [*]; done) | split | (refine only_foldl ?_ fun _ _ => ?_))

@[simp] theorem only_stopSequence {cause : Nat} (h : Only ps s t) (k : [.free, .cfg, .dev, .ln, .seq, .can, .fret, .yl, .lp, .fld, .cb, .host, .pkg, .nv, .out] ⊆ ps) :
    Only ps s (stopSequence t cause) := by
  simp only [List.cons_subset, List.nil_subset, and_true] at k
  unfold stopSequence
  try dsimp only
  repeat' (first | (simp (maxDischargeDepth := 30) [*]; done) | split | (refine only_foldl ?_ fun _ _ => ?_))

@[simp] theorem only_guardStop {t1 : Nat} {kind : Nat} {bit : Nat} (h : Only ps s t) (k : [.free, .seq, .yl, .fld, .cb, .host, .nv, .out] ⊆ ps) :
    Only ps s (guardStop t t1 kind bit) := by
  simp only [List.cons_subset, List.nil_subset, and_true] at k
  unfold guardStop
  try dsimp only
  repeat' (first | (simp (maxDischargeDepth := 30) [*]; done) | split)

@[simp] theorem only_verdict {w : Win} (h : Only ps s t) (k : [.free, .seq, .yl, .fld, .cb, .host, .nv, .out] ⊆ ps) :
    Only ps s (verdict t w) := by
  simp only [List.cons_subset, List.nil_subset, and_true] at k
  unfold verdict
  try dsimp only
  repeat' (first | (simp (maxDischargeDepth := 30) [*]; done) | split)

@[simp] theorem only_decideWin {t1 : Nat} (h : Only ps s t) (k : [.free, .seq, .yl, .fld, .cb, .host, .nv, .out] ⊆ ps) :
    Only ps s (decideWin t t1) := by
  simp only [List.cons_subset, List.nil_subset, and_true] at k
  unfold decideWin
  try dsimp only
  repeat' (first | (simp (maxDischargeDepth := 30) [*]; done) | split)

@[simp] theorem only_stopNow {cause : Nat} {bit : Option Nat} (h : Only ps s t) (k : [.free, .cfg, .dev, .ln, .seq, .can, .fret, .yl, .lp, .fld, .cb, .host, .pkg, .nv, .out] ⊆ ps) :
    Only ps s (stopNow t cause bit) := by
  simp only [List.cons_subset, List.nil_subset, and_true] at k
  unfold stopNow
  try dsimp only
  repeat' (first | (simp (maxDischargeDepth := 30) [*]; done) | split | (refine only_foldl ?_ fun _ _ => ?_) | (refine only_foldl_fst ?_ fun _ _ => ?_))

end Sys2Proof.Machine
end

