-- ==== Sys2Proof/Laws/FramesUnits.lean ====
section
/-! SUPPORT. Frames of the shared operations: the engines, the ports, the field and the store. Each lemma says which parts of the state an
operation can change. -/
namespace Sys2Proof.Machine

variable {ps : List Part} {s t u : State}

@[simp] theorem only_judgeTwd (h : Only ps s t) (k : [.free, .cfg, .dev, .ln, .seq, .can, .fret, .yl, .lp, .fld, .cb, .host, .pkg, .nv, .out] ⊆ ps) :
    Only ps s (judgeTwd t) := by
  simp only [List.cons_subset, List.nil_subset, and_true] at k
  unfold judgeTwd
  try dsimp only
  repeat' (first | (simp (maxDischargeDepth := 30) [*]; done) | split | (refine only_foldl ?_ fun _ _ => ?_) | (refine only_foldl_fst ?_ fun _ _ => ?_))

@[simp] theorem only_judgeStops (h : Only ps s t) (k : [.free, .cfg, .dev, .ln, .seq, .can, .fret, .yl, .lp, .fld, .cb, .host, .pkg, .nv, .out] ⊆ ps) :
    Only ps s (judgeStops t) := by
  simp only [List.cons_subset, List.nil_subset, and_true] at k
  unfold judgeStops
  try dsimp only
  repeat' (first | (simp (maxDischargeDepth := 30) [*]; done) | split | (refine only_foldl ?_ fun _ _ => ?_) | (refine only_foldl_fst ?_ fun _ _ => ?_))

@[simp] theorem only_takeStop {cause : Nat} {bit : Option Nat} (h : Only ps s t) (k : [.free, .cfg, .dev, .ln, .seq, .can, .fret, .yl, .lp, .fld, .cb, .host, .pkg, .nv, .out] ⊆ ps) :
    Only ps s (takeStop t cause bit) := by
  simp only [List.cons_subset, List.nil_subset, and_true] at k
  unfold takeStop
  try dsimp only
  repeat' (first | (simp (maxDischargeDepth := 30) [*]; done) | split)

@[simp] theorem only_thaw (h : Only ps s t) (k : [.ln, .seq, .host, .nv, .out] ⊆ ps) :
    Only ps s (thaw t) := by
  simp only [List.cons_subset, List.nil_subset, and_true] at k
  unfold thaw
  try dsimp only
  repeat' (first | (simp (maxDischargeDepth := 30) [*]; done) | split)

@[simp] theorem only_enterClearing {item : Nat} (h : Only ps s t) (k : [.free, .cfg, .dev, .ln, .seq, .can, .fret, .yl, .lp, .fld, .cb, .host, .pkg, .nv, .out] ⊆ ps) :
    Only ps s (enterClearing t item) := by
  simp only [List.cons_subset, List.nil_subset, and_true] at k
  unfold enterClearing
  try dsimp only
  repeat' (first | (simp (maxDischargeDepth := 30) [*]; done) | split | (refine only_foldl ?_ fun _ _ => ?_))

@[simp] theorem only_clearCond {bit : Nat} {item : Nat} (h : Only ps s t) (k : [.free, .cfg, .dev, .ln, .seq, .can, .fret, .yl, .lp, .fld, .cb, .host, .pkg, .nv, .out] ⊆ ps) :
    Only ps s (clearCond t bit item) := by
  simp only [List.cons_subset, List.nil_subset, and_true] at k
  unfold clearCond
  try dsimp only
  repeat' (first | (simp (maxDischargeDepth := 30) [*]; done) | split)

@[simp] theorem only_enterHold (h : Only ps s t) (k : [.free, .cfg, .dev, .ln, .seq, .can, .lp, .host, .pkg, .nv, .out] ⊆ ps) :
    Only ps s (enterHold t) := by
  simp only [List.cons_subset, List.nil_subset, and_true] at k
  unfold enterHold
  try dsimp only
  repeat' (first | (simp (maxDischargeDepth := 30) [*]; done) | split)

@[simp] theorem only_resumeRun (h : Only ps s t) (k : [.free, .cfg, .dev, .ln, .seq, .can, .host, .pkg, .nv, .out] ⊆ ps) :
    Only ps s (resumeRun t) := by
  simp only [List.cons_subset, List.nil_subset, and_true] at k
  unfold resumeRun
  try dsimp only
  repeat' (first | (simp (maxDischargeDepth := 30) [*]; done) | split)

@[simp] theorem only_enterRun {cause : Nat} (h : Only ps s t) (k : [.free, .cfg, .dev, .ln, .seq, .can, .lp, .host, .pkg, .nv, .out] ⊆ ps) :
    Only ps s (enterRun t cause) := by
  simp only [List.cons_subset, List.nil_subset, and_true] at k
  unfold enterRun
  try dsimp only
  repeat' (first | (simp (maxDischargeDepth := 30) [*]; done) | split | (refine only_foldl ?_ fun _ _ => ?_))

@[simp] theorem only_ueReact {loc : ErrLoc} {finder : Nat} {a : Nat} (h : Only ps s t) (k : [.free, .cfg, .dev, .ln, .seq, .can, .fret, .yl, .lp, .fld, .cb, .host, .pkg, .nv, .out] ⊆ ps) :
    Only ps s (ueReact t loc finder a) := by
  simp only [List.cons_subset, List.nil_subset, and_true] at k
  unfold ueReact
  try dsimp only
  repeat' (first | (simp (maxDischargeDepth := 30) [*]; done) | split)

@[simp] theorem only_readFound {loc : ErrLoc} {finder : Nat} {a : Nat} {e : Ecc} (h : Only ps s t) (k : [.free, .cfg, .dev, .ln, .seq, .can, .fret, .yl, .lp, .fld, .cb, .host, .pkg, .nv, .out] ⊆ ps) :
    Only ps s (readFound t loc finder a e) := by
  simp only [List.cons_subset, List.nil_subset, and_true] at k
  unfold readFound
  try dsimp only
  repeat' (first | (simp (maxDischargeDepth := 30) [*]; done) | split)

@[simp] theorem only_foundError {finder : Nat} {e : EccErr} (h : Only ps s t) (k : [.free, .cfg, .dev, .ln, .seq, .can, .fret, .yl, .lp, .fld, .cb, .host, .pkg, .nv, .out] ⊆ ps) :
    Only ps s (foundError t finder e) := by
  simp only [List.cons_subset, List.nil_subset, and_true] at k
  unfold foundError
  try dsimp only
  repeat' (first | (simp (maxDischargeDepth := 30) [*]; done) | split)

@[simp] theorem only_sendFrame (h : Only ps s t) (k : [.seq, .yl, .fld, .out] ⊆ ps) :
    Only ps s (sendFrame t) := by
  simp only [List.cons_subset, List.nil_subset, and_true] at k
  unfold sendFrame
  try dsimp only
  repeat' (first | (simp (maxDischargeDepth := 30) [*]; done) | split)

@[simp] theorem only_frameStart (h : Only ps s t) (k : [.seq, .yl, .fld, .out] ⊆ ps) :
    Only ps s (frameStart t) := by
  simp only [List.cons_subset, List.nil_subset, and_true] at k
  unfold frameStart
  try dsimp only
  repeat' (first | (simp (maxDischargeDepth := 30) [*]; done) | split)

@[simp] theorem only_fieldGroups {ok : Bool} (h : Only ps s t) (k : [.seq] ⊆ ps) :
    Only ps s (fieldGroups t ok) := by
  simp only [List.cons_subset, List.nil_subset, and_true] at k
  unfold fieldGroups
  try dsimp only
  repeat' (first | (simp (maxDischargeDepth := 30) [*]; done) | split | (refine only_foldl ?_ fun _ _ => ?_))

@[simp] theorem only_onChan {x1 : Nat} {f : Chan → Chan} (h : Only ps s t) (k : [.fld] ⊆ ps) :
    Only ps s (onChan t x1 f) := by
  simp only [List.cons_subset, List.nil_subset, and_true] at k
  unfold onChan
  try dsimp only
  repeat' (first | (simp (maxDischargeDepth := 30) [*]; done) | split)

@[simp] theorem only_tell {n : News} (h : Only ps s t) (k : [.fld] ⊆ ps) :
    Only ps s (State.tell t n) := by
  simp only [List.cons_subset, List.nil_subset, and_true] at k
  unfold State.tell
  try dsimp only
  repeat' (first | (simp (maxDischargeDepth := 30) [*]; done) | split | (refine only_foldl ?_ fun _ _ => ?_) | (refine only_foldl_fst ?_ fun _ _ => ?_))

@[simp] theorem only_chanFault {x1 : Nat} {kind : Nat} {strike : Bool} (h : Only ps s t) (k : [.fld, .host, .nv, .out] ⊆ ps) :
    Only ps s (chanFault t x1 kind strike) := by
  simp only [List.cons_subset, List.nil_subset, and_true] at k
  unfold chanFault
  try dsimp only
  repeat' (first | (simp (maxDischargeDepth := 30) [*]; done) | split)

@[simp] theorem only_applyChange {c : Change} (h : Only ps s t) (k : [.fld] ⊆ ps) :
    Only ps s (applyChange t c) := by
  simp only [List.cons_subset, List.nil_subset, and_true] at k
  unfold applyChange
  try dsimp only
  repeat' (first | (simp (maxDischargeDepth := 30) [*]; done) | split | (refine only_foldl ?_ fun _ _ => ?_))

@[simp] theorem only_applyHeld {l : List Change} (h : Only ps s t) (k : [.fld] ⊆ ps) :
    Only ps s (applyHeld t l) := by
  simp only [List.cons_subset, List.nil_subset, and_true] at k
  unfold applyHeld
  try dsimp only
  repeat' (first | (simp (maxDischargeDepth := 30) [*]; done) | split | (refine only_foldl ?_ fun _ _ => ?_) | (refine only_foldl_fst ?_ fun _ _ => ?_))

@[simp] theorem only_holdChange {c : Change} {t1 : Nat} (h : Only ps s t) (k : [.fld, .host, .nv, .out] ⊆ ps) :
    Only ps s (holdChange t c t1) := by
  simp only [List.cons_subset, List.nil_subset, and_true] at k
  unfold holdChange
  try dsimp only
  repeat' (first | (simp (maxDischargeDepth := 30) [*]; done) | split | (refine only_foldl ?_ fun _ _ => ?_) | (refine only_foldl_fst ?_ fun _ _ => ?_))

@[simp] theorem only_takeChange {c : Change} {t1 : Nat} (h : Only ps s t) (k : [.fld, .host, .nv, .out] ⊆ ps) :
    Only ps s (takeChange t c t1) := by
  simp only [List.cons_subset, List.nil_subset, and_true] at k
  unfold takeChange
  try dsimp only
  repeat' (first | (simp (maxDischargeDepth := 30) [*]; done) | split | (refine only_foldl ?_ fun _ _ => ?_) | (refine only_foldl_fst ?_ fun _ _ => ?_))

@[simp] theorem only_takeSafe {m : Word} (h : Only ps s t) (k : [.fld] ⊆ ps) :
    Only ps s (takeSafe t m) := by
  simp only [List.cons_subset, List.nil_subset, and_true] at k
  unfold takeSafe
  try dsimp only
  repeat' (first | (simp (maxDischargeDepth := 30) [*]; done) | split | (refine only_foldl ?_ fun _ _ => ?_))

@[simp] theorem only_dieIdle (h : Only ps s t) (k : [.fld] ⊆ ps) :
    Only ps s (dieIdle t) := by
  simp only [List.cons_subset, List.nil_subset, and_true] at k
  unfold dieIdle
  try dsimp only
  repeat' (first | (simp (maxDischargeDepth := 30) [*]; done) | split | (refine only_foldl ?_ fun _ _ => ?_) | (refine only_foldl_fst ?_ fun _ _ => ?_))

@[simp] theorem only_dieWakes (h : Only ps s t) (k : [.fld] ⊆ ps) :
    Only ps s (dieWakes t) := by
  simp only [List.cons_subset, List.nil_subset, and_true] at k
  unfold dieWakes
  try dsimp only
  repeat' (first | (simp (maxDischargeDepth := 30) [*]; done) | split | (refine only_foldl ?_ fun _ _ => ?_) | (refine only_foldl_fst ?_ fun _ _ => ?_))

@[simp] theorem only_dieConfigs (h : Only ps s t) (k : [.fld, .host, .nv, .out] ⊆ ps) :
    Only ps s (dieConfigs t) := by
  simp only [List.cons_subset, List.nil_subset, and_true] at k
  unfold dieConfigs
  try dsimp only
  repeat' (first | (simp (maxDischargeDepth := 30) [*]; done) | split | (refine only_foldl ?_ fun _ _ => ?_) | (refine only_foldl_fst ?_ fun _ _ => ?_))

@[simp] theorem only_dieActs {d : DownFrame} {t1 : Nat} (h : Only ps s t) (k : [.fld, .host, .nv, .out] ⊆ ps) :
    Only ps s (dieActs t d t1) := by
  simp only [List.cons_subset, List.nil_subset, and_true] at k
  unfold dieActs
  try dsimp only
  repeat' (first | (simp (maxDischargeDepth := 30) [*]; done) | split | (refine only_foldl ?_ fun _ _ => ?_) | (refine only_foldl_fst ?_ fun _ _ => ?_))

@[simp] theorem only_dieReadmits (h : Only ps s t) (k : [.fld] ⊆ ps) :
    Only ps s (dieReadmits t) := by
  simp only [List.cons_subset, List.nil_subset, and_true] at k
  unfold dieReadmits
  try dsimp only
  repeat' (first | (simp (maxDischargeDepth := 30) [*]; done) | split | (refine only_foldl ?_ fun _ _ => ?_) | (refine only_foldl_fst ?_ fun _ _ => ?_))

@[simp] theorem only_dieTakes {x : Flight} {ok : Bool} (h : Only ps s t) (k : [.free, .seq, .fld, .host, .nv, .out] ⊆ ps) :
    Only ps s (dieTakes t x ok) := by
  simp only [List.cons_subset, List.nil_subset, and_true] at k
  unfold dieTakes
  try dsimp only
  repeat' (first | (simp (maxDischargeDepth := 30) [*]; done) | split | (refine only_foldl ?_ fun _ _ => ?_) | (refine only_foldl_fst ?_ fun _ _ => ?_))

@[simp] theorem only_chanReadmit {x1 : Nat} {may : Bool} {by_ : Nat} (h : Only ps s t) (k : [.fld, .host, .nv, .out] ⊆ ps) :
    Only ps s (chanReadmit t x1 may by_).1 := by
  simp only [List.cons_subset, List.nil_subset, and_true] at k
  unfold chanReadmit
  try dsimp only
  repeat' (first | (simp (maxDischargeDepth := 30) [*]; done) | split)

@[simp] theorem only_tellNews {n : News} (h : Only ps s t) (k : [.host, .nv, .out] ⊆ ps) :
    Only ps s (tellNews t n) := by
  simp only [List.cons_subset, List.nil_subset, and_true] at k
  unfold tellNews
  try dsimp only
  repeat' (first | (simp (maxDischargeDepth := 30) [*]; done) | split | (refine only_foldl ?_ fun _ _ => ?_) | (refine only_foldl_fst ?_ fun _ _ => ?_))

@[simp] theorem only_learn {a : Answer} (h : Only ps s t) (k : [.fld, .host, .nv, .out] ⊆ ps) :
    Only ps s (learn t a) := by
  simp only [List.cons_subset, List.nil_subset, and_true] at k
  unfold learn
  try dsimp only
  repeat' (first | (simp (maxDischargeDepth := 30) [*]; done) | split | (refine only_foldl ?_ fun _ _ => ?_) | (refine only_foldl_fst ?_ fun _ _ => ?_))

@[simp] theorem only_readRecord {id : Nat} {r : NvRec} (h : Only ps s t) (k : [.host, .nv, .out] ⊆ ps) :
    Only ps s (readRecord t id r) := by
  simp only [List.cons_subset, List.nil_subset, and_true] at k
  unfold readRecord
  try dsimp only
  repeat' (first | (simp (maxDischargeDepth := 30) [*]; done) | split)

@[simp] theorem only_stageSys {id : Nat} {d : List Byte} (h : Only ps s t) (k : [.nv] ⊆ ps) :
    Only ps s (stageSys t id d) := by
  simp only [List.cons_subset, List.nil_subset, and_true] at k
  unfold stageSys
  try dsimp only
  repeat' (first | (simp (maxDischargeDepth := 30) [*]; done) | split)

@[simp] theorem only_laneRecordDue (h : Only ps s t) (k : [.nv] ⊆ ps) :
    Only ps s (laneRecordDue t) := by
  simp only [List.cons_subset, List.nil_subset, and_true] at k
  unfold laneRecordDue
  try dsimp only
  repeat' (first | (simp (maxDischargeDepth := 30) [*]; done) | split)

@[simp] theorem only_pkgRecordDue (h : Only ps s t) (k : [.nv] ⊆ ps) :
    Only ps s (pkgRecordDue t) := by
  simp only [List.cons_subset, List.nil_subset, and_true] at k
  unfold pkgRecordDue
  try dsimp only
  repeat' (first | (simp (maxDischargeDepth := 30) [*]; done) | split)

@[simp] theorem only_overflowSaid (h : Only ps s t) (k : [.host, .nv, .out] ⊆ ps) :
    Only ps s (overflowSaid t) := by
  simp only [List.cons_subset, List.nil_subset, and_true] at k
  unfold overflowSaid
  try dsimp only
  repeat' (first | (simp (maxDischargeDepth := 30) [*]; done) | split | (refine only_foldl ?_ fun _ _ => ?_) | (refine only_foldl_fst ?_ fun _ _ => ?_))

@[simp] theorem only_sysEffect {id : Nat} {d : List Byte} (h : Only ps s t) (k : [.host, .pkg, .safe, .nv, .out] ⊆ ps) :
    Only ps s (sysEffect t id d) := by
  simp only [List.cons_subset, List.nil_subset, and_true] at k
  unfold sysEffect
  try dsimp only
  repeat' (first | (simp (maxDischargeDepth := 30) [*]; done) | split)

@[simp] theorem only_closeLoad (h : Only ps s t) (k : [.host, .pkg, .nv, .out] ⊆ ps) :
    Only ps s (closeLoad t) := by
  simp only [List.cons_subset, List.nil_subset, and_true] at k
  unfold closeLoad
  try dsimp only
  repeat' (first | (simp (maxDischargeDepth := 30) [*]; done) | split)

@[simp] theorem only_commitSys {id : Nat} (h : Only ps s t) (k : [.host, .pkg, .safe, .nv, .out] ⊆ ps) :
    Only ps s (commitSys t id) := by
  simp only [List.cons_subset, List.nil_subset, and_true] at k
  unfold commitSys
  try dsimp only
  repeat' (first | (simp (maxDischargeDepth := 30) [*]; done) | split)

@[simp] theorem only_pkgRecordNow (h : Only ps s t) (k : [.host, .pkg, .safe, .nv, .out] ⊆ ps) :
    Only ps s (pkgRecordNow t) := by
  simp only [List.cons_subset, List.nil_subset, and_true] at k
  unfold pkgRecordNow
  try dsimp only
  repeat' (first | (simp (maxDischargeDepth := 30) [*]; done) | split | (refine only_foldl ?_ fun _ _ => ?_) | (refine only_foldl_fst ?_ fun _ _ => ?_))

@[simp] theorem only_sayLost {x0 : Nat} (h : Only ps s t) (k : [.host, .nv, .out] ⊆ ps) :
    Only ps s (sayLost x0 t) := by
  simp only [List.cons_subset, List.nil_subset, and_true] at k
  unfold sayLost
  try dsimp only
  repeat' (first | (simp (maxDischargeDepth := 30) [*]; done) | split | (refine only_foldl ?_ fun _ _ => ?_) | (refine only_foldl_fst ?_ fun _ _ => ?_))

@[simp] theorem only_readCounter {x1 : Nat} (h : Only ps s t) (k : [.host, .nv, .out] ⊆ ps) :
    Only ps s (readCounter t x1) := by
  simp only [List.cons_subset, List.nil_subset, and_true] at k
  unfold readCounter
  try dsimp only
  repeat' (first | (simp (maxDischargeDepth := 30) [*]; done) | split)

@[simp] theorem only_bumpCtr {x1 : Nat} (h : Only ps s t) (k : [.host, .nv, .out] ⊆ ps) :
    Only ps s (bumpCtr t x1) := by
  simp only [List.cons_subset, List.nil_subset, and_true] at k
  unfold bumpCtr
  try dsimp only
  repeat' (first | (simp (maxDischargeDepth := 30) [*]; done) | split)

@[simp] theorem only_setWarm {b : Bool} {w : Warm} (h : Only ps s t) (k : [.nv] ⊆ ps) :
    Only ps s (setWarm t b w) := by
  simp only [List.cons_subset, List.nil_subset, and_true] at k
  unfold setWarm
  try dsimp only
  repeat' (first | (simp (maxDischargeDepth := 30) [*]; done) | split)

@[simp] theorem only_copyPart {x1 : Nat} (h : Only ps s t) (k : [.nv] ⊆ ps) :
    Only ps s (copyPart t x1) := by
  simp only [List.cons_subset, List.nil_subset, and_true] at k
  unfold copyPart
  try dsimp only
  repeat' (first | (simp (maxDischargeDepth := 30) [*]; done) | split | (refine only_foldl ?_ fun _ _ => ?_) | (refine only_foldl_fst ?_ fun _ _ => ?_))

@[simp] theorem only_abandonSave (h : Only ps s t) (k : [.free, .nv] ⊆ ps) :
    Only ps s (abandonSave t) := by
  simp only [List.cons_subset, List.nil_subset, and_true] at k
  unfold abandonSave
  try dsimp only
  repeat' (first | (simp (maxDischargeDepth := 30) [*]; done) | split | (refine only_foldl ?_ fun _ _ => ?_) | (refine only_foldl_fst ?_ fun _ _ => ?_))

@[simp] theorem only_warmSave {reason : Nat} (h : Only ps s t) (k : [.free, .yl, .host, .nv, .out] ⊆ ps) :
    Only ps s (warmSave t reason) := by
  simp only [List.cons_subset, List.nil_subset, and_true] at k
  unfold warmSave
  try dsimp only
  repeat' (first | (simp (maxDischargeDepth := 30) [*]; done) | split)

@[simp] theorem only_saveDue {reason : Nat} (h : Only ps s t) (k : [.free, .yl, .host, .nv, .out] ⊆ ps) :
    Only ps s (saveDue t reason) := by
  simp only [List.cons_subset, List.nil_subset, and_true] at k
  unfold saveDue
  try dsimp only
  repeat' (first | (simp (maxDischargeDepth := 30) [*]; done) | split | (refine only_foldl ?_ fun _ _ => ?_) | (refine only_foldl_fst ?_ fun _ _ => ?_))

@[simp] theorem only_warmCopyOver (h : Only ps s t) (k : [.nv] ⊆ ps) :
    Only ps s (warmCopyOver t) := by
  simp only [List.cons_subset, List.nil_subset, and_true] at k
  unfold warmCopyOver
  try dsimp only
  repeat' (first | (simp (maxDischargeDepth := 30) [*]; done) | split)

@[simp] theorem only_warmRestore (h : Only ps s t) (k : [.can, .host, .nv, .out] ⊆ ps) :
    Only ps s (warmRestore t).1 := by
  simp only [List.cons_subset, List.nil_subset, and_true] at k
  unfold warmRestore
  try dsimp only
  repeat' (first | (simp (maxDischargeDepth := 30) [*]; done) | split | (refine only_foldl ?_ fun _ _ => ?_))

@[simp] theorem only_firstServed (h : Only ps s t) (k : [.nv] ⊆ ps) :
    Only ps s (firstServed t) := by
  simp only [List.cons_subset, List.nil_subset, and_true] at k
  unfold firstServed
  try dsimp only
  repeat' (first | (simp (maxDischargeDepth := 30) [*]; done) | split)

@[simp] theorem only_recorderStep (h : Only ps s t) (k : [.host, .nv, .out] ⊆ ps) :
    Only ps s (recorderStep t) := by
  simp only [List.cons_subset, List.nil_subset, and_true] at k
  unfold recorderStep
  try dsimp only
  repeat' (first | (simp (maxDischargeDepth := 30) [*]; done) | split)

@[simp] theorem only_recorderFlush (h : Only ps s t) (k : [.host, .nv, .out] ⊆ ps) :
    Only ps s (recorderFlush t) := by
  simp only [List.cons_subset, List.nil_subset, and_true] at k
  unfold recorderFlush
  try dsimp only
  repeat' (first | (simp (maxDischargeDepth := 30) [*]; done) | split | (refine only_foldl ?_ fun _ _ => ?_))

@[simp] theorem only_flushAlone (h : Only ps s t) (k : [.host, .nv, .out] ⊆ ps) :
    Only ps s (flushAlone t) := by
  simp only [List.cons_subset, List.nil_subset, and_true] at k
  unfold flushAlone
  try dsimp only
  repeat' (first | (simp (maxDischargeDepth := 30) [*]; done) | split | (refine only_foldl ?_ fun _ _ => ?_) | (refine only_foldl_fst ?_ fun _ _ => ?_))

@[simp] theorem only_userWritten {w : UserW} (h : Only ps s t) (k : [.nv] ⊆ ps) :
    Only ps s (userWritten t w) := by
  simp only [List.cons_subset, List.nil_subset, and_true] at k
  unfold userWritten
  try dsimp only
  repeat' (first | (simp (maxDischargeDepth := 30) [*]; done) | split)

@[simp] theorem only_userFailed {w : UserW} {st : Nat} (h : Only ps s t) (k : [.host, .nv, .out] ⊆ ps) :
    Only ps s (userFailed t w st) := by
  simp only [List.cons_subset, List.nil_subset, and_true] at k
  unfold userFailed
  try dsimp only
  repeat' (first | (simp (maxDischargeDepth := 30) [*]; done) | split)

@[simp] theorem only_userQueue {w : UserW} (h : Only ps s t) (k : [.free, .yl, .host, .nv, .out] ⊆ ps) :
    Only ps s (userQueue t w) := by
  simp only [List.cons_subset, List.nil_subset, and_true] at k
  unfold userQueue
  try dsimp only
  repeat' (first | (simp (maxDischargeDepth := 30) [*]; done) | split)

@[simp] theorem only_userDone {w : UserW} (h : Only ps s t) (k : [.yl, .nv] ⊆ ps) :
    Only ps s (userDone t w) := by
  simp only [List.cons_subset, List.nil_subset, and_true] at k
  unfold userDone
  try dsimp only
  repeat' (first | (simp (maxDischargeDepth := 30) [*]; done) | split | (refine only_foldl ?_ fun _ _ => ?_) | (refine only_foldl_fst ?_ fun _ _ => ?_))

@[simp] theorem only_userStep (h : Only ps s t) (k : [.yl, .nv] ⊆ ps) :
    Only ps s (userStep t) := by
  simp only [List.cons_subset, List.nil_subset, and_true] at k
  unfold userStep
  try dsimp only
  repeat' (first | (simp (maxDischargeDepth := 30) [*]; done) | split)

@[simp] theorem only_userAbort {t1 : Nat} {rno : Nat} {key : Word} (h : Only ps s t) (k : [.free, .yl, .host, .nv, .out] ⊆ ps) :
    Only ps s (userAbort t t1 rno key) := by
  simp only [List.cons_subset, List.nil_subset, and_true] at k
  unfold userAbort
  try dsimp only
  repeat' (first | (simp (maxDischargeDepth := 30) [*]; done) | split | (refine only_foldl ?_ fun _ _ => ?_))

@[simp] theorem only_counterStep (h : Only ps s t) (k : [.yl, .host, .nv, .out] ⊆ ps) :
    Only ps s (counterStep t) := by
  simp only [List.cons_subset, List.nil_subset, and_true] at k
  unfold counterStep
  try dsimp only
  repeat' (first | (simp (maxDischargeDepth := 30) [*]; done) | split)

@[simp] theorem only_flushAll (h : Only ps s t) (k : [.yl, .host, .pkg, .safe, .nv, .out] ⊆ ps) :
    Only ps s (flushAll t) := by
  simp only [List.cons_subset, List.nil_subset, and_true] at k
  unfold flushAll
  try dsimp only
  repeat' (first | (simp (maxDischargeDepth := 30) [*]; done) | split | (refine only_foldl ?_ fun _ _ => ?_))

@[simp] theorem only_cutSave {v : Saving} (h : Only ps s t) (k : [.free, .nv] ⊆ ps) :
    Only ps s (cutSave t v).1 := by
  simp only [List.cons_subset, List.nil_subset, and_true] at k
  unfold cutSave
  try dsimp only
  repeat' (first | (simp (maxDischargeDepth := 30) [*]; done) | split | (refine only_foldl ?_ fun _ _ => ?_) | (refine only_foldl_fst ?_ fun _ _ => ?_))

@[simp] theorem only_cutWork (h : Only ps s t) (k : [.free, .nv] ⊆ ps) :
    Only ps s (cutWork t) := by
  simp only [List.cons_subset, List.nil_subset, and_true] at k
  have hf : ∀ j, ∀ f ∈ cutWorks t j, ∀ u, Only ps u (f u) := by
    intro j f hf u
    simp only [cutWorks, List.mem_append, List.mem_map] at hf
    obtain (((hf | ⟨_, -, rfl⟩) | ⟨_, -, rfl⟩) | ⟨_, -, rfl⟩) | ⟨_, -, rfl⟩ := hf
    · split at hf <;> simp only [List.mem_cons, List.not_mem_nil, or_false] at hf
      subst hf
      simp [*]
    all_goals simp [*]
  unfold cutWork
  dsimp only
  rw [List.getD_eq_getElem?_getD]
  generalize hi : fld (Config.freeWord t.free) 16 16 % _ = i
  cases hx : (cutWorks t (fld (Config.freeWord t.free) 8 8))[i]? with
  | none => simp (maxDischargeDepth := 30) [*]
  | some f => exact Only.trans (by simp (maxDischargeDepth := 30) [*]) (hf _ f (List.mem_of_getElem? hx) _)

@[simp] theorem only_nvCut (h : Only ps s t) (k : [.free, .nv] ⊆ ps) :
    Only ps s (nvCut t) := by
  simp only [List.cons_subset, List.nil_subset, and_true] at k
  unfold nvCut
  try dsimp only
  repeat' (first | (simp (maxDischargeDepth := 30) [*]; done) | split | (refine only_foldl ?_ fun _ _ => ?_) | (refine only_foldl_fst ?_ fun _ _ => ?_))

@[simp] theorem only_copyCut (h : Only ps s t) (k : [.free, .nv] ⊆ ps) :
    Only ps s (copyCut t) := by
  simp only [List.cons_subset, List.nil_subset, and_true] at k
  unfold copyCut
  try dsimp only
  repeat' (first | (simp (maxDischargeDepth := 30) [*]; done) | split | (refine only_foldl ?_ fun _ _ => ?_) | (refine only_foldl_fst ?_ fun _ _ => ?_))

@[simp] theorem only_nvSpoil {a : Nat} (h : Only ps s t) (k : [.free, .nv] ⊆ ps) :
    Only ps s (nvSpoil t a) := by
  simp only [List.cons_subset, List.nil_subset, and_true] at k
  unfold nvSpoil
  try dsimp only
  repeat' (first | (simp (maxDischargeDepth := 30) [*]; done) | split | (refine only_foldl ?_ fun _ _ => ?_))

@[simp] theorem only_nvError {a : Nat} {ue : Bool} (h : Only ps s t) (k : [.free, .host, .nv, .out] ⊆ ps) :
    Only ps s (nvError t a ue) := by
  simp only [List.cons_subset, List.nil_subset, and_true] at k
  unfold nvError
  try dsimp only
  repeat' (first | (simp (maxDischargeDepth := 30) [*]; done) | split)

@[simp] theorem only_loadMirror (h : Only ps s t) (k : [.host, .nv, .out] ⊆ ps) :
    Only ps s (loadMirror t) := by
  simp only [List.cons_subset, List.nil_subset, and_true] at k
  unfold loadMirror
  try dsimp only
  repeat' (first | (simp (maxDischargeDepth := 30) [*]; done) | split | (refine only_foldl ?_ fun _ _ => ?_))

@[simp] theorem only_loadSystem (h : Only ps s t) (k : [.ln, .host, .pkg, .safe, .nv, .out] ⊆ ps) :
    Only ps s (loadSystem t) := by
  simp only [List.cons_subset, List.nil_subset, and_true] at k
  unfold loadSystem
  have hx : Only ps s (sysIds.foldl (fun s id => readRecord s id (sysRec s id)) t) := by
    simp (maxDischargeDepth := 30) [*]
  dsimp only
  generalize sysIds.foldl (fun s id => readRecord s id (sysRec s id)) t = x at hx ⊢
  rw [only_iff] at hx ⊢
  simp_all

@[simp] theorem only_readBootCounters (h : Only ps s t) (k : [.host, .nv, .out] ⊆ ps) :
    Only ps s (readBootCounters t) := by
  simp only [List.cons_subset, List.nil_subset, and_true] at k
  unfold readBootCounters
  try dsimp only
  repeat' (first | (simp (maxDischargeDepth := 30) [*]; done) | split | (refine only_foldl ?_ fun _ _ => ?_) | (refine only_foldl_fst ?_ fun _ _ => ?_))

@[simp] theorem only_loadIdentity (h : Only ps s t) (k : [.host, .nv, .out] ⊆ ps) :
    Only ps s (loadIdentity t) := by
  simp only [List.cons_subset, List.nil_subset, and_true] at k
  unfold loadIdentity
  try dsimp only
  repeat' (first | (simp (maxDischargeDepth := 30) [*]; done) | split)

@[simp] theorem only_ringStore {n : Nat} {stamp : Nat} {f : CanFrame} {echo : Bool} (h : Only ps s t) (k : [.seq, .can, .cb, .host, .nv, .out] ⊆ ps) :
    Only ps s (ringStore t n stamp f echo) := by
  simp only [List.cons_subset, List.nil_subset, and_true] at k
  unfold ringStore
  try dsimp only
  repeat' (first | (simp (maxDischargeDepth := 30) [*]; done) | split)

@[simp] theorem only_txDropped {n : Nat} {f : TxFrame} {reason : Nat} (h : Only ps s t) (k : [.host, .nv, .out] ⊆ ps) :
    Only ps s (txDropped t n f reason) := by
  simp only [List.cons_subset, List.nil_subset, and_true] at k
  unfold txDropped
  try dsimp only
  repeat' (first | (simp (maxDischargeDepth := 30) [*]; done) | split)

@[simp] theorem only_txFailed {n : Nat} (h : Only ps s t) (k : [.cb, .host, .nv, .out] ⊆ ps) :
    Only ps s (txFailed t n) := by
  simp only [List.cons_subset, List.nil_subset, and_true] at k
  unfold txFailed
  try dsimp only
  repeat' (first | (simp (maxDischargeDepth := 30) [*]; done) | split)

@[simp] theorem only_canRetire {n : Nat} (h : Only ps s t) (k : [.cb, .host, .nv, .out] ⊆ ps) :
    Only ps s (canRetire t n) := by
  simp only [List.cons_subset, List.nil_subset, and_true] at k
  unfold canRetire
  try dsimp only
  repeat' (first | (simp (maxDischargeDepth := 30) [*]; done) | split | (refine only_foldl ?_ fun _ _ => ?_))

@[simp] theorem only_busOff {n : Nat} (h : Only ps s t) (k : [.cb, .host, .nv, .out] ⊆ ps) :
    Only ps s (busOff t n) := by
  simp only [List.cons_subset, List.nil_subset, and_true] at k
  unfold busOff
  try dsimp only
  repeat' (first | (simp (maxDischargeDepth := 30) [*]; done) | split)

@[simp] theorem only_canSend {t1 : Nat} {n : Nat} {a : Nat} {key : Word} (h : Only ps s t) (k : [.cb, .host, .nv, .out] ⊆ ps) :
    Only ps s (canSend t t1 n a key) := by
  simp only [List.cons_subset, List.nil_subset, and_true] at k
  unfold canSend
  try dsimp only
  repeat' (first | (simp (maxDischargeDepth := 30) [*]; done) | split)

@[simp] theorem only_canAbort {t1 : Nat} {n : Nat} {key : Word} (h : Only ps s t) (k : [.cb, .host, .nv, .out] ⊆ ps) :
    Only ps s (canAbort t t1 n key) := by
  simp only [List.cons_subset, List.nil_subset, and_true] at k
  unfold canAbort
  try dsimp only
  repeat' (first | (simp (maxDischargeDepth := 30) [*]; done) | split)

@[simp] theorem only_canRecover {n : Nat} (h : Only ps s t) (k : [.cb] ⊆ ps) :
    Only ps s (canRecover t n) := by
  simp only [List.cons_subset, List.nil_subset, and_true] at k
  unfold canRecover
  try dsimp only
  repeat' (first | (simp (maxDischargeDepth := 30) [*]; done) | split)

@[simp] theorem only_canReadmit {n : Nat} {by_ : Nat} (h : Only ps s t) (k : [.cb, .host, .nv, .out] ⊆ ps) :
    Only ps s (canReadmit t n by_).1 := by
  simp only [List.cons_subset, List.nil_subset, and_true] at k
  unfold canReadmit
  try dsimp only
  repeat' (first | (simp (maxDischargeDepth := 30) [*]; done) | split)

@[simp] theorem only_canEnterSetup (h : Only ps s t) (k : [.cb] ⊆ ps) :
    Only ps s (canEnterSetup t) := by
  simp only [List.cons_subset, List.nil_subset, and_true] at k
  unfold canEnterSetup
  try dsimp only
  repeat' (first | (simp (maxDischargeDepth := 30) [*]; done) | split | (refine only_foldl ?_ fun _ _ => ?_))

@[simp] theorem only_ylCountUp {p : Nat} {i : Nat} (h : Only ps s t) (k : [.yl] ⊆ ps) :
    Only ps s (ylCountUp t p i) := by
  simp only [List.cons_subset, List.nil_subset, and_true] at k
  unfold ylCountUp
  try dsimp only
  repeat' (first | (simp (maxDischargeDepth := 30) [*]; done) | split)

@[simp] theorem only_ylSend {p : Nat} {b : List Byte} (h : Only ps s t) (k : [.yl, .out] ⊆ ps) :
    Only ps s (ylSend t p b) := by
  simp only [List.cons_subset, List.nil_subset, and_true] at k
  unfold ylSend
  try dsimp only
  repeat' (first | (simp (maxDischargeDepth := 30) [*]; done) | split)

@[simp] theorem only_injNote {p : Nat} {acts : Bool} (h : Only ps s t) (k : [.yl] ⊆ ps) :
    Only ps s (injNote t p acts) := by
  simp only [List.cons_subset, List.nil_subset, and_true] at k
  unfold injNote
  try dsimp only
  repeat' (first | (simp (maxDischargeDepth := 30) [*]; done) | split)

@[simp] theorem only_injHold {p : Nat} {at_ : Nat} {b : List Byte} {rx : Bool} (h : Only ps s t) (k : [.yl] ⊆ ps) :
    Only ps s (injHold t p at_ b rx) := by
  simp only [List.cons_subset, List.nil_subset, and_true] at k
  unfold injHold
  try dsimp only
  repeat' (first | (simp (maxDischargeDepth := 30) [*]; done) | split)

@[simp] theorem only_injFlush {p : Nat} (h : Only ps s t) (k : [.yl, .out] ⊆ ps) :
    Only ps s (injFlush t p) := by
  simp only [List.cons_subset, List.nil_subset, and_true] at k
  unfold injFlush
  try dsimp only
  repeat' (first | (simp (maxDischargeDepth := 30) [*]; done) | split | (refine only_foldl ?_ fun _ _ => ?_))

@[simp] theorem only_ylEmit {p : Nat} {f : YFrame} {a : Nat} (h : Only ps s t) (k : [.yl, .out] ⊆ ps) :
    Only ps s (ylEmit t p f a) := by
  simp only [List.cons_subset, List.nil_subset, and_true] at k
  unfold ylEmit
  try dsimp only
  repeat' (first | (simp (maxDischargeDepth := 30) [*]; done) | split | (refine only_foldl ?_ fun _ _ => ?_) | (refine only_foldl_fst ?_ fun _ _ => ?_))

@[simp] theorem only_lineEmit {p : Nat} {f : YFrame} {byPos : Bool} {a : Nat} (h : Only ps s t) (k : [.yl, .out] ⊆ ps) :
    Only ps s (lineEmit t p f byPos a) := by
  simp only [List.cons_subset, List.nil_subset, and_true] at k
  unfold lineEmit
  try dsimp only
  repeat' (first | (simp (maxDischargeDepth := 30) [*]; done) | split | (refine only_foldl ?_ fun _ _ => ?_) | (refine only_foldl_fst ?_ fun _ _ => ?_))

@[simp] theorem only_noteSync {d : Depart} (h : Only ps s t) (k : [.yl] ⊆ ps) :
    Only ps s (noteSync t d) := by
  simp only [List.cons_subset, List.nil_subset, and_true] at k
  unfold noteSync
  try dsimp only
  repeat' (first | (simp (maxDischargeDepth := 30) [*]; done) | split | (refine only_foldl ?_ fun _ _ => ?_) | (refine only_foldl_fst ?_ fun _ _ => ?_))

@[simp] theorem only_rowStarts {id : BitVec 16} {p : Nat} {a : Nat} (h : Only ps s t) (k : [.fret, .host, .nv, .out] ⊆ ps) :
    Only ps s (rowStarts t id p a) := by
  simp only [List.cons_subset, List.nil_subset, and_true] at k
  unfold rowStarts
  try dsimp only
  repeat' (first | (simp (maxDischargeDepth := 30) [*]; done) | split | (refine only_foldl ?_ fun _ _ => ?_) | (refine only_foldl_fst ?_ fun _ _ => ?_))

@[simp] theorem only_noteRow {d : Depart} (h : Only ps s t) (k : [.fret, .host, .nv, .out] ⊆ ps) :
    Only ps s (noteRow t d) := by
  simp only [List.cons_subset, List.nil_subset, and_true] at k
  unfold noteRow
  try dsimp only
  repeat' (first | (simp (maxDischargeDepth := 30) [*]; done) | split | (refine only_foldl ?_ fun _ _ => ?_) | (refine only_foldl_fst ?_ fun _ _ => ?_))

@[simp] theorem only_depart {d : Depart} (h : Only ps s t) (k : [.fret, .yl, .host, .nv, .out] ⊆ ps) :
    Only ps s (depart t d) := by
  simp only [List.cons_subset, List.nil_subset, and_true] at k
  unfold depart
  try dsimp only
  repeat' (first | (simp (maxDischargeDepth := 30) [*]; done) | split | (refine only_foldl ?_ fun _ _ => ?_) | (refine only_foldl_fst ?_ fun _ _ => ?_))

@[simp] theorem only_departs {p : Nat} (h : Only ps s t) (k : [.fret, .yl, .host, .nv, .out] ⊆ ps) :
    Only ps s (departs t p) := by
  simp only [List.cons_subset, List.nil_subset, and_true] at k
  unfold departs
  try dsimp only
  repeat' (first | (simp (maxDischargeDepth := 30) [*]; done) | split | (refine only_foldl ?_ fun _ _ => ?_) | (refine only_foldl_fst ?_ fun _ _ => ?_))

@[simp] theorem only_departAll (h : Only ps s t) (k : [.fret, .yl, .host, .nv, .out] ⊆ ps) :
    Only ps s (departAll t) := by
  simp only [List.cons_subset, List.nil_subset, and_true] at k
  unfold departAll
  try dsimp only
  repeat' (first | (simp (maxDischargeDepth := 30) [*]; done) | split | (refine only_foldl ?_ fun _ _ => ?_) | (refine only_foldl_fst ?_ fun _ _ => ?_))

@[simp] theorem only_plan {d : Depart} (h : Only ps s t) (k : [.fret, .yl, .host, .nv, .out] ⊆ ps) :
    Only ps s (plan t d) := by
  simp only [List.cons_subset, List.nil_subset, and_true] at k
  unfold plan
  try dsimp only
  repeat' (first | (simp (maxDischargeDepth := 30) [*]; done) | split | (refine only_foldl ?_ fun _ _ => ?_) | (refine only_foldl_fst ?_ fun _ _ => ?_))

@[simp] theorem only_startTrans {w : YWait} {g : Nat} {a : Nat} {cost : Nat} (h : Only ps s t) (k : [.free, .fret, .yl, .host, .nv, .out] ⊆ ps) :
    Only ps s (startTrans t w g a cost) := by
  simp only [List.cons_subset, List.nil_subset, and_true] at k
  unfold startTrans
  try dsimp only
  repeat' (first | (simp (maxDischargeDepth := 30) [*]; done) | split | (refine only_foldl ?_ fun _ _ => ?_) | (refine only_foldl_fst ?_ fun _ _ => ?_))

@[simp] theorem only_ylWait {w : YWait} (h : Only ps s t) (k : [.yl] ⊆ ps) :
    Only ps s (ylWait t w) := by
  simp only [List.cons_subset, List.nil_subset, and_true] at k
  unfold ylWait
  try dsimp only
  repeat' (first | (simp (maxDischargeDepth := 30) [*]; done) | split)

@[simp] theorem only_carryOver {d : Depart} (h : Only ps s t) (k : [.yl] ⊆ ps) :
    Only ps s (carryOver t d) := by
  simp only [List.cons_subset, List.nil_subset, and_true] at k
  unfold carryOver
  try dsimp only
  repeat' (first | (simp (maxDischargeDepth := 30) [*]; done) | split | (refine only_foldl ?_ fun _ _ => ?_) | (refine only_foldl_fst ?_ fun _ _ => ?_))

@[simp] theorem only_pushBack {p : Nat} {n : Nat} {a : Nat} (h : Only ps s t) (k : [.yl] ⊆ ps) :
    Only ps s (pushBack t p n a) := by
  simp only [List.cons_subset, List.nil_subset, and_true] at k
  unfold pushBack
  try dsimp only
  repeat' (first | (simp (maxDischargeDepth := 30) [*]; done) | split | (refine only_foldl ?_ fun _ _ => ?_) | (refine only_foldl_fst ?_ fun _ _ => ?_))

@[simp] theorem only_tagged {w : YWait} (h : Only ps s t) (k : [.free, .yl] ⊆ ps) :
    Only ps s (tagged t w).1 := by
  simp only [List.cons_subset, List.nil_subset, and_true] at k
  unfold tagged
  try dsimp only
  repeat' (first | (simp (maxDischargeDepth := 30) [*]; done) | split | (refine only_foldl ?_ fun _ _ => ?_) | (refine only_foldl_fst ?_ fun _ _ => ?_))

end Sys2Proof.Machine
end

