-- ==== Sys2Proof/Laws/FramesTasks.lean ====
section
/-! SUPPORT. Frames of the shared operations: commits, pairing, packages, transitions and lanes. Each lemma says which parts of the state an
operation can change. -/
namespace Sys2Proof.Machine

variable {ps : List Part} {s t u : State}

@[simp] theorem only_ylLater {w : YWait} (h : Only ps s t) (k : [.free, .yl] ⊆ ps) :
    Only ps s (ylLater t w) := by
  simp only [List.cons_subset, List.nil_subset, and_true] at k
  unfold ylLater
  try dsimp only
  repeat' (first | (simp (maxDischargeDepth := 30) [*]; done) | split | (refine only_foldl ?_ fun _ _ => ?_) | (refine only_foldl_fst ?_ fun _ _ => ?_))

@[simp] theorem only_startOrKeep {w : YWait} {a : Nat} (h : Only ps s t) (k : [.free, .fret, .yl, .host, .nv, .out] ⊆ ps) :
    Only ps s (startOrKeep t w a).1 := by
  simp only [List.cons_subset, List.nil_subset, and_true] at k
  unfold startOrKeep
  have h1 : Only ps s (tagged t w).1 := by simp [*]
  generalize tagged t w = x at h1 ⊢
  obtain ⟨u, w'⟩ := x
  dsimp only at h1 ⊢
  repeat' (first | (simp (maxDischargeDepth := 30) [*]; done) | split)

@[simp] theorem only_offer {w : YWait} (h : Only ps s t) (k : [.free, .fret, .yl, .host, .nv, .out] ⊆ ps) :
    Only ps s (offer t w) := by
  simp only [List.cons_subset, List.nil_subset, and_true] at k
  unfold offer
  try dsimp only
  repeat' (first | (simp (maxDischargeDepth := 30) [*]; done) | split)

@[simp] theorem only_staTrigger {x1 : Nat} (h : Only ps s t) (k : [.seq] ⊆ ps) :
    Only ps s (staTrigger t x1) := by
  simp only [List.cons_subset, List.nil_subset, and_true] at k
  unfold staTrigger
  try dsimp only
  repeat' (first | (simp (maxDischargeDepth := 30) [*]; done) | split)

@[simp] theorem only_passFrom {p : Nat} {n : Nat} (h : Only ps s t) (k : [.free, .fret, .yl, .host, .nv, .out] ⊆ ps) :
    Only ps s (passFrom t p n) := by
  simp only [List.cons_subset, List.nil_subset, and_true] at k
  unfold passFrom
  try dsimp only
  repeat' (first | (simp (maxDischargeDepth := 30) [*]; done) | split)

@[simp] theorem only_passOver {x1 : Nat} (h : Only ps s t) (k : [.free, .fret, .yl, .host, .nv, .out] ⊆ ps) :
    Only ps s (passOver t x1) := by
  simp only [List.cons_subset, List.nil_subset, and_true] at k
  unfold passOver
  try dsimp only
  repeat' (first | (simp (maxDischargeDepth := 30) [*]; done) | split)

@[simp] theorem only_readmitEnd {x1 : Nat} {st : Nat} (h : Only ps s t) (k : [.host, .nv, .out] ⊆ ps) :
    Only ps s (readmitEnd t x1 st) := by
  simp only [List.cons_subset, List.nil_subset, and_true] at k
  unfold readmitEnd
  try dsimp only
  repeat' (first | (simp (maxDischargeDepth := 30) [*]; done) | split)

@[simp] theorem only_dropTrans {tag : Nat} {st : Nat} (h : Only ps s t) (k : [.yl] ⊆ ps) :
    Only ps s (dropTrans t tag st) := by
  simp only [List.cons_subset, List.nil_subset, and_true] at k
  unfold dropTrans
  try dsimp only
  repeat' (first | (simp (maxDischargeDepth := 30) [*]; done) | split | (refine only_foldl ?_ fun _ _ => ?_) | (refine only_foldl_fst ?_ fun _ _ => ?_))

@[simp] theorem only_unsent {p : Nat} (h : Only ps s t) (k : [.free, .yl] ⊆ ps) :
    Only ps s (unsent t p) := by
  simp only [List.cons_subset, List.nil_subset, and_true] at k
  unfold unsent
  try dsimp only
  repeat' (first | (simp (maxDischargeDepth := 30) [*]; done) | split | (refine only_foldl ?_ fun _ _ => ?_) | (refine only_foldl_fst ?_ fun _ _ => ?_))

@[simp] theorem only_retireSta {x1 : Nat} {cause : Nat} (h : Only ps s t) (k : [.free, .seq, .fret, .yl, .host, .nv, .out] ⊆ ps) :
    Only ps s (retireSta t x1 cause) := by
  simp only [List.cons_subset, List.nil_subset, and_true] at k
  unfold retireSta
  try dsimp only
  repeat' (first | (simp (maxDischargeDepth := 30) [*]; done) | split)

@[simp] theorem only_judgeSta {x1 : Nat} (h : Only ps s t) (k : [.free, .seq, .fret, .yl, .host, .nv, .out] ⊆ ps) :
    Only ps s (judgeSta t x1) := by
  simp only [List.cons_subset, List.nil_subset, and_true] at k
  unfold judgeSta
  try dsimp only
  repeat' (first | (simp (maxDischargeDepth := 30) [*]; done) | split)

@[simp] theorem only_undelivered {w : YWait} (h : Only ps s t) (k : [.free, .fret, .yl, .host, .nv, .out] ⊆ ps) :
    Only ps s (undelivered t w) := by
  simp only [List.cons_subset, List.nil_subset, and_true] at k
  unfold undelivered
  try dsimp only
  repeat' (first | (simp (maxDischargeDepth := 30) [*]; done) | split)

@[simp] theorem only_noDelivery {w : YWait} (h : Only ps s t) (k : [.free, .seq, .fret, .yl, .host, .nv, .out] ⊆ ps) :
    Only ps s (noDelivery t w) := by
  simp only [List.cons_subset, List.nil_subset, and_true] at k
  unfold noDelivery
  try dsimp only
  repeat' (first | (simp (maxDischargeDepth := 30) [*]; done) | split)

@[simp] theorem only_failTrans {t1 : Trans} (h : Only ps s t) (k : [.free, .seq, .fret, .yl, .host, .nv, .out] ⊆ ps) :
    Only ps s (failTrans t t1) := by
  simp only [List.cons_subset, List.nil_subset, and_true] at k
  unfold failTrans
  try dsimp only
  repeat' (first | (simp (maxDischargeDepth := 30) [*]; done) | split)

@[simp] theorem only_attemptFailed {t1 : Trans} (h : Only ps s t) (k : [.free, .seq, .fret, .yl, .host, .nv, .out] ⊆ ps) :
    Only ps s (attemptFailed t t1) := by
  simp only [List.cons_subset, List.nil_subset, and_true] at k
  unfold attemptFailed
  try dsimp only
  repeat' (first | (simp (maxDischargeDepth := 30) [*]; done) | split)

@[simp] theorem only_holdTrans {tag : Nat} (h : Only ps s t) (k : [.yl] ⊆ ps) :
    Only ps s (holdTrans t tag) := by
  simp only [List.cons_subset, List.nil_subset, and_true] at k
  unfold holdTrans
  try dsimp only
  repeat' (first | (simp (maxDischargeDepth := 30) [*]; done) | split)

@[simp] theorem only_checkLine {p : Nat} (h : Only ps s t) (k : [.free, .cfg, .dev, .ln, .seq, .can, .fret, .yl, .lp, .fld, .cb, .host, .pkg, .nv, .out] ⊆ ps) :
    Only ps s (checkLine t p) := by
  simp only [List.cons_subset, List.nil_subset, and_true] at k
  unfold checkLine
  try dsimp only
  repeat' (first | (simp (maxDischargeDepth := 30) [*]; done) | split)

@[simp] theorem only_lineCut {p : Nat} (h : Only ps s t) (k : [.free, .seq, .fret, .yl, .host, .nv, .out] ⊆ ps) :
    Only ps s (lineCut t p) := by
  simp only [List.cons_subset, List.nil_subset, and_true] at k
  unfold lineCut
  try dsimp only
  repeat' (first | (simp (maxDischargeDepth := 30) [*]; done) | split | (refine only_foldl ?_ fun _ _ => ?_))

@[simp] theorem only_portDown {p : Nat} (h : Only ps s t) (k : [.free, .cfg, .dev, .ln, .seq, .can, .fret, .yl, .lp, .fld, .cb, .host, .pkg, .nv, .out] ⊆ ps) :
    Only ps s (portDown t p) := by
  simp only [List.cons_subset, List.nil_subset, and_true] at k
  unfold portDown
  try dsimp only
  repeat' (first | (simp (maxDischargeDepth := 30) [*]; done) | split)

@[simp] theorem only_portReadmit {p : Nat} (h : Only ps s t) (k : [.yl, .host, .nv, .out] ⊆ ps) :
    Only ps s (portReadmit t p).1 := by
  simp only [List.cons_subset, List.nil_subset, and_true] at k
  unfold portReadmit
  try dsimp only
  repeat' (first | (simp (maxDischargeDepth := 30) [*]; done) | split)

@[simp] theorem only_staReadmit {x1 : Nat} {slot : Option (Nat × BitVec 16)} (h : Only ps s t) (k : [.free, .yl, .host, .nv, .out] ⊆ ps) :
    Only ps s (staReadmit t x1 slot).1 := by
  simp only [List.cons_subset, List.nil_subset, and_true] at k
  unfold staReadmit
  try dsimp only
  repeat' (first | (simp (maxDischargeDepth := 30) [*]; done) | split)

@[simp] theorem only_mbxSend {t1 : Nat} {x2 : Nat} {body : List Byte} (h : Only ps s t) (k : [.free, .seq, .fret, .yl, .host, .nv, .out] ⊆ ps) :
    Only ps s (mbxSend t t1 x2 body) := by
  simp only [List.cons_subset, List.nil_subset, and_true] at k
  unfold mbxSend
  try dsimp only
  repeat' (first | (simp (maxDischargeDepth := 30) [*]; done) | split)

@[simp] theorem only_portEnabled {p : Nat} (h : Only ps s t) (k : [.yl] ⊆ ps) :
    Only ps s (portEnabled t p) := by
  simp only [List.cons_subset, List.nil_subset, and_true] at k
  unfold portEnabled
  try dsimp only
  repeat' (first | (simp (maxDischargeDepth := 30) [*]; done) | split)

@[simp] theorem only_endReadmits (h : Only ps s t) (k : [.host, .nv, .out] ⊆ ps) :
    Only ps s (endReadmits t) := by
  simp only [List.cons_subset, List.nil_subset, and_true] at k
  unfold endReadmits
  try dsimp only
  repeat' (first | (simp (maxDischargeDepth := 30) [*]; done) | split | (refine only_foldl ?_ fun _ _ => ?_) | (refine only_foldl_fst ?_ fun _ _ => ?_))

@[simp] theorem only_callRejected {t1 : Nat} {n : Nat} {target : Nat} (h : Only ps s t) (k : [.host, .nv, .out] ⊆ ps) :
    Only ps s (callRejected t t1 n target) := by
  simp only [List.cons_subset, List.nil_subset, and_true] at k
  unfold callRejected
  try dsimp only
  repeat' (first | (simp (maxDischargeDepth := 30) [*]; done) | split)

@[simp] theorem only_callTrigger {t1 : Nat} {target : Nat} (h : Only ps s t) (k : [.seq, .host, .nv, .out] ⊆ ps) :
    Only ps s (callTrigger t t1 target) := by
  simp only [List.cons_subset, List.nil_subset, and_true] at k
  unfold callTrigger
  try dsimp only
  repeat' (first | (simp (maxDischargeDepth := 30) [*]; done) | split)

@[simp] theorem only_callAtTime {t1 : Nat} {target : Nat} {at_ : Nat} (h : Only ps s t) (k : [.seq, .host, .nv, .out] ⊆ ps) :
    Only ps s (callAtTime t t1 target at_) := by
  simp only [List.cons_subset, List.nil_subset, and_true] at k
  unfold callAtTime
  try dsimp only
  repeat' (first | (simp (maxDischargeDepth := 30) [*]; done) | split)

@[simp] theorem only_callYlReadmit {g0 : Word} (h : Only ps s t) (k : [.free, .yl, .host, .nv, .out] ⊆ ps) :
    Only ps s (callYlReadmit t g0) := by
  simp only [List.cons_subset, List.nil_subset, and_true] at k
  unfold callYlReadmit
  try dsimp only
  repeat' (first | (simp (maxDischargeDepth := 30) [*]; done) | split)

@[simp] theorem only_callLoopTune {g0 : Word} {g1 : Word} {g2 : Word} {g3 : Word} (h : Only ps s t) (k : [.seq, .can, .lp, .host, .nv, .out] ⊆ ps) :
    Only ps s (callLoopTune t g0 g1 g2 g3) := by
  simp only [List.cons_subset, List.nil_subset, and_true] at k
  unfold callLoopTune
  try dsimp only
  repeat' (first | (simp (maxDischargeDepth := 30) [*]; done) | split)

@[simp] theorem only_callLoopCapture {g0 : Word} {g1 : Word} {g2 : Word} {g3 : Word} (h : Only ps s t) (k : [.seq, .lp, .host, .nv, .out] ⊆ ps) :
    Only ps s (callLoopCapture t g0 g1 g2 g3) := by
  simp only [List.cons_subset, List.nil_subset, and_true] at k
  unfold callLoopCapture
  try dsimp only
  repeat' (first | (simp (maxDischargeDepth := 30) [*]; done) | split)

@[simp] theorem only_loopAbortOf {g0 : Word} (h : Only ps s t) (k : [.seq, .can, .lp, .host, .nv, .out] ⊆ ps) :
    Only ps s (loopAbortOf t g0).1 := by
  simp only [List.cons_subset, List.nil_subset, and_true] at k
  unfold loopAbortOf
  try dsimp only
  repeat' (first | (simp (maxDischargeDepth := 30) [*]; done) | split)

@[simp] theorem only_hostNotify {n : Nat} {bits : Word} (h : Only ps s t) (k : [.host, .out] ⊆ ps) :
    Only ps s (hostNotify t n bits) := by
  simp only [List.cons_subset, List.nil_subset, and_true] at k
  unfold hostNotify
  try dsimp only
  repeat' (first | (simp (maxDischargeDepth := 30) [*]; done) | split)

@[simp] theorem only_callSafeStop {t1 : Nat} {g0 : Word} (h : Only ps s t) (k : [.free, .cfg, .dev, .ln, .seq, .can, .fret, .yl, .lp, .fld, .cb, .host, .pkg, .nv, .out] ⊆ ps) :
    Only ps s (callSafeStop t t1 g0) := by
  simp only [List.cons_subset, List.nil_subset, and_true] at k
  unfold callSafeStop
  try dsimp only
  repeat' (first | (simp (maxDischargeDepth := 30) [*]; done) | split)

@[simp] theorem only_callNvWrite {t1 : Nat} {g0 : Word} {g1 : Word} {g2 : Word} {g3 : Word} (h : Only ps s t) (k : [.free, .yl, .host, .nv, .out] ⊆ ps) :
    Only ps s (callNvWrite t t1 g0 g1 g2 g3) := by
  simp only [List.cons_subset, List.nil_subset, and_true] at k
  unfold callNvWrite
  try dsimp only
  repeat' (first | (simp (maxDischargeDepth := 30) [*]; done) | split)

@[simp] theorem only_callNvCount {t1 : Nat} {g0 : Word} (h : Only ps s t) (k : [.free, .yl, .nv] ⊆ ps) :
    Only ps s (callNvCount t t1 g0) := by
  simp only [List.cons_subset, List.nil_subset, and_true] at k
  unfold callNvCount
  try dsimp only
  repeat' (first | (simp (maxDischargeDepth := 30) [*]; done) | split | (refine only_foldl ?_ fun _ _ => ?_) | (refine only_foldl_fst ?_ fun _ _ => ?_))

@[simp] theorem only_callEffect {t1 : Nat} {n : Nat} {g0 : Word} {g1 : Word} {g2 : Word} {g3 : Word} (h : Only ps s t) (k : [.free, .cfg, .dev, .ln, .seq, .can, .fret, .yl, .lp, .fld, .cb, .host, .pkg, .nv, .out] ⊆ ps) :
    Only ps s (callEffect t t1 n g0 g1 g2 g3) := by
  simp only [List.cons_subset, List.nil_subset, and_true] at k
  unfold callEffect
  try dsimp only
  repeat' (first | (simp (maxDischargeDepth := 30) [*]; done) | split)

@[simp] theorem only_itemEffects {t1 : Nat} {l : List WItem} (h : Only ps s t) (k : [.free, .cfg, .dev, .ln, .seq, .can, .fret, .yl, .lp, .fld, .cb, .host, .pkg, .nv, .out] ⊆ ps) :
    Only ps s (itemEffects t t1 l) := by
  simp only [List.cons_subset, List.nil_subset, and_true] at k
  unfold itemEffects
  try dsimp only
  repeat' (first | (simp (maxDischargeDepth := 30) [*]; done) | split | (refine only_foldl ?_ fun _ _ => ?_))

@[simp] theorem only_afterEnd {t1 : Nat} (h : Only ps s t) (k : [.free, .cfg, .ln, .seq, .can, .host, .pkg, .nv, .out] ⊆ ps) :
    Only ps s (afterEnd t t1) := by
  simp only [List.cons_subset, List.nil_subset, and_true] at k
  unfold afterEnd
  try dsimp only
  repeat' (first | (simp (maxDischargeDepth := 30) [*]; done) | split)

@[simp] theorem only_closeInst {t1 : Nat} (h : Only ps s t) (k : [.free, .cfg, .ln, .seq, .can, .host, .pkg, .nv, .out] ⊆ ps) :
    Only ps s (closeInst t t1) := by
  simp only [List.cons_subset, List.nil_subset, and_true] at k
  unfold closeInst
  try dsimp only
  repeat' (first | (simp (maxDischargeDepth := 30) [*]; done) | split)

@[simp] theorem only_notePcs {t1 : Nat} (h : Only ps s t) (k : [.seq] ⊆ ps) :
    Only ps s (notePcs t t1) := by
  simp only [List.cons_subset, List.nil_subset, and_true] at k
  unfold notePcs
  try dsimp only
  repeat' (first | (simp (maxDischargeDepth := 30) [*]; done) | split)

@[simp] theorem only_endNoCommit {t1 : Nat} (h : Only ps s t) (k : [.free, .cfg, .ln, .seq, .can, .host, .pkg, .nv, .out] ⊆ ps) :
    Only ps s (endNoCommit t t1) := by
  simp only [List.cons_subset, List.nil_subset, and_true] at k
  unfold endNoCommit
  try dsimp only
  repeat' (first | (simp (maxDischargeDepth := 30) [*]; done) | split)

@[simp] theorem only_startFor {t1 : Nat} (h : Only ps s t) (k : [.fld] ⊆ ps) :
    Only ps s (startFor t t1) := by
  simp only [List.cons_subset, List.nil_subset, and_true] at k
  unfold startFor
  try dsimp only
  repeat' (first | (simp (maxDischargeDepth := 30) [*]; done) | split | (refine only_foldl ?_ fun _ _ => ?_) | (refine only_foldl_fst ?_ fun _ _ => ?_))

@[simp] theorem only_withhold {o : OutRel} (h : Only ps s t) (k : [.seq, .fld] ⊆ ps) :
    Only ps s (withhold t o) := by
  simp only [List.cons_subset, List.nil_subset, and_true] at k
  unfold withhold
  try dsimp only
  repeat' (first | (simp (maxDischargeDepth := 30) [*]; done) | split | (refine only_foldl ?_ fun _ _ => ?_) | (refine only_foldl_fst ?_ fun _ _ => ?_))

@[simp] theorem only_lateRelease {t1 : Nat} {i : Inst} (h : Only ps s t) (k : [.seq, .fld, .host, .nv, .out] ⊆ ps) :
    Only ps s (lateRelease t t1 i) := by
  simp only [List.cons_subset, List.nil_subset, and_true] at k
  unfold lateRelease
  try dsimp only
  repeat' (first | (simp (maxDischargeDepth := 30) [*]; done) | split)

@[simp] theorem only_waitRecord {t1 : Nat} {i : Inst} (h : Only ps s t) (k : [.host, .nv, .out] ⊆ ps) :
    Only ps s (waitRecord t t1 i) := by
  simp only [List.cons_subset, List.nil_subset, and_true] at k
  unfold waitRecord
  try dsimp only
  repeat' (first | (simp (maxDischargeDepth := 30) [*]; done) | split)

@[simp] theorem only_rereadRow {t1 : Nat} {e : FretE} (h : Only ps s t) (k : [.can, .fret, .host, .nv, .out] ⊆ ps) :
    Only ps s (rereadRow t t1 e) := by
  simp only [List.cons_subset, List.nil_subset, and_true] at k
  unfold rereadRow
  try dsimp only
  repeat' (first | (simp (maxDischargeDepth := 30) [*]; done) | split | (refine only_foldl ?_ fun _ _ => ?_) | (refine only_foldl_fst ?_ fun _ _ => ?_))

@[simp] theorem only_reread {old : State} {x : Nat × WItem} (h : Only ps s t) (k : [.can, .fret, .yl, .cb, .host, .nv, .out] ⊆ ps) :
    Only ps s (reread t old x) := by
  simp only [List.cons_subset, List.nil_subset, and_true] at k
  unfold reread
  try dsimp only
  repeat' (first | (simp (maxDischargeDepth := 30) [*]; done) | split | (refine only_foldl ?_ fun _ _ => ?_) | (refine only_foldl_fst ?_ fun _ _ => ?_))

@[simp] theorem only_publishCommit {t1 : Nat} {c : Copy} (h : Only ps s t) (k : [.seq, .can, .fret, .yl, .cb, .host, .nv, .out] ⊆ ps) :
    Only ps s (publishCommit t t1 c) := by
  simp only [List.cons_subset, List.nil_subset, and_true] at k
  unfold publishCommit
  try dsimp only
  repeat' (first | (simp (maxDischargeDepth := 30) [*]; done) | split | (refine only_foldl ?_ fun _ _ => ?_) | (refine only_foldl_fst ?_ fun _ _ => ?_))

@[simp] theorem only_commitCopy {t1 : Nat} {i : Inst} {c : Copy} (h : Only ps s t) (k : [.free, .cfg, .dev, .ln, .seq, .can, .fret, .yl, .lp, .fld, .cb, .host, .pkg, .nv, .out] ⊆ ps) :
    Only ps s (commitCopy t t1 i c) := by
  simp only [List.cons_subset, List.nil_subset, and_true] at k
  unfold commitCopy
  try dsimp only
  repeat' (first | (simp (maxDischargeDepth := 30) [*]; done) | split)

@[simp] theorem only_tryCommit {t1 : Nat} {i : Inst} {c : Copy} (h : Only ps s t) (k : [.free, .cfg, .dev, .ln, .seq, .can, .fret, .yl, .lp, .fld, .cb, .host, .pkg, .nv, .out] ⊆ ps) :
    Only ps s (tryCommit t t1 i c) := by
  simp only [List.cons_subset, List.nil_subset, and_true] at k
  unfold tryCommit
  try dsimp only
  repeat' (first | (simp (maxDischargeDepth := 30) [*]; done) | split)

@[simp] theorem only_present {t1 : Nat} (h : Only ps s t) (k : [.seq] ⊆ ps) :
    Only ps s (present t t1) := by
  simp only [List.cons_subset, List.nil_subset, and_true] at k
  unfold present
  try dsimp only
  repeat' (first | (simp (maxDischargeDepth := 30) [*]; done) | split | (refine only_foldl ?_ fun _ _ => ?_))

@[simp] theorem only_releaseExpired {t1 : Nat} (h : Only ps s t) (k : [.fld] ⊆ ps) :
    Only ps s (releaseExpired t t1) := by
  simp only [List.cons_subset, List.nil_subset, and_true] at k
  unfold releaseExpired
  try dsimp only
  repeat' (first | (simp (maxDischargeDepth := 30) [*]; done) | split)

@[simp] theorem only_outputDue {t1 : Nat} (h : Only ps s t) (k : [.seq, .fld] ⊆ ps) :
    Only ps s (outputDue t t1) := by
  simp only [List.cons_subset, List.nil_subset, and_true] at k
  unfold outputDue
  try dsimp only
  repeat' (first | (simp (maxDischargeDepth := 30) [*]; done) | split | (refine only_foldl ?_ fun _ _ => ?_) | (refine only_foldl_fst ?_ fun _ _ => ?_))

@[simp] theorem only_setPhase {t1 : Nat} {p : Phase} (h : Only ps s t) (k : [.seq] ⊆ ps) :
    Only ps s (setPhase t t1 p) := by
  simp only [List.cons_subset, List.nil_subset, and_true] at k
  unfold setPhase
  try dsimp only
  repeat' (first | (simp (maxDischargeDepth := 30) [*]; done) | split)

@[simp] theorem only_wakeLane {n : Nat} (h : Only ps s t) (k : [.ln] ⊆ ps) :
    Only ps s (wakeLane t n) := by
  simp only [List.cons_subset, List.nil_subset, and_true] at k
  unfold wakeLane
  try dsimp only
  repeat' (first | (simp (maxDischargeDepth := 30) [*]; done) | split)

@[simp] theorem only_wakeFor {t1 : Nat} {n : Nat} (h : Only ps s t) (k : [.ln, .seq] ⊆ ps) :
    Only ps s (wakeFor t t1 n) := by
  simp only [List.cons_subset, List.nil_subset, and_true] at k
  unfold wakeFor
  try dsimp only
  repeat' (first | (simp (maxDischargeDepth := 30) [*]; done) | split)

@[simp] theorem only_noSpare {t1 : Nat} (h : Only ps s t) (k : [.free, .cfg, .dev, .ln, .seq, .can, .fret, .yl, .lp, .fld, .cb, .host, .pkg, .nv, .out] ⊆ ps) :
    Only ps s (noSpare t t1) := by
  simp only [List.cons_subset, List.nil_subset, and_true] at k
  unfold noSpare
  try dsimp only
  repeat' (first | (simp (maxDischargeDepth := 30) [*]; done) | split)

@[simp] theorem only_holdMismatch {t1 : Nat} (h : Only ps s t) (k : [.seq] ⊆ ps) :
    Only ps s (holdMismatch t t1) := by
  simp only [List.cons_subset, List.nil_subset, and_true] at k
  unfold holdMismatch
  try dsimp only
  repeat' (first | (simp (maxDischargeDepth := 30) [*]; done) | split)

@[simp] theorem only_serveMismatch {t1 : Nat} (h : Only ps s t) (k : [.free, .cfg, .dev, .ln, .seq, .can, .fret, .yl, .lp, .fld, .cb, .host, .pkg, .nv, .out] ⊆ ps) :
    Only ps s (serveMismatch t t1) := by
  simp only [List.cons_subset, List.nil_subset, and_true] at k
  unfold serveMismatch
  try dsimp only
  repeat' (first | (simp (maxDischargeDepth := 30) [*]; done) | split)

@[simp] theorem only_mismatch {t1 : Nat} {num : Word} {a : Copy} {b : Copy} (h : Only ps s t) (k : [.free, .cfg, .dev, .ln, .seq, .can, .fret, .yl, .lp, .fld, .cb, .host, .pkg, .nv, .out] ⊆ ps) :
    Only ps s (mismatch t t1 num a b) := by
  simp only [List.cons_subset, List.nil_subset, and_true] at k
  unfold mismatch
  try dsimp only
  repeat' (first | (simp (maxDischargeDepth := 30) [*]; done) | split)

@[simp] theorem only_startTest {n : Nat} {x2 : TestKind} (h : Only ps s t) (k : [.ln] ⊆ ps) :
    Only ps s (startTest t n x2) := by
  simp only [List.cons_subset, List.nil_subset, and_true] at k
  unfold startTest
  try dsimp only
  repeat' (first | (simp (maxDischargeDepth := 30) [*]; done) | split)

@[simp] theorem only_retireLane {n : Nat} {cause : Nat} {part : Option TestPart} (h : Only ps s t) (k : [.ln, .seq, .host, .nv, .out] ⊆ ps) :
    Only ps s (retireLane t n cause part) := by
  simp only [List.cons_subset, List.nil_subset, and_true] at k
  unfold retireLane
  try dsimp only
  repeat' (first | (simp (maxDischargeDepth := 30) [*]; done) | split)

@[simp] theorem only_strikeLane {n : Nat} (h : Only ps s t) (k : [.ln, .seq, .host, .nv, .out] ⊆ ps) :
    Only ps s (strikeLane t n) := by
  simp only [List.cons_subset, List.nil_subset, and_true] at k
  unfold strikeLane
  try dsimp only
  repeat' (first | (simp (maxDischargeDepth := 30) [*]; done) | split)

@[simp] theorem only_restartCopy {x1 : Nat} {n : Nat} (h : Only ps s t) (k : [.free, .ln, .host, .nv, .out] ⊆ ps) :
    Only ps s (restartCopy t x1 n) := by
  simp only [List.cons_subset, List.nil_subset, and_true] at k
  unfold restartCopy
  try dsimp only
  repeat' (first | (simp (maxDischargeDepth := 30) [*]; done) | split)

@[simp] theorem only_moveCopy {n : Nat} {x2 : Nat} (h : Only ps s t) (k : [.free, .ln, .host, .nv, .out] ⊆ ps) :
    Only ps s (moveCopy n t x2) := by
  simp only [List.cons_subset, List.nil_subset, and_true] at k
  unfold moveCopy
  try dsimp only
  repeat' (first | (simp (maxDischargeDepth := 30) [*]; done) | split | (refine only_foldl ?_ fun _ _ => ?_) | (refine only_foldl_fst ?_ fun _ _ => ?_))

@[simp] theorem only_moveCopies {old : Nat} {new : Nat} (h : Only ps s t) (k : [.free, .ln, .seq, .host, .nv, .out] ⊆ ps) :
    Only ps s (moveCopies t old new) := by
  simp only [List.cons_subset, List.nil_subset, and_true] at k
  unfold moveCopies
  try dsimp only
  repeat' (first | (simp (maxDischargeDepth := 30) [*]; done) | split | (refine only_foldl ?_ fun _ _ => ?_))

@[simp] theorem only_takeover {x : Nat} {old : Nat} {new : Nat} {good : Bool} (h : Only ps s t) (k : [.free, .ln, .seq, .host, .nv, .out] ⊆ ps) :
    Only ps s (takeover t x old new good) := by
  simp only [List.cons_subset, List.nil_subset, and_true] at k
  unfold takeover
  try dsimp only
  repeat' (first | (simp (maxDischargeDepth := 30) [*]; done) | split)

@[simp] theorem only_oddLane {odd : Nat} {spare : Nat} (h : Only ps s t) (k : [.free, .ln, .seq, .host, .nv, .out] ⊆ ps) :
    Only ps s (oddLane t odd spare) := by
  simp only [List.cons_subset, List.nil_subset, and_true] at k
  unfold oddLane
  try dsimp only
  repeat' (first | (simp (maxDischargeDepth := 30) [*]; done) | split)

@[simp] theorem only_testThird {under : List Nat} {n : Nat} (h : Only ps s t) (k : [.free, .ln, .seq, .host, .nv, .out] ⊆ ps) :
    Only ps s (testThird t under n) := by
  simp only [List.cons_subset, List.nil_subset, and_true] at k
  unfold testThird
  try dsimp only
  repeat' (first | (simp (maxDischargeDepth := 30) [*]; done) | split | (refine only_foldl ?_ fun _ _ => ?_))

@[simp] theorem only_bootTakeovers (h : Only ps s t) (k : [.free, .ln, .seq, .host, .nv, .out] ⊆ ps) :
    Only ps s (bootTakeovers t) := by
  simp only [List.cons_subset, List.nil_subset, and_true] at k
  unfold bootTakeovers
  try dsimp only
  repeat' (first | (simp (maxDischargeDepth := 30) [*]; done) | split | (refine only_foldl ?_ fun _ _ => ?_))

@[simp] theorem only_dropBuffered {lo : Nat} {hi : Nat} (h : Only ps s t) (k : [.ln] ⊆ ps) :
    Only ps s (dropBuffered t lo hi) := by
  simp only [List.cons_subset, List.nil_subset, and_true] at k
  unfold dropBuffered
  try dsimp only
  repeat' (first | (simp (maxDischargeDepth := 30) [*]; done) | split | (refine only_foldl ?_ fun _ _ => ?_))

@[simp] theorem only_loadCode {b : Bool} (h : Only ps s t) (k : [.ps, .ln] ⊆ ps) :
    Only ps s (loadCode t b) := by
  simp only [List.cons_subset, List.nil_subset, and_true] at k
  unfold loadCode
  try dsimp only
  repeat' (first | (simp (maxDischargeDepth := 30) [*]; done) | split)

@[simp] theorem only_noteCheck {code : Nat} {f : Nat × Nat} (h : Only ps s t) (k : [.seq, .can, .fret, .yl, .lp, .fld, .cb, .safe, .nv] ⊆ ps) :
    Only ps s (noteCheck t code f) := by
  simp only [List.cons_subset, List.nil_subset, and_true] at k
  unfold noteCheck
  try dsimp only
  repeat' (first | (simp (maxDischargeDepth := 30) [*]; done) | split)

@[simp] theorem only_freshLanes (h : Only ps s t) (k : [.ln] ⊆ ps) :
    Only ps s (freshLanes t) := by
  simp only [List.cons_subset, List.nil_subset, and_true] at k
  unfold freshLanes
  try dsimp only
  repeat' (first | (simp (maxDischargeDepth := 30) [*]; done) | split | (refine only_foldl ?_ fun _ _ => ?_))

@[simp] theorem only_freshField (h : Only ps s t) (k : [.yl, .fld] ⊆ ps) :
    Only ps s (freshField t) := by
  simp only [List.cons_subset, List.nil_subset, and_true] at k
  unfold freshField
  try dsimp only
  repeat' (first | (simp (maxDischargeDepth := 30) [*]; done) | split | (refine only_foldl ?_ fun _ _ => ?_))

@[simp] theorem only_repairAll (h : Only ps s t) (k : [.ln, .can, .host, .nv, .out] ⊆ ps) :
    Only ps s (repairAll t) := by
  simp only [List.cons_subset, List.nil_subset, and_true] at k
  unfold repairAll
  try dsimp only
  repeat' (first | (simp (maxDischargeDepth := 30) [*]; done) | split | (refine only_foldl ?_ fun _ _ => ?_) | (refine only_foldl_fst ?_ fun _ _ => ?_))

@[simp] theorem only_clearSetup (h : Only ps s t)
    (k : [.cfg, .ln, .seq, .can, .fret, .yl, .lp, .fld, .cb, .host, .safe, .nv, .out] ⊆ ps) : Only ps s (clearSetup t) := by
  simp only [List.cons_subset, List.nil_subset, and_true] at k
  unfold clearSetup
  have hx : Only ps s (freshField (canEnterSetup (freshLanes (repairAll t)))) := by
    simp (maxDischargeDepth := 30) [*]
  dsimp only
  generalize freshField (canEnterSetup (freshLanes (repairAll t))) = x at hx ⊢
  rw [only_iff] at hx ⊢
  simp_all

@[simp] theorem only_startSetup {t1 : Nat} {n : Nat} {entry : BitVec 21} {mem : Mem} (h : Only ps s t) (k : [.free, .ln, .seq, .host, .nv, .out] ⊆ ps) :
    Only ps s (startSetup t t1 n entry mem) := by
  simp only [List.cons_subset, List.nil_subset, and_true] at k
  unfold startSetup
  try dsimp only
  repeat' (first | (simp (maxDischargeDepth := 30) [*]; done) | split)

@[simp] theorem only_unbindLanes (h : Only ps s t) (k : [.ln] ⊆ ps) :
    Only ps s (unbindLanes t) := by
  simp only [List.cons_subset, List.nil_subset, and_true] at k
  unfold unbindLanes
  try dsimp only
  repeat' (first | (simp (maxDischargeDepth := 30) [*]; done) | split | (refine only_foldl ?_ fun _ _ => ?_))

@[simp] theorem only_clearUnowned (h : Only ps s t) (k : [.can] ⊆ ps) :
    Only ps s (clearUnowned t) := by
  simp only [List.cons_subset, List.nil_subset, and_true] at k
  unfold clearUnowned
  try dsimp only
  repeat' (first | (simp (maxDischargeDepth := 30) [*]; done) | split | (refine only_foldl ?_ fun _ _ => ?_) | (refine only_foldl_fst ?_ fun _ _ => ?_))

@[simp] theorem only_setupFail {code : Nat} (h : Only ps s t) (k : [.free, .dev, .ln, .seq, .can, .host, .nv, .out] ⊆ ps) :
    Only ps s (setupFail t code) := by
  simp only [List.cons_subset, List.nil_subset, and_true] at k
  unfold setupFail
  try dsimp only
  repeat' (first | (simp (maxDischargeDepth := 30) [*]; done) | split)

@[simp] theorem only_placeSetup (h : Only ps s t) (k : [.free, .dev, .ln, .seq, .can, .host, .nv, .out] ⊆ ps) :
    Only ps s (placeSetup t) := by
  simp only [List.cons_subset, List.nil_subset, and_true] at k
  unfold placeSetup
  try dsimp only
  repeat' (first | (simp (maxDischargeDepth := 30) [*]; done) | split)

@[simp] theorem only_setupEntry {cause : Nat} (h : Only ps s t) (k : [.free, .cfg, .dev, .ps, .ln, .seq, .can, .fret, .yl, .lp, .fld, .cb, .host, .pkg, .safe, .nv, .svc, .out] ⊆ ps) :
    Only ps s (setupEntry t cause) := by
  simp only [List.cons_subset, List.nil_subset, and_true] at k
  unfold setupEntry
  try dsimp only
  repeat' (first | (simp (maxDischargeDepth := 30) [*]; done) | split)

@[simp] theorem only_setupShafts (h : Only ps s t) (k : [.fret] ⊆ ps) :
    Only ps s (setupShafts t) := by
  simp only [List.cons_subset, List.nil_subset, and_true] at k
  unfold setupShafts
  try dsimp only
  repeat' (first | (simp (maxDischargeDepth := 30) [*]; done) | split | (refine only_foldl ?_ fun _ _ => ?_))

@[simp] theorem only_bindLanes (h : Only ps s t) (k : [.ln] ⊆ ps) :
    Only ps s (bindLanes t) := by
  simp only [List.cons_subset, List.nil_subset, and_true] at k
  unfold bindLanes
  try dsimp only
  repeat' (first | (simp (maxDischargeDepth := 30) [*]; done) | split | (refine only_foldl ?_ fun _ _ => ?_))

@[simp] theorem only_spareStart (h : Only ps s t) (k : [.ln] ⊆ ps) :
    Only ps s (spareStart t) := by
  simp only [List.cons_subset, List.nil_subset, and_true] at k
  unfold spareStart
  try dsimp only
  repeat' (first | (simp (maxDischargeDepth := 30) [*]; done) | split)

@[simp] theorem only_setupSafety (h : Only ps s t) (k : [.host, .safe, .nv, .out] ⊆ ps) :
    Only ps s (setupSafety t) := by
  simp only [List.cons_subset, List.nil_subset, and_true] at k
  unfold setupSafety
  try dsimp only
  repeat' (first | (simp (maxDischargeDepth := 30) [*]; done) | split)

@[simp] theorem only_setupTakeovers (h : Only ps s t) (k : [.free, .ln, .seq, .host, .nv, .out] ⊆ ps) :
    Only ps s (setupTakeovers t) := by
  simp only [List.cons_subset, List.nil_subset, and_true] at k
  unfold setupTakeovers
  try dsimp only
  repeat' (first | (simp (maxDischargeDepth := 30) [*]; done) | split)

@[simp] theorem only_setupCommit {c : Copy} (h : Only ps s t) (k : [.free, .cfg, .dev, .ln, .seq, .can, .fret, .yl, .lp, .fld, .cb, .host, .pkg, .safe, .nv, .out] ⊆ ps) :
    Only ps s (setupCommit t c) := by
  simp only [List.cons_subset, List.nil_subset, and_true] at k
  unfold setupCommit
  try dsimp only
  repeat' (first | (simp (maxDischargeDepth := 30) [*]; done) | split | (refine only_foldl ?_ fun _ _ => ?_))

@[simp] theorem only_setupDone {c : Copy} (h : Only ps s t) (k : [.free, .cfg, .dev, .ln, .seq, .can, .fret, .yl, .lp, .fld, .cb, .host, .pkg, .safe, .nv, .out] ⊆ ps) :
    Only ps s (setupDone t c) := by
  simp only [List.cons_subset, List.nil_subset, and_true] at k
  unfold setupDone
  try dsimp only
  repeat' (first | (simp (maxDischargeDepth := 30) [*]; done) | split)

@[simp] theorem only_afterVerdict (h : Only ps s t) (k : [.free, .dev, .ln, .seq, .can, .host, .nv, .out] ⊆ ps) :
    Only ps s (afterVerdict t) := by
  simp only [List.cons_subset, List.nil_subset, and_true] at k
  unfold afterVerdict
  try dsimp only
  repeat' (first | (simp (maxDischargeDepth := 30) [*]; done) | split)

@[simp] theorem only_planDone {w : Copy} (h : Only ps s t) (k : [.free, .ln, .seq, .can, .host, .pkg, .safe, .nv, .out] ⊆ ps) :
    Only ps s (planDone t w) := by
  simp only [List.cons_subset, List.nil_subset, and_true] at k
  unfold planDone
  try dsimp only
  repeat' (first | (simp (maxDischargeDepth := 30) [*]; done) | split)

@[simp] theorem only_planFault (h : Only ps s t) (k : [.free, .ln, .seq, .can, .host, .pkg, .nv, .out] ⊆ ps) :
    Only ps s (planFault t) := by
  simp only [List.cons_subset, List.nil_subset, and_true] at k
  unfold planFault
  try dsimp only
  repeat' (first | (simp (maxDischargeDepth := 30) [*]; done) | split)

@[simp] theorem only_slotBegins {x1 : Nat} {c : Copy} (h : Only ps s t) (k : [.ln] ⊆ ps) :
    Only ps s (slotBegins t x1 c).1 := by
  simp only [List.cons_subset, List.nil_subset, and_true] at k
  unfold slotBegins
  try dsimp only
  repeat' (first | (simp (maxDischargeDepth := 30) [*]; done) | split)

@[simp] theorem only_leaveLane {l : Nat} {x2 : Nat} (h : Only ps s t) (k : [.ln, .seq, .host, .nv, .out] ⊆ ps) :
    Only ps s (leaveLane t l x2) := by
  simp only [List.cons_subset, List.nil_subset, and_true] at k
  unfold leaveLane
  try dsimp only
  repeat' (first | (simp (maxDischargeDepth := 30) [*]; done) | split)

@[simp] theorem only_faultCopy {x1 : Nat} {c : Copy} {code : Nat} (h : Only ps s t) (k : [.free, .cfg, .dev, .ln, .seq, .can, .host, .pkg, .nv, .out] ⊆ ps) :
    Only ps s (faultCopy t x1 c code) := by
  simp only [List.cons_subset, List.nil_subset, and_true] at k
  unfold faultCopy
  try dsimp only
  repeat' (first | (simp (maxDischargeDepth := 30) [*]; done) | split)

@[simp] theorem only_atPermitted {x1 : Nat} (h : Only ps s t) (k : [.free, .ln, .seq, .can, .host, .nv, .out] ⊆ ps) :
    Only ps s (atPermitted t x1) := by
  simp only [List.cons_subset, List.nil_subset, and_true] at k
  unfold atPermitted
  try dsimp only
  repeat' (first | (simp (maxDischargeDepth := 30) [*]; done) | split | (refine only_foldl ?_ fun _ _ => ?_) | (refine only_foldl_fst ?_ fun _ _ => ?_))

@[simp] theorem only_faultEnds {x1 : Nat} {c : Copy} {code : Nat} (h : Only ps s t) (k : [.free, .cfg, .dev, .ln, .seq, .can, .host, .pkg, .nv, .out] ⊆ ps) :
    Only ps s (faultEnds t x1 c code) := by
  simp only [List.cons_subset, List.nil_subset, and_true] at k
  unfold faultEnds
  try dsimp only
  repeat' (first | (simp (maxDischargeDepth := 30) [*]; done) | split | (refine only_foldl ?_ fun _ _ => ?_) | (refine only_foldl_fst ?_ fun _ _ => ?_))

@[simp] theorem only_haltCopy {x1 : Nat} {errs : List EccErr} (h : Only ps s t) (k : [.free, .cfg, .dev, .ln, .seq, .can, .fret, .yl, .lp, .fld, .cb, .host, .pkg, .safe, .nv, .out] ⊆ ps) :
    Only ps s (haltCopy t x1 errs) := by
  simp only [List.cons_subset, List.nil_subset, and_true] at k
  unfold haltCopy
  try dsimp only
  repeat' (first | (simp (maxDischargeDepth := 30) [*]; done) | split | (refine only_foldl ?_ fun _ _ => ?_))

@[simp] theorem only_quotaStall {x1 : Nat} {c : Copy} (h : Only ps s t) (k : [.host, .nv, .out] ⊆ ps) :
    Only ps s (quotaStall t x1 c) := by
  simp only [List.cons_subset, List.nil_subset, and_true] at k
  unfold quotaStall
  try dsimp only
  repeat' (first | (simp (maxDischargeDepth := 30) [*]; done) | split)

@[simp] theorem only_unitLeaves {x : Res} {n : Nat} {first : BitVec 21} {w : Nat} {errs : List EccErr} (h : Only ps s x.s)
    (k : [.free, .cfg, .dev, .ln, .seq, .can, .fret, .yl, .lp, .fld, .cb, .host, .pkg, .safe, .nv, .out] ⊆ ps) :
    Only ps s (unitLeaves x n first w errs) := by
  simp only [List.cons_subset, List.nil_subset, and_true] at k
  unfold unitLeaves
  split <;> simp (maxDischargeDepth := 30) [*]

@[simp] theorem only_unitEnds {x : Res} {n : Nat} {first : BitVec 21} {w : Nat} {errs : List EccErr} (h : Only ps s x.s)
    (k : [.free, .cfg, .dev, .ln, .seq, .can, .fret, .yl, .lp, .fld, .cb, .host, .pkg, .safe, .nv, .out] ⊆ ps) :
    Only ps s (unitEnds x n first w errs) := by
  have k' := k
  simp only [List.cons_subset, List.nil_subset, and_true] at k
  exact only_atPermitted (only_unitLeaves h k') (by simp [*])

end Sys2Proof.Machine
end

