-- ==== Sys2Proof/Laws/FramesHosts.lean ====
section
/-! SUPPORT. Frames of the shared operations: host slots, commands, power and boot. Each lemma says which parts of the state an
operation can change. -/
namespace Sys2Proof.Machine

variable {ps : List Part} {s t u : State}

theorem only_issueWith {errs : List EccErr} {l : Nat} {p : List Pre} {d : Dec} {body : State → Nat → Copy → Res}
    (h : Only ps s t) (kb : ∀ u n c, Only ps u (body u n c).s)
    (k : [.free, .cfg, .dev, .ln, .seq, .can, .fret, .yl, .lp, .fld, .cb, .host, .pkg, .safe, .nv, .out] ⊆ ps) :
    Only ps s (issueWith errs l p d body t) := by
  simp only [List.cons_subset, List.nil_subset, and_true] at k
  have hx : ∀ n c, Only ps s (slotBegins t n c).1 := fun n c => only_slotBegins h (by simp [*])
  unfold issueWith
  split
  · exact h
  · dsimp only
    split
    · exact only_faultEnds (hx _ _) (by simp [*])
    · split
      · exact only_unitEnds (hx _ _) (by simp [*])
      · split
        · exact only_faultEnds (hx _ _) (by simp [*])
        · exact only_unitEnds ((hx _ _).trans (kb _ _ _)) (by simp [*])

theorem only_issue {l : Nat} {p : List Pre} {d : Dec} {body : State → Nat → Copy → Res}
    (h : Only ps s t) (kb : ∀ u n c, Only ps u (body u n c).s)
    (k : [.free, .cfg, .dev, .ln, .seq, .can, .fret, .yl, .lp, .fld, .cb, .host, .pkg, .safe, .nv, .out] ⊆ ps) :
    Only ps s (issue l p d body t) := only_issueWith h kb k

@[simp] theorem only_bitResume {x1 : Nat} {b : PendBit} (h : Only ps s t) (k : [.free, .cfg, .dev, .ln, .seq, .can, .fret, .yl, .lp, .fld, .cb, .host, .pkg, .safe, .nv, .out] ⊆ ps) :
    Only ps s (bitResume t x1 b) := by
  simp only [List.cons_subset, List.nil_subset, and_true] at k
  unfold bitResume
  try dsimp only
  repeat' (first | (simp (maxDischargeDepth := 30) [*]; done) | split | (refine only_foldl ?_ fun _ _ => ?_) | (refine only_foldl_fst ?_ fun _ _ => ?_))

@[simp] theorem only_loadReturn {l : Nat} {e : Ecc} (h : Only ps s t) (k : [.free, .cfg, .dev, .ln, .seq, .can, .fret, .yl, .lp, .fld, .cb, .host, .pkg, .safe, .nv, .out] ⊆ ps) :
    Only ps s (loadReturn t l e) := by
  simp only [List.cons_subset, List.nil_subset, and_true] at k
  unfold loadReturn
  try dsimp only
  repeat' (first | (simp (maxDischargeDepth := 30) [*]; done) | split)

@[simp] theorem only_windowFill {l : Nat} {ws : List (Fin 16 × Ecc)} (h : Only ps s t) (k : [.free, .cfg, .dev, .ln, .seq, .can, .fret, .yl, .lp, .fld, .cb, .host, .pkg, .safe, .nv, .out] ⊆ ps) :
    Only ps s (windowFill t l ws) := by
  simp only [List.cons_subset, List.nil_subset, and_true] at k
  unfold windowFill
  try dsimp only
  repeat' (first | (simp (maxDischargeDepth := 30) [*]; done) | split | (refine only_foldl ?_ fun _ _ => ?_) | (refine only_foldl_fst ?_ fun _ _ => ?_))

@[simp] theorem only_psCorrected {buffer : Bool} {lane : Nat} {task : Nat} {a : BitVec 21} (h : Only ps s t) (k : [.ps, .host, .nv, .out] ⊆ ps) :
    Only ps s (psCorrected t buffer lane task a) := by
  simp only [List.cons_subset, List.nil_subset, and_true] at k
  unfold psCorrected
  try dsimp only
  repeat' (first | (simp (maxDischargeDepth := 30) [*]; done) | split | (refine only_foldl ?_ fun _ _ => ?_) | (refine only_foldl_fst ?_ fun _ _ => ?_))

@[simp] theorem only_psUncorrected {buffer : Bool} {lane : Nat} {task : Nat} {a : BitVec 21} (h : Only ps s t) (k : [.ps, .host, .nv, .out] ⊆ ps) :
    Only ps s (psUncorrected t buffer lane task a) := by
  simp only [List.cons_subset, List.nil_subset, and_true] at k
  unfold psUncorrected
  try dsimp only
  repeat' (first | (simp (maxDischargeDepth := 30) [*]; done) | split)

@[simp] theorem only_fetchEnds {l : Nat} {o : FetchOutcome} (h : Only ps s t) (k : [.free, .cfg, .dev, .ps, .ln, .seq, .can, .host, .pkg, .nv, .out] ⊆ ps) :
    Only ps s (fetchEnds t l o) := by
  simp only [List.cons_subset, List.nil_subset, and_true] at k
  unfold fetchEnds
  try dsimp only
  repeat' (first | (simp (maxDischargeDepth := 30) [*]; done) | split)

@[simp] theorem only_dropBufWord {a : BitVec 21} (h : Only ps s t) (k : [.ln] ⊆ ps) :
    Only ps s (dropBufWord t a) := by
  simp only [List.cons_subset, List.nil_subset, and_true] at k
  unfold dropBufWord
  try dsimp only
  repeat' (first | (simp (maxDischargeDepth := 30) [*]; done) | split)

@[simp] theorem only_psRewrite {a : BitVec 21} {ok : Bool} (h : Only ps s t) (k : [.ps, .ln, .host, .nv, .out] ⊆ ps) :
    Only ps s (psRewrite t a ok) := by
  simp only [List.cons_subset, List.nil_subset, and_true] at k
  unfold psRewrite
  try dsimp only
  repeat' (first | (simp (maxDischargeDepth := 30) [*]; done) | split)

@[simp] theorem only_psScrubbed {a : BitVec 21} (h : Only ps s t) (k : [.ps, .ln, .host, .nv, .out] ⊆ ps) :
    Only ps s (psScrubbed t a) := by
  simp only [List.cons_subset, List.nil_subset, and_true] at k
  unfold psScrubbed
  try dsimp only
  repeat' (first | (simp (maxDischargeDepth := 30) [*]; done) | split | (refine only_foldl ?_ fun _ _ => ?_) | (refine only_foldl_fst ?_ fun _ _ => ?_))

@[simp] theorem only_psScrub {errs : List (BitVec 21 × Bool)} (h : Only ps s t) (k : [.ps, .ln, .host, .nv, .out] ⊆ ps) :
    Only ps s (psScrub t errs) := by
  simp only [List.cons_subset, List.nil_subset, and_true] at k
  unfold psScrub
  try dsimp only
  repeat' (first | (simp (maxDischargeDepth := 30) [*]; done) | split | (refine only_foldl ?_ fun _ _ => ?_))

@[simp] theorem only_canScrub {errs : List EccErr} (h : Only ps s t) (k : [.free, .cfg, .dev, .ln, .seq, .can, .fret, .yl, .lp, .fld, .cb, .host, .pkg, .nv, .out] ⊆ ps) :
    Only ps s (canScrub t errs) := by
  simp only [List.cons_subset, List.nil_subset, and_true] at k
  unfold canScrub
  try dsimp only
  repeat' (first | (simp (maxDischargeDepth := 30) [*]; done) | split | (refine only_foldl ?_ fun _ _ => ?_))

@[simp] theorem only_popCmd {n : Nat} (h : Only ps s t) (k : [.host] ⊆ ps) :
    Only ps s (popCmd t n) := by
  simp only [List.cons_subset, List.nil_subset, and_true] at k
  unfold popCmd
  try dsimp only
  repeat' (first | (simp (maxDischargeDepth := 30) [*]; done) | split)

@[simp] theorem only_drainBad {n : Nat} (h : Only ps s t) (k : [.host, .out] ⊆ ps) :
    Only ps s (drainBad t n) := by
  simp only [List.cons_subset, List.nil_subset, and_true] at k
  unfold drainBad
  try dsimp only
  repeat' (first | (simp (maxDischargeDepth := 30) [*]; done) | split | (refine only_foldl ?_ fun _ _ => ?_))

@[simp] theorem only_writeTail {n : Nat} {v : Word} (h : Only ps s t) (k : [.host, .out] ⊆ ps) :
    Only ps s (writeTail t n v) := by
  simp only [List.cons_subset, List.nil_subset, and_true] at k
  unfold writeTail
  try dsimp only
  repeat' (first | (simp (maxDischargeDepth := 30) [*]; done) | split)

@[simp] theorem only_writeCplHead {n : Nat} {v : Word} (h : Only ps s t) (k : [.host, .out] ⊆ ps) :
    Only ps s (writeCplHead t n v) := by
  simp only [List.cons_subset, List.nil_subset, and_true] at k
  unfold writeCplHead
  try dsimp only
  repeat' (first | (simp (maxDischargeDepth := 30) [*]; done) | split)

@[simp] theorem only_ringBell {n : Nat} (h : Only ps s t) (k : [.seq] ⊆ ps) :
    Only ps s (ringBell t n) := by
  simp only [List.cons_subset, List.nil_subset, and_true] at k
  unfold ringBell
  try dsimp only
  repeat' (first | (simp (maxDischargeDepth := 30) [*]; done) | split)

@[simp] theorem only_clearNotify {n : Nat} {v : Word} (h : Only ps s t) (k : [.host] ⊆ ps) :
    Only ps s (clearNotify t n v) := by
  simp only [List.cons_subset, List.nil_subset, and_true] at k
  unfold clearNotify
  try dsimp only
  repeat' (first | (simp (maxDischargeDepth := 30) [*]; done) | split)

@[simp] theorem only_writeMask {n : Nat} {v : Word} (h : Only ps s t) (k : [.host, .out] ⊆ ps) :
    Only ps s (writeMask t n v) := by
  simp only [List.cons_subset, List.nil_subset, and_true] at k
  unfold writeMask
  try dsimp only
  repeat' (first | (simp (maxDischargeDepth := 30) [*]; done) | split | (refine only_foldl ?_ fun _ _ => ?_))

@[simp] theorem only_clearPend {n : Nat} {v : Word} (h : Only ps s t) (k : [.host] ⊆ ps) :
    Only ps s (clearPend t n v) := by
  simp only [List.cons_subset, List.nil_subset, and_true] at k
  unfold clearPend
  try dsimp only
  repeat' (first | (simp (maxDischargeDepth := 30) [*]; done) | split)

@[simp] theorem only_slotReset {n : Nat} (h : Only ps s t) (k : [.ln, .host, .nv, .out] ⊆ ps) :
    Only ps s (slotReset t n) := by
  simp only [List.cons_subset, List.nil_subset, and_true] at k
  unfold slotReset
  try dsimp only
  repeat' (first | (simp (maxDischargeDepth := 30) [*]; done) | split)

@[simp] theorem only_vecUnmask {n : Nat} {x2 : Nat} (h : Only ps s t) (k : [.host, .out] ⊆ ps) :
    Only ps s (vecUnmask t n x2) := by
  simp only [List.cons_subset, List.nil_subset, and_true] at k
  unfold vecUnmask
  try dsimp only
  repeat' (first | (simp (maxDischargeDepth := 30) [*]; done) | split)

@[simp] theorem only_slotWrite {n : Nat} {off : Nat} {v : Word} (h : Only ps s t) (k : [.ln, .seq, .host, .nv, .out] ⊆ ps) :
    Only ps s (slotWrite t n off v) := by
  simp only [List.cons_subset, List.nil_subset, and_true] at k
  unfold slotWrite
  try dsimp only
  repeat' (first | (simp (maxDischargeDepth := 30) [*]; done) | split | (refine only_foldl ?_ fun _ _ => ?_))

@[simp] theorem only_enumerate (h : Only ps s t) (k : [.out] ⊆ ps) :
    Only ps s (enumerate t) := by
  simp only [List.cons_subset, List.nil_subset, and_true] at k
  unfold enumerate
  try dsimp only
  repeat' (first | (simp (maxDischargeDepth := 30) [*]; done) | split | (refine only_foldl ?_ fun _ _ => ?_) | (refine only_foldl_fst ?_ fun _ _ => ?_))

@[simp] theorem only_qspiSeen {n : Nat} (h : Only ps s t) (k : [.host] ⊆ ps) :
    Only ps s (qspiSeen t n) := by
  simp only [List.cons_subset, List.nil_subset, and_true] at k
  unfold qspiSeen
  try dsimp only
  repeat' (first | (simp (maxDischargeDepth := 30) [*]; done) | split)

@[simp] theorem only_compareGate {t1 : Nat} (h : Only ps s t) (k : [.free, .cfg, .dev, .ln, .seq, .can, .fret, .yl, .lp, .fld, .cb, .host, .pkg, .nv, .out] ⊆ ps) :
    Only ps s (compareGate t t1) := by
  simp only [List.cons_subset, List.nil_subset, and_true] at k
  unfold compareGate
  try dsimp only
  repeat' (first | (simp (maxDischargeDepth := 30) [*]; done) | split)

@[simp] theorem only_spareWaitEnd {t1 : Nat} (h : Only ps s t) (k : [.free, .cfg, .dev, .ln, .seq, .can, .fret, .yl, .lp, .fld, .cb, .host, .pkg, .nv, .out] ⊆ ps) :
    Only ps s (spareWaitEnd t t1) := by
  simp only [List.cons_subset, List.nil_subset, and_true] at k
  unfold spareWaitEnd
  try dsimp only
  repeat' (first | (simp (maxDischargeDepth := 30) [*]; done) | split)

@[simp] theorem only_spareWake {t1 : Nat} (h : Only ps s t) (k : [.free, .ln, .seq, .host, .nv, .out] ⊆ ps) :
    Only ps s (spareWake t t1) := by
  simp only [List.cons_subset, List.nil_subset, and_true] at k
  unfold spareWake
  try dsimp only
  repeat' (first | (simp (maxDischargeDepth := 30) [*]; done) | split)

@[simp] theorem only_voteFor {t1 : Nat} {i : Inst} {win : Copy} {odd : Copy} {spare : Nat} (h : Only ps s t) (k : [.free, .cfg, .dev, .ln, .seq, .can, .fret, .yl, .lp, .fld, .cb, .host, .pkg, .nv, .out] ⊆ ps) :
    Only ps s (voteFor t t1 i win odd spare) := by
  simp only [List.cons_subset, List.nil_subset, and_true] at k
  unfold voteFor
  try dsimp only
  repeat' (first | (simp (maxDischargeDepth := 30) [*]; done) | split)

@[simp] theorem only_voteFault {t1 : Nat} {odd : Copy} {spare : Nat} (h : Only ps s t) (k : [.free, .cfg, .ln, .seq, .can, .host, .pkg, .nv, .out] ⊆ ps) :
    Only ps s (voteFault t t1 odd spare) := by
  simp only [List.cons_subset, List.nil_subset, and_true] at k
  unfold voteFault
  try dsimp only
  repeat' (first | (simp (maxDischargeDepth := 30) [*]; done) | split)

@[simp] theorem only_vote3 {t1 : Nat} {i : Inst} {a : Copy} {b : Copy} {r : Copy} (h : Only ps s t) (k : [.free, .cfg, .dev, .ln, .seq, .can, .fret, .yl, .lp, .fld, .cb, .host, .pkg, .nv, .out] ⊆ ps) :
    Only ps s (vote3 t t1 i a b r) := by
  simp only [List.cons_subset, List.nil_subset, and_true] at k
  unfold vote3
  try dsimp only
  repeat' (first | (simp (maxDischargeDepth := 30) [*]; done) | split | (refine only_foldl ?_ fun _ _ => ?_))

@[simp] theorem only_pairVote {t1 : Nat} (h : Only ps s t) (k : [.free, .cfg, .dev, .ln, .seq, .can, .fret, .yl, .lp, .fld, .cb, .host, .pkg, .nv, .out] ⊆ ps) :
    Only ps s (pairVote t t1) := by
  simp only [List.cons_subset, List.nil_subset, and_true] at k
  unfold pairVote
  try dsimp only
  repeat' (first | (simp (maxDischargeDepth := 30) [*]; done) | split)

@[simp] theorem only_stopStraggler {t1 : Nat} {i : Inst} {x3 : Nat} {c : Copy} (h : Only ps s t) (k : [.free, .cfg, .dev, .ln, .seq, .can, .fret, .yl, .lp, .fld, .cb, .host, .pkg, .nv, .out] ⊆ ps) :
    Only ps s (stopStraggler t t1 i x3 c) := by
  simp only [List.cons_subset, List.nil_subset, and_true] at k
  unfold stopStraggler
  try dsimp only
  repeat' (first | (simp (maxDischargeDepth := 30) [*]; done) | split)

@[simp] theorem only_pairStraggler {t1 : Nat} (h : Only ps s t) (k : [.free, .cfg, .dev, .ln, .seq, .can, .fret, .yl, .lp, .fld, .cb, .host, .pkg, .nv, .out] ⊆ ps) :
    Only ps s (pairStraggler t t1) := by
  simp only [List.cons_subset, List.nil_subset, and_true] at k
  unfold pairStraggler
  try dsimp only
  repeat' (first | (simp (maxDischargeDepth := 30) [*]; done) | split)

@[simp] theorem only_noReplacement {x : Nat} (h : Only ps s t) (k : [.free, .cfg, .dev, .ln, .seq, .can, .fret, .yl, .lp, .fld, .cb, .host, .pkg, .nv, .out] ⊆ ps) :
    Only ps s (noReplacement t x) := by
  simp only [List.cons_subset, List.nil_subset, and_true] at k
  unfold noReplacement
  try dsimp only
  repeat' (first | (simp (maxDischargeDepth := 30) [*]; done) | split)

@[simp] theorem only_voteRetire {n : Nat} {cause : Nat} {part : Option TestPart} (h : Only ps s t) (k : [.free, .cfg, .dev, .ln, .seq, .can, .fret, .yl, .lp, .fld, .cb, .host, .pkg, .nv, .out] ⊆ ps) :
    Only ps s (voteRetire t n cause part) := by
  simp only [List.cons_subset, List.nil_subset, and_true] at k
  unfold voteRetire
  try dsimp only
  repeat' (first | (simp (maxDischargeDepth := 30) [*]; done) | split)

@[simp] theorem only_votePass {n : Nat} (h : Only ps s t) (k : [.ln, .seq, .host, .nv, .out] ⊆ ps) :
    Only ps s (votePass t n) := by
  simp only [List.cons_subset, List.nil_subset, and_true] at k
  unfold votePass
  try dsimp only
  repeat' (first | (simp (maxDischargeDepth := 30) [*]; done) | split)

@[simp] theorem only_voteVerdict {n : Nat} {failed : Option TestPart} (h : Only ps s t) (k : [.free, .cfg, .dev, .ln, .seq, .can, .fret, .yl, .lp, .fld, .cb, .host, .pkg, .nv, .out] ⊆ ps) :
    Only ps s (voteVerdict t n failed) := by
  simp only [List.cons_subset, List.nil_subset, and_true] at k
  unfold voteVerdict
  try dsimp only
  repeat' (first | (simp (maxDischargeDepth := 30) [*]; done) | split)

@[simp] theorem only_laneReadmitDone {slot : Nat} {cid : BitVec 16} {live : Bool} {st : Nat} (h : Only ps s t) (k : [.host, .out] ⊆ ps) :
    Only ps s (laneReadmitDone t slot cid live st) := by
  simp only [List.cons_subset, List.nil_subset, and_true] at k
  unfold laneReadmitDone
  try dsimp only
  repeat' (first | (simp (maxDischargeDepth := 30) [*]; done) | split)

@[simp] theorem only_readmitVerdict {n : Nat} {slot : Nat} {cid : BitVec 16} {live : Bool} {failed : Option TestPart} (h : Only ps s t) (k : [.ln, .host, .nv, .out] ⊆ ps) :
    Only ps s (readmitVerdict t n slot cid live failed) := by
  simp only [List.cons_subset, List.nil_subset, and_true] at k
  unfold readmitVerdict
  try dsimp only
  repeat' (first | (simp (maxDischargeDepth := 30) [*]; done) | split)

@[simp] theorem only_laneTestEnd {n : Nat} {failed : Option TestPart} (h : Only ps s t) (k : [.free, .cfg, .dev, .ln, .seq, .can, .fret, .yl, .lp, .fld, .cb, .host, .pkg, .nv, .out] ⊆ ps) :
    Only ps s (laneTestEnd t n failed) := by
  simp only [List.cons_subset, List.nil_subset, and_true] at k
  unfold laneTestEnd
  try dsimp only
  repeat' (first | (simp (maxDischargeDepth := 30) [*]; done) | split)

@[simp] theorem only_standInReturn {n : Nat} (h : Only ps s t) (k : [.free, .cfg, .dev, .ln, .seq, .can, .fret, .yl, .lp, .fld, .cb, .host, .pkg, .nv, .out] ⊆ ps) :
    Only ps s (standInReturn t n) := by
  simp only [List.cons_subset, List.nil_subset, and_true] at k
  unfold standInReturn
  try dsimp only
  repeat' (first | (simp (maxDischargeDepth := 30) [*]; done) | split)

@[simp] theorem only_spareTestStart (h : Only ps s t) (k : [.ln] ⊆ ps) :
    Only ps s (spareTestStart t) := by
  simp only [List.cons_subset, List.nil_subset, and_true] at k
  unfold spareTestStart
  try dsimp only
  repeat' (first | (simp (maxDischargeDepth := 30) [*]; done) | split)

@[simp] theorem only_accessOnce {n : Nat} {c : Copy} {isSys : Bool} {num : BitVec 16} {f : State → State × Imm}
    (h : Only ps s t) (k : [.free, .seq] ⊆ ps) (kf : ∀ u, Only ps u (f u).1) :
    Only ps s (accessOnce t n c isSys num f).1 := by
  simp only [List.cons_subset, List.nil_subset, and_true] at k
  have kt := h.trans (kf t)
  unfold accessOnce
  dsimp only
  repeat' (first | exact kt | (simp (maxDischargeDepth := 30) [*]; done) | split)

@[simp] theorem only_cfgEffects {srn : Nat} (h : Only ps s t) (k : [.yl] ⊆ ps) :
    Only ps s (cfgEffects t srn) := by
  simp only [List.cons_subset, List.nil_subset, and_true] at k
  unfold cfgEffects
  try dsimp only
  repeat' (first | (simp (maxDischargeDepth := 30) [*]; done) | split)

@[simp] theorem only_cfgStore {t1 : Nat} {srn : Nat} {v : Word} (h : Only ps s t) (k : [.cfg, .yl, .pkg] ⊆ ps) :
    Only ps s (cfgStore t t1 srn v) := by
  simp only [List.cons_subset, List.nil_subset, and_true] at k
  unfold cfgStore
  try dsimp only
  repeat' (first | (simp (maxDischargeDepth := 30) [*]; done) | (rw [only_iff] at h ⊢; simp_all; done) | split)

@[simp] theorem only_immMbx {t1 : Nat} {g0 : Word} {g1 : Word} {g2 : Word} (h : Only ps s t) (k : [.yl] ⊆ ps) :
    Only ps s (immMbx t t1 g0 g1 g2).1 := by
  simp only [List.cons_subset, List.nil_subset, and_true] at k
  unfold immMbx
  try dsimp only
  repeat' (first | (simp (maxDischargeDepth := 30) [*]; done) | split)

@[simp] theorem only_immNvCount {g0 : Word} (h : Only ps s t) (k : [.host, .nv, .out] ⊆ ps) :
    Only ps s (immNvCount t g0).1 := by
  simp only [List.cons_subset, List.nil_subset, and_true] at k
  unfold immNvCount
  try dsimp only
  repeat' (first | (simp (maxDischargeDepth := 30) [*]; done) | split)

@[simp] theorem only_immCall {t1 : Nat} {n : Nat} {g0 : Word} {g1 : Word} {g2 : Word} (h : Only ps s t) (k : [.seq, .yl, .host, .nv, .out] ⊆ ps) :
    Only ps s (immCall t1 n g0 g1 g2 t).1 := by
  simp only [List.cons_subset, List.nil_subset, and_true] at k
  unfold immCall
  try dsimp only
  repeat' (first | (simp (maxDischargeDepth := 30) [*]; done) | split)

@[simp] theorem only_immAccess {t1 n : Nat} {g0 g1 g2 : Word} (h : Only ps s t) (k : [.free, .seq, .yl, .host, .nv, .out] ⊆ ps) :
    Only ps s (immAccess t1 n g0 g1 g2 t).1 := by
  simp only [List.cons_subset, List.nil_subset, and_true] at k
  have hx : Only ps s (immCall t1 n g0 g1 g2 t).1 := only_immCall h (by simp [*])
  unfold immAccess
  generalize immCall t1 n g0 g1 g2 t = r at hx ⊢
  have hp := only_passTag (reserved := taskTags t.cfg t1) (st := r.2.status.toNat) hx (by simp [*])
  cases callFabric n
  · exact hx
  · rw [if_pos rfl]
    dsimp only
    exact hp

/-- The state in which the body of a command leaves the device. -/
def CmdEnd.left : CmdEnd → State
  | .done s _ _ _ _ => s
  | .wait s _ _ _ => s
  | .long s => s
  | .gone s => s
  | .noTag s => s

@[simp] theorem only_goOn {x : Slot} {n op : Nat} {e : CmdEnd} (h : Only ps s e.left) (k : [.free, .yl, .host, .out] ⊆ ps) :
    Only ps s (goOn x n op e) := by
  simp only [List.cons_subset, List.nil_subset, and_true] at k
  cases e <;> simp only [CmdEnd.left] at h <;> simp (maxDischargeDepth := 30) [goOn, *]

theorem only_runCmd {op : Nat} {body : CmdBody} {n : Nat} (h : Only ps s t)
    (kb : ∀ u m b, Only ps u (body u m b).left) (k : [.free, .yl, .host, .out] ⊆ ps) : Only ps s (runCmd op body t n) := by
  have k' := k
  simp only [List.cons_subset, List.nil_subset, and_true] at k
  unfold runCmd
  have h1 : Only ps s (drainBad t n) := by simp (maxDischargeDepth := 30) [*]
  dsimp only
  split
  · refine only_drainBad (only_goOn (Only.trans ?_ (kb _ _ _)) (by simp [*])) (by simp [*])
    simp (maxDischargeDepth := 30) [*]
  · exact h1

@[simp] theorem only_winPut {n : Nat} {off : Nat} {b : List Byte} (h : Only ps s t) (k : [.host] ⊆ ps) :
    Only ps s (winPut t n off b) := by
  simp only [List.cons_subset, List.nil_subset, and_true] at k
  unfold winPut
  try dsimp only
  repeat' (first | (simp (maxDischargeDepth := 30) [*]; done) | split)

@[simp] theorem only_dropOwner {n : Nat} {reason : Nat} (h : Only ps s t) (k : [.host, .nv, .out] ⊆ ps) :
    Only ps s (dropOwner t n reason) := by
  simp only [List.cons_subset, List.nil_subset, and_true] at k
  unfold dropOwner
  try dsimp only
  repeat' (first | (simp (maxDischargeDepth := 30) [*]; done) | split)

theorem only_hostAccess {op : Nat} {body : CmdBody} {n : Nat} (h : Only ps s t)
    (kb : ∀ u m b, Only ps u (body u m b).left) (k : [.free, .yl, .host, .out] ⊆ ps) : Only ps s (hostAccess op body t n) := by
  have k' := k
  simp only [List.cons_subset, List.nil_subset, and_true] at k
  unfold hostAccess
  split
  · split
    · split
      · exact h
      · exact only_modSlot (only_drawTag h (by simp [*])) (by simp [*])
    · exact only_runCmd (only_passTag h (by simp [*])) kb k'
  · exact only_runCmd h kb k'

@[simp] theorem only_stageSafe {f : Safe → Safe} (h : Only ps s t) (k : [.nv] ⊆ ps) :
    Only ps s (stageSafe t f) := by
  simp only [List.cons_subset, List.nil_subset, and_true] at k
  unfold stageSafe
  try dsimp only
  repeat' (first | (simp (maxDischargeDepth := 30) [*]; done) | split)

@[simp] theorem only_bothSafe {f : Safe → Safe} (h : Only ps s t) (k : [.safe, .nv] ⊆ ps) :
    Only ps s (bothSafe t f) := by
  simp only [List.cons_subset, List.nil_subset, and_true] at k
  unfold bothSafe
  try dsimp only
  repeat' (first | (simp (maxDischargeDepth := 30) [*]; done) | split)

@[simp] theorem only_passwordFail {n : Nat} {op : Nat} (h : Only ps s t) (k : [.host, .safe, .nv, .out] ⊆ ps) :
    Only ps s (passwordFail t n op) := by
  simp only [List.cons_subset, List.nil_subset, and_true] at k
  unfold passwordFail
  try dsimp only
  repeat' (first | (simp (maxDischargeDepth := 30) [*]; done) | split)

@[simp] theorem only_clearConfirmed {n : Nat} {b : Bool} (h : Only ps s t) (k : [.host, .safe, .nv, .out] ⊆ ps) :
    Only ps s (clearConfirmed t n b) := by
  simp only [List.cons_subset, List.nil_subset, and_true] at k
  unfold clearConfirmed
  try dsimp only
  repeat' (first | (simp (maxDischargeDepth := 30) [*]; done) | split)

@[simp] theorem only_wdKick (h : Only ps s t) (k : [.wd] ⊆ ps) :
    Only ps s (wdKick t) := by
  simp only [List.cons_subset, List.nil_subset, and_true] at k
  unfold wdKick
  try dsimp only
  repeat' (first | (simp (maxDischargeDepth := 30) [*]; done) | split)

@[simp] theorem only_beginErase (h : Only ps s t) (k : [.svc, .wd] ⊆ ps) :
    Only ps s (beginErase t) := by
  simp only [List.cons_subset, List.nil_subset, and_true] at k
  unfold beginErase
  try dsimp only
  repeat' (first | (simp (maxDischargeDepth := 30) [*]; done) | split)

@[simp] theorem only_addErases {blocks : List Nat} {use : EraseUse} (h : Only ps s t) (k : [.svc, .wd] ⊆ ps) :
    Only ps s (addErases t blocks use) := by
  simp only [List.cons_subset, List.nil_subset, and_true] at k
  unfold addErases
  try dsimp only
  repeat' (first | (simp (maxDischargeDepth := 30) [*]; done) | split)

@[simp] theorem only_dropErases {use : EraseUse} (h : Only ps s t) (k : [.svc] ⊆ ps) :
    Only ps s (dropErases t use) := by
  simp only [List.cons_subset, List.nil_subset, and_true] at k
  unfold dropErases
  try dsimp only
  repeat' (first | (simp (maxDischargeDepth := 30) [*]; done) | split)

@[simp] theorem only_eraseBlock {b : Nat} (h : Only ps s t) (k : [.svc] ⊆ ps) :
    Only ps s (eraseBlock t b) := by
  simp only [List.cons_subset, List.nil_subset, and_true] at k
  unfold eraseBlock
  try dsimp only
  repeat' (first | (simp (maxDischargeDepth := 30) [*]; done) | split)

@[simp] theorem only_norWrite {a : Nat} {l : List Byte} (h : Only ps s t) (k : [.free, .svc] ⊆ ps) :
    Only ps s (norWrite t a l) := by
  simp only [List.cons_subset, List.nil_subset, and_true] at k
  unfold norWrite
  try dsimp only
  repeat' (first | (simp (maxDischargeDepth := 30) [*]; done) | (rw [only_iff] at h ⊢; simp_all; done) | split)

@[simp] theorem only_stageRun {n : Nat} (h : Only ps s t) (k : [.free, .ps, .ln, .seq, .host, .pkg, .nv, .out] ⊆ ps) :
    Only ps s (stageRun t n) := by
  simp only [List.cons_subset, List.nil_subset, and_true] at k
  unfold stageRun
  try dsimp only
  repeat' (first | (simp (maxDischargeDepth := 30) [*]; done) | split)

@[simp] theorem only_removeTasks {p : Plan} (h : Only ps s t) (k : [.cfg] ⊆ ps) :
    Only ps s (removeTasks t p) := by
  simp only [List.cons_subset, List.nil_subset, and_true] at k
  unfold removeTasks
  try dsimp only
  repeat' (first | (simp (maxDischargeDepth := 30) [*]; done) | (rw [only_iff] at h ⊢; simp_all; done) | split | (refine only_foldl ?_ fun _ _ => ?_))

@[simp] theorem only_epoch {p : Plan} {at_ : Nat} (h : Only ps s t) (k : [.free, .cfg, .ln, .seq, .can, .host, .pkg, .safe, .nv, .out] ⊆ ps) :
    Only ps s (epoch t p at_) := by
  simp only [List.cons_subset, List.nil_subset, and_true] at k
  unfold epoch
  try dsimp only
  repeat' (first | (simp (maxDischargeDepth := 30) [*]; done) | (rw [only_iff] at h ⊢; simp_all; done) | split | (refine only_foldl ?_ fun _ _ => ?_))

@[simp] theorem only_resetState (h : Only ps s t) (k : [.cfg, .dev, .clk, .ps, .ln, .seq, .can, .fret, .yl, .lp, .fld, .cb, .host, .pkg, .safe, .nv, .svc, .wd] ⊆ ps) :
    Only ps s (resetState t) := by
  simp only [List.cons_subset, List.nil_subset, and_true] at k
  unfold resetState
  try dsimp only
  repeat' (first | (simp (maxDischargeDepth := 30) [*]; done) | (rw [only_iff] at h ⊢; simp_all; done) | split | (refine only_foldl ?_ fun _ _ => ?_))

@[simp] theorem only_noteReset {r : RstSrc} {left : DevState} (h : Only ps s t) (k : [.clk] ⊆ ps) :
    Only ps s (noteReset t r left) := by
  simp only [List.cons_subset, List.nil_subset, and_true] at k
  unfold noteReset
  try dsimp only
  repeat' (first | (simp (maxDischargeDepth := 30) [*]; done) | split)

@[simp] theorem only_deviceReset {cause : Nat} {r : RstSrc} {cut : Bool} (h : Only ps s t) (k : [.free, .cfg, .dev, .clk, .ps, .ln, .seq, .can, .fret, .yl, .lp, .fld, .cb, .host, .pkg, .safe, .nv, .svc, .wd, .out] ⊆ ps) :
    Only ps s (deviceReset t cause r cut) := by
  simp only [List.cons_subset, List.nil_subset, and_true] at k
  unfold deviceReset
  try dsimp only
  repeat' (first | (simp (maxDischargeDepth := 30) [*]; done) | split | (refine only_foldl ?_ fun _ _ => ?_))

@[simp] theorem only_dropPower (h : Only ps s t)
    (k : [.free, .cfg, .dev, .clk, .ps, .ln, .seq, .can, .fret, .yl, .lp, .fld, .cb, .host, .pkg, .safe, .nv, .svc, .wd] ⊆ ps) :
    Only ps s (dropPower t) := by
  simp only [List.cons_subset, List.nil_subset, and_true] at k
  unfold dropPower
  have hx : Only ps s (resetState (nvCut t)) := by simp (maxDischargeDepth := 30) [*]
  dsimp only
  generalize resetState (nvCut t) = x at hx ⊢
  rw [only_iff] at hx ⊢
  simp_all

@[simp] theorem only_powerOff (h : Only ps s t) (k : [.free, .cfg, .dev, .clk, .ps, .ln, .seq, .can, .fret, .yl, .lp, .fld, .cb, .host, .pkg, .safe, .nv, .svc, .wd, .out] ⊆ ps) :
    Only ps s (powerOff t) := by
  simp only [List.cons_subset, List.nil_subset, and_true] at k
  unfold powerOff
  try dsimp only
  repeat' (first | (simp (maxDischargeDepth := 30) [*]; done) | split)

@[simp] theorem only_powerOn (h : Only ps s t) (k : [.dev, .clk, .seq, .host, .nv, .wd, .out] ⊆ ps) :
    Only ps s (powerOn t) := by
  simp only [List.cons_subset, List.nil_subset, and_true] at k
  unfold powerOn
  have hx : Only ps s ((moveTo t 0x01 .boot).onDev fun d => { d with trans := 0, lastMove := none }) := by
    simp (maxDischargeDepth := 30) [*]
  dsimp only
  generalize (moveTo t 0x01 .boot).onDev (fun d => { d with trans := 0, lastMove := none }) = x at hx ⊢
  rw [only_iff] at hx ⊢
  simp_all

@[simp] theorem only_wakeUp {src : Nat} (h : Only ps s t) (k : [.dev, .clk, .seq, .host, .nv, .out] ⊆ ps) :
    Only ps s (wakeUp t src) := by
  simp only [List.cons_subset, List.nil_subset, and_true] at k
  unfold wakeUp
  try dsimp only
  repeat' (first | (simp (maxDischargeDepth := 30) [*]; done) | split)

@[simp] theorem only_wakeBy {src : Nat} (h : Only ps s t) (k : [.dev, .clk, .seq, .host, .nv, .out] ⊆ ps) :
    Only ps s (wakeBy t src) := by
  simp only [List.cons_subset, List.nil_subset, and_true] at k
  unfold wakeBy
  try dsimp only
  repeat' (first | (simp (maxDischargeDepth := 30) [*]; done) | split)

@[simp] theorem only_openSwitches (h : Only ps s t) (k : [.free, .cfg, .dev, .clk, .ps, .ln, .seq, .can, .fret, .yl, .lp, .fld, .cb, .host, .pkg, .safe, .nv, .svc, .wd, .out] ⊆ ps) :
    Only ps s (openSwitches t) := by
  simp only [List.cons_subset, List.nil_subset, and_true] at k
  unfold openSwitches
  try dsimp only
  repeat' (first | (simp (maxDischargeDepth := 30) [*]; done) | split)

@[simp] theorem only_warnSaved (h : Only ps s t) (k : [.clk, .host, .nv, .out] ⊆ ps) :
    Only ps s (warnSaved t) := by
  simp only [List.cons_subset, List.nil_subset, and_true] at k
  unfold warnSaved
  try dsimp only
  repeat' (first | (simp (maxDischargeDepth := 30) [*]; done) | split | (refine only_foldl ?_ fun _ _ => ?_) | (refine only_foldl_fst ?_ fun _ _ => ?_))

@[simp] theorem only_warnRecord {d : DevState} {q : Word} (h : Only ps s t) (k : [.host, .nv, .out] ⊆ ps) :
    Only ps s (warnRecord t d q) := by
  simp only [List.cons_subset, List.nil_subset, and_true] at k
  unfold warnRecord
  try dsimp only
  repeat' (first | (simp (maxDischargeDepth := 30) [*]; done) | split | (refine only_foldl ?_ fun _ _ => ?_) | (refine only_foldl_fst ?_ fun _ _ => ?_))

@[simp] theorem only_powerWarn (h : Only ps s t) (k : [.free, .clk, .seq, .yl, .host, .nv, .out] ⊆ ps) :
    Only ps s (powerWarn t) := by
  simp only [List.cons_subset, List.nil_subset, and_true] at k
  unfold powerWarn
  try dsimp only
  repeat' (first | (simp (maxDischargeDepth := 30) [*]; done) | split)

@[simp] theorem only_grantSave (h : Only ps s t) (k : [.free, .clk, .yl, .host, .nv, .out] ⊆ ps) :
    Only ps s (grantSave t) := by
  simp only [List.cons_subset, List.nil_subset, and_true] at k
  unfold grantSave
  try dsimp only
  repeat' (first | (simp (maxDischargeDepth := 30) [*]; done) | split | (refine only_foldl ?_ fun _ _ => ?_) | (refine only_foldl_fst ?_ fun _ _ => ?_))

@[simp] theorem only_powerReturns (h : Only ps s t) (k : [.dev, .clk, .seq, .host, .nv, .out] ⊆ ps) :
    Only ps s (powerReturns t) := by
  simp only [List.cons_subset, List.nil_subset, and_true] at k
  unfold powerReturns
  try dsimp only
  repeat' (first | (simp (maxDischargeDepth := 30) [*]; done) | split)

@[simp] theorem only_clockLost {xfo : Bool} (h : Only ps s t) (k : [.clk] ⊆ ps) :
    Only ps s (clockLost t xfo) := by
  simp only [List.cons_subset, List.nil_subset, and_true] at k
  unfold clockLost
  try dsimp only
  repeat' (first | (simp (maxDischargeDepth := 30) [*]; done) | split)

@[simp] theorem only_wdDis {v : Nat} (h : Only ps s t) (k : [.host, .nv, .wd, .out] ⊆ ps) :
    Only ps s (wdDis t v) := by
  simp only [List.cons_subset, List.nil_subset, and_true] at k
  unfold wdDis
  try dsimp only
  repeat' (first | (simp (maxDischargeDepth := 30) [*]; done) | split)

@[simp] theorem only_bootWatchdog (h : Only ps s t) (k : [.wd] ⊆ ps) :
    Only ps s (bootWatchdog t) := by
  simp only [List.cons_subset, List.nil_subset, and_true] at k
  unfold bootWatchdog
  try dsimp only
  repeat' (first | (simp (maxDischargeDepth := 30) [*]; done) | split)

@[simp] theorem only_bootTime (h : Only ps s t) (k : [.clk, .nv] ⊆ ps) :
    Only ps s (bootTime t) := by
  simp only [List.cons_subset, List.nil_subset, and_true] at k
  unfold bootTime
  try dsimp only
  repeat' (first | (simp (maxDischargeDepth := 30) [*]; done) | split)

@[simp] theorem only_bootCycle (h : Only ps s t) (k : [.clk, .host, .nv, .out] ⊆ ps) :
    Only ps s (bootCycle t) := by
  simp only [List.cons_subset, List.nil_subset, and_true] at k
  unfold bootCycle
  try dsimp only
  repeat' (first | (simp (maxDischargeDepth := 30) [*]; done) | split)

@[simp] theorem only_bootEvidence (h : Only ps s t) (k : [.host, .nv, .out] ⊆ ps) :
    Only ps s (bootEvidence t) := by
  simp only [List.cons_subset, List.nil_subset, and_true] at k
  unfold bootEvidence
  try dsimp only
  repeat' (first | (simp (maxDischargeDepth := 30) [*]; done) | split)

@[simp] theorem only_bootRecords (h : Only ps s t) (k : [.clk, .ln, .host, .pkg, .safe, .nv, .out] ⊆ ps) :
    Only ps s (bootRecords t) := by
  simp only [List.cons_subset, List.nil_subset, and_true] at k
  unfold bootRecords
  try dsimp only
  repeat' (first | (simp (maxDischargeDepth := 30) [*]; done) | split)

@[simp] theorem only_enterRecovery {cause : Nat} (h : Only ps s t) (k : [.dev, .clk, .seq, .host, .nv, .out] ⊆ ps) :
    Only ps s (enterRecovery t cause) := by
  simp only [List.cons_subset, List.nil_subset, and_true] at k
  unfold enterRecovery
  try dsimp only
  repeat' (first | (simp (maxDischargeDepth := 30) [*]; done) | split)

@[simp] theorem only_bootImageBad {loader : Bool} {part : Nat} (h : Only ps s t) (k : [.free, .host, .nv, .out] ⊆ ps) :
    Only ps s (bootImageBad t loader part) := by
  simp only [List.cons_subset, List.nil_subset, and_true] at k
  unfold bootImageBad
  try dsimp only
  repeat' (first | (simp (maxDischargeDepth := 30) [*]; done) | split | (refine only_foldl ?_ fun _ _ => ?_) | (refine only_foldl_fst ?_ fun _ _ => ?_))

@[simp] theorem only_startFirmware (h : Only ps s t) (k : [.free, .clk, .host, .nv, .wd, .out] ⊆ ps) :
    Only ps s (startFirmware t) := by
  simp only [List.cons_subset, List.nil_subset, and_true] at k
  unfold startFirmware
  try dsimp only
  repeat' (first | (simp (maxDischargeDepth := 30) [*]; done) | split)

@[simp] theorem only_bootRom {wakeHigh : Bool} (h : Only ps s t) (k : [.free, .dev, .clk, .ln, .seq, .host, .pkg, .safe, .nv, .svc, .wd, .out] ⊆ ps) :
    Only ps s (bootRom t wakeHigh) := by
  simp only [List.cons_subset, List.nil_subset, and_true] at k
  unfold bootRom
  try dsimp only
  repeat' (first | (simp (maxDischargeDepth := 30) [*]; done) | split)

@[simp] theorem only_pllLocks {wakeHigh : Bool} (h : Only ps s t) (k : [.free, .dev, .clk, .ln, .seq, .host, .pkg, .safe, .nv, .svc, .wd, .out] ⊆ ps) :
    Only ps s (pllLocks t wakeHigh) := by
  simp only [List.cons_subset, List.nil_subset, and_true] at k
  unfold pllLocks
  try dsimp only
  repeat' (first | (simp (maxDischargeDepth := 30) [*]; done) | split)

@[simp] theorem only_bootTests {failed : List (LaneId × TestPart)} (h : Only ps s t) (k : [.ln, .seq, .host, .nv, .out] ⊆ ps) :
    Only ps s (bootTests t failed) := by
  simp only [List.cons_subset, List.nil_subset, and_true] at k
  unfold bootTests
  try dsimp only
  repeat' (first | (simp (maxDischargeDepth := 30) [*]; done) | split | (refine only_foldl ?_ fun _ _ => ?_) | (refine only_foldl_fst ?_ fun _ _ => ?_))

@[simp] theorem only_bootPackages (h : Only ps s t) (k : [.free, .cfg, .dev, .ps, .ln, .seq, .can, .fret, .yl, .lp, .fld, .cb, .host, .pkg, .safe, .nv, .svc, .out] ⊆ ps) :
    Only ps s (bootPackages t) := by
  simp only [List.cons_subset, List.nil_subset, and_true] at k
  unfold bootPackages
  try dsimp only
  repeat' (first | (simp (maxDischargeDepth := 30) [*]; done) | split)

@[simp] theorem only_canReceive {n : Nat} {stamp : Nat} {f : CanFrame} (h : Only ps s t) (k : [.free, .seq, .can, .cb, .host, .nv, .out] ⊆ ps) :
    Only ps s (canReceive t n stamp f) := by
  simp only [List.cons_subset, List.nil_subset, and_true] at k
  unfold canReceive
  try dsimp only
  repeat' (first | (simp (maxDischargeDepth := 30) [*]; done) | split)

@[simp] theorem only_canAttempt {n : Nat} (h : Only ps s t) (k : [.cb] ⊆ ps) :
    Only ps s (canAttempt t n) := by
  simp only [List.cons_subset, List.nil_subset, and_true] at k
  unfold canAttempt
  try dsimp only
  repeat' (first | (simp (maxDischargeDepth := 30) [*]; done) | split)

@[simp] theorem only_canSent {n : Nat} (h : Only ps s t) (k : [.seq, .can, .cb, .host, .nv, .out] ⊆ ps) :
    Only ps s (canSent t n) := by
  simp only [List.cons_subset, List.nil_subset, and_true] at k
  unfold canSent
  try dsimp only
  repeat' (first | (simp (maxDischargeDepth := 30) [*]; done) | split)

@[simp] theorem only_canErrorAt {n : Nat} {tec : BitVec 9} {recv : Byte} (h : Only ps s t) (k : [.cb, .host, .nv, .out] ⊆ ps) :
    Only ps s (canErrorAt t n tec recv) := by
  simp only [List.cons_subset, List.nil_subset, and_true] at k
  unfold canErrorAt
  try dsimp only
  repeat' (first | (simp (maxDischargeDepth := 30) [*]; done) | split)

end Sys2Proof.Machine
end

