-- ==== Sys2Proof/Laws/FramesRest.lean ====
section
/-! SUPPORT. Frames of the shared operations: the remaining rows, a unit issued on a lane, a class sample, a host command. Each lemma says which parts of the state an
operation can change. -/
namespace Sys2Proof.Machine

variable {ps : List Part} {s t u : State}

@[simp] theorem only_canBusOn {n : Nat} (h : Only ps s t) (k : [.cb, .host, .nv, .out] ⊆ ps) :
    Only ps s (canBusOn t n) := by
  simp only [List.cons_subset, List.nil_subset, and_true] at k
  unfold canBusOn
  try dsimp only
  repeat' (first | (simp (maxDischargeDepth := 30) [*]; done) | split)

@[simp] theorem only_installDone {loader : Bool} {at_ : Nat} (h : Only ps s t) (k : [.free, .host, .nv, .svc, .out] ⊆ ps) :
    Only ps s (installDone t loader at_) := by
  simp only [List.cons_subset, List.nil_subset, and_true] at k
  unfold installDone
  try dsimp only
  repeat' (first | (simp (maxDischargeDepth := 30) [*]; done) | split | (refine only_foldl ?_ fun _ _ => ?_))

@[simp] theorem only_imageWritten (h : Only ps s t) (k : [.free, .cfg, .dev, .clk, .ps, .ln, .seq, .can, .fret, .yl, .lp, .fld, .cb, .host, .pkg, .safe, .nv, .svc, .wd, .out] ⊆ ps) :
    Only ps s (imageWritten t) := by
  simp only [List.cons_subset, List.nil_subset, and_true] at k
  unfold imageWritten
  try dsimp only
  repeat' (first | (simp (maxDischargeDepth := 30) [*]; done) | split)

@[simp] theorem only_refreshStart (h : Only ps s t) (k : [.svc] ⊆ ps) :
    Only ps s (refreshStart t) := by
  simp only [List.cons_subset, List.nil_subset, and_true] at k
  unfold refreshStart
  try dsimp only
  repeat' (first | (simp (maxDischargeDepth := 30) [*]; done) | split)

@[simp] theorem only_blockDone {b : Nat} (h : Only ps s t) (k : [.host, .nv, .svc, .out] ⊆ ps) :
    Only ps s (blockDone t b) := by
  simp only [List.cons_subset, List.nil_subset, and_true] at k
  unfold blockDone
  try dsimp only
  repeat' (first | (simp (maxDischargeDepth := 30) [*]; done) | split)

@[simp] theorem only_refreshBlock {b : Nat} (h : Only ps s t) (k : [.svc, .wd] ⊆ ps) :
    Only ps s (refreshBlock t b) := by
  simp only [List.cons_subset, List.nil_subset, and_true] at k
  unfold refreshBlock
  try dsimp only
  repeat' (first | (simp (maxDischargeDepth := 30) [*]; done) | split)

@[simp] theorem only_erased {b : Nat} {use : EraseUse} (h : Only ps s t) (k : [.host, .nv, .svc, .out] ⊆ ps) :
    Only ps s (erased t b use) := by
  simp only [List.cons_subset, List.nil_subset, and_true] at k
  unfold erased
  try dsimp only
  repeat' (first | (simp (maxDischargeDepth := 30) [*]; done) | split)

@[simp] theorem only_erasesOver {use : EraseUse} (h : Only ps s t) (k : [.free, .cfg, .dev, .clk, .ps, .ln, .seq, .can, .fret, .yl, .lp, .fld, .cb, .host, .pkg, .safe, .nv, .svc, .wd, .out] ⊆ ps) :
    Only ps s (erasesOver t use) := by
  simp only [List.cons_subset, List.nil_subset, and_true] at k
  unfold erasesOver
  try dsimp only
  repeat' (first | (simp (maxDischargeDepth := 30) [*]; done) | split)

@[simp] theorem only_eraseEnds (h : Only ps s t) (k : [.free, .cfg, .dev, .clk, .ps, .ln, .seq, .can, .fret, .yl, .lp, .fld, .cb, .host, .pkg, .safe, .nv, .svc, .wd, .out] ⊆ ps) :
    Only ps s (eraseEnds t) := by
  simp only [List.cons_subset, List.nil_subset, and_true] at k
  unfold eraseEnds
  try dsimp only
  repeat' (first | (simp (maxDischargeDepth := 30) [*]; done) | split)

@[simp] theorem only_hsStops (h : Only ps s t) (k : [.free, .cfg, .dev, .ln, .seq, .can, .fret, .yl, .lp, .fld, .cb, .host, .pkg, .nv, .svc, .out] ⊆ ps) :
    Only ps s (hsStops t) := by
  simp only [List.cons_subset, List.nil_subset, and_true] at k
  unfold hsStops
  try dsimp only
  repeat' (first | (simp (maxDischargeDepth := 30) [*]; done) | split | (refine only_foldl ?_ fun _ _ => ?_) | (refine only_foldl_fst ?_ fun _ _ => ?_))

@[simp] theorem only_hsAnswered {n : Nat} (h : Only ps s t) (k : [.free, .host, .nv, .svc, .out] ⊆ ps) :
    Only ps s (hsAnswered t n) := by
  simp only [List.cons_subset, List.nil_subset, and_true] at k
  unfold hsAnswered
  try dsimp only
  repeat' (first | (simp (maxDischargeDepth := 30) [*]; done) | split | (refine only_foldl ?_ fun _ _ => ?_) | (refine only_foldl_fst ?_ fun _ _ => ?_))

@[simp] theorem only_hsTimedOut (h : Only ps s t) (k : [.free, .cfg, .dev, .ln, .seq, .can, .fret, .yl, .lp, .fld, .cb, .host, .pkg, .nv, .svc, .out] ⊆ ps) :
    Only ps s (hsTimedOut t) := by
  simp only [List.cons_subset, List.nil_subset, and_true] at k
  unfold hsTimedOut
  try dsimp only
  repeat' (first | (simp (maxDischargeDepth := 30) [*]; done) | split | (refine only_foldl ?_ fun _ _ => ?_) | (refine only_foldl_fst ?_ fun _ _ => ?_))

@[simp] theorem only_dropInstall {loader : Bool} (h : Only ps s t) (k : [.host, .svc, .out] ⊆ ps) :
    Only ps s (dropInstall t loader) := by
  simp only [List.cons_subset, List.nil_subset, and_true] at k
  unfold dropInstall
  try dsimp only
  repeat' (first | (simp (maxDischargeDepth := 30) [*]; done) | split | (refine only_foldl ?_ fun _ _ => ?_) | (refine only_foldl_fst ?_ fun _ _ => ?_))

@[simp] theorem only_pageChecked {b : Nat} {bits : Nat} {ue : Bool} (h : Only ps s t) (k : [.host, .nv, .svc, .out] ⊆ ps) :
    Only ps s (pageChecked t b bits ue) := by
  simp only [List.cons_subset, List.nil_subset, and_true] at k
  unfold pageChecked
  try dsimp only
  repeat' (first | (simp (maxDischargeDepth := 30) [*]; done) | split)

@[simp] theorem only_ackGuards {m : BitVec 8} (h : Only ps s t) (k : [.seq] ⊆ ps) :
    Only ps s (ackGuards t m) := by
  simp only [List.cons_subset, List.nil_subset, and_true] at k
  unfold ackGuards
  try dsimp only
  repeat' (first | (simp (maxDischargeDepth := 30) [*]; done) | split | (refine only_foldl ?_ fun _ _ => ?_))

@[simp] theorem only_enterStandby {n : Nat} {cid : BitVec 16} (h : Only ps s t) (k : [.free, .cfg, .dev, .clk, .ln, .seq, .can, .yl, .host, .pkg, .safe, .nv, .out] ⊆ ps) :
    Only ps s (enterStandby t n cid) := by
  simp only [List.cons_subset, List.nil_subset, and_true] at k
  unfold enterStandby
  try dsimp only
  repeat' (first | (simp (maxDischargeDepth := 30) [*]; done) | split)

@[simp] theorem only_castFrame {p : Nat} {type : Nat} {body : List Byte} {a : Nat} (h : Only ps s t) (k : [.yl, .out] ⊆ ps) :
    Only ps s (castFrame t p type body a).1 := by
  simp only [List.cons_subset, List.nil_subset, and_true] at k
  unfold castFrame
  try dsimp only
  repeat' (first | (simp (maxDischargeDepth := 30) [*]; done) | split | (refine only_foldl ?_ fun _ _ => ?_) | (refine only_foldl_fst ?_ fun _ _ => ?_))

@[simp] theorem only_sendCyc {p : Nat} (h : Only ps s t) (k : [.yl, .out] ⊆ ps) :
    Only ps s (sendCyc t p).1 := by
  simp only [List.cons_subset, List.nil_subset, and_true] at k
  unfold sendCyc
  try dsimp only
  repeat' (first | (simp (maxDischargeDepth := 30) [*]; done) | split)

@[simp] theorem only_sendAngs {p : Nat} {a : Nat} (h : Only ps s t) (k : [.yl, .out] ⊆ ps) :
    Only ps s (sendAngs t p a).1 := by
  simp only [List.cons_subset, List.nil_subset, and_true] at k
  unfold sendAngs
  try dsimp only
  repeat' (first | (simp (maxDischargeDepth := 30) [*]; done) | split | (refine only_foldl ?_ fun _ _ => ?_))

@[simp] theorem only_startAll {a : Nat} {l : List YWait} (h : Only ps s t) (k : [.free, .fret, .yl, .host, .nv, .out] ⊆ ps) :
    Only ps s (startAll t a l).1 := by
  simp only [List.cons_subset, List.nil_subset, and_true] at k
  unfold startAll
  try dsimp only
  repeat' (first | (simp (maxDischargeDepth := 30) [*]; done) | split | (refine only_foldl ?_ fun _ _ => ?_))

@[simp] theorem only_resend {t1 : Trans} {a : Nat} (h : Only ps s t) (k : [.fret, .yl, .host, .nv, .out] ⊆ ps) :
    Only ps s (resend t t1 a).1 := by
  simp only [List.cons_subset, List.nil_subset, and_true] at k
  unfold resend
  try dsimp only
  repeat' (first | (simp (maxDischargeDepth := 30) [*]; done) | split)

@[simp] theorem only_runClass {p : Nat} {a : Nat} {sel : TransFor → Bool} {new : List YWait} (h : Only ps s t) (k : [.free, .fret, .yl, .host, .nv, .out] ⊆ ps) :
    Only ps s (runClass t p a sel new).1 := by
  simp only [List.cons_subset, List.nil_subset, and_true] at k
  unfold runClass
  try dsimp only
  repeat' (first | (simp (maxDischargeDepth := 30) [*]; done) | split | (refine only_foldl ?_ fun _ _ => ?_))

@[simp] theorem only_sendImgws {p : Nat} {a : Nat} (h : Only ps s t) (k : [.free, .fret, .yl, .host, .nv, .out] ⊆ ps) :
    Only ps s (sendImgws t p a).1 := by
  simp only [List.cons_subset, List.nil_subset, and_true] at k
  unfold sendImgws
  try dsimp only
  repeat' (first | (simp (maxDischargeDepth := 30) [*]; done) | split | (refine only_foldl ?_ fun _ _ => ?_))

@[simp] theorem only_sendFragment {e : FretE} {r : RowSt} {y base n : Nat} {x : State × Nat × Bool} {fr : Nat × Nat}
    (h : Only ps s x.1) (k : [.free, .fret, .yl, .host, .nv, .out] ⊆ ps) : Only ps s (sendFragment e r y base n x fr).1 := by
  simp only [List.cons_subset, List.nil_subset, and_true] at k
  have h1 : ∀ u, Only ps s u → ∀ w a, Only ps s (startOrKeep u w a).1 := fun u hu w a => by simp [*]
  unfold sendFragment
  dsimp only
  split
  · exact h
  · split
    · refine only_modRow (h1 _ ?_ _ _) (by simp [*])
      split
      · simp (maxDischargeDepth := 30) [*]
      · exact h
    · simp (maxDischargeDepth := 30) [*]

@[simp] theorem only_sendPart {e : FretE} {r : RowSt} {x : State × Nat} {y : Nat × Nat × Nat} (h : Only ps s x.1)
    (k : [.free, .fret, .yl, .host, .nv, .out] ⊆ ps) : Only ps s (sendPart e r x y).1 := by
  unfold sendPart
  dsimp only
  split
  · exact only_foldl_fst h fun v fr => only_sendFragment (by simp) k
  · exact h

@[simp] theorem only_sendRows {p : Nat} {a : Nat} (h : Only ps s t) (k : [.free, .fret, .yl, .host, .nv, .out] ⊆ ps) :
    Only ps s (sendRows t p a).1 := by
  unfold sendRows
  dsimp only
  split
  · refine only_foldl_fst h fun y q => ?_
    split
    · exact only_foldl_fst (by simp) fun z w => only_sendPart (by simp) k
    · simp
  · exact h

@[simp] theorem only_releaseWaits {p : Nat} (h : Only ps s t) (k : [.yl] ⊆ ps) : Only ps s (releaseWaits t p).1 := by
  simp only [List.cons_subset, List.nil_subset, and_true] at k
  unfold releaseWaits
  dsimp only
  split
  · refine only_foldl_fst h fun y q => ?_
    split <;> simp [*]
  · exact h

@[simp] theorem only_sendSets {p : Nat} {a : Nat} (h : Only ps s t) (k : [.fret, .yl, .host, .nv, .out] ⊆ ps) :
    Only ps s (sendSets t p a).1 := by
  simp only [List.cons_subset, List.nil_subset, and_true] at k
  unfold sendSets
  refine only_foldl_fst h fun x i => ?_
  dsimp only
  split <;> simp (maxDischargeDepth := 30) [*]

@[simp] theorem only_cycleFrames {p : Nat} (h : Only ps s t) (k : [.free, .fret, .yl, .host, .nv, .out] ⊆ ps) :
    Only ps s (cycleFrames t p) := by
  simp only [List.cons_subset, List.nil_subset, and_true] at k
  unfold cycleFrames
  try dsimp only
  repeat' (first | (simp (maxDischargeDepth := 30) [*]; done) | split | (refine only_foldl ?_ fun _ _ => ?_))

@[simp] theorem only_imgwsUnsent {p : Nat} (h : Only ps s t) (k : [.free, .yl] ⊆ ps) :
    Only ps s (imgwsUnsent t p) := by
  simp only [List.cons_subset, List.nil_subset, and_true] at k
  unfold imgwsUnsent
  try dsimp only
  repeat' (first | (simp (maxDischargeDepth := 30) [*]; done) | split | (refine only_foldl ?_ fun _ _ => ?_) | (refine only_foldl_fst ?_ fun _ _ => ?_))

@[simp] theorem only_cycleStart {p : Nat} (h : Only ps s t) (k : [.free, .seq, .fret, .yl, .host, .nv, .out] ⊆ ps) :
    Only ps s (cycleStart t p) := by
  simp only [List.cons_subset, List.nil_subset, and_true] at k
  unfold cycleStart
  try dsimp only
  repeat' (first | (simp (maxDischargeDepth := 30) [*]; done) | split)

@[simp] theorem only_groupEnds {p : Nat} {g : Nat} (h : Only ps s t) (k : [.seq] ⊆ ps) :
    Only ps s (groupEnds t p g) := by
  simp only [List.cons_subset, List.nil_subset, and_true] at k
  unfold groupEnds
  try dsimp only
  repeat' (first | (simp (maxDischargeDepth := 30) [*]; done) | split)

@[simp] theorem only_lineCycle {p : Nat} (h : Only ps s t) (k : [.yl, .host, .nv, .out] ⊆ ps) :
    Only ps s (lineCycle t p) := by
  simp only [List.cons_subset, List.nil_subset, and_true] at k
  unfold lineCycle
  try dsimp only
  repeat' (first | (simp (maxDischargeDepth := 30) [*]; done) | split)

@[simp] theorem only_inputRead {p : Nat} (h : Only ps s t) (k : [.free, .seq, .can, .fret, .yl, .host, .nv, .out] ⊆ ps) :
    Only ps s (inputRead t p) := by
  simp only [List.cons_subset, List.nil_subset, and_true] at k
  unfold inputRead
  try dsimp only
  repeat' (first | (simp (maxDischargeDepth := 30) [*]; done) | split | (refine only_foldl ?_ fun _ _ => ?_))

@[simp] theorem only_commitClass {x1 : Nat} (h : Only ps s t) (k : [.seq, .can, .lp, .host, .nv, .out] ⊆ ps) :
    Only ps s (commitClass t x1) := by
  simp only [List.cons_subset, List.nil_subset, and_true] at k
  unfold commitClass
  try dsimp only
  repeat' (first | (simp (maxDischargeDepth := 30) [*]; done) | split | (refine only_foldl ?_ fun _ _ => ?_))

@[simp] theorem only_dropOut {o : OutRel} (h : Only ps s t) (k : [.seq] ⊆ ps) :
    Only ps s (dropOut t o) := by
  simp only [List.cons_subset, List.nil_subset, and_true] at k
  unfold dropOut
  try dsimp only
  repeat' (first | (simp (maxDischargeDepth := 30) [*]; done) | split)

@[simp] theorem only_waitOut {o : OutRel} (h : Only ps s t) (k : [.seq, .fld] ⊆ ps) :
    Only ps s (waitOut t o) := by
  simp only [List.cons_subset, List.nil_subset, and_true] at k
  unfold waitOut
  try dsimp only
  repeat' (first | (simp (maxDischargeDepth := 30) [*]; done) | split | (refine only_foldl ?_ fun _ _ => ?_) | (refine only_foldl_fst ?_ fun _ _ => ?_))

@[simp] theorem only_releaseOut {t1 : Nat} (h : Only ps s t) (k : [.seq, .fld] ⊆ ps) :
    Only ps s (releaseOut t t1) := by
  simp only [List.cons_subset, List.nil_subset, and_true] at k
  unfold releaseOut
  try dsimp only
  repeat' (first | (simp (maxDischargeDepth := 30) [*]; done) | split | (refine only_foldl ?_ fun _ _ => ?_) | (refine only_foldl_fst ?_ fun _ _ => ?_))

@[simp] theorem only_inputsDue {p : Nat} (h : Only ps s t) (k : [.free, .seq, .can, .fret, .yl, .host, .nv, .out] ⊆ ps) :
    Only ps s (inputsDue t p) := by
  simp only [List.cons_subset, List.nil_subset, and_true] at k
  unfold inputsDue
  try dsimp only
  repeat' (first | (simp (maxDischargeDepth := 30) [*]; done) | split | (refine only_foldl ?_ fun _ _ => ?_) | (refine only_foldl_fst ?_ fun _ _ => ?_))

@[simp] theorem only_settled (h : Only ps s t) (k : [.free, .seq, .can, .fret, .yl, .lp, .fld, .host, .nv, .out] ⊆ ps) :
    Only ps s (settled t) := by
  simp only [List.cons_subset, List.nil_subset, and_true] at k
  unfold settled
  try dsimp only
  repeat' (first | (simp (maxDischargeDepth := 30) [*]; done) | split | (refine only_foldl ?_ fun _ _ => ?_) | (refine only_foldl_fst ?_ fun _ _ => ?_))

@[simp] theorem only_frameEnds {ty : DownType} {ok : Bool} (h : Only ps s t) (k : [.free, .seq, .fld, .host, .nv, .out] ⊆ ps) :
    Only ps s (frameEnds t ty ok) := by
  simp only [List.cons_subset, List.nil_subset, and_true] at k
  unfold frameEnds
  try dsimp only
  repeat' (first | (simp (maxDischargeDepth := 30) [*]; done) | split)

@[simp] theorem only_fieldEdges {x1 : UpFrame} {before : Word} (h : Only ps s t) (k : [.seq] ⊆ ps) :
    Only ps s (fieldEdges t x1 before) := by
  simp only [List.cons_subset, List.nil_subset, and_true] at k
  unfold fieldEdges
  try dsimp only
  repeat' (first | (simp (maxDischargeDepth := 30) [*]; done) | split | (refine only_foldl ?_ fun _ _ => ?_) | (refine only_foldl_fst ?_ fun _ _ => ?_))

@[simp] theorem only_streamRestored {x1 : UpFrame} (h : Only ps s t) (k : [.fld, .host, .nv, .out] ⊆ ps) :
    Only ps s (streamRestored t x1) := by
  simp only [List.cons_subset, List.nil_subset, and_true] at k
  unfold streamRestored
  try dsimp only
  repeat' (first | (simp (maxDischargeDepth := 30) [*]; done) | split)

@[simp] theorem only_upArrives {x1 : UpFrame} (h : Only ps s t) (k : [.seq, .can, .fld, .host, .nv, .out] ⊆ ps) :
    Only ps s (upArrives t x1) := by
  simp only [List.cons_subset, List.nil_subset, and_true] at k
  unfold upArrives
  try dsimp only
  repeat' (first | (simp (maxDischargeDepth := 30) [*]; done) | split)

@[simp] theorem only_upDiscard (h : Only ps s t) (k : [.seq, .fld] ⊆ ps) :
    Only ps s (upDiscard t) := by
  simp only [List.cons_subset, List.nil_subset, and_true] at k
  unfold upDiscard
  try dsimp only
  repeat' (first | (simp (maxDischargeDepth := 30) [*]; done) | split)

@[simp] theorem only_upEnds {ok : Bool} (h : Only ps s t) (k : [.seq, .can, .fld, .host, .nv, .out] ⊆ ps) :
    Only ps s (upEnds t ok) := by
  simp only [List.cons_subset, List.nil_subset, and_true] at k
  unfold upEnds
  try dsimp only
  repeat' (first | (simp (maxDischargeDepth := 30) [*]; done) | split)

@[simp] theorem only_countMoves {n : Nat} {fwd : Bool} {t1 : Nat} (h : Only ps s t) (k : [.free, .seq, .can, .fret, .yl, .fld, .host, .nv, .out] ⊆ ps) :
    Only ps s (countMoves t n fwd t1) := by
  simp only [List.cons_subset, List.nil_subset, and_true] at k
  unfold countMoves
  try dsimp only
  repeat' (first | (simp (maxDischargeDepth := 30) [*]; done) | split | (refine only_foldl ?_ fun _ _ => ?_) | (refine only_foldl_fst ?_ fun _ _ => ?_))

@[simp] theorem only_countEdge {n : Nat} {fwd : Bool} {t1 : Nat} (h : Only ps s t) (k : [.free, .seq, .can, .fret, .yl, .fld, .host, .nv, .out] ⊆ ps) :
    Only ps s (countEdge t n fwd t1) := by
  simp only [List.cons_subset, List.nil_subset, and_true] at k
  unfold countEdge
  try dsimp only
  repeat' (first | (simp (maxDischargeDepth := 30) [*]; done) | split | (refine only_foldl ?_ fun _ _ => ?_) | (refine only_foldl_fst ?_ fun _ _ => ?_))

@[simp] theorem only_encoderEdge {n : Nat} {a : Bool} {b : Bool} {z : Bool} {t1 : Nat} (h : Only ps s t) (k : [.free, .seq, .can, .fret, .yl, .fld, .host, .nv, .out] ⊆ ps) :
    Only ps s (encoderEdge t n a b z t1) := by
  simp only [List.cons_subset, List.nil_subset, and_true] at k
  unfold encoderEdge
  try dsimp only
  repeat' (first | (simp (maxDischargeDepth := 30) [*]; done) | split | (refine only_foldl ?_ fun _ _ => ?_) | (refine only_foldl_fst ?_ fun _ _ => ?_))

@[simp] theorem only_acceptNext {n : Nat} (h : Only ps s t) (k : [.free, .seq, .can, .fret, .yl, .fld, .host, .nv, .out] ⊆ ps) :
    Only ps s (acceptNext t n) := by
  simp only [List.cons_subset, List.nil_subset, and_true] at k
  unfold acceptNext
  try dsimp only
  repeat' (first | (simp (maxDischargeDepth := 30) [*]; done) | split | (refine only_foldl ?_ fun _ _ => ?_) | (refine only_foldl_fst ?_ fun _ _ => ?_))

@[simp] theorem only_acceptAll {n : Nat} (h : Only ps s t) (k : [.free, .seq, .can, .fret, .yl, .fld, .host, .nv, .out] ⊆ ps) :
    Only ps s (acceptAll t n) := by
  simp only [List.cons_subset, List.nil_subset, and_true] at k
  unfold acceptAll
  try dsimp only
  repeat' (first | (simp (maxDischargeDepth := 30) [*]; done) | split | (refine only_foldl ?_ fun _ _ => ?_) | (refine only_foldl_fst ?_ fun _ _ => ?_))

@[simp] theorem only_acceptShafts (h : Only ps s t) (k : [.free, .seq, .can, .fret, .yl, .fld, .host, .nv, .out] ⊆ ps) :
    Only ps s (acceptShafts t) := by
  simp only [List.cons_subset, List.nil_subset, and_true] at k
  unfold acceptShafts
  try dsimp only
  repeat' (first | (simp (maxDischargeDepth := 30) [*]; done) | split | (refine only_foldl ?_ fun _ _ => ?_) | (refine only_foldl_fst ?_ fun _ _ => ?_))

@[simp] theorem only_sampleShaft {n : Nat} {a : Bool} {b : Bool} {z : Bool} (h : Only ps s t) (k : [.free, .seq, .can, .fret, .yl, .fld, .host, .nv, .out] ⊆ ps) :
    Only ps s (sampleShaft t n a b z) := by
  simp only [List.cons_subset, List.nil_subset, and_true] at k
  unfold sampleShaft
  try dsimp only
  repeat' (first | (simp (maxDischargeDepth := 30) [*]; done) | split | (refine only_foldl ?_ fun _ _ => ?_) | (refine only_foldl_fst ?_ fun _ _ => ?_))

@[simp] theorem only_updateShaft {n : Nat} (h : Only ps s t) (k : [.free, .fret] ⊆ ps) :
    Only ps s (updateShaft t n) := by
  simp only [List.cons_subset, List.nil_subset, and_true] at k
  unfold updateShaft
  try dsimp only
  repeat' (first | (simp (maxDischargeDepth := 30) [*]; done) | split)

@[simp] theorem only_velocityUpdate (h : Only ps s t) (k : [.free, .cfg, .dev, .ln, .seq, .can, .fret, .yl, .lp, .fld, .cb, .host, .pkg, .nv, .out] ⊆ ps) :
    Only ps s (velocityUpdate t) := by
  simp only [List.cons_subset, List.nil_subset, and_true] at k
  unfold velocityUpdate
  try dsimp only
  repeat' (first | (simp (maxDischargeDepth := 30) [*]; done) | split | (refine only_foldl ?_ fun _ _ => ?_))

@[simp] theorem only_sampleClass {n : Nat} (h : Only ps s t) (k : [.seq, .lp, .host, .nv, .out] ⊆ ps) :
    Only ps s (sampleClass t n) := by
  simp only [List.cons_subset, List.nil_subset, and_true] at k
  unfold sampleClass
  exact only_onLp (only_acc_foldl (by simp [*]) fun b x => only_loop (by simp) (by simp [*])) (by simp [*])

@[simp] theorem only_otherWork (h : Only ps s t) (k : [.nv] ⊆ ps) :
    Only ps s (otherWork t) := by
  simp only [List.cons_subset, List.nil_subset, and_true] at k
  unfold otherWork
  try dsimp only
  repeat' (first | (simp (maxDischargeDepth := 30) [*]; done) | split | (refine only_foldl ?_ fun _ _ => ?_) | (refine only_foldl_fst ?_ fun _ _ => ?_))

@[simp] theorem only_releaseOrSwitch {t1 : Nat} (h : Only ps s t) (k : [.free, .cfg, .ln, .seq, .can, .host, .pkg, .nv, .out] ⊆ ps) :
    Only ps s (releaseOrSwitch t t1) := by
  simp only [List.cons_subset, List.nil_subset, and_true] at k
  unfold releaseOrSwitch
  try dsimp only
  repeat' (first | (simp (maxDischargeDepth := 30) [*]; done) | split)

@[simp] theorem only_boundary {t1 : Nat} (h : Only ps s t) (k : [.free, .cfg, .ln, .seq, .can, .host, .pkg, .nv, .out] ⊆ ps) :
    Only ps s (boundary t t1) := by
  simp only [List.cons_subset, List.nil_subset, and_true] at k
  unfold boundary
  try dsimp only
  repeat' (first | (simp (maxDischargeDepth := 30) [*]; done) | split)

@[simp] theorem only_trigger {g : Trig} (h : Only ps s t) (k : [.free, .cfg, .ln, .seq, .can, .host, .pkg, .nv, .out] ⊆ ps) :
    Only ps s (trigger t g) := by
  simp only [List.cons_subset, List.nil_subset, and_true] at k
  unfold trigger
  try dsimp only
  repeat' (first | (simp (maxDischargeDepth := 30) [*]; done) | split)

@[simp] theorem only_takeTrig {t1 : Nat} (h : Only ps s t) (k : [.free, .cfg, .ln, .seq, .can, .host, .pkg, .nv, .out] ⊆ ps) :
    Only ps s (takeTrig t t1) := by
  simp only [List.cons_subset, List.nil_subset, and_true] at k
  unfold takeTrig
  try dsimp only
  repeat' (first | (simp (maxDischargeDepth := 30) [*]; done) | split)

@[simp] theorem only_onTap {f : State → State} (h : Only ps s t) (k : ∀ u, Only ps u (f u)) : Only ps s (onTap t f) := by
  unfold onTap
  split
  · exact h.trans (k t)
  · exact h

@[simp] theorem only_tapSelect {ir : TapIr} (h : Only ps s t) (k : [.tap] ⊆ ps) :
    Only ps s (tapSelect t ir) := by
  simp only [List.cons_subset, List.nil_subset, and_true] at k
  unfold tapSelect
  try dsimp only
  repeat' (first | (simp (maxDischargeDepth := 30) [*]; done) | (rw [only_iff] at h ⊢; simp_all; done) | split)

@[simp] theorem only_tapSample (h : Only ps s t) (k : [.free, .tap] ⊆ ps) : Only ps s (tapSample t) := by
  simp only [List.cons_subset, List.nil_subset, and_true] at k
  unfold tapSample
  dsimp only
  have hx : Only ps s (tapSelect t .sample) := by simp (maxDischargeDepth := 30) [*]
  generalize tapSelect t .sample = x at hx ⊢
  rw [only_iff] at hx ⊢
  simp_all

@[simp] theorem only_ylElapse {dt : Nat} (h : Only ps s t) (k : [.dev, .clk, .fret, .yl, .fld, .host, .nv, .wd, .out] ⊆ ps) :
    Only ps s (ylElapse dt t) := by
  simp only [List.cons_subset, List.nil_subset, and_true] at k
  unfold ylElapse
  try dsimp only
  repeat' (first | (simp (maxDischargeDepth := 30) [*]; done) | split | (refine only_foldl ?_ fun _ _ => ?_) | (refine only_foldl_fst ?_ fun _ _ => ?_))

@[simp] theorem only_gainLink {p : Nat} (h : Only ps s t) (k : [.free, .fret, .yl, .host, .nv, .out] ⊆ ps) :
    Only ps s (gainLink t p) := by
  simp only [List.cons_subset, List.nil_subset, and_true] at k
  unfold gainLink
  try dsimp only
  repeat' (first | (simp (maxDischargeDepth := 30) [*]; done) | split)

@[simp] theorem only_retirePort {p : Nat} (h : Only ps s t) (k : [.free, .cfg, .dev, .ln, .seq, .can, .fret, .yl, .lp, .fld, .cb, .host, .pkg, .nv, .out] ⊆ ps) :
    Only ps s (retirePort t p) := by
  simp only [List.cons_subset, List.nil_subset, and_true] at k
  unfold retirePort
  try dsimp only
  repeat' (first | (simp (maxDischargeDepth := 30) [*]; done) | split)

@[simp] theorem only_portUp {p : Nat} (h : Only ps s t) (k : [.seq, .yl, .host, .nv, .out] ⊆ ps) :
    Only ps s (portUp t p) := by
  simp only [List.cons_subset, List.nil_subset, and_true] at k
  unfold portUp
  try dsimp only
  repeat' (first | (simp (maxDischargeDepth := 30) [*]; done) | split)

@[simp] theorem only_latchReport {x1 : Nat} {b : List Byte} (h : Only ps s t) (k : [.fret, .host, .nv, .out] ⊆ ps) :
    Only ps s (latchReport t x1 b) := by
  simp only [List.cons_subset, List.nil_subset, and_true] at k
  unfold latchReport
  try dsimp only
  repeat' (first | (simp (maxDischargeDepth := 30) [*]; done) | split)

@[simp] theorem only_lossReported {x1 : Nat} (h : Only ps s t) (k : [.seq, .yl, .host, .nv, .out] ⊆ ps) :
    Only ps s (lossReported t x1) := by
  simp only [List.cons_subset, List.nil_subset, and_true] at k
  unfold lossReported
  try dsimp only
  repeat' (first | (simp (maxDischargeDepth := 30) [*]; done) | split)

@[simp] theorem only_imgrDone {p : Nat} {f : YFrame} {x : Trans} (h : Only ps s t)
    (k : [.seq, .fret, .yl, .host, .nv, .out] ⊆ ps) : Only ps s (imgrDone t p f x) := by
  simp only [List.cons_subset, List.nil_subset, and_true] at k
  have h1 : ∀ g, Only ps s ((dropTrans t x.tag stDone).modSta f.key g) := fun g => by simp (maxDischargeDepth := 30) [*]
  have h2 : ∀ g q, Only ps s (if p % 2 = 0 then ((dropTrans t x.tag stDone).modSta f.key g).modPort p q
      else (dropTrans t x.tag stDone).modSta f.key g) := fun g q => only_ite (only_modPort (h1 g) (by simp [*])) (h1 g)
  unfold imgrDone
  exact only_foldl (only_ite (only_lossReported (h2 _ _) (by simp [*])) (h2 _ _))
    fun u i => only_latchReport (by simp) (by simp [*])

@[simp] theorem only_admitDone {x1 : Nat} {held : Bool} (h : Only ps s t) (k : [.free, .seq, .fret, .yl, .host, .nv, .out] ⊆ ps) :
    Only ps s (admitDone t x1 held) := by
  simp only [List.cons_subset, List.nil_subset, and_true] at k
  unfold admitDone
  try dsimp only
  repeat' (first | (simp (maxDischargeDepth := 30) [*]; done) | split)

@[simp] theorem only_readmitDone {x1 : Nat} (h : Only ps s t) (k : [.seq, .yl, .host, .nv, .out] ⊆ ps) :
    Only ps s (readmitDone t x1) := by
  simp only [List.cons_subset, List.nil_subset, and_true] at k
  unfold readmitDone
  try dsimp only
  repeat' (first | (simp (maxDischargeDepth := 30) [*]; done) | split)

@[simp] theorem only_ackDone {f : YFrame} {t1 : Trans} (h : Only ps s t) (k : [.free, .seq, .can, .fret, .yl, .host, .nv, .out] ⊆ ps) :
    Only ps s (ackDone t f t1) := by
  simp only [List.cons_subset, List.nil_subset, and_true] at k
  unfold ackDone
  try dsimp only
  repeat' (first | (simp (maxDischargeDepth := 30) [*]; done) | split)

@[simp] theorem only_nakSeen {tag : Nat} {p : Option Nat} (h : Only ps s t) (k : [.yl] ⊆ ps) :
    Only ps s (nakSeen t tag p) := by
  simp only [List.cons_subset, List.nil_subset, and_true] at k
  unfold nakSeen
  try dsimp only
  repeat' (first | (simp (maxDischargeDepth := 30) [*]; done) | split | (refine only_foldl ?_ fun _ _ => ?_) | (refine only_foldl_fst ?_ fun _ _ => ?_))

@[simp] theorem only_nakDone {p : Nat} {f : YFrame} {t1 : Trans} (h : Only ps s t) (k : [.free, .seq, .fret, .yl, .host, .nv, .out] ⊆ ps) :
    Only ps s (nakDone t p f t1) := by
  simp only [List.cons_subset, List.nil_subset, and_true] at k
  unfold nakDone
  try dsimp only
  repeat' (first | (simp (maxDischargeDepth := 30) [*]; done) | split | (refine only_foldl ?_ fun _ _ => ?_) | (refine only_foldl_fst ?_ fun _ _ => ?_))

@[simp] theorem only_identDone {f : YFrame} {t1 : Trans} (h : Only ps s t) (k : [.free, .seq, .fret, .yl, .host, .nv, .out] ⊆ ps) :
    Only ps s (identDone t f t1) := by
  simp only [List.cons_subset, List.nil_subset, and_true] at k
  unfold identDone
  try dsimp only
  repeat' (first | (simp (maxDischargeDepth := 30) [*]; done) | split)

@[simp] theorem only_setDelay {x1 : Nat} {odd : Bool} {d : Word} (h : Only ps s t) (k : [.yl, .host, .nv, .out] ⊆ ps) :
    Only ps s (setDelay t x1 odd d) := by
  simp only [List.cons_subset, List.nil_subset, and_true] at k
  unfold setDelay
  try dsimp only
  repeat' (first | (simp (maxDischargeDepth := 30) [*]; done) | split)

@[simp] theorem only_syncDone {p : Nat} {f : YFrame} {t1 : Trans} (h : Only ps s t) (k : [.free, .fret, .yl, .host, .nv, .out] ⊆ ps) :
    Only ps s (syncDone t p f t1) := by
  simp only [List.cons_subset, List.nil_subset, and_true] at k
  unfold syncDone
  try dsimp only
  repeat' (first | (simp (maxDischargeDepth := 30) [*]; done) | split)

@[simp] theorem only_mbxDone {f : YFrame} {t1 : Trans} (h : Only ps s t) (k : [.yl] ⊆ ps) :
    Only ps s (mbxDone t f t1) := by
  simp only [List.cons_subset, List.nil_subset, and_true] at k
  unfold mbxDone
  try dsimp only
  repeat' (first | (simp (maxDischargeDepth := 30) [*]; done) | split)

@[simp] theorem only_cycCame {p : Nat} {b : List Byte} (h : Only ps s t) (k : [.yl, .host, .nv, .out] ⊆ ps) :
    Only ps s (cycCame t p b) := by
  simp only [List.cons_subset, List.nil_subset, and_true] at k
  unfold cycCame
  try dsimp only
  repeat' (first | (simp (maxDischargeDepth := 30) [*]; done) | split)

@[simp] theorem only_ylSpare {p : Nat} {f : YFrame} (h : Only ps s t) (k : [.yl, .host, .nv, .out] ⊆ ps) :
    Only ps s (ylSpare t p f) := by
  simp only [List.cons_subset, List.nil_subset, and_true] at k
  unfold ylSpare
  try dsimp only
  repeat' (first | (simp (maxDischargeDepth := 30) [*]; done) | split | (refine only_foldl ?_ fun _ _ => ?_) | (refine only_foldl_fst ?_ fun _ _ => ?_))

@[simp] theorem only_ylAnswer {p : Nat} {f : YFrame} {t1 : Trans} (h : Only ps s t) (k : [.free, .seq, .can, .fret, .yl, .host, .nv, .out] ⊆ ps) :
    Only ps s (ylAnswer t p f t1) := by
  simp only [List.cons_subset, List.nil_subset, and_true] at k
  unfold ylAnswer
  try dsimp only
  repeat' (first | (simp (maxDischargeDepth := 30) [*]; done) | split | (refine only_foldl ?_ fun _ _ => ?_) | (refine only_foldl_fst ?_ fun _ _ => ?_))

@[simp] theorem only_ylHandle {p : Nat} {f : YFrame} (h : Only ps s t) (k : [.free, .seq, .can, .fret, .yl, .host, .nv, .out] ⊆ ps) :
    Only ps s (ylHandle t p f) := by
  simp only [List.cons_subset, List.nil_subset, and_true] at k
  unfold ylHandle
  try dsimp only
  repeat' (first | (simp (maxDischargeDepth := 30) [*]; done) | split)

@[simp] theorem only_ylAccept {p : Nat} {b : List Byte} (h : Only ps s t) (k : [.free, .seq, .can, .fret, .yl, .host, .nv, .out] ⊆ ps) :
    Only ps s (ylAccept t p b) := by
  simp only [List.cons_subset, List.nil_subset, and_true] at k
  unfold ylAccept
  try dsimp only
  repeat' (first | (simp (maxDischargeDepth := 30) [*]; done) | split)

@[simp] theorem only_rxFlush {p : Nat} (h : Only ps s t) (k : [.free, .seq, .can, .fret, .yl, .host, .nv, .out] ⊆ ps) :
    Only ps s (rxFlush t p) := by
  simp only [List.cons_subset, List.nil_subset, and_true] at k
  unfold rxFlush
  try dsimp only
  repeat' (first | (simp (maxDischargeDepth := 30) [*]; done) | split | (refine only_foldl ?_ fun _ _ => ?_))

@[simp] theorem only_ylReceive {p : Nat} {b : List Byte} (h : Only ps s t) (k : [.free, .seq, .can, .fret, .yl, .host, .nv, .out] ⊆ ps) :
    Only ps s (ylReceive t p b) := by
  simp only [List.cons_subset, List.nil_subset, and_true] at k
  unfold ylReceive
  try dsimp only
  repeat' (first | (simp (maxDischargeDepth := 30) [*]; done) | split)

@[simp] theorem only_injPass {p : Nat} {e : Nat × List Byte × Bool} (h : Only ps s t) (k : [.free, .seq, .can, .fret, .yl, .host, .nv, .out] ⊆ ps) :
    Only ps s (injPass t p e) := by
  simp only [List.cons_subset, List.nil_subset, and_true] at k
  unfold injPass
  try dsimp only
  repeat' (first | (simp (maxDischargeDepth := 30) [*]; done) | split)

@[simp] theorem only_grantFrame {w : YWait} (h : Only ps s t) (k : [.free, .fret, .yl, .host, .nv, .out] ⊆ ps) :
    Only ps s (grantFrame t w) := by
  simp only [List.cons_subset, List.nil_subset, and_true] at k
  unfold grantFrame
  try dsimp only
  repeat' (first | (simp (maxDischargeDepth := 30) [*]; done) | split | (refine only_foldl ?_ fun _ _ => ?_) | (refine only_foldl_fst ?_ fun _ _ => ?_))

@[simp] theorem only_grantLane (h : Only ps s t) (k : [.ln] ⊆ ps) :
    Only ps s (grantLane t) := by
  simp only [List.cons_subset, List.nil_subset, and_true] at k
  unfold grantLane
  try dsimp only
  repeat' (first | (simp (maxDischargeDepth := 30) [*]; done) | split | (refine only_foldl ?_ fun _ _ => ?_) | (refine only_foldl_fst ?_ fun _ _ => ?_))

@[simp] theorem only_grantTag (h : Only ps s t) (k : [.free, .clk, .ln, .fret, .yl, .fld, .host, .nv, .out] ⊆ ps) :
    Only ps s (grantTag t) := by
  simp only [List.cons_subset, List.nil_subset, and_true] at k
  unfold grantTag
  try dsimp only
  repeat' (first | (simp (maxDischargeDepth := 30) [*]; done) | split | (refine only_foldl ?_ fun _ _ => ?_) | (refine only_foldl_fst ?_ fun _ _ => ?_))

end Sys2Proof.Machine
end

