-- ==== Sys2Proof/Laws/Tab.lean ====
section
/-! SUPPORT. Sparse tables: reading after writing, and the canonical form that every write keeps. -/
namespace Sys2Proof.Machine

variable {α : Type} {d v : α} {k j lo : Nat} {t : Tab α}

@[simp] theorem tabGet_nil : tabGet d [] k = d := rfl

theorem tabGet_tabPut : tabGet d (tabPut k v t) j = if j = k then v else tabGet d t j := by
  induction t with
  | nil => simp [tabPut, tabGet, eq_comm]
  | cons e r ih =>
    obtain ⟨a, w⟩ := e
    simp only [tabPut]
    split
    · simp [tabGet, eq_comm]
    · split
      · subst_vars
        simp only [tabGet, eq_comm]
        split <;> rfl
      · simp only [tabGet, ih]
        split <;> split <;> first | rfl | omega

theorem tabGet_tabDel : tabGet d (tabDel k t) j = if j = k then d else tabGet d t j := by
  induction t with
  | nil => simp [tabDel]
  | cons e r ih =>
    obtain ⟨a, w⟩ := e
    simp only [tabDel]
    split
    · rw [ih]
      subst_vars
      simp only [tabGet, eq_comm]
      split <;> rfl
    · simp only [tabGet, ih]
      split <;> split <;> first | rfl | omega

/-- Reading after writing. -/
@[simp] theorem tabGet_tabSet [DecidableEq α] : tabGet d (tabSet d k v t) j = if j = k then v else tabGet d t j := by
  unfold tabSet
  split
  · subst_vars
    exact tabGet_tabDel
  · exact tabGet_tabPut

@[simp] theorem tabGet_tabMod [DecidableEq α] {f : α → α} :
    tabGet d (tabMod d k f t) j = if j = k then f (tabGet d t k) else tabGet d t j := tabGet_tabSet

/-- Another key reads as before, whatever it reads as when it is not listed. -/
theorem tabGet_tabSet_other [DecidableEq α] {d' : α} (h : j ≠ k) : tabGet d' (tabSet d k v t) j = tabGet d' t j := by
  unfold tabSet
  split
  · rw [tabGet_tabDel, if_neg h]
  · rw [tabGet_tabPut, if_neg h]

/-! ## The canonical form -/

theorem tabRising_cons {a : Nat} {w : α} {r : Tab α} {lo : Option Nat} :
    tabRising lo ((a, w) :: r) = true ↔ (∀ l, lo = some l → l < a) ∧ tabRising (some a) r = true := by
  cases lo <;> simp [tabRising]

theorem tabRising_tabPut {lo : Option Nat} (h : tabRising lo t = true) (k0 : ∀ l, lo = some l → l < k) :
    tabRising lo (tabPut k v t) = true := by
  induction t generalizing lo with
  | nil => simpa [tabPut, tabRising_cons, tabRising] using k0
  | cons e r ih =>
    obtain ⟨a, w⟩ := e
    rw [tabRising_cons] at h
    simp only [tabPut]
    split
    · rw [tabRising_cons, tabRising_cons]
      exact ⟨k0, fun l e => by injection e with e; omega, h.2⟩
    · split
      · subst_vars
        rw [tabRising_cons]
        exact ⟨k0, h.2⟩
      · rw [tabRising_cons]
        exact ⟨h.1, ih h.2 fun l e => by injection e with e; omega⟩

theorem tabRising_weaken {lo hi : Nat} (h : tabRising (some hi) t = true) (k : lo ≤ hi) : tabRising (some lo) t = true := by
  cases t with
  | nil => rfl
  | cons e r =>
    rw [tabRising_cons] at h ⊢
    exact ⟨fun l e => by have := h.1 hi rfl; injection e with e; omega, h.2⟩

theorem tabRising_tabDel {lo : Option Nat} (h : tabRising lo t = true) : tabRising lo (tabDel k t) = true := by
  induction t generalizing lo with
  | nil => exact h
  | cons e r ih =>
    obtain ⟨a, w⟩ := e
    rw [tabRising_cons] at h
    simp only [tabDel]
    split
    · have h2 := ih h.2
      cases lo with
      | none =>
        revert h2
        cases tabDel k r with
        | nil => intro _; rfl
        | cons e r => intro h2; rw [tabRising_cons] at h2 ⊢; exact ⟨by simp, h2.2⟩
      | some l => exact tabRising_weaken h2 (le_of_lt (h.1 l rfl))
    · rw [tabRising_cons]
      exact ⟨h.1, ih h.2⟩

theorem mem_tabPut {e : Nat × α} (h : e ∈ tabPut k v t) : e = (k, v) ∨ e ∈ t := by
  induction t with
  | nil => simpa [tabPut] using h
  | cons x r ih =>
    obtain ⟨a, w⟩ := x
    simp only [tabPut] at h
    split at h
    · simpa using h
    · split at h
      · simp only [List.mem_cons] at h ⊢
        tauto
      · simp only [List.mem_cons] at h ⊢
        rcases h with h | h
        · exact .inr (.inl h)
        · exact (ih h).imp_right .inr

theorem mem_tabDel {e : Nat × α} (h : e ∈ tabDel k t) : e ∈ t := by
  induction t with
  | nil => exact h
  | cons x r ih =>
    obtain ⟨a, w⟩ := x
    simp only [tabDel] at h
    split at h
    · exact List.mem_cons_of_mem _ (ih h)
    · simp only [List.mem_cons] at h ⊢
      exact h.imp_right ih

/-- Every write keeps the canonical form. -/
theorem tabWf_tabSet [DecidableEq α] (h : tabWf d t = true) : tabWf d (tabSet d k v t) = true := by
  simp only [tabWf, Bool.and_eq_true, List.all_eq_true, decide_eq_true_eq] at h ⊢
  unfold tabSet
  split
  · exact ⟨tabRising_tabDel h.1, fun e he => h.2 e (mem_tabDel he)⟩
  · refine ⟨tabRising_tabPut h.1 (by simp), fun e he => ?_⟩
    rcases mem_tabPut he with rfl | he
    · assumption
    · exact h.2 e he

/-! ## Memory -/

@[simp] theorem Mem.byte_setByte {m : Mem} {a b : Nat} {x : Byte} :
    (m.setByte a x).byte b = if b = a then x else m.byte b := tabGet_tabSet

theorem Mem.wf_setByte {m : Mem} {a : Nat} {x : Byte} (h : m.wf = true) : (m.setByte a x).wf = true := tabWf_tabSet h

theorem Mem.wf_putBytes {m : Mem} {a : Nat} {l : List Byte} (h : m.wf = true) : (m.putBytes a l).wf = true := by
  induction l generalizing m a with
  | nil => exact h
  | cons x l ih => exact ih (Mem.wf_setByte h)

theorem Mem.byte_putBytes_lt {m : Mem} {a b : Nat} {l : List Byte} (h : b < a) : (m.putBytes a l).byte b = m.byte b := by
  induction l generalizing m a with
  | nil => rfl
  | cons x l ih =>
    rw [Mem.putBytes, ih (Nat.lt_succ_of_lt h), Mem.byte_setByte, if_neg (by omega)]

/-- What consecutive bytes read as after they were written. -/
theorem Mem.byte_putBytes {m : Mem} {a b : Nat} {l : List Byte} :
    (m.putBytes a l).byte b = if a ≤ b ∧ b < a + l.length then l.getD (b - a) 0 else m.byte b := by
  induction l generalizing m a with
  | nil => simp [Mem.putBytes]
  | cons x l ih =>
    rw [Mem.putBytes, ih, Mem.byte_setByte]
    by_cases h : b = a
    · subst h
      simp
    · by_cases h2 : a < b
      · have e : b - a = (b - (a + 1)) + 1 := by omega
        simp only [List.length_cons, if_neg h, e, List.getD_cons_succ]
        split <;> split <;> first | rfl | omega
      · have e : ¬ (a + 1 ≤ b) := by omega
        have e2 : ¬ (a ≤ b) := by omega
        simp [e, e2, h]

theorem tabGet_append {α : Type} {d : α} {x y : Tab α} {k : Nat} (h : ∀ e ∈ x, e.1 ≠ k) :
    tabGet d (x ++ y) k = tabGet d y k := by
  induction x with
  | nil => rfl
  | cons e r ih =>
    rw [List.cons_append, tabGet, if_neg (h e (List.mem_cons_self ..))]
    exact ih fun z hz => h z (List.mem_cons_of_mem _ hz)

theorem tabGet_append_left {α : Type} {d : α} {x y : Tab α} {k : Nat} (h : ∀ e ∈ y, e.1 ≠ k) :
    tabGet d (x ++ y) k = tabGet d x k := by
  induction x with
  | nil => simpa using tabGet_append (x := y) (y := []) h
  | cons e r ih =>
    rw [List.cons_append, tabGet, tabGet, ih]

theorem tabGet_filter {α : Type} {d : α} {x : Tab α} {k : Nat} {p : Nat → Bool} (h : p k = true) :
    tabGet d (x.filter fun e => p e.1) k = tabGet d x k := by
  induction x with
  | nil => rfl
  | cons e r ih =>
    by_cases e1 : e.1 = k
    · rw [List.filter_cons_of_pos (by rw [e1]; exact h)]
      simp [tabGet, e1]
    · rw [List.filter_cons]
      split
      · rw [tabGet, tabGet, if_neg e1, if_neg e1, ih]
      · rw [ih, tabGet, if_neg e1]

/-- What a range copied from another memory reads as; every other byte is as before. -/
theorem Mem.byte_copyRange {m src : Mem} {a b k : Nat} :
    (m.copyRange src a b).byte k = if a ≤ k ∧ k < b then src.byte k else m.byte k := by
  unfold Mem.copyRange Mem.part Mem.byte
  split
  · rename_i h
    rw [tabGet_append_left, tabGet_append]
    · exact tabGet_filter (p := fun x => decide (a ≤ x ∧ x < b)) (by simpa using h)
    · simp only [List.mem_filter, decide_eq_true_eq]
      intro e he
      omega
    · simp only [List.mem_filter, decide_eq_true_eq]
      intro e he
      omega
  · rename_i h
    by_cases h1 : k < a
    · rw [tabGet_append_left, tabGet_append_left]
      · exact tabGet_filter (p := fun x => decide (x < a)) (by simpa using h1)
      · simp only [List.mem_filter, decide_eq_true_eq]
        intro e he
        omega
      · simp only [List.mem_filter, decide_eq_true_eq]
        intro e he
        omega
    · rw [tabGet_append]
      · exact tabGet_filter (p := fun x => decide (max a b ≤ x)) (by simp; omega)
      · simp only [List.mem_append, List.mem_filter, decide_eq_true_eq]
        intro e he
        omega

theorem tabRising_iff {α : Type} {x : Tab α} {lo : Option Nat} :
    tabRising lo x = true ↔ (∀ l, lo = some l → ∀ e ∈ x, l < e.1) ∧ x.Pairwise fun e f => e.1 < f.1 := by
  induction x generalizing lo with
  | nil => cases lo <;> simp [tabRising]
  | cons e r ih =>
    obtain ⟨k, v⟩ := e
    rw [tabRising_cons, ih, List.pairwise_cons]
    constructor
    · rintro ⟨h1, h2, h3⟩
      refine ⟨fun l hl f hf => ?_, fun f hf => h2 k rfl f hf, h3⟩
      rcases List.mem_cons.mp hf with rfl | hf
      · exact h1 l hl
      · exact (h1 l hl).trans (h2 k rfl f hf)
    · rintro ⟨h1, h2, h3⟩
      exact ⟨fun l hl => h1 l hl _ (List.mem_cons_self ..), fun l hl f hf => (Option.some.inj hl) ▸ h2 f hf, h3⟩

/-- Copying a range keeps the canonical form. -/
theorem Mem.wf_copyRange {m src : Mem} {a b : Nat} (h : m.wf = true) (g : src.wf = true) : (m.copyRange src a b).wf = true := by
  simp only [Mem.wf, tabWf, Bool.and_eq_true, tabRising_iff, List.all_eq_true, decide_eq_true_eq] at *
  obtain ⟨⟨-, h1⟩, h2⟩ := h
  obtain ⟨⟨-, g1⟩, g2⟩ := g
  unfold Mem.copyRange Mem.part
  refine ⟨⟨by simp, ?_⟩, fun e he => ?_⟩
  · rw [List.pairwise_append, List.pairwise_append]
    refine ⟨⟨h1.filter _, g1.filter _, ?_⟩, h1.filter _, ?_⟩
    · simp only [List.mem_filter, decide_eq_true_eq]
      intro e he f hf
      omega
    · simp only [List.mem_append, List.mem_filter, decide_eq_true_eq]
      intro e he f hf
      omega
  · simp only [List.mem_append, List.mem_filter] at he
    rcases he with (he | he) | he
    · exact h2 e he.1
    · exact g2 e he.1
    · exact h2 e he.1

/-- Bytes written one by one keep the canonical form. -/
theorem Mem.wf_foldl {l : List (Nat × Byte)} {m : Mem} (h : m.wf = true) :
    (l.foldl (fun (m : Mem) e => m.setByte e.1 e.2) m).wf = true := by
  induction l generalizing m with
  | nil => exact h
  | cons e r ih => exact ih (Mem.wf_setByte h)

end Sys2Proof.Machine
end

