-- ==== Sys2Proof/Laws/State.lean ====
section
/-! SUPPORT. What each update of the state leaves in every field, true by definition; entries of the tables after an
update; what a command's answer holds. -/
namespace Sys2Proof.Machine

variable {s t u : State}

/-! ## One subsystem changed -/

@[simp] theorem State.onDev_fields {f : Dev → Dev} : (s.onDev f).dev = f s.dev ∧
    (s.onDev f).pending = s.pending ∧ (s.onDev f).free = s.free ∧ (s.onDev f).cfg = s.cfg ∧ (s.onDev f).clk = s.clk ∧
    (s.onDev f).ps = s.ps ∧ (s.onDev f).ln = s.ln ∧ (s.onDev f).seq = s.seq ∧ (s.onDev f).can = s.can ∧
    (s.onDev f).fret = s.fret ∧ (s.onDev f).yl = s.yl ∧ (s.onDev f).lp = s.lp ∧ (s.onDev f).fld = s.fld ∧
    (s.onDev f).cb = s.cb ∧ (s.onDev f).host = s.host ∧ (s.onDev f).pkg = s.pkg ∧ (s.onDev f).safe = s.safe ∧
    (s.onDev f).nv = s.nv ∧ (s.onDev f).svc = s.svc ∧ (s.onDev f).wd = s.wd ∧ (s.onDev f).tap = s.tap ∧
    (s.onDev f).out = s.out := by
  refine ⟨rfl, rfl, rfl, rfl, rfl, rfl, rfl, rfl, rfl, rfl, rfl, rfl, rfl, rfl, rfl, rfl, rfl, rfl, rfl, rfl, rfl, rfl⟩

@[simp] theorem State.onClk_fields {f : Clk → Clk} : (s.onClk f).clk = f s.clk ∧
    (s.onClk f).pending = s.pending ∧ (s.onClk f).free = s.free ∧ (s.onClk f).cfg = s.cfg ∧ (s.onClk f).dev = s.dev ∧
    (s.onClk f).ps = s.ps ∧ (s.onClk f).ln = s.ln ∧ (s.onClk f).seq = s.seq ∧ (s.onClk f).can = s.can ∧
    (s.onClk f).fret = s.fret ∧ (s.onClk f).yl = s.yl ∧ (s.onClk f).lp = s.lp ∧ (s.onClk f).fld = s.fld ∧
    (s.onClk f).cb = s.cb ∧ (s.onClk f).host = s.host ∧ (s.onClk f).pkg = s.pkg ∧ (s.onClk f).safe = s.safe ∧
    (s.onClk f).nv = s.nv ∧ (s.onClk f).svc = s.svc ∧ (s.onClk f).wd = s.wd ∧ (s.onClk f).tap = s.tap ∧
    (s.onClk f).out = s.out := by
  refine ⟨rfl, rfl, rfl, rfl, rfl, rfl, rfl, rfl, rfl, rfl, rfl, rfl, rfl, rfl, rfl, rfl, rfl, rfl, rfl, rfl, rfl, rfl⟩

@[simp] theorem State.onPs_fields {f : PStore → PStore} : (s.onPs f).ps = f s.ps ∧
    (s.onPs f).pending = s.pending ∧ (s.onPs f).free = s.free ∧ (s.onPs f).cfg = s.cfg ∧ (s.onPs f).dev = s.dev ∧
    (s.onPs f).clk = s.clk ∧ (s.onPs f).ln = s.ln ∧ (s.onPs f).seq = s.seq ∧ (s.onPs f).can = s.can ∧
    (s.onPs f).fret = s.fret ∧ (s.onPs f).yl = s.yl ∧ (s.onPs f).lp = s.lp ∧ (s.onPs f).fld = s.fld ∧
    (s.onPs f).cb = s.cb ∧ (s.onPs f).host = s.host ∧ (s.onPs f).pkg = s.pkg ∧ (s.onPs f).safe = s.safe ∧
    (s.onPs f).nv = s.nv ∧ (s.onPs f).svc = s.svc ∧ (s.onPs f).wd = s.wd ∧ (s.onPs f).tap = s.tap ∧
    (s.onPs f).out = s.out := by
  refine ⟨rfl, rfl, rfl, rfl, rfl, rfl, rfl, rfl, rfl, rfl, rfl, rfl, rfl, rfl, rfl, rfl, rfl, rfl, rfl, rfl, rfl, rfl⟩

@[simp] theorem State.onLn_fields {f : Lanes → Lanes} : (s.onLn f).ln = f s.ln ∧
    (s.onLn f).pending = s.pending ∧ (s.onLn f).free = s.free ∧ (s.onLn f).cfg = s.cfg ∧ (s.onLn f).dev = s.dev ∧
    (s.onLn f).clk = s.clk ∧ (s.onLn f).ps = s.ps ∧ (s.onLn f).seq = s.seq ∧ (s.onLn f).can = s.can ∧
    (s.onLn f).fret = s.fret ∧ (s.onLn f).yl = s.yl ∧ (s.onLn f).lp = s.lp ∧ (s.onLn f).fld = s.fld ∧
    (s.onLn f).cb = s.cb ∧ (s.onLn f).host = s.host ∧ (s.onLn f).pkg = s.pkg ∧ (s.onLn f).safe = s.safe ∧
    (s.onLn f).nv = s.nv ∧ (s.onLn f).svc = s.svc ∧ (s.onLn f).wd = s.wd ∧ (s.onLn f).tap = s.tap ∧
    (s.onLn f).out = s.out := by
  refine ⟨rfl, rfl, rfl, rfl, rfl, rfl, rfl, rfl, rfl, rfl, rfl, rfl, rfl, rfl, rfl, rfl, rfl, rfl, rfl, rfl, rfl, rfl⟩

@[simp] theorem State.onSeq_fields {f : Seq → Seq} : (s.onSeq f).seq = f s.seq ∧
    (s.onSeq f).pending = s.pending ∧ (s.onSeq f).free = s.free ∧ (s.onSeq f).cfg = s.cfg ∧ (s.onSeq f).dev = s.dev ∧
    (s.onSeq f).clk = s.clk ∧ (s.onSeq f).ps = s.ps ∧ (s.onSeq f).ln = s.ln ∧ (s.onSeq f).can = s.can ∧
    (s.onSeq f).fret = s.fret ∧ (s.onSeq f).yl = s.yl ∧ (s.onSeq f).lp = s.lp ∧ (s.onSeq f).fld = s.fld ∧
    (s.onSeq f).cb = s.cb ∧ (s.onSeq f).host = s.host ∧ (s.onSeq f).pkg = s.pkg ∧ (s.onSeq f).safe = s.safe ∧
    (s.onSeq f).nv = s.nv ∧ (s.onSeq f).svc = s.svc ∧ (s.onSeq f).wd = s.wd ∧ (s.onSeq f).tap = s.tap ∧
    (s.onSeq f).out = s.out := by
  refine ⟨rfl, rfl, rfl, rfl, rfl, rfl, rfl, rfl, rfl, rfl, rfl, rfl, rfl, rfl, rfl, rfl, rfl, rfl, rfl, rfl, rfl, rfl⟩

@[simp] theorem State.onCan_fields {f : Canopy → Canopy} : (s.onCan f).can = f s.can ∧
    (s.onCan f).pending = s.pending ∧ (s.onCan f).free = s.free ∧ (s.onCan f).cfg = s.cfg ∧ (s.onCan f).dev = s.dev ∧
    (s.onCan f).clk = s.clk ∧ (s.onCan f).ps = s.ps ∧ (s.onCan f).ln = s.ln ∧ (s.onCan f).seq = s.seq ∧
    (s.onCan f).fret = s.fret ∧ (s.onCan f).yl = s.yl ∧ (s.onCan f).lp = s.lp ∧ (s.onCan f).fld = s.fld ∧
    (s.onCan f).cb = s.cb ∧ (s.onCan f).host = s.host ∧ (s.onCan f).pkg = s.pkg ∧ (s.onCan f).safe = s.safe ∧
    (s.onCan f).nv = s.nv ∧ (s.onCan f).svc = s.svc ∧ (s.onCan f).wd = s.wd ∧ (s.onCan f).tap = s.tap ∧
    (s.onCan f).out = s.out := by
  refine ⟨rfl, rfl, rfl, rfl, rfl, rfl, rfl, rfl, rfl, rfl, rfl, rfl, rfl, rfl, rfl, rfl, rfl, rfl, rfl, rfl, rfl, rfl⟩

@[simp] theorem State.onFret_fields {f : Fret → Fret} : (s.onFret f).fret = f s.fret ∧
    (s.onFret f).pending = s.pending ∧ (s.onFret f).free = s.free ∧ (s.onFret f).cfg = s.cfg ∧ (s.onFret f).dev = s.dev ∧
    (s.onFret f).clk = s.clk ∧ (s.onFret f).ps = s.ps ∧ (s.onFret f).ln = s.ln ∧ (s.onFret f).seq = s.seq ∧
    (s.onFret f).can = s.can ∧ (s.onFret f).yl = s.yl ∧ (s.onFret f).lp = s.lp ∧ (s.onFret f).fld = s.fld ∧
    (s.onFret f).cb = s.cb ∧ (s.onFret f).host = s.host ∧ (s.onFret f).pkg = s.pkg ∧ (s.onFret f).safe = s.safe ∧
    (s.onFret f).nv = s.nv ∧ (s.onFret f).svc = s.svc ∧ (s.onFret f).wd = s.wd ∧ (s.onFret f).tap = s.tap ∧
    (s.onFret f).out = s.out := by
  refine ⟨rfl, rfl, rfl, rfl, rfl, rfl, rfl, rfl, rfl, rfl, rfl, rfl, rfl, rfl, rfl, rfl, rfl, rfl, rfl, rfl, rfl, rfl⟩

@[simp] theorem State.onYl_fields {f : Yelx → Yelx} : (s.onYl f).yl = f s.yl ∧
    (s.onYl f).pending = s.pending ∧ (s.onYl f).free = s.free ∧ (s.onYl f).cfg = s.cfg ∧ (s.onYl f).dev = s.dev ∧
    (s.onYl f).clk = s.clk ∧ (s.onYl f).ps = s.ps ∧ (s.onYl f).ln = s.ln ∧ (s.onYl f).seq = s.seq ∧
    (s.onYl f).can = s.can ∧ (s.onYl f).fret = s.fret ∧ (s.onYl f).lp = s.lp ∧ (s.onYl f).fld = s.fld ∧
    (s.onYl f).cb = s.cb ∧ (s.onYl f).host = s.host ∧ (s.onYl f).pkg = s.pkg ∧ (s.onYl f).safe = s.safe ∧
    (s.onYl f).nv = s.nv ∧ (s.onYl f).svc = s.svc ∧ (s.onYl f).wd = s.wd ∧ (s.onYl f).tap = s.tap ∧
    (s.onYl f).out = s.out := by
  refine ⟨rfl, rfl, rfl, rfl, rfl, rfl, rfl, rfl, rfl, rfl, rfl, rfl, rfl, rfl, rfl, rfl, rfl, rfl, rfl, rfl, rfl, rfl⟩

@[simp] theorem State.onLp_fields {f : Loops → Loops} : (s.onLp f).lp = f s.lp ∧
    (s.onLp f).pending = s.pending ∧ (s.onLp f).free = s.free ∧ (s.onLp f).cfg = s.cfg ∧ (s.onLp f).dev = s.dev ∧
    (s.onLp f).clk = s.clk ∧ (s.onLp f).ps = s.ps ∧ (s.onLp f).ln = s.ln ∧ (s.onLp f).seq = s.seq ∧
    (s.onLp f).can = s.can ∧ (s.onLp f).fret = s.fret ∧ (s.onLp f).yl = s.yl ∧ (s.onLp f).fld = s.fld ∧
    (s.onLp f).cb = s.cb ∧ (s.onLp f).host = s.host ∧ (s.onLp f).pkg = s.pkg ∧ (s.onLp f).safe = s.safe ∧
    (s.onLp f).nv = s.nv ∧ (s.onLp f).svc = s.svc ∧ (s.onLp f).wd = s.wd ∧ (s.onLp f).tap = s.tap ∧
    (s.onLp f).out = s.out := by
  refine ⟨rfl, rfl, rfl, rfl, rfl, rfl, rfl, rfl, rfl, rfl, rfl, rfl, rfl, rfl, rfl, rfl, rfl, rfl, rfl, rfl, rfl, rfl⟩

@[simp] theorem State.onFld_fields {f : Field → Field} : (s.onFld f).fld = f s.fld ∧
    (s.onFld f).pending = s.pending ∧ (s.onFld f).free = s.free ∧ (s.onFld f).cfg = s.cfg ∧ (s.onFld f).dev = s.dev ∧
    (s.onFld f).clk = s.clk ∧ (s.onFld f).ps = s.ps ∧ (s.onFld f).ln = s.ln ∧ (s.onFld f).seq = s.seq ∧
    (s.onFld f).can = s.can ∧ (s.onFld f).fret = s.fret ∧ (s.onFld f).yl = s.yl ∧ (s.onFld f).lp = s.lp ∧
    (s.onFld f).cb = s.cb ∧ (s.onFld f).host = s.host ∧ (s.onFld f).pkg = s.pkg ∧ (s.onFld f).safe = s.safe ∧
    (s.onFld f).nv = s.nv ∧ (s.onFld f).svc = s.svc ∧ (s.onFld f).wd = s.wd ∧ (s.onFld f).tap = s.tap ∧
    (s.onFld f).out = s.out := by
  refine ⟨rfl, rfl, rfl, rfl, rfl, rfl, rfl, rfl, rfl, rfl, rfl, rfl, rfl, rfl, rfl, rfl, rfl, rfl, rfl, rfl, rfl, rfl⟩

@[simp] theorem State.onCb_fields {f : Cans → Cans} : (s.onCb f).cb = f s.cb ∧
    (s.onCb f).pending = s.pending ∧ (s.onCb f).free = s.free ∧ (s.onCb f).cfg = s.cfg ∧ (s.onCb f).dev = s.dev ∧
    (s.onCb f).clk = s.clk ∧ (s.onCb f).ps = s.ps ∧ (s.onCb f).ln = s.ln ∧ (s.onCb f).seq = s.seq ∧
    (s.onCb f).can = s.can ∧ (s.onCb f).fret = s.fret ∧ (s.onCb f).yl = s.yl ∧ (s.onCb f).lp = s.lp ∧
    (s.onCb f).fld = s.fld ∧ (s.onCb f).host = s.host ∧ (s.onCb f).pkg = s.pkg ∧ (s.onCb f).safe = s.safe ∧
    (s.onCb f).nv = s.nv ∧ (s.onCb f).svc = s.svc ∧ (s.onCb f).wd = s.wd ∧ (s.onCb f).tap = s.tap ∧
    (s.onCb f).out = s.out := by
  refine ⟨rfl, rfl, rfl, rfl, rfl, rfl, rfl, rfl, rfl, rfl, rfl, rfl, rfl, rfl, rfl, rfl, rfl, rfl, rfl, rfl, rfl, rfl⟩

@[simp] theorem State.onHost_fields {f : Hosts → Hosts} : (s.onHost f).host = f s.host ∧
    (s.onHost f).pending = s.pending ∧ (s.onHost f).free = s.free ∧ (s.onHost f).cfg = s.cfg ∧ (s.onHost f).dev = s.dev ∧
    (s.onHost f).clk = s.clk ∧ (s.onHost f).ps = s.ps ∧ (s.onHost f).ln = s.ln ∧ (s.onHost f).seq = s.seq ∧
    (s.onHost f).can = s.can ∧ (s.onHost f).fret = s.fret ∧ (s.onHost f).yl = s.yl ∧ (s.onHost f).lp = s.lp ∧
    (s.onHost f).fld = s.fld ∧ (s.onHost f).cb = s.cb ∧ (s.onHost f).pkg = s.pkg ∧ (s.onHost f).safe = s.safe ∧
    (s.onHost f).nv = s.nv ∧ (s.onHost f).svc = s.svc ∧ (s.onHost f).wd = s.wd ∧ (s.onHost f).tap = s.tap ∧
    (s.onHost f).out = s.out := by
  refine ⟨rfl, rfl, rfl, rfl, rfl, rfl, rfl, rfl, rfl, rfl, rfl, rfl, rfl, rfl, rfl, rfl, rfl, rfl, rfl, rfl, rfl, rfl⟩

@[simp] theorem State.onPkg_fields {f : Pkg → Pkg} : (s.onPkg f).pkg = f s.pkg ∧
    (s.onPkg f).pending = s.pending ∧ (s.onPkg f).free = s.free ∧ (s.onPkg f).cfg = s.cfg ∧ (s.onPkg f).dev = s.dev ∧
    (s.onPkg f).clk = s.clk ∧ (s.onPkg f).ps = s.ps ∧ (s.onPkg f).ln = s.ln ∧ (s.onPkg f).seq = s.seq ∧
    (s.onPkg f).can = s.can ∧ (s.onPkg f).fret = s.fret ∧ (s.onPkg f).yl = s.yl ∧ (s.onPkg f).lp = s.lp ∧
    (s.onPkg f).fld = s.fld ∧ (s.onPkg f).cb = s.cb ∧ (s.onPkg f).host = s.host ∧ (s.onPkg f).safe = s.safe ∧
    (s.onPkg f).nv = s.nv ∧ (s.onPkg f).svc = s.svc ∧ (s.onPkg f).wd = s.wd ∧ (s.onPkg f).tap = s.tap ∧
    (s.onPkg f).out = s.out := by
  refine ⟨rfl, rfl, rfl, rfl, rfl, rfl, rfl, rfl, rfl, rfl, rfl, rfl, rfl, rfl, rfl, rfl, rfl, rfl, rfl, rfl, rfl, rfl⟩

@[simp] theorem State.onSafe_fields {f : Safe → Safe} : (s.onSafe f).safe = f s.safe ∧
    (s.onSafe f).pending = s.pending ∧ (s.onSafe f).free = s.free ∧ (s.onSafe f).cfg = s.cfg ∧ (s.onSafe f).dev = s.dev ∧
    (s.onSafe f).clk = s.clk ∧ (s.onSafe f).ps = s.ps ∧ (s.onSafe f).ln = s.ln ∧ (s.onSafe f).seq = s.seq ∧
    (s.onSafe f).can = s.can ∧ (s.onSafe f).fret = s.fret ∧ (s.onSafe f).yl = s.yl ∧ (s.onSafe f).lp = s.lp ∧
    (s.onSafe f).fld = s.fld ∧ (s.onSafe f).cb = s.cb ∧ (s.onSafe f).host = s.host ∧ (s.onSafe f).pkg = s.pkg ∧
    (s.onSafe f).nv = s.nv ∧ (s.onSafe f).svc = s.svc ∧ (s.onSafe f).wd = s.wd ∧ (s.onSafe f).tap = s.tap ∧
    (s.onSafe f).out = s.out := by
  refine ⟨rfl, rfl, rfl, rfl, rfl, rfl, rfl, rfl, rfl, rfl, rfl, rfl, rfl, rfl, rfl, rfl, rfl, rfl, rfl, rfl, rfl, rfl⟩

@[simp] theorem State.onNv_fields {f : Nv → Nv} : (s.onNv f).nv = f s.nv ∧
    (s.onNv f).pending = s.pending ∧ (s.onNv f).free = s.free ∧ (s.onNv f).cfg = s.cfg ∧ (s.onNv f).dev = s.dev ∧
    (s.onNv f).clk = s.clk ∧ (s.onNv f).ps = s.ps ∧ (s.onNv f).ln = s.ln ∧ (s.onNv f).seq = s.seq ∧
    (s.onNv f).can = s.can ∧ (s.onNv f).fret = s.fret ∧ (s.onNv f).yl = s.yl ∧ (s.onNv f).lp = s.lp ∧
    (s.onNv f).fld = s.fld ∧ (s.onNv f).cb = s.cb ∧ (s.onNv f).host = s.host ∧ (s.onNv f).pkg = s.pkg ∧
    (s.onNv f).safe = s.safe ∧ (s.onNv f).svc = s.svc ∧ (s.onNv f).wd = s.wd ∧ (s.onNv f).tap = s.tap ∧
    (s.onNv f).out = s.out := by
  refine ⟨rfl, rfl, rfl, rfl, rfl, rfl, rfl, rfl, rfl, rfl, rfl, rfl, rfl, rfl, rfl, rfl, rfl, rfl, rfl, rfl, rfl, rfl⟩

@[simp] theorem State.onSvc_fields {f : Svc → Svc} : (s.onSvc f).svc = f s.svc ∧
    (s.onSvc f).pending = s.pending ∧ (s.onSvc f).free = s.free ∧ (s.onSvc f).cfg = s.cfg ∧ (s.onSvc f).dev = s.dev ∧
    (s.onSvc f).clk = s.clk ∧ (s.onSvc f).ps = s.ps ∧ (s.onSvc f).ln = s.ln ∧ (s.onSvc f).seq = s.seq ∧
    (s.onSvc f).can = s.can ∧ (s.onSvc f).fret = s.fret ∧ (s.onSvc f).yl = s.yl ∧ (s.onSvc f).lp = s.lp ∧
    (s.onSvc f).fld = s.fld ∧ (s.onSvc f).cb = s.cb ∧ (s.onSvc f).host = s.host ∧ (s.onSvc f).pkg = s.pkg ∧
    (s.onSvc f).safe = s.safe ∧ (s.onSvc f).nv = s.nv ∧ (s.onSvc f).wd = s.wd ∧ (s.onSvc f).tap = s.tap ∧
    (s.onSvc f).out = s.out := by
  refine ⟨rfl, rfl, rfl, rfl, rfl, rfl, rfl, rfl, rfl, rfl, rfl, rfl, rfl, rfl, rfl, rfl, rfl, rfl, rfl, rfl, rfl, rfl⟩

@[simp] theorem State.onWd_fields {f : Wd → Wd} : (s.onWd f).wd = f s.wd ∧
    (s.onWd f).pending = s.pending ∧ (s.onWd f).free = s.free ∧ (s.onWd f).cfg = s.cfg ∧ (s.onWd f).dev = s.dev ∧
    (s.onWd f).clk = s.clk ∧ (s.onWd f).ps = s.ps ∧ (s.onWd f).ln = s.ln ∧ (s.onWd f).seq = s.seq ∧
    (s.onWd f).can = s.can ∧ (s.onWd f).fret = s.fret ∧ (s.onWd f).yl = s.yl ∧ (s.onWd f).lp = s.lp ∧
    (s.onWd f).fld = s.fld ∧ (s.onWd f).cb = s.cb ∧ (s.onWd f).host = s.host ∧ (s.onWd f).pkg = s.pkg ∧
    (s.onWd f).safe = s.safe ∧ (s.onWd f).nv = s.nv ∧ (s.onWd f).svc = s.svc ∧ (s.onWd f).tap = s.tap ∧
    (s.onWd f).out = s.out := by
  refine ⟨rfl, rfl, rfl, rfl, rfl, rfl, rfl, rfl, rfl, rfl, rfl, rfl, rfl, rfl, rfl, rfl, rfl, rfl, rfl, rfl, rfl, rfl⟩

@[simp] theorem State.drawn_fields : s.drawn.free = s.free + 1 ∧
    s.drawn.pending = s.pending ∧ s.drawn.cfg = s.cfg ∧ s.drawn.dev = s.dev ∧ s.drawn.clk = s.clk ∧
    s.drawn.ps = s.ps ∧ s.drawn.ln = s.ln ∧ s.drawn.seq = s.seq ∧ s.drawn.can = s.can ∧
    s.drawn.fret = s.fret ∧ s.drawn.yl = s.yl ∧ s.drawn.lp = s.lp ∧ s.drawn.fld = s.fld ∧
    s.drawn.cb = s.cb ∧ s.drawn.host = s.host ∧ s.drawn.pkg = s.pkg ∧ s.drawn.safe = s.safe ∧
    s.drawn.nv = s.nv ∧ s.drawn.svc = s.svc ∧ s.drawn.wd = s.wd ∧ s.drawn.tap = s.tap ∧
    s.drawn.out = s.out := by
  refine ⟨rfl, rfl, rfl, rfl, rfl, rfl, rfl, rfl, rfl, rfl, rfl, rfl, rfl, rfl, rfl, rfl, rfl, rfl, rfl, rfl, rfl, rfl⟩

@[simp] theorem State.emit_fields {o : Out} : (s.emit o).out = s.out ++ [o] ∧
    (s.emit o).pending = s.pending ∧ (s.emit o).free = s.free ∧ (s.emit o).cfg = s.cfg ∧ (s.emit o).dev = s.dev ∧
    (s.emit o).clk = s.clk ∧ (s.emit o).ps = s.ps ∧ (s.emit o).ln = s.ln ∧ (s.emit o).seq = s.seq ∧
    (s.emit o).can = s.can ∧ (s.emit o).fret = s.fret ∧ (s.emit o).yl = s.yl ∧ (s.emit o).lp = s.lp ∧
    (s.emit o).fld = s.fld ∧ (s.emit o).cb = s.cb ∧ (s.emit o).host = s.host ∧ (s.emit o).pkg = s.pkg ∧
    (s.emit o).safe = s.safe ∧ (s.emit o).nv = s.nv ∧ (s.emit o).svc = s.svc ∧ (s.emit o).wd = s.wd ∧
    (s.emit o).tap = s.tap := by
  refine ⟨rfl, rfl, rfl, rfl, rfl, rfl, rfl, rfl, rfl, rfl, rfl, rfl, rfl, rfl, rfl, rfl, rfl, rfl, rfl, rfl, rfl, rfl⟩

/-! ## One entry of a table changed -/

@[simp] theorem State.modLane_fields {n : Nat} {f : Lane → Lane} : (s.modLane n f).pending = s.pending ∧ (s.modLane n f).free = s.free ∧ (s.modLane n f).cfg = s.cfg ∧ (s.modLane n f).dev = s.dev ∧
    (s.modLane n f).clk = s.clk ∧ (s.modLane n f).ps = s.ps ∧ (s.modLane n f).seq = s.seq ∧ (s.modLane n f).can = s.can ∧
    (s.modLane n f).fret = s.fret ∧ (s.modLane n f).yl = s.yl ∧ (s.modLane n f).lp = s.lp ∧ (s.modLane n f).fld = s.fld ∧
    (s.modLane n f).cb = s.cb ∧ (s.modLane n f).host = s.host ∧ (s.modLane n f).pkg = s.pkg ∧ (s.modLane n f).safe = s.safe ∧
    (s.modLane n f).nv = s.nv ∧ (s.modLane n f).svc = s.svc ∧ (s.modLane n f).wd = s.wd ∧ (s.modLane n f).tap = s.tap ∧
    (s.modLane n f).out = s.out := by
  refine ⟨rfl, rfl, rfl, rfl, rfl, rfl, rfl, rfl, rfl, rfl, rfl, rfl, rfl, rfl, rfl, rfl, rfl, rfl, rfl, rfl, rfl⟩

@[simp] theorem State.lane_modLane {n j : Nat} {f : Lane → Lane} : (s.modLane n f).lane j = if j = n then f (s.lane n) else s.lane j := by
  unfold State.lane State.modLane
  by_cases h : j = n
  · subst h
    simp
  · simp [h, tabMod, tabGet_tabSet_other]

@[simp] theorem State.modTask_fields {n : Nat} {f : TaskSt → TaskSt} : (s.modTask n f).pending = s.pending ∧ (s.modTask n f).free = s.free ∧ (s.modTask n f).cfg = s.cfg ∧ (s.modTask n f).dev = s.dev ∧
    (s.modTask n f).clk = s.clk ∧ (s.modTask n f).ps = s.ps ∧ (s.modTask n f).ln = s.ln ∧ (s.modTask n f).can = s.can ∧
    (s.modTask n f).fret = s.fret ∧ (s.modTask n f).yl = s.yl ∧ (s.modTask n f).lp = s.lp ∧ (s.modTask n f).fld = s.fld ∧
    (s.modTask n f).cb = s.cb ∧ (s.modTask n f).host = s.host ∧ (s.modTask n f).pkg = s.pkg ∧ (s.modTask n f).safe = s.safe ∧
    (s.modTask n f).nv = s.nv ∧ (s.modTask n f).svc = s.svc ∧ (s.modTask n f).wd = s.wd ∧ (s.modTask n f).tap = s.tap ∧
    (s.modTask n f).out = s.out := by
  refine ⟨rfl, rfl, rfl, rfl, rfl, rfl, rfl, rfl, rfl, rfl, rfl, rfl, rfl, rfl, rfl, rfl, rfl, rfl, rfl, rfl, rfl⟩

@[simp] theorem State.task_modTask {n j : Nat} {f : TaskSt → TaskSt} : (s.modTask n f).task j = if j = n then f (s.task n) else s.task j := tabGet_tabMod

@[simp] theorem State.modShaft_fields {n : Nat} {f : Shaft → Shaft} : (s.modShaft n f).pending = s.pending ∧ (s.modShaft n f).free = s.free ∧ (s.modShaft n f).cfg = s.cfg ∧ (s.modShaft n f).dev = s.dev ∧
    (s.modShaft n f).clk = s.clk ∧ (s.modShaft n f).ps = s.ps ∧ (s.modShaft n f).ln = s.ln ∧ (s.modShaft n f).seq = s.seq ∧
    (s.modShaft n f).can = s.can ∧ (s.modShaft n f).yl = s.yl ∧ (s.modShaft n f).lp = s.lp ∧ (s.modShaft n f).fld = s.fld ∧
    (s.modShaft n f).cb = s.cb ∧ (s.modShaft n f).host = s.host ∧ (s.modShaft n f).pkg = s.pkg ∧ (s.modShaft n f).safe = s.safe ∧
    (s.modShaft n f).nv = s.nv ∧ (s.modShaft n f).svc = s.svc ∧ (s.modShaft n f).wd = s.wd ∧ (s.modShaft n f).tap = s.tap ∧
    (s.modShaft n f).out = s.out := by
  refine ⟨rfl, rfl, rfl, rfl, rfl, rfl, rfl, rfl, rfl, rfl, rfl, rfl, rfl, rfl, rfl, rfl, rfl, rfl, rfl, rfl, rfl⟩

@[simp] theorem State.shaft_modShaft {n j : Nat} {f : Shaft → Shaft} : (s.modShaft n f).shaft j = if j = n then f (s.shaft n) else s.shaft j := tabGet_tabMod

@[simp] theorem State.modPort_fields {n : Nat} {f : Port → Port} : (s.modPort n f).pending = s.pending ∧ (s.modPort n f).free = s.free ∧ (s.modPort n f).cfg = s.cfg ∧ (s.modPort n f).dev = s.dev ∧
    (s.modPort n f).clk = s.clk ∧ (s.modPort n f).ps = s.ps ∧ (s.modPort n f).ln = s.ln ∧ (s.modPort n f).seq = s.seq ∧
    (s.modPort n f).can = s.can ∧ (s.modPort n f).fret = s.fret ∧ (s.modPort n f).lp = s.lp ∧ (s.modPort n f).fld = s.fld ∧
    (s.modPort n f).cb = s.cb ∧ (s.modPort n f).host = s.host ∧ (s.modPort n f).pkg = s.pkg ∧ (s.modPort n f).safe = s.safe ∧
    (s.modPort n f).nv = s.nv ∧ (s.modPort n f).svc = s.svc ∧ (s.modPort n f).wd = s.wd ∧ (s.modPort n f).tap = s.tap ∧
    (s.modPort n f).out = s.out := by
  refine ⟨rfl, rfl, rfl, rfl, rfl, rfl, rfl, rfl, rfl, rfl, rfl, rfl, rfl, rfl, rfl, rfl, rfl, rfl, rfl, rfl, rfl⟩

@[simp] theorem State.port_modPort {n j : Nat} {f : Port → Port} : (s.modPort n f).port j = if j = n then f (s.port n) else s.port j := tabGet_tabMod

@[simp] theorem State.modSta_fields {n : Nat} {f : Sta → Sta} : (s.modSta n f).pending = s.pending ∧ (s.modSta n f).free = s.free ∧ (s.modSta n f).cfg = s.cfg ∧ (s.modSta n f).dev = s.dev ∧
    (s.modSta n f).clk = s.clk ∧ (s.modSta n f).ps = s.ps ∧ (s.modSta n f).ln = s.ln ∧ (s.modSta n f).seq = s.seq ∧
    (s.modSta n f).can = s.can ∧ (s.modSta n f).fret = s.fret ∧ (s.modSta n f).lp = s.lp ∧ (s.modSta n f).fld = s.fld ∧
    (s.modSta n f).cb = s.cb ∧ (s.modSta n f).host = s.host ∧ (s.modSta n f).pkg = s.pkg ∧ (s.modSta n f).safe = s.safe ∧
    (s.modSta n f).nv = s.nv ∧ (s.modSta n f).svc = s.svc ∧ (s.modSta n f).wd = s.wd ∧ (s.modSta n f).tap = s.tap ∧
    (s.modSta n f).out = s.out := by
  refine ⟨rfl, rfl, rfl, rfl, rfl, rfl, rfl, rfl, rfl, rfl, rfl, rfl, rfl, rfl, rfl, rfl, rfl, rfl, rfl, rfl, rfl⟩

@[simp] theorem State.sta_modSta {n j : Nat} {f : Sta → Sta} : (s.modSta n f).sta j = if j = n then f (s.sta n) else s.sta j := tabGet_tabMod

@[simp] theorem State.modLoop_fields {n : Nat} {f : LoopSt → LoopSt} : (s.modLoop n f).pending = s.pending ∧ (s.modLoop n f).free = s.free ∧ (s.modLoop n f).cfg = s.cfg ∧ (s.modLoop n f).dev = s.dev ∧
    (s.modLoop n f).clk = s.clk ∧ (s.modLoop n f).ps = s.ps ∧ (s.modLoop n f).ln = s.ln ∧ (s.modLoop n f).seq = s.seq ∧
    (s.modLoop n f).can = s.can ∧ (s.modLoop n f).fret = s.fret ∧ (s.modLoop n f).yl = s.yl ∧ (s.modLoop n f).fld = s.fld ∧
    (s.modLoop n f).cb = s.cb ∧ (s.modLoop n f).host = s.host ∧ (s.modLoop n f).pkg = s.pkg ∧ (s.modLoop n f).safe = s.safe ∧
    (s.modLoop n f).nv = s.nv ∧ (s.modLoop n f).svc = s.svc ∧ (s.modLoop n f).wd = s.wd ∧ (s.modLoop n f).tap = s.tap ∧
    (s.modLoop n f).out = s.out := by
  refine ⟨rfl, rfl, rfl, rfl, rfl, rfl, rfl, rfl, rfl, rfl, rfl, rfl, rfl, rfl, rfl, rfl, rfl, rfl, rfl, rfl, rfl⟩

@[simp] theorem State.loop_modLoop {n j : Nat} {f : LoopSt → LoopSt} : (s.modLoop n f).loop j = if j = n then f (s.loop n) else s.loop j := tabGet_tabMod

@[simp] theorem State.modChan_fields {n : Nat} {f : Chan → Chan} : (s.modChan n f).pending = s.pending ∧ (s.modChan n f).free = s.free ∧ (s.modChan n f).cfg = s.cfg ∧ (s.modChan n f).dev = s.dev ∧
    (s.modChan n f).clk = s.clk ∧ (s.modChan n f).ps = s.ps ∧ (s.modChan n f).ln = s.ln ∧ (s.modChan n f).seq = s.seq ∧
    (s.modChan n f).can = s.can ∧ (s.modChan n f).fret = s.fret ∧ (s.modChan n f).yl = s.yl ∧ (s.modChan n f).lp = s.lp ∧
    (s.modChan n f).cb = s.cb ∧ (s.modChan n f).host = s.host ∧ (s.modChan n f).pkg = s.pkg ∧ (s.modChan n f).safe = s.safe ∧
    (s.modChan n f).nv = s.nv ∧ (s.modChan n f).svc = s.svc ∧ (s.modChan n f).wd = s.wd ∧ (s.modChan n f).tap = s.tap ∧
    (s.modChan n f).out = s.out := by
  refine ⟨rfl, rfl, rfl, rfl, rfl, rfl, rfl, rfl, rfl, rfl, rfl, rfl, rfl, rfl, rfl, rfl, rfl, rfl, rfl, rfl, rfl⟩

@[simp] theorem State.chan_modChan {n j : Nat} {f : Chan → Chan} : (s.modChan n f).chan j = if j = n then f (s.chan n) else s.chan j := tabGet_tabMod

@[simp] theorem State.modCan_fields {n : Nat} {f : CanCh → CanCh} : (s.modCan n f).pending = s.pending ∧ (s.modCan n f).free = s.free ∧ (s.modCan n f).cfg = s.cfg ∧ (s.modCan n f).dev = s.dev ∧
    (s.modCan n f).clk = s.clk ∧ (s.modCan n f).ps = s.ps ∧ (s.modCan n f).ln = s.ln ∧ (s.modCan n f).seq = s.seq ∧
    (s.modCan n f).can = s.can ∧ (s.modCan n f).fret = s.fret ∧ (s.modCan n f).yl = s.yl ∧ (s.modCan n f).lp = s.lp ∧
    (s.modCan n f).fld = s.fld ∧ (s.modCan n f).host = s.host ∧ (s.modCan n f).pkg = s.pkg ∧ (s.modCan n f).safe = s.safe ∧
    (s.modCan n f).nv = s.nv ∧ (s.modCan n f).svc = s.svc ∧ (s.modCan n f).wd = s.wd ∧ (s.modCan n f).tap = s.tap ∧
    (s.modCan n f).out = s.out := by
  refine ⟨rfl, rfl, rfl, rfl, rfl, rfl, rfl, rfl, rfl, rfl, rfl, rfl, rfl, rfl, rfl, rfl, rfl, rfl, rfl, rfl, rfl⟩

@[simp] theorem State.canCh_modCan {n j : Nat} {f : CanCh → CanCh} : (s.modCan n f).canCh j = if j = n then f (s.canCh n) else s.canCh j := tabGet_tabMod

@[simp] theorem State.modSlot_fields {n : Nat} {f : Slot → Slot} : (s.modSlot n f).pending = s.pending ∧ (s.modSlot n f).free = s.free ∧ (s.modSlot n f).cfg = s.cfg ∧ (s.modSlot n f).dev = s.dev ∧
    (s.modSlot n f).clk = s.clk ∧ (s.modSlot n f).ps = s.ps ∧ (s.modSlot n f).ln = s.ln ∧ (s.modSlot n f).seq = s.seq ∧
    (s.modSlot n f).can = s.can ∧ (s.modSlot n f).fret = s.fret ∧ (s.modSlot n f).yl = s.yl ∧ (s.modSlot n f).lp = s.lp ∧
    (s.modSlot n f).fld = s.fld ∧ (s.modSlot n f).cb = s.cb ∧ (s.modSlot n f).pkg = s.pkg ∧ (s.modSlot n f).safe = s.safe ∧
    (s.modSlot n f).nv = s.nv ∧ (s.modSlot n f).svc = s.svc ∧ (s.modSlot n f).wd = s.wd ∧ (s.modSlot n f).tap = s.tap ∧
    (s.modSlot n f).out = s.out := by
  refine ⟨rfl, rfl, rfl, rfl, rfl, rfl, rfl, rfl, rfl, rfl, rfl, rfl, rfl, rfl, rfl, rfl, rfl, rfl, rfl, rfl, rfl⟩

@[simp] theorem State.slot_modSlot {n j : Nat} {f : Slot → Slot} : (s.modSlot n f).slot j = if j = n then f (s.slot n) else s.slot j := tabGet_tabMod

@[simp] theorem State.setCopy_fields {n : Nat} {c : Option Copy} : (s.setCopy n c).pending = s.pending ∧ (s.setCopy n c).free = s.free ∧ (s.setCopy n c).cfg = s.cfg ∧ (s.setCopy n c).dev = s.dev ∧
    (s.setCopy n c).clk = s.clk ∧ (s.setCopy n c).ps = s.ps ∧ (s.setCopy n c).seq = s.seq ∧ (s.setCopy n c).can = s.can ∧
    (s.setCopy n c).fret = s.fret ∧ (s.setCopy n c).yl = s.yl ∧ (s.setCopy n c).lp = s.lp ∧ (s.setCopy n c).fld = s.fld ∧
    (s.setCopy n c).cb = s.cb ∧ (s.setCopy n c).host = s.host ∧ (s.setCopy n c).pkg = s.pkg ∧ (s.setCopy n c).safe = s.safe ∧
    (s.setCopy n c).nv = s.nv ∧ (s.setCopy n c).svc = s.svc ∧ (s.setCopy n c).wd = s.wd ∧ (s.setCopy n c).tap = s.tap ∧
    (s.setCopy n c).out = s.out := by
  refine ⟨rfl, rfl, rfl, rfl, rfl, rfl, rfl, rfl, rfl, rfl, rfl, rfl, rfl, rfl, rfl, rfl, rfl, rfl, rfl, rfl, rfl⟩

@[simp] theorem State.copy_setCopy {n j : Nat} {c : Option Copy} : (s.setCopy n c).copy j = if j = n then c else s.copy j := tabGet_tabSet

@[simp] theorem State.setInst_fields {n : Nat} {c : Option Inst} : (s.setInst n c).pending = s.pending ∧ (s.setInst n c).free = s.free ∧ (s.setInst n c).cfg = s.cfg ∧ (s.setInst n c).dev = s.dev ∧
    (s.setInst n c).clk = s.clk ∧ (s.setInst n c).ps = s.ps ∧ (s.setInst n c).ln = s.ln ∧ (s.setInst n c).can = s.can ∧
    (s.setInst n c).fret = s.fret ∧ (s.setInst n c).yl = s.yl ∧ (s.setInst n c).lp = s.lp ∧ (s.setInst n c).fld = s.fld ∧
    (s.setInst n c).cb = s.cb ∧ (s.setInst n c).host = s.host ∧ (s.setInst n c).pkg = s.pkg ∧ (s.setInst n c).safe = s.safe ∧
    (s.setInst n c).nv = s.nv ∧ (s.setInst n c).svc = s.svc ∧ (s.setInst n c).wd = s.wd ∧ (s.setInst n c).tap = s.tap ∧
    (s.setInst n c).out = s.out := by
  refine ⟨rfl, rfl, rfl, rfl, rfl, rfl, rfl, rfl, rfl, rfl, rfl, rfl, rfl, rfl, rfl, rfl, rfl, rfl, rfl, rfl, rfl⟩

@[simp] theorem State.inst_setInst {n j : Nat} {c : Option Inst} : (s.setInst n c).inst j = if j = n then c else s.inst j := tabGet_tabSet

/-! ## Time -/

@[simp] theorem elapse_fields {dt : Nat} : (elapse dt s).pending = s.pending ∧ (elapse dt s).free = s.free ∧ (elapse dt s).cfg = s.cfg ∧ (elapse dt s).ps = s.ps ∧
    (elapse dt s).ln = s.ln ∧ (elapse dt s).seq = s.seq ∧ (elapse dt s).can = s.can ∧ (elapse dt s).fret = s.fret ∧
    (elapse dt s).yl = s.yl ∧ (elapse dt s).lp = s.lp ∧ (elapse dt s).cb = s.cb ∧ (elapse dt s).host = s.host ∧
    (elapse dt s).pkg = s.pkg ∧ (elapse dt s).safe = s.safe ∧ (elapse dt s).nv = s.nv ∧ (elapse dt s).svc = s.svc ∧
    (elapse dt s).tap = s.tap ∧ (elapse dt s).out = s.out := by
  refine ⟨rfl, rfl, rfl, rfl, rfl, rfl, rfl, rfl, rfl, rfl, rfl, rfl, rfl, rfl, rfl, rfl, rfl, rfl⟩

@[simp] theorem elapse_state {dt : Nat} : (elapse dt s).dev.state = s.dev.state := rfl

theorem elapse_clk {dt : Nat} : (elapse dt s).clk = { s.clk with
    tb := if s.clk.lock then (s.clk.tb + dt) % 2 ^ 64 else s.clk.tb
    opNs := if s.dev.state == .off || s.dev.state == .standby then s.clk.opNs else s.clk.opNs + dt } := rfl

/-! ## Answers -/

theorem answer_next : answer s t = .next { t with pending := s.pending, tap := s.tap } := rfl

theorem answerTap_next : answerTap s t = .next { t with pending := s.pending } := rfl

/-- An answer leaves the queue and the test access port alone. -/
theorem only_answer {ps : List Part} (h : Only ps s t) : Only (ps.filter fun p => p != .pending && p != .tap) s
    { t with pending := s.pending, tap := s.tap } := by
  intro p hp
  have := h p
  cases p <;> simp_all [Part.same]

end Sys2Proof.Machine
end

