-- ==== Sys2Proof/Laws/Units.lean ====
section
/-! SUPPORT. What a unit issued on a lane leaves: the slot's beginning, the load shadows, the scheduling decision after
it, and the shared part of every unit that only writes registers. -/
namespace Sys2Proof.Machine

variable {s t : State} {l : LaneId} {p : List Pre} {d : Dec} {k : Nat} {c : Copy}

/-! ## Registers -/

theorem getD_setIfInBounds {g : Vector Word 16} {i j : Nat} {v : Word} (h : j < 16) :
    (g.setIfInBounds i v).toList.getD j 0 = if j = i then v else g.toList.getD j 0 := by
  have hj : j < (g.setIfInBounds i v).toList.length := by simp [h]
  have hj' : j < g.toList.length := by simp [h]
  rw [List.getD_eq_getElem _ _ hj, List.getD_eq_getElem _ _ hj']
  simp only [Vector.getElem_toList]
  rw [Vector.getElem_setIfInBounds]
  simp only [eq_comm]

@[simp] theorem Copy.reg_setReg {i j : Nat} {v : Word} (h : j < 16) :
    (c.setReg i v).reg j = if j = i then v else c.reg j := getD_setIfInBounds h

theorem Copy.setReg_eq {i : Nat} {v : Word} :
    c.setReg i v = { c with regs := { c.regs with g := c.regs.g.setIfInBounds i v } } := rfl

@[simp] theorem Copy.reg_setFl {j : Nat} {f : BitVec 5} : (c.setFl f).reg j = c.reg j := rfl
@[simp] theorem Copy.reg_setRlo {j : Nat} {b : Bool} : (c.setRlo b).reg j = c.reg j := rfl
@[simp] theorem Copy.fl_setReg {i : Nat} {v : Word} : (c.setReg i v).regs.fl = c.regs.fl := rfl

/-! ## The beginning of a slot -/

theorem slotBegins_copy : (slotBegins s k c).2 = c ∨
    (slotBegins s k c).2 = { c with started := true, startAt := s.now } := by
  unfold slotBegins
  split
  · exact .inl rfl
  · exact .inr rfl

@[simp] theorem slotBegins_regs : (slotBegins s k c).2.regs = c.regs := by
  rcases slotBegins_copy (s := s) (k := k) (c := c) with h | h <;> rw [h]
@[simp] theorem slotBegins_reg {j : Nat} : (slotBegins s k c).2.reg j = c.reg j := by
  unfold Copy.reg
  rw [slotBegins_regs]
@[simp] theorem slotBegins_skip : (slotBegins s k c).2.skip = c.skip := by
  rcases slotBegins_copy (s := s) (k := k) (c := c) with h | h <;> rw [h]
@[simp] theorem slotBegins_loads : (slotBegins s k c).2.loads = c.loads := by
  rcases slotBegins_copy (s := s) (k := k) (c := c) with h | h <;> rw [h]
@[simp] theorem slotBegins_shadow : (slotBegins s k c).2.shadow = c.shadow := by
  rcases slotBegins_copy (s := s) (k := k) (c := c) with h | h <;> rw [h]
@[simp] theorem slotBegins_ws : (slotBegins s k c).2.ws = c.ws := by
  rcases slotBegins_copy (s := s) (k := k) (c := c) with h | h <;> rw [h]
@[simp] theorem slotBegins_items : (slotBegins s k c).2.items = c.items := by
  rcases slotBegins_copy (s := s) (k := k) (c := c) with h | h <;> rw [h]
@[simp] theorem slotBegins_ended : (slotBegins s k c).2.ended = c.ended := by
  rcases slotBegins_copy (s := s) (k := k) (c := c) with h | h <;> rw [h]
@[simp] theorem slotBegins_lane : (slotBegins s k c).2.lane = c.lane := by
  rcases slotBegins_copy (s := s) (k := k) (c := c) with h | h <;> rw [h]
@[simp] theorem slotBegins_chk : (slotBegins s k c).2.chk = c.chk := by
  rcases slotBegins_copy (s := s) (k := k) (c := c) with h | h <;> rw [h]
@[simp] theorem slotBegins_winFull : (slotBegins s k c).2.winFull = c.winFull := by
  rcases slotBegins_copy (s := s) (k := k) (c := c) with h | h <;> rw [h]

@[simp] theorem slotBegins_restart : (slotBegins s k c).2.restart = c.restart := by
  rcases slotBegins_copy (s := s) (k := k) (c := c) with h | h <;> rw [h]
@[simp] theorem slotBegins_seed : (slotBegins s k c).2.seed = c.seed := by
  rcases slotBegins_copy (s := s) (k := k) (c := c) with h | h <;> rw [h]

/-- The beginning of a slot clears at most scratch: every other field of the state stays. -/
theorem slotBegins_state : ∃ x : Lanes, x.copies = s.ln.copies ∧ (slotBegins s k c).1 = { s with ln := x } := by
  unfold slotBegins
  split
  · exact ⟨s.ln, rfl, rfl⟩
  · exact ⟨(s.modLane c.lane _).ln, rfl, rfl⟩

@[simp] theorem slotBegins_copies {j : Nat} : (slotBegins s k c).1.copy j = s.copy j := by
  obtain ⟨x, hx, h⟩ := slotBegins_state (s := s) (k := k) (c := c)
  rw [h]
  unfold State.copy
  rw [hx]

@[simp] theorem slotBegins_inCode {j n : Nat} {a : BitVec 21} : inCode (slotBegins s k c).1 j a n = inCode s j a n := by
  obtain ⟨x, _, h⟩ := slotBegins_state (s := s) (k := k) (c := c)
  rw [h]
  rfl

/-! ## The scheduling decision -/

theorem State.copy_modLane {n j : Nat} {f : Lane → Lane} : (s.modLane n f).copy j = s.copy j := rfl

/-- A switch has the window copy of the copy that comes on filled anew, and changes no copy otherwise. -/
theorem setRunning_copies {n j : Nat} {r : Option Nat} :
    ∃ b, (setRunning s n r).copy j = (s.copy j).map fun x => { x with winFull := x.winFull && b } := by
  have same : ∃ b : Bool, s.copy j = (s.copy j).map fun x => { x with winFull := x.winFull && b } :=
    ⟨true, by cases s.copy j <;> simp⟩
  unfold setRunning
  cases r with
  | none => exact same
  | some r =>
    dsimp only
    cases h : s.copy r with
    | none => exact same
    | some c =>
      by_cases e : j = r
      · subst e
        refine ⟨false, ?_⟩
        simp [State.copy_modLane, h]
      · obtain ⟨b, hb⟩ := same
        refine ⟨b, ?_⟩
        simp only [State.copy_modLane, State.copy_setCopy, if_neg e]
        exact hb

theorem chooseLane_copies {n j : Nat} :
    ∃ b, (chooseLane s n).copy j = (s.copy j).map fun x => { x with winFull := x.winFull && b } := by
  have same : ∃ b : Bool, s.copy j = (s.copy j).map fun x => { x with winFull := x.winFull && b } :=
    ⟨true, by cases s.copy j <;> simp⟩
  unfold chooseLane
  repeat' (first | exact setRunning_copies | exact same | split)

/-- A switch leaves of a lane everything but which copy it carries. -/
theorem setRunning_lane {n j : Nat} {r : Option Nat} : ∃ b, (setRunning s n r).lane j = { s.lane j with running := b } := by
  have same : ∀ {u : State}, (∀ i, u.lane i = s.lane i) → ∃ b, (u.modLane n fun x => { x with running := r }).lane j =
      { s.lane j with running := b } := by
    intro u hu
    rw [State.lane_modLane, hu, hu]
    split
    · subst_vars
      exact ⟨_, rfl⟩
    · exact ⟨_, rfl⟩
  unfold setRunning
  cases r with
  | none => exact same fun _ => rfl
  | some r =>
    dsimp only
    split
    · exact same fun _ => rfl
    · exact same fun _ => rfl

theorem chooseLane_lane {n j : Nat} : ∃ b, (chooseLane s n).lane j = { s.lane j with running := b } := by
  have same : ∃ b, s.lane j = { s.lane j with running := b } := ⟨_, rfl⟩
  unfold chooseLane
  repeat' (first | exact setRunning_lane | exact same | split)

/-! ## Load shadows -/

theorem foldl_loads_reg (L : List PendLoad) {j : Nat} (hj : j < 16)
    (h : ∀ x ∈ L, x.dst.toNat = j → ¬ (x.left = 0 ∧ x.arrived = true)) :
    (L.foldl (fun (c : Copy) x => if x.left = 0 && x.arrived then c.setReg x.dst.toNat x.val else c) c).reg j = c.reg j := by
  induction L generalizing c with
  | nil => rfl
  | cons x L ih =>
    rw [List.foldl_cons, ih fun y hy => h y (List.mem_cons_of_mem _ hy)]
    split
    · rename_i hx
      rw [Copy.reg_setReg hj]
      split
      · rename_i e
        simp only [Bool.and_eq_true, decide_eq_true_eq] at hx
        exact absurd hx (h x (List.mem_cons_self ..) e.symm)
      · rfl
    · rfl

theorem foldl_loads_same (L : List PendLoad) :
    ∃ g, L.foldl (fun (c : Copy) x => if x.left = 0 && x.arrived then c.setReg x.dst.toNat x.val else c) c
      = { c with regs := { c.regs with g := g } } := by
  induction L generalizing c with
  | nil => exact ⟨c.regs.g, rfl⟩
  | cons x L ih =>
    rw [List.foldl_cons]
    split
    · obtain ⟨g, h⟩ := ih (c := c.setReg x.dst.toNat x.val)
      exact ⟨g, h⟩
    · exact ih

/-- A slot of the load shadows writes general registers only. -/
theorem tickLoads_same : ∃ g ls st, tickLoads c = { c with regs := { c.regs with g := g }, loads := ls, stall := st } := by
  unfold tickLoads
  obtain ⟨g, h⟩ := foldl_loads_same (c := c) (c.loads.map fun l => { l with left := l.left - 1 })
  simp only [h]
  exact ⟨_, _, _, rfl⟩

/-- A register into which no shadow ends keeps its value over the slot. -/
theorem tickLoads_reg {j : Nat} (hj : j < 16) (h : quiet c j) : (tickLoads c).reg j = c.reg j := by
  unfold tickLoads
  refine foldl_loads_reg _ hj fun x hx e => ?_
  obtain ⟨y, hy, rfl⟩ := List.mem_map.mp hx
  intro k
  exact h y hy e ⟨by have := k.1; simp only at this; omega, k.2⟩

/-! ## Loop ends -/

/-- The end of a unit inside loops changes LC, the depth and the PC only. -/
theorem loopEnd_same (f : Nat) {first : BitVec 21} {n : Nat} {r : Regs} :
    ∃ a b e, loopEnd f first n r = { r with lc := a, depth := b, pc := e } := by
  induction f generalizing r with
  | zero => exact ⟨_, _, _, rfl⟩
  | succ f ih =>
    unfold loopEnd
    split
    · exact ⟨_, _, _, rfl⟩
    · dsimp only
      split
      · split
        · obtain ⟨a, b, e, h⟩ := ih (r := r.atDepth (r.depth.val - 1))
          exact ⟨a, b, e, h⟩
        · exact ⟨_, _, _, rfl⟩
      · exact ⟨_, _, _, rfl⟩

theorem go_seq {r : Regs} {first : BitVec 21} {n : Nat} :
    ∃ a b e, r.go first n .seq = { r with lc := a, depth := b, pc := e } := by
  obtain ⟨a, b, e, h⟩ := loopEnd_same 5 (first := first) (n := n) (r := { r with pc := first + BitVec.ofNat 21 n })
  exact ⟨a, b, e, h⟩

/-- Outside loops a sequential unit passes on to the word after it. -/
theorem go_seq_outside {r : Regs} {first : BitVec 21} {n : Nat} (h : r.depth = 0) :
    r.go first n .seq = { r with pc := first + BitVec.ofNat 21 n } := by
  simp [Regs.go, loopEnd, h]

/-! ## Units -/

/-- The copy that a lane issues for stands in the state, has not ended and is not stalled. -/
theorem laneCopy_some (h : laneCopy s l.val = some (k, c)) :
    s.copy k = some c ∧ c.ended = none ∧ c.stall = .none ∧ c.lane = l.val ∧ (s.lane l.val).running = some k ∧
      isFrozen s (keyTask k) = false := by
  unfold laneCopy at h
  split at h
  · split at h
    · split at h
      · rename_i h1 _ _ h2 h3
        simp only [Option.some.injEq, Prod.mk.injEq] at h
        obtain ⟨rfl, rfl⟩ := h
        simp only [Bool.and_eq_true, decide_eq_true_eq, beq_iff_eq, Option.isNone_iff_eq_none, Bool.not_eq_true'] at h3
        exact ⟨h2, h3.1.1.1.2, h3.2, h3.1.1.1.1, h1, h3.1.1.2⟩
      · cases h
    · cases h
  · cases h

/-- A unit that runs leaves what its operation and its end leave. -/
theorem issueWith_runs {errs : List EccErr} {body : State → Nat → Copy → Res} (h : UnitRuns s l p d k c) :
    issueWith errs l.val p d body s =
      unitEnds (body (slotBegins s k c).1 k (slotBegins s k c).2) k c.regs.pc (p.length + 1) errs := by
  simp [issueWith, h.copy, h.code, h.noSkip, h.legal]

theorem issue_runs {body : State → Nat → Copy → Res} (h : UnitRuns s l p d k c) :
    issue l.val p d body s =
      unitEnds (body (slotBegins s k c).1 k (slotBegins s k c).2) k c.regs.pc (p.length + 1) [] := issueWith_runs h

/-- The beginning of a slot leaves every lane but for the scratch of the copy's lane. -/
theorem slotBegins_lanes {j : Nat} : ∃ b, (slotBegins s k c).1.lane j = { s.lane j with scratch := b } ∧
    (j ≠ c.lane → b = (s.lane j).scratch) := by
  unfold slotBegins
  split
  · exact ⟨_, rfl, fun _ => rfl⟩
  · simp only [State.lane_modLane]
    split
    · subst_vars
      exact ⟨_, rfl, fun h => absurd rfl h⟩
    · exact ⟨_, rfl, fun _ => rfl⟩

/-- The answer of a unit that ends with one copy stored and the scheduling decision after it. -/
theorem answer_stored {ps : List Part} {u : State} {y : Copy} {m : Nat} (hu : Only (.ln :: ps) s u)
    (hp : .pending ∉ ps) (ht : .tap ∉ ps)
    (hc : ∀ j, j ≠ k → u.copy j = s.copy j)
    (hl : ∀ j, ∃ b, u.lane j = { s.lane j with scratch := b } ∧ (j ≠ m → b = (s.lane j).scratch)) (n : Nat) :
    ∃ t b, answer s (chooseLane (u.setCopy k (some y)) n) = .next t ∧ OnlyCopy (.ln :: ps) s k m t ∧
      t.copy k = some { y with winFull := y.winFull && b } ∧ (∀ j, (t.lane j).scratch = (u.lane j).scratch) ∧
      t.seq = u.seq := by
  obtain ⟨b, hb⟩ := chooseLane_copies (s := u.setCopy k (some y)) (n := n) (j := k)
  have h2 : Only [.ln] u (chooseLane (u.setCopy k (some y)) n) := by simp (maxDischargeDepth := 30)
  have hlane : ∀ j, (chooseLane (u.setCopy k (some y)) n).lane j =
      { u.lane j with running := ((chooseLane (u.setCopy k (some y)) n).lane j).running } := by
    intro j
    obtain ⟨r, h⟩ := chooseLane_lane (s := u.setCopy k (some y)) (n := n) (j := j)
    rw [h]
    rfl
  refine ⟨_, b, answer_next, ⟨?_, fun j hj => ?_, fun j => ?_⟩, ?_, fun j => ?_, ?_⟩
  · have h3 := hu.trans (h2.mono (by simp))
    intro p hq
    have := h3 p hq
    cases p <;> first | rfl | exact this
  · obtain ⟨b, hb⟩ := chooseLane_copies (s := u.setCopy k (some y)) (n := n) (j := j)
    refine ⟨b, Eq.trans hb ?_⟩
    rw [State.copy_setCopy, if_neg hj, hc j hj]
  · obtain ⟨b', h, h'⟩ := hl j
    have e := hlane j
    rw [h] at e
    exact ⟨_, b', e, h'⟩
  · refine Eq.trans hb ?_
    rw [State.copy_setCopy, if_pos rfl]
    rfl
  · have e := congrArg (fun x : Lane => x.scratch) (hlane j)
    exact e
  · exact h2.seq_eq (by simp)

/-- A copy for which no stop and no takeover waits stays where it is at a permitted boundary (R43, R89, R312). -/
theorem atPermitted_stays {u : State} (hi : stopping u (keyTask k) = false) (hc : ∀ c, u.copy k = some c → c.restart = none) :
    atPermitted u k = u := by
  have hs : stopCopy u k = u := by
    unfold stopCopy
    unfold stopping at hi
    split
    · rename_i h1 h2
      rw [h1] at hi
      simp_all
    · rfl
  unfold atPermitted
  rw [hs]
  dsimp only
  split
  · rename_i c h
    rw [hc c h]
  · rfl

/-- What a copy reads depends on its shadow, its seed, its lane's scratch and the snapshot. -/
theorem copyByte_congr {u v : State} {x y : Copy} (h1 : ∀ j, (u.lane j).scratch = (v.lane j).scratch) (h2 : u.seq = v.seq)
    (h3 : x.lane = y.lane) (h4 : x.shadow = y.shadow) (h5 : x.seed = y.seed) (a : Nat) :
    copyByte u k x a = copyByte v k y a := by
  unfold copyByte snapByte State.inst
  rw [h1, h2, h3, h4, h5]

/-- The answer of a unit whose operation acts on its copy alone. -/
theorem answer_pure {f : Copy → Copy} (h : UnitRuns s l p d k c) (hf : ∀ x : Copy, x.regs = c.regs → (f x).restart = x.restart) :
    ∃ t b, answer s (issue l.val p d (pureUnit f) s) = .next t ∧ OnlyCopy [.ln] s k c.lane t ∧
      t.copy k = some { tickLoads { f (slotBegins s k c).2 with
        regs := (f (slotBegins s k c).2).regs.go c.regs.pc (p.length + 1) .seq } with winFull := b } ∧
      (∀ j, (t.lane j).scratch = ((slotBegins s k c).1.lane j).scratch) ∧ t.seq = (slotBegins s k c).1.seq := by
  rw [issue_runs h]
  have hs : Only [.ln] s (slotBegins s k c).1 := only_slotBegins Only.refl (by simp)
  have hr : (tickLoads { f (slotBegins s k c).2 with
      regs := (f (slotBegins s k c).2).regs.go c.regs.pc (p.length + 1) .seq }).restart = none := by
    obtain ⟨g, ls, st, e⟩ := tickLoads_same (c := { f (slotBegins s k c).2 with
      regs := (f (slotBegins s k c).2).regs.go c.regs.pc (p.length + 1) .seq })
    rw [e]
    exact (hf _ slotBegins_regs).trans (slotBegins_restart.trans h.stays.2)
  simp only [unitEnds, unitLeaves, pureUnit, Res.after, Flow.completes, addLoad, if_true]
  rw [atPermitted_stays]
  · obtain ⟨t, b, h1, h2, h3, h4⟩ := answer_stored (k := k) (ps := []) (y := tickLoads { f (slotBegins s k c).2 with
        regs := (f (slotBegins s k c).2).regs.go c.regs.pc (p.length + 1) .seq }) hs (by simp) (by simp)
        (fun j _ => slotBegins_copies) (fun j => slotBegins_lanes) (f (slotBegins s k c).2).lane
    exact ⟨t, _, h1, h2, h3, h4⟩
  · have hu : Only [.ln] s (chooseLane ((slotBegins s k c).1.setCopy k (some (tickLoads { f (slotBegins s k c).2 with
        regs := (f (slotBegins s k c).2).regs.go c.regs.pc (p.length + 1) .seq }))) (f (slotBegins s k c).2).lane) := by
      simp (maxDischargeDepth := 30) [*]
    have := h.stays.1
    unfold stopping State.inst at *
    rwa [hu.seq_eq (by simp)]
  · intro x hx
    obtain ⟨b, hb⟩ := chooseLane_copies (s := (slotBegins s k c).1.setCopy k (some (tickLoads { f (slotBegins s k c).2 with
        regs := (f (slotBegins s k c).2).regs.go c.regs.pc (p.length + 1) .seq }))) (n := (f (slotBegins s k c).2).lane) (j := k)
    rw [State.copy_setCopy, if_pos rfl] at hb
    have e := hx.symm.trans hb
    simp only [Option.map_some, Option.some.injEq] at e
    rw [e]
    exact hr

/-- A unit that only writes registers. -/
theorem pure_wrote {f : Copy → Copy} {w : List (Nat × Word)} {r : Regs} {g : Vector Word 16} (h : UnitRuns s l p d k c)
    (hf : ∀ x : Copy, x.regs = c.regs → ∃ b, f x = { x with regs := { r with g := g }, winFull := b })
    (hr : r.depth = c.regs.depth)
    (hw : ∀ j, j < 16 → g.toList.getD j 0 = (w.lookup j).getD (c.reg j)) :
    Ends (answer s (issue l.val p d (pureUnit f) s)) (Wrote s k c (p.length + 1) w r) := by
  obtain ⟨t, b, h1, h2, h3, h4, h5⟩ := answer_pure (f := f) h fun x hx => by obtain ⟨b, e⟩ := hf x hx; rw [e]
  refine ⟨t, h1, _, h3, ?_⟩
  have hc := laneCopy_some h.copy
  obtain ⟨b', hf⟩ := hf (slotBegins s k c).2 slotBegins_regs
  rw [hf]
  obtain ⟨a, b, e', hg⟩ := go_seq (r := { r with g := g }) (first := c.regs.pc) (n := p.length + 1)
  obtain ⟨g', ls, st, ht⟩ := tickLoads_same (c := { (slotBegins s k c).2 with
    regs := Regs.go { r with g := g } c.regs.pc (p.length + 1) .seq, winFull := b' })
  refine ⟨fun j hj hq => ?_, ?_⟩
  · show (tickLoads _).reg j = _
    rw [tickLoads_reg hj (by simpa [quiet] using hq), ← hw j hj]
    simp [Copy.reg, hg]
  · rw [ht]
    refine ⟨by simp [SpecialAs, hg], fun a => ?_, by simp [hc.2.1], ⟨⟨slotBegins_shadow, ?_⟩, fun hd => ?_⟩, h2⟩
    · refine copyByte_congr h4 h5 ?_ ?_ ?_ a
      · exact slotBegins_lane
      · exact slotBegins_shadow
      · exact slotBegins_seed
    · exact ⟨slotBegins_ws, slotBegins_items, slotBegins_chk, slotBegins_skip.trans h.noSkip⟩
    · have e := go_seq_outside (r := { r with g := g }) (first := c.regs.pc) (n := p.length + 1) (hr.trans hd)
      rw [e]
      exact ⟨hr.trans hd, rfl, rfl⟩

/-- No general register written. -/
theorem lookup_none {j : Nat} : c.regs.g.toList.getD j 0 = (([] : List (Nat × Word)).lookup j).getD (c.reg j) := rfl

/-- One general register written. -/
theorem lookup_one {j i : Nat} {v : Word} (h : j < 16) :
    (c.regs.g.setIfInBounds i v).toList.getD j 0 = ([(i, v)].lookup j).getD (c.reg j) := by
  rw [getD_setIfInBounds h]
  by_cases e : j = i
  · subst e
    simp
  · have : (j == i) = false := by simpa using e
    simp [List.lookup, e, this, Copy.reg]

/-- Two general registers written. -/
theorem lookup_two {j a b : Nat} {u v : Word} (hab : a ≠ b) (h : j < 16) :
    ((c.regs.g.setIfInBounds a u).setIfInBounds b v).toList.getD j 0 = ([(a, u), (b, v)].lookup j).getD (c.reg j) := by
  rw [getD_setIfInBounds h, getD_setIfInBounds h]
  by_cases e : j = a
  · subst e
    simp [hab]
  · have e1 : (j == a) = false := by simpa using e
    by_cases e' : j = b
    · subst e'
      simp [List.lookup, e1]
    · have e2 : (j == b) = false := by simpa using e'
      simp [List.lookup, e, e', e1, e2, Copy.reg]

end Sys2Proof.Machine
end

