-- ==== Sys2Proof/Tests/Slice0.lean ====
section
/-! SUPPORT. Tests: an ill-formed term for each check of WellFormed, for every obligation with hypotheses a state and
operands that meet them (at a boundary of their range where there is one), and a few single steps. -/
open Sys2Proof Sys2Proof.Machine
namespace Sys2Proof.Tests
-- One theorem at a time: many evaluations side by side need much memory for their threads.
set_option Elab.async false

/-! ## Helpers -/

/-- Writable registers set: (number, entry, value). -/
def cfgOn (l : List (Nat × Nat × Word)) (s : State) : State := { s with cfg := l.foldl (fun c e => rSet c e.1 e.2.1 e.2.2) s.cfg }
/-- The state after a move of cause `m`. -/
def moved (m : Move) (s : State) : State := { s with dev := { s.dev with last := m } }
/-- A package that runs. -/
def pack : Header :=
  { testPermit := true, online := true, words := 4096, base := 0, entry := 0, lane := 0, version := 1, layout := [] }
/-- RUN at 1 s of the time base and 2 s of operating time. -/
def inRun : State :=
  { State.reset with dev := { State.reset.dev with last := { cause := 0x0A, left := .setup, entered := .run, ok := rfl }, pkgOk := true }, clk := { State.reset.clk with lock := true, tb := 1000000000, opNs := 2000000000, fwRuns := true, awaitLock := false }, pkg := { State.reset.pkg with hdr := some pack } }
/-- Copy `k` on its lane, which runs it. -/
def withCopy (k : Nat) (c : Copy) (s : State) : State :=
  { s with ln := { s.ln with copies := tabPut k (some c) s.ln.copies, lanes := tabPut c.lane { (tabGet (laneDef c.lane) s.ln.lanes c.lane) with role := .bound, acts := some c.lane, running := some k } s.ln.lanes } }
/-- An open instance released at 1 s. -/
def inst : Inst :=
  { num := 1, rel := 1000000000, due := 1000100000, outAt := 1000050000, starveAt := 1000200000, lateAt := 1000090000, snap := [], groups := [(3, false, 2)], shafts := [{ pos := 5, vel := 0, stat := 1 }] }
/-- Task `t` has the instance `i` open. -/
def withInst (t : Nat) (i : Inst) (s : State) : State := { s with seq := { s.seq with insts := tabPut t (some i) s.seq.insts } }
/-- Task 0: enabled, the whole scratch, four lines of K. -/
def task0 : List (Nat × Nat × Word) :=
  [(0x0203, 0, 0x80000000), (0x0204, 0, 1000), (0x0206, 0, 100), (0x0207, 0, 50), (0x020C, 0, 0x04000000), (0x0303, 0, 0x10060000), (0x0304, 0, 0x10060100), (0x0305, 0, 0)]
/-- A copy of task 0: its first words are those from 16 on, G1 is 5, G2 points to a line of its own, G3 to scratch. -/
def cpy : Copy :=
  { lane := 0, started := true, winFull := true, regs := { (startRegs 16 0x10000) with g := (startRegs 16 0x10000).g.set 1 5 |>.set 2 0x10060000 |>.set 3 0xFFFC |>.set 4 0x10060100, bw := 0x10060040, rs := 0x10060000, rd := 0x10060080 } }
/-- Task 0 runs unpaired on lane 0. -/
def alone (c : Copy) : State := withInst 0 inst (withCopy 0 c (cfgOn task0 inRun))
/-- Task 0 runs as a pair on lanes 0 and 10. -/
def pair (c d : Copy) : State := withCopy 1 d (alone c)
/-- The setup task runs on lane 0. -/
def setup (c : Copy) : State :=
  withInst 64 inst (withCopy 256 c (moved { cause := 0x06, left := .boot, entered := .setup, ok := rfl } (cfgOn task0 inRun)))

/-- `Runs` as a Boolean. -/
def runsB (s : State) (i : Instr) (k : Nat) (c : Copy) : Bool :=
  match laneUnit i with
  | some (l, p, d) => decide (laneCopy s l.val = some (k, c)) && inCode s k c.regs.pc (p.length + 1) && !c.skip && (decodeFault d p).isNone &&
      !stopping s (keyTask k) && decide (c.restart = none)
  | none => false

/-- The Boolean decides `Runs`. -/
theorem runs_of {s : State} {i : Instr} {k : Nat} {c : Copy} (h : runsB s i k c = true) : Runs s i k c := by
  unfold runsB at h
  unfold Runs
  generalize laneUnit i = u at h
  match u, h with
  | some (l, p, d), h =>
    simp only [Bool.and_eq_true, decide_eq_true_eq, Bool.not_eq_true', Option.isNone_iff_eq_none] at h
    exact ⟨h.1.1.1.1.1, h.1.1.1.1.2, h.1.1.1.2, h.1.1.2, h.1.2, h.2⟩

/-- `n` tags from `a` on are held. -/
def tagsHeld (a n : Nat) (s : State) : State := { s with nv := { s.nv with incW := (List.range n).map fun g => (0, TagSt.has (a + g)) } }
/-- Every command of a list runs. -/
theorem runs_all {s : State} {l : List Instr} {k : Nat} {c : Copy} (h : (l.all fun i => runsB s i k c) = true) :
    ∀ i ∈ l, Runs s i k c := fun i m => runs_of (List.all_eq_true.mp h i m)

/-- `Leaves` as a Boolean. -/
def leavesB (r : Regs) (a t : BitVec 21) (m : Nat) : Bool :=
  decide (m ≤ r.depth.val) && ((List.range 4).all fun i => decide (i < m) || decide (r.depth.val ≤ i) || r.inBody i a && !r.inBody i t) &&
    (decide (m = 0) || !(r.inBody (m - 1) a && !r.inBody (m - 1) t))

/-- The Boolean decides `Leaves`. -/
theorem leaves_of {r : Regs} {a t : BitVec 21} {m : Nat} (h : leavesB r a t m = true) : Leaves r a t m := by
  simp only [leavesB, Bool.and_eq_true, decide_eq_true_eq, List.all_eq_true, List.mem_range, Bool.or_eq_true, Bool.not_eq_true', Bool.and_eq_false_iff] at h
  refine ⟨h.1.1, fun i hm hd => ?_, fun hm => ?_⟩
  · have := h.1.2 i (by have := r.depth.isLt; omega)
    rcases this with (h1 | h1) | h1
    · omega
    · omega
    · exact h1
  · rintro ⟨h1, h2⟩
    rcases h.2 with h3 | h3 | h3
    · omega
    · simp [h1] at h3
    · simp [h2] at h3

/-! ## Lane units -/

/-- The units of RegisterSums, BitwiseAndImmediate, ShiftResults and ProductsAndQuotients run. -/
theorem test_registers_run : ∀ i ∈ [Instr.mov 0 [] 1 2, .add 0 [] 15 15, .adc 0 [] 0 1, .sub 0 [] 1 1, .sbc 0 [] 2 3, .cmp 0 [] 1 2, .neg 0 [] 0 0,
    .and 0 [] 1 2, .or 0 [] 15 0, .xor 0 [] 1 1, .tst 0 [] 0 15, .lsl 0 [] 1 2, .lsr 0 [] 1 3, .asr 0 [] 15 1, .ror 0 [] 0 15, .mul 0 [] 1 15],
    Runs (alone cpy) i 0 cpy := runs_all (by decide +kernel)

/-- The units of BitwiseAndImmediate, ShiftResults and ProductsAndQuotients with an immediate run. -/
theorem test_immediates_run : ∀ i ∈ [Instr.movi 0 [] 1 3, .addi 0 [.ext 0x3FF] 1 3, .subi 0 [.ext 1, .ext 2, .ext 0x3FF] 15 0, .cmpi 0 [] 2 2,
    .andi 0 [] 1 1, .ori 0 [.ext 0] 1 0, .xori 0 [] 0 3, .tsti 0 [] 15 3, .muli 0 [.ext 9] 1 1, .lsli 0 [] 1 0, .lsri 0 [.ext 8] 1 0, .asri 0 [.ext 8] 1 1, .rori 0 [.ext 63] 1 3],
    Runs (alone cpy) i 0 cpy := runs_all (by decide +kernel)

/-- G0 is 0 and the task does not trap, so that a division by 0 completes; with a divisor other than 0 the trap is of no matter. -/
theorem test_ProductsAndQuotients_division : (Runs (alone cpy) (.divs 0 [] 1 0) 0 cpy ∧ cpy.reg 0 = 0 ∧ tDzTrap (alone cpy).cfg (keyTask 0) = false) ∧
    (Runs (alone cpy) (.divu 0 [] 7 1) 0 cpy ∧ cpy.reg 1 ≠ 0) :=
  ⟨⟨runs_of (by decide +kernel), by decide +kernel, by decide +kernel⟩, runs_of (by decide +kernel), by decide +kernel⟩

/-- The units of FloatResults, RloAndBitMoves and CrcOnRegisters run. -/
theorem test_float_bits_crc_run : ∀ i ∈ [Instr.fadd 0 [] 1 2, .fsub 0 [] 7 7, .fmul 0 [] 0 1, .fdiv 0 [] 1 0, .fcmp 0 [] 1 2, .ftoi 0 [] 1 2, .itof 0 [] 7 1,
    .rtog 0 [] 1, .gtor 0 [] 15, .rnot 0 [], .rset 0 [], .rclr 0 [], .par 0 [] 1, .brev 0 [] 1 2, .brevb 0 [] 7 7,
    .crcb 0 [] 1, .crch 0 [] 15, .crcw 0 [] 1, .crci 0 [], .crcf 0 [] 1], Runs (alone cpy) i 0 cpy := runs_all (by decide +kernel)

theorem test_SpecialRegisterMoves : (∀ i ∈ [Instr.mfs 0 [] 0 1, .mfs 0 [] 8 1, .mfs 0 [] 0x1B 7, .mts 0 [] 0x10 1, .mts 0 [] 0x1B 2], Runs (alone cpy) i 0 cpy) ∧
    (srLegal 7 = true ∧ srLegal 0x18 = true ∧ srLegal 0x1B = true ∧ srLegal 9 = false ∧ srLegal 0x10 = true ∧ srLegal 0x17 = true) :=
  ⟨runs_all (by decide +kernel), by decide +kernel⟩

/-- The first and the last bit of the window at BW, and a byte of scratch. -/
theorem test_BitReads : (∀ i ∈ [Instr.bld 0 [] 0, .bldn 0 [] 511, .band 0 [] 0, .bandn 0 [] 0, .bor 0 [] 0], Runs (alone cpy) i 0 cpy) ∧
    (∀ n : Nat, n = 0 ∨ n = 511 → checkAccess (alone cpy) (keyTask 0) ((winBase cpy + n / 8) % 2 ^ 32) 1 false = none) ∧ cpy.winFull = true :=
  ⟨runs_all (by decide +kernel), fun n h => by rcases h with rfl | rfl <;> decide +kernel, rfl⟩

theorem test_BitWrites : (∀ i ∈ [Instr.bst 0 [] 0, .bset 0 [] 511, .brst 0 [] 511], Runs (alone cpy) i 0 cpy) ∧
    (∀ n : Nat, n = 0 ∨ n = 511 → checkAccess (alone cpy) (keyTask 0) ((winBase cpy + n / 8) % 2 ^ 32) 1 true = none ∧
      Room (alone cpy) 0 cpy ((winBase cpy + n / 8) % 2 ^ 32)) ∧ cpy.winFull = true :=
  ⟨runs_all (by decide +kernel), fun n h => by rcases h with rfl | rfl <;> exact ⟨by decide +kernel, by unfold Room; decide +kernel⟩, rfl⟩

/-- A copy whose window copy is not filled, and one that waits for it. -/
def cold : Copy := { cpy with winFull := false }
def waits : Copy := { cold with stall := .window { op := 4, addr := 0x1006007F, bit := 7, words := 1 } }

def waitsBit : Copy := { cold with stall := .bit { op := 7, addr := 0x10060080, bit := 0, words := 2 }, loads := [{ dst := 5, val := 9, addr := 0x10060000, left := 1, arrived := true }] }

theorem test_WindowCopyFill : ((∀ i ∈ [Instr.bld 0 [] 511, .bldn 0 [] 511, .band 0 [] 511, .bandn 0 [] 511, .bor 0 [] 511, .bst 0 [] 511, .bset 0 [] 511, .brst 0 [] 511,
      .bld 0 [.ext 1] 0, .brst 0 [.ext 1] 0], Runs (alone cold) i 0 cold) ∧
      checkAccess (alone cold) (keyTask 0) 0x1006007F 1 true = none ∧ 0x1006007F / 64 = winBase cold / 64 ∧ isScratch 0x1006007F = false ∧ cold.winFull = false ∧
      (winBase cold + (joinZ [.ext 1] 0 9).toNat / 8) % 2 ^ 32 = 0x10060080 ∧ checkAccess (alone cold) (keyTask 0) 0x10060080 1 true = none ∧
      isScratch 0x10060080 = false ∧ 0x10060080 / 64 ≠ winBase cold / 64) ∧
    (((alone waits).lane 0).running = some 0 ∧ (alone waits).copy 0 = some waits ∧ waits.ended = none ∧
      waits.stall = .window { op := 4, addr := 0x1006007F, bit := 7, words := 1 } ∧ stopping (alone waits) (keyTask 0) = false ∧ waits.restart = none) ∧
    (((alone waitsBit).lane 0).running = some 0 ∧ (alone waitsBit).copy 0 = some waitsBit ∧ waitsBit.ended = none ∧
      waitsBit.stall = .bit { op := 7, addr := 0x10060080, bit := 0, words := 2 } ∧ (waitsBit.loads.all fun x => x.arrived) = true ∧
      stopping (alone waitsBit) (keyTask 0) = false ∧ waitsBit.restart = none ∧ Room (alone waitsBit) 0 waitsBit 0x10060080) ∧
    (∀ w ∈ [((0 : Fin 16), Ecc.none), (15, .corrected)], w.2 = .none ∨ w.2 = .corrected) ∧
    ((alone { waits with stall := .window { op := 6, addr := 0x1006007F, bit := 7, words := 1 } }).copy 0 =
      some { waits with stall := .window { op := 6, addr := 0x1006007F, bit := 7, words := 1 } } ∧
      Room (alone { waits with stall := .window { op := 6, addr := 0x1006007F, bit := 7, words := 1 } }) 0
        { waits with stall := .window { op := 6, addr := 0x1006007F, bit := 7, words := 1 } } 0x1006007F) :=
  ⟨⟨runs_all (by decide +kernel), by decide +kernel⟩, by decide +kernel,
    ⟨by decide +kernel, by decide +kernel, by decide +kernel, by decide +kernel, by decide +kernel, by decide +kernel, by decide +kernel, by unfold Room; decide +kernel⟩,
    by decide +kernel, by decide +kernel, by unfold Room; decide +kernel⟩

/-- G2 is the first byte of a line of K, G3 + 3 the last byte of scratch. -/
theorem test_LoadsAndShadows : (∀ i ∈ [Instr.ldb 0 [.ext 3] 1 3, .ldbs 0 [] 1 2, .ldh 0 [.ext 2] 1 3, .ldhs 0 [] 15 2, .ldw 0 [] 3 3], Runs (alone cpy) i 0 cpy) ∧
    checkAccess (alone cpy) (keyTask 0) (cpy.reg 3 + joinS [.ext 3] 0 0).toNat 1 false = none ∧
    checkAccess (alone cpy) (keyTask 0) (cpy.reg 3 + joinS [.ext 2] 0 0).toNat 2 false = none ∧
    checkAccess (alone cpy) (keyTask 0) (cpy.reg 3 + joinS [] 0 0).toNat 4 false = none ∧
    checkAccess (alone cpy) (keyTask 0) (cpy.reg 2 + joinS [] 0 0).toNat 1 false = none ∧
    checkAccess (alone cpy) (keyTask 0) (cpy.reg 2 + joinS [] 0 0).toNat 2 false = none :=
  ⟨runs_all (by decide +kernel), by decide +kernel⟩

theorem test_Stores : (∀ i ∈ [Instr.stb 0 [.ext 3] 1 3, .sth 0 [] 1 2, .stw 0 [] 3 3, .stw 0 [.ext 0xFC] 0 2], Runs (alone cpy) i 0 cpy) ∧
    checkAccess (alone cpy) (keyTask 0) (cpy.reg 3 + joinS [.ext 3] 0 0).toNat 1 true = none ∧
    checkAccess (alone cpy) (keyTask 0) (cpy.reg 2 + joinS [] 0 0).toNat 2 true = none ∧
    checkAccess (alone cpy) (keyTask 0) (cpy.reg 2 + joinS [.ext 0xFC] 0 0).toNat 4 true = none ∧
    Room (alone cpy) 0 cpy (cpy.reg 3 + joinS [.ext 3] 0 0).toNat ∧ Room (alone cpy) 0 cpy (cpy.reg 2 + joinS [.ext 0xFC] 0 0).toNat :=
  ⟨runs_all (by decide +kernel), by decide +kernel, by decide +kernel, by decide +kernel, by unfold Room; decide +kernel, by unfold Room; decide +kernel⟩

/-- Task 0 may draw four lines and has drawn them. -/
def full : Copy := { cpy with shadow := [(1, some { data := 0, wrote := 1 }), (2, some { data := 0, wrote := 1 }), (3, some { data := 0, wrote := 1 }), (4, some { data := 0, wrote := 1 })] }
theorem test_Stores_beyond_quota : Runs (alone full) (.stw 0 [] 1 2) 0 full ∧
    checkAccess (alone full) (keyTask 0) (full.reg 2 + joinS [] 0 0).toNat 4 true = none ∧ ¬ Room (alone full) 0 full (full.reg 2 + joinS [] 0 0).toNat :=
  ⟨runs_of (by decide +kernel), by decide +kernel, by unfold Room; decide +kernel⟩

/-- RC is 1 in the copy `last` and 2 in `more`. -/
def last : Copy := { cpy with regs := { cpy.regs with rc := 1 } }
def more : Copy := { cpy with regs := { cpy.regs with rc := 2 } }
theorem test_StringElements : (∀ i ∈ [Instr.movsb 0 [] 0, .movsh 0 [] 0, .movsw 0 [] 0, .fillw 0 [] 1 0], Runs (alone cpy) i 0 cpy) ∧
    (∀ i ∈ [Instr.movsb 0 [.rep] 1, .movsh 0 [.rep] 1, .movsw 0 [.rep] 1, .fillw 0 [.rep] 1 1], Runs (alone last) i 0 last) ∧
    repCount [] = 0 ∧ last.regs.rc = 1 ∧
    (∀ n : Nat, n = 1 ∨ n = 2 ∨ n = 4 → checkAccess (alone cpy) (keyTask 0) cpy.regs.rs.toNat n false = none ∧
      checkAccess (alone cpy) (keyTask 0) cpy.regs.rd.toNat n true = none ∧ checkAccess (alone last) (keyTask 0) last.regs.rs.toNat n false = none ∧
      checkAccess (alone last) (keyTask 0) last.regs.rd.toNat n true = none) ∧
    Room (alone cpy) 0 cpy cpy.regs.rd.toNat ∧ Room (alone last) 0 last last.regs.rd.toNat :=
  ⟨runs_all (by decide +kernel), runs_all (by decide +kernel), by decide +kernel, by decide +kernel,
    fun n h => by rcases h with rfl | rfl | rfl <;> decide +kernel, by unfold Room; decide +kernel, by unfold Room; decide +kernel⟩

theorem test_CrcOverMemory : (∀ i ∈ [Instr.crcmb 0 [] 0, .crcmh 0 [] 0, .crcmw 0 [] 0], Runs (alone cpy) i 0 cpy) ∧
    (∀ i ∈ [Instr.crcmb 0 [.rep] 1, .crcmh 0 [.rep] 1, .crcmw 0 [.rep] 1], Runs (alone last) i 0 last) ∧
    (∀ n : Nat, n = 1 ∨ n = 2 ∨ n = 4 → checkAccess (alone cpy) (keyTask 0) cpy.regs.rs.toNat n false = none) :=
  ⟨runs_all (by decide +kernel), runs_all (by decide +kernel), fun n h => by rcases h with rfl | rfl | rfl <;> decide +kernel⟩

theorem test_RepeatedElements : (∀ i ∈ [Instr.rep 0 [] [] (.movs 0) 0, .rep 0 [] [] (.fillw 1) 0, .rep 0 [] [] (.crcm 2) 0], Runs (alone cpy) i 0 cpy) ∧
    cpy.regs.rc = 0 ∧
    (1 < more.regs.rc.toNat ∧ Runs (alone more) (.rep 0 [] [] (.fillw 1) 1) 0 more ∧
      checkAccess (alone more) (keyTask 0) more.regs.rd.toNat 4 true = none ∧ Room (alone more) 0 more more.regs.rd.toNat) ∧
    (last.regs.rc = 1 ∧ Runs (alone last) (.rep 0 [] [] (.movs 2) 1) 0 last ∧
      checkAccess (alone last) (keyTask 0) last.regs.rs.toNat 4 false = none ∧ checkAccess (alone last) (keyTask 0) last.regs.rd.toNat 4 true = none ∧
      Room (alone last) 0 last last.regs.rd.toNat) :=
  ⟨runs_all (by decide +kernel), by decide +kernel, ⟨by decide +kernel, runs_of (by decide +kernel), by decide +kernel, by unfold Room; decide +kernel⟩,
    by decide +kernel, runs_of (by decide +kernel), by decide +kernel, by decide +kernel, by unfold Room; decide +kernel⟩

def skips : Copy := { cpy with skip := true }
theorem test_Skips : (∀ i ∈ [Instr.skcc 0 [] 0, .skcc 0 [] 15, .skz 0 [] 0, .sknz 0 [] 15], Runs (alone cpy) i 0 cpy) ∧
    (laneUnit (.movi 0 [.ext 1] 1 1) = some (0, [.ext 1], { ext := true }) ∧ laneCopy (alone skips) 0 = some (0, skips) ∧
      inCode (alone skips) 0 skips.regs.pc 2 = true ∧ skips.skip = true ∧ stopping (alone skips) (keyTask 0) = false ∧ skips.restart = none) :=
  ⟨runs_all (by decide +kernel), by decide +kernel⟩

/-- Inside the innermost of two loop bodies, both from word 16 to 17 and to 20. -/
def inner : Copy := { cpy with regs := { cpy.regs with depth := 2, ls := #v[16, 16, 0, 0], le := #v[20, 17, 0, 0], lc := #v[2, 1, 0, 0] } }
theorem test_TransfersOfControl : (∀ i ∈ [Instr.bcc 0 [] 0 3, .bcc 0 [] 1 3, .bra 0 [] 63, .br 0 [] 0, .ret 0 [], .call 0 [] 1, .callr 0 [] 1], Runs (alone inner) i 0 inner) ∧
    condition 0 inner.regs.rlo inner.regs.fl = false ∧ condition 1 inner.regs.rlo inner.regs.fl = true ∧
    Leaves inner.regs 16 20 1 ∧ Leaves inner.regs 16 16 2 ∧ Leaves inner.regs 16 0 0 :=
  ⟨runs_all (by decide +kernel), by decide +kernel, by decide +kernel, leaves_of (by decide +kernel), leaves_of (by decide +kernel), leaves_of (by decide +kernel)⟩

/-- No loop, one level whose body ends at word 16 with a count of 1 or 2 to go, and one whose body ends at word 17. -/
def loopAt (e : BitVec 21) (n : Word) : Copy := { cpy with regs := { cpy.regs with depth := 1, ls := #v[10, 0, 0, 0], le := #v[e, 0, 0, 0], lc := #v[n, 0, 0, 0] } }
theorem test_LoopLevels : (Runs (alone cpy) (.loop 0 [] 1 15) 0 cpy ∧ cpy.regs.depth.val < 4 ∧ cpy.reg 1 ≠ 0 ∧ Leaves cpy.regs 16 17 0) ∧
    (Runs (alone cpy) (.loop 0 [] 0 1) 0 cpy ∧ cpy.reg 0 = 0 ∧ Leaves cpy.regs 16 18 0) ∧
    (Runs (alone cpy) (.leave 0 []) 0 cpy ∧ cpy.regs.depth.val = 0) ∧
    (Runs (alone inner) (.leave 0 []) 0 inner ∧ 0 < inner.regs.depth.val) ∧
    (Runs (alone (loopAt 17 1)) (.rset 0 []) 0 (loopAt 17 1) ∧ 1 ≤ ((loopAt 17 1).regs.leAt 0 - (loopAt 17 1).regs.pc).toNat) ∧
    (Runs (alone (loopAt 16 2)) (.rset 0 []) 0 (loopAt 16 2) ∧ ((loopAt 16 2).regs.leAt 0 - (loopAt 16 2).regs.pc).toNat < 1 ∧ 1 < ((loopAt 16 2).regs.lcAt 0).toNat) ∧
    (Runs (alone (loopAt 16 1)) (.rset 0 []) 0 (loopAt 16 1) ∧ (loopAt 16 1).regs.depth.val = 1 ∧ ((loopAt 16 1).regs.leAt 0 - (loopAt 16 1).regs.pc).toNat < 1 ∧
      ((loopAt 16 1).regs.lcAt 0).toNat ≤ 1) :=
  ⟨⟨runs_of (by decide +kernel), by decide +kernel, by decide +kernel, leaves_of (by decide +kernel)⟩,
    ⟨runs_of (by decide +kernel), by decide +kernel, leaves_of (by decide +kernel)⟩, ⟨runs_of (by decide +kernel), by decide +kernel⟩,
    ⟨runs_of (by decide +kernel), by decide +kernel⟩, ⟨runs_of (by decide +kernel), by decide +kernel⟩,
    ⟨runs_of (by decide +kernel), by decide +kernel⟩, runs_of (by decide +kernel), by decide +kernel⟩

/-! ## Faults, ends, calls -/

/-- G0 to G4 set. -/
def gs (a b c d e : Word) : Copy :=
  { cpy with regs := { cpy.regs with g := cpy.regs.g.set 0 a |>.set 1 b |>.set 2 c |>.set 3 d |>.set 4 e } }
/-- The last word of the code is the first of a unit. -/
def atEnd : Copy := { cpy with regs := { cpy.regs with pc := 4095 } }

theorem test_DecodeFaults : laneCopy (alone cpy) 1 = none ∧ laneUnit (.mov 1 [] 0 0) = some (1, [], {}) ∧
    (laneCopy (alone atEnd) 0 = some (0, atEnd) ∧ laneUnit (.movi 0 [.ext 0] 0 0) = some (0, [.ext 0], { ext := true }) ∧ inCode (alone atEnd) 0 4095 2 = false ∧
      inCode (alone atEnd) 0 4095 1 = true) ∧
    (laneCopy (alone cpy) 0 = some (0, cpy) ∧ inCode (alone cpy) 0 cpy.regs.pc 6 = true ∧ cpy.skip = false ∧ keyTask 0 < 64) ∧
    (laneUnit (.mfs 0 [] 9 0)).map (·.2.2.legal) = some false ∧
    (laneUnit (.movi 0 [.ext 0, .ext 0, .ext 0, .ext 0] 0 0)).map (·.2.2.legal) = some true ∧ extCount [.ext 0, .ext 0, .ext 0, .ext 0] = 4 ∧
    (laneUnit (.mts 0 [.rep] 3 0)).map (fun x => (x.2.2.legal, x.2.2.writesRep)) = some (true, true) ∧ repCount [.rep] = 1 ∧
    (laneUnit (.movsb 0 [.rep, .rep] 0)).map (·.2.2.legal) = some true ∧ 1 < repCount [.rep, .rep] ∧
    (laneUnit (.mov 0 [.ext 0] 0 0)).map (·.2.2.ext) = some false ∧ (laneUnit (.movi 0 [.rep] 0 0)).map (·.2.2.rep) = some false := by decide +kernel

/-- Task 0 has the scratch bytes 64 to 1023. -/
def narrow (c : Copy) : State := cfgOn [(0x020C, 0, 0x00100001)] (alone c)
/-- Addresses: odd and even beyond alignment, below and above the frame, no area, and no line of the task's. -/
theorem test_AccessFaults : (∀ a : Nat, a = 0x10060002 ∨ a = 60 ∨ a = 1024 ∨ a = 0x10054000 ∨ a = 0x10060100 →
      Runs (narrow (gs 0 0 (BitVec.ofNat 32 a) 0 0)) (.stw 0 [] 0 2) 0 (gs 0 0 (BitVec.ofNat 32 a) 0 0)) ∧
    (∀ a : Nat, a = 0x10060001 ∨ a = 62 ∨ a = 1024 ∨ a = 0x10054000 →
      Runs (narrow (gs 0 0 (BitVec.ofNat 32 a) 0 0)) (.ldh 0 [] 0 2) 0 (gs 0 0 (BitVec.ofNat 32 a) 0 0)) ∧
    frameOf (narrow cpy) 0 = (64, 1024) ∧ (0x10060002 % 4 ≠ 0 ∧ 60 % 4 = 0 ∧ 1024 % 4 = 0 ∧ 0x10054000 % 4 = 0 ∧ 0x10060100 % 4 = 0 ∧ 0x10060001 % 2 ≠ 0) ∧
    isScratch 60 = true ∧ isScratch 1024 = true ∧ isScratch 0x10054000 = false ∧ areaOf 0x10054000 = none ∧ isScratch 0x10060100 = false ∧
    areaOf 0x10060100 = some .k ∧ mayStore (narrow cpy) 0 0x10060100 = false ∧ (gs 0 0 60 0 0).reg 2 + joinS [] 0 0 = 60 :=
  ⟨fun a h => by rcases h with rfl | rfl | rfl | rfl | rfl <;> exact runs_of (by decide +kernel),
    fun a h => by rcases h with rfl | rfl | rfl | rfl <;> exact runs_of (by decide +kernel), by decide +kernel⟩

/-- Task 0 traps divisions by 0; four loop levels are active. -/
def traps : State := cfgOn [(0x0203, 0, 0x88000000)] (alone cpy)
def deep : Copy := { cpy with regs := { cpy.regs with depth := 4 } }
theorem test_OperationFaults : (∀ i ∈ [Instr.divs 0 [] 1 0, .divu 0 [] 7 0], Runs traps i 0 cpy) ∧ cpy.reg 0 = 0 ∧ tDzTrap traps.cfg 0 = true ∧
    (Runs (alone deep) (.loop 0 [] 1 1) 0 deep ∧ deep.regs.depth.val = 4) ∧ Runs (alone cpy) (.cfg 0 [] 1 0) 0 cpy ∧
    (Runs (alone cpy) (.sys 0 [.ext 0x3F] 1 3) 0 cpy ∧ sysReg (alone cpy) (alone cpy).cfg (joinZ [.ext 0x3F] 3 2).toNat = none) ∧
    (laneCopy (alone cpy) 0 = some (0, cpy) ∧ inCode (alone cpy) 0 cpy.regs.pc 1 = true ∧ assignedWord 0x2363 = false ∧ assignedWord 0x2362 = true) :=
  ⟨runs_all (by decide +kernel), by decide +kernel, by decide +kernel, ⟨runs_of (by decide +kernel), by decide +kernel⟩, runs_of (by decide +kernel),
    ⟨runs_of (by decide +kernel), by decide +kernel⟩, by decide +kernel⟩

def checked : Copy := { cpy with chk := 1 }
def twin : Copy := { cpy with lane := 10 }
theorem test_CheckInAndHalt : (Runs (alone cpy) (.chk 0 []) 0 cpy ∧ cpy.chk = 0 ∧ keyTask 0 < 64) ∧ (Runs (alone checked) (.chk 0 []) 0 checked ∧ checked.chk ≠ 0) ∧
    (Runs (setup cpy) (.chk 0 []) 256 cpy ∧ 64 ≤ keyTask 256) ∧
    (Runs (alone checked) (.halt 0 [] []) 0 checked ∧ (alone checked).inst 0 = some inst ∧ pairedCopy (alone checked) 0 = false ∧ checked.shadowUe = false) ∧
    (Runs (pair cpy twin) (.halt 10 [] []) 1 twin ∧ (pair cpy twin).inst (keyTask 1) = some inst ∧ pairedCopy (pair cpy twin) 1 = true) ∧
    (Runs (alone cpy) (.halt 0 [] []) 0 cpy ∧ (alone cpy).inst 0 = some inst ∧ pairedCopy (alone cpy) 0 = false ∧ (alone cpy).pkg.exch.run = none ∧ (alone cpy).inst (nextKey 0) = none) :=
  ⟨⟨runs_of (by decide +kernel), by decide +kernel⟩, ⟨runs_of (by decide +kernel), by decide +kernel⟩, ⟨runs_of (by decide +kernel), by decide +kernel⟩,
    ⟨runs_of (by decide +kernel), by decide +kernel⟩, ⟨runs_of (by decide +kernel), by decide +kernel⟩, runs_of (by decide +kernel), by decide +kernel⟩

/-- Task 0 is to stop at the next permitted boundary; a copy inside a load shadow, and one that a takeover moves to lane 5. -/
def ending (c : Copy) : State := withInst 0 { inst with stopDue := true } (alone c)
def inShadow : Copy := { cpy with loads := [{ dst := 5, val := 9, addr := 0x10060000, left := 2, arrived := true }] }
def moves : Copy := { cpy with restart := some 5 }
theorem test_StopsAtBoundaries :
    (laneCopy (ending cpy) 0 = some (0, cpy) ∧ inCode (ending cpy) 0 cpy.regs.pc 1 = true ∧ cpy.skip = false ∧ keyTask 0 < 64 ∧
      (ending cpy).inst 0 = some { inst with stopDue := true } ∧ cpy.loads = [] ∧ pairedCopy (ending cpy) 0 = false ∧ (copiesOf (ending cpy) 0).length = 1 ∧
      (ending cpy).pkg.exch.run = none) ∧
    (laneCopy (withCopy 1 twin (ending cpy)) 0 = some (0, cpy) ∧ 1 < (copiesOf (withCopy 1 twin (ending cpy)) 0).length) ∧
    (laneCopy (ending inShadow) 0 = some (0, inShadow) ∧ (inShadow.loads.any fun x => decide (2 ≤ x.left)) = true) ∧
    (laneCopy (alone moves) 0 = some (0, moves) ∧ inst.stopDue = false ∧ moves.restart = some 5) := by decide +kernel

/-- The pair's first access has been made: SYS of 0x0010 read 7. -/
def shared : State :=
  withInst 0 { inst with imm := [{ isSys := true, num := 0x0010, status := 0, res := [(0, 7)], data := [] }] } (pair cpy twin)
def hi : Copy := { cpy with tbHi := some 9 }
/-- The setup task of a staged run. -/
def staged : State :=
  let s := withInst 65 inst (withCopy 260 cpy inRun)
  { s with pkg := { s.pkg with exch := { s.pkg.exch with staged := some ([], []) } } }
theorem test_SystemRegisters :
    (Runs (alone cpy) (.sys 0 [.ext 4] 1 0) 0 cpy ∧ pairedCopy (alone cpy) 0 = false ∧ (joinZ [.ext 4] 0 2).toNat = 0x0010 ∧
      (sysReg (slotBegins (alone cpy) 0 cpy).1 (cfgOf (alone cpy) 0) 0x0010).isSome = true) ∧
    (Runs (alone cpy) (.sys 0 [.ext 0x305] 1 2) 0 cpy ∧ (joinZ [.ext 0x305] 2 2).toNat = 0x0C16) ∧
    (Runs (alone hi) (.sys 0 [.ext 0x305] 1 3) 0 hi ∧ (joinZ [.ext 0x305] 3 2).toNat = 0x0C17 ∧ hi.tbHi = some 9) ∧
    (Runs shared (.sys 10 [.ext 4] 1 0) 1 twin ∧ pairedCopy shared 1 = true ∧ twin.order = 0 ∧
      (∃ i m, shared.inst (keyTask 1) = some i ∧ i.imm[0]? = some m ∧ m.isSys = true ∧ m.num = 0x0010 ∧ resAt m.res 0 = some 7)) ∧
    (Runs (setup cpy) (.cfg 0 [.ext 0x80] 1 3) 256 cpy ∧ (joinZ [.ext 0x80] 3 2).toNat = 0x0203 ∧ (regRow 0x0203).map (·.acc) = some .rw ∧
      serviceOnly 0x0203 = false ∧ keyTask 256 = 64) ∧
    (Runs (setup cpy) (.cfg 0 [.ext 0x04] 1 0) 256 cpy ∧ (regRow 0x0010).map (·.acc) = some .ro ∧ serviceOnly 0x0010 = false) ∧
    (laneCopy staged 0 = some (260, cpy) ∧ keyTask 260 = 65 ∧ staged.pkg.exch.staged = some ([], [])) :=
  ⟨⟨runs_of (by decide +kernel), by decide +kernel⟩, ⟨runs_of (by decide +kernel), by decide +kernel⟩, ⟨runs_of (by decide +kernel), by decide +kernel⟩,
    ⟨runs_of (by decide +kernel), by decide +kernel, by decide +kernel, _, _, rfl, rfl, by decide +kernel⟩, ⟨runs_of (by decide +kernel), by decide +kernel⟩,
    ⟨runs_of (by decide +kernel), by decide +kernel⟩, by decide +kernel⟩

/-- Shaft 0 is on, task 1 is an event task that frets trigger, and the 16 bytes at G2 are an entry of kind 3 for it. -/
def fretful (c : Copy) : State :=
  withInst 0 { inst with snap := [(0x10060005, 3), (0x10060007, 1)] } (cfgOn [(0x0410, 0, 0x80000000), (0x0203, 1, 0x84000000), (0x020A, 1, 0xA0000000)] (alone c))
theorem test_FretEntries : (Runs (fretful cpy) (.fret 0 [] 1 2) 0 cpy ∧ checkAccess (fretful cpy) 0 (cpy.reg 2).toNat 16 false = none ∧
      fretBad (slotBegins (fretful cpy) 0 cpy).1 0 (copyBytes (slotBegins (fretful cpy) 0 cpy).1 0 cpy (cpy.reg 2).toNat 16) = false ∧ releasable (fretful cpy) 0 = true) ∧
    (Runs (alone cpy) (.fret 0 [] 1 2) 0 cpy ∧ checkAccess (alone cpy) 0 (cpy.reg 2).toNat 16 false = none ∧
      fretBad (slotBegins (alone cpy) 0 cpy).1 0 (copyBytes (slotBegins (alone cpy) 0 cpy).1 0 cpy (cpy.reg 2).toNat 16) = true) ∧
    Runs (fretful cpy) (.fretc 0 [] 1 2) 0 cpy :=
  ⟨⟨runs_of (by decide +kernel), by decide +kernel⟩, ⟨runs_of (by decide +kernel), by decide +kernel⟩, runs_of (by decide +kernel)⟩

/-- Task 0 is a guard task, loop 0, shaft 0 and station 0 of port 0 are on. -/
def served (c : Copy) : State := cfgOn [(0x0203, 0, 0xC0000000), (0x0603, 0, 0x80000000), (0x0410, 0, 0x80000000)] (alone c)
/-- A committed call meets its hypotheses with G0 to G2 as given. -/
def callOk (e : Instr × Nat × Word × Word × Word) : Bool :=
  let c := gs e.2.2.1 e.2.2.2.1 e.2.2.2.2 0 0
  let s := served c
  runsB s e.1 0 c && (callCommitted e.2.1 && callLevel s.cfg 0 e.2.1 && callForm s 0 e.2.1 (c.reg 0) (c.reg 1) (c.reg 2) &&
    decide (callAtIssue (cfgOf s 0) e.2.1 (c.reg 0) = none))
/-- A copy whose write set holds 16 calls, and one that calls on a loop that is not enabled. -/
def busy : Copy := { gs 63 0 0 0 0 with ws := List.replicate 16 (.call 0x0200 0 0 0 0) }
/-- Every committed call at the largest argument that its form admits; a full write set; a loop that is not enabled. -/
theorem test_CommittedCalls : ([(Instr.sysc 0 [.ext 0x80] 5 0, 0x0200, 0, 0, 0), (.taskTrigger 0 [] 5, 0x0200, 63, 0, 0), (.atTime 0 [] 5, 0x0202, 63, 0, 0),
   (.ylReadmit 0 [] 5, 0x0500, 0x871F, 0, 0), (.ylMbxSend 0 [] 5, 0x0501, 0x071F, 0x10060000, 1480), (.loopTune 0 [] 5, 0x0601, 0xE200, 0, 0),
   (.loopCapture 0 [] 5, 0x0602, 0x0FFF1400, 0, 4), (.loopAbort 0 [] 5, 0x0603, 0x100, 0, 0), (.fldReadmit 0 [] 5, 0x0700, 31, 0, 0),
   (.cbusSend 0 [] 5, 0x0800, 3, 0x10060000, 0), (.cbusAbort 0 [] 5, 0x0801, 3, 0, 0), (.cbusRecover 0 [] 5, 0x0802, 3, 0, 0), (.cbusReadmit 0 [] 5, 0x0803, 3, 0, 0),
   (.hostNotify 0 [] 5, 0x0900, 3, 0, 0), (.safeStop 0 [] 5, 0x0A00, 0xFFFF, 0, 0), (.nvWrite 0 [] 5, 0x0B01, 0x3FF, 0x10060000, 48),
   (.nvAbort 0 [] 5, 0x0B02, 0x3FF, 0, 0), (.nvCount 0 [] 5, 0x0B03, 31, 0, 0), (.recUser 0 [] 5, 0x0B05, 0x7F, 0, 0)] : List (Instr × Nat × Word × Word × Word)).all callOk = true ∧
    (Runs (served busy) (.taskTrigger 0 [] 5) 0 busy ∧ 16 ≤ (busy.ws.filter fun x => match x with | .call .. => true | _ => false).length) ∧
    callForm (served (gs 0x4 0 0 0 0)) 0 0x0801 4 0 0 = false ∧ callLevel (served cpy).cfg 0 0x0801 = true ∧ callLevel (alone cpy).cfg 0 0x0A00 = false ∧
    (Runs (served (gs 0x2001 0 0 0 0)) (.loopTune 0 [] 5) 0 (gs 0x2001 0 0 0 0) ∧ callAtIssue (cfgOf (served (gs 0x2001 0 0 0 0)) 0) 0x0601 0x2001 = some stNotFound) :=
  ⟨by decide +kernel, ⟨runs_of (by decide +kernel), by decide +kernel⟩, by decide +kernel, by decide +kernel, by decide +kernel, runs_of (by decide +kernel), by decide +kernel⟩

/-- An immediate call meets its hypotheses with G0 as given. -/
def immOk (e : Instr × Nat × Word) : Bool :=
  let c := gs e.2.2 0 0 0 0
  let s := served c
  runsB s e.1 0 c && (!pairedCopy s 0 && callLevel s.cfg 0 e.2.1 && callForm (slotBegins s 0 c).1 0 e.2.1 (c.reg 0) (c.reg 1) (c.reg 2))
theorem test_ImmediateCalls : [(Instr.releaseTime 0 [] 5, 0x0201, 0), (.snapInfo 0 [] 5, 0x0203, 3), (.shaftRead 0 [] 5, 0x0400, 0), (.ylStaInfo 0 [] 5, 0x0503, 0x071F),
      (.ylCount 0 [] 5, 0x0504, 0x0C07), (.loopRead 0 [] 5, 0x0600, 0), (.safeStatus 0 [] 5, 0x0A01, 0), (.nvCountRead 0 [] 5, 0x0B04, 31)].all immOk = true ∧
    (served cpy).inst 0 = some inst ∧ inst.groups.find? (fun y => y.1 == 3) = some (3, false, 2) ∧ inst.shafts[0]?.isSome = true ∧
    shOn (cfgOf (served cpy) 0) 0 = true ∧ lOn (cfgOf (served cpy) 0) 0 = true ∧
    (let u := (slotBegins (served (gs 31 0 0 0 0)) 0 (gs 31 0 0 0 0)).1; freeTags u (taskTags u.cfg 0) ≠ []) := by decide +kernel

/-- Station 0 of port 0 holds a response of four bytes, and user record 0x3FF is mirrored with one byte. -/
def held (c : Copy) : State :=
  let s := (alone c).modSta 0 fun y => { y with mbxHeld := some [1, 2, 3, 4] }
  { s with nv := { s.nv with mirror := [(0x3FF, some (1, [7]))] } }
def box : Copy := gs 0 0x10060000 4 0 0
def record : Copy := gs 0x3FF 0x10060000 48 0 0
theorem test_ImmediateCallsWithData :
    (Runs (held box) (.ylMbxRead 0 [] 5) 0 box ∧ pairedCopy (held box) 0 = false ∧ callLevel (held box).cfg 0 0x0502 = true ∧ within (box.reg 0) 0x071F = true ∧
      canWrite (held box) 0 0x10060000 4 = true ∧ ((held box).sta 0).mbxHeld = some [1, 2, 3, 4] ∧
      (let u := (slotBegins (held box) 0 box).1
       freeTags u (taskTags u.cfg 0) ≠ [] ∧ (copyStoreAll (passTag (u.modSta 0 fun y => { y with mbxHeld := none }) (taskTags u.cfg 0) 0) 0
         { (slotBegins (held box) 0 box).2 with order := box.order + 1 } [(0x10060000, 1), (0x10060001, 2), (0x10060002, 3), (0x10060003, 4)]).isSome = true)) ∧
    (Runs (held record) (.nvRead 0 [] 5) 0 record ∧ callLevel (held record).cfg 0 0x0B00 = true ∧ within (record.reg 0) 0x3FF = true ∧
      canWrite (held record) 0 0x10060000 1 = true ∧ tabGet none (held record).nv.mirror 0x3FF = some (1, [7]) ∧
      (let u := (slotBegins (held record) 0 record).1
       freeTags u (taskTags u.cfg 0) ≠ [] ∧ (copyStoreAll (passTag u (taskTags u.cfg 0) 0) 0
         { (slotBegins (held record) 0 record).2 with order := record.order + 1 } [(0x10060000, 7)]).isSome = true)) :=
  ⟨⟨runs_of (by decide +kernel), by decide +kernel⟩, runs_of (by decide +kernel), by decide +kernel⟩

/-- What YL_MBX_READ and NV_READ may not write, a response and a record that are not held, no free tag, and calls that are unknown, above the
level or of a bad form. -/
def away : Copy := gs 0 0x10060100 4 0 0
def awayRecord : Copy := gs 0x3FF 0x10060100 48 0 0
def untagged (c : Copy) : State := tagsHeld 0 480 (alone c)
theorem test_ImmediateCallsWithData_refused :
    (Runs (held away) (.ylMbxRead 0 [] 5) 0 away ∧ ((held away).sta 0).mbxHeld = some [1, 2, 3, 4] ∧ canWrite (held away) 0 0x10060100 (min 4 4) = false) ∧
    (Runs (held awayRecord) (.nvRead 0 [] 5) 0 awayRecord ∧ tabGet none (held awayRecord).nv.mirror 0x3FF = some (1, [7]) ∧ canWrite (held awayRecord) 0 0x10060100 (min 1 48) = false) ∧
    (Runs (alone box) (.nvRead 0 [] 5) 0 box ∧ tabGet none (alone box).nv.mirror 0 = none) ∧
    (Runs (alone box) (.ylMbxRead 0 [] 5) 0 box ∧ ((alone box).sta 0).mbxHeld = none) ∧
    (∀ e ∈ [(Instr.ylMbxRead 0 [] 5, 0x0502), (.nvRead 0 [] 5, 0x0B00), (.nvCountRead 0 [] 5, 0x0B04)], Runs (untagged box) e.1 0 box) ∧
    (let u := (slotBegins (untagged box) 0 box).1; freeTags u (taskTags u.cfg 0) = [] ∧ (∀ n ∈ [0x0502, 0x0B00, 0x0B04], callLevel (untagged box).cfg 0 n = true ∧
      callForm u 0 n (box.reg 0) (box.reg 1) (box.reg 2) = true)) ∧
    (Runs (alone box) (.sysc 0 [] 5 3) 0 box ∧ callCommitted 3 = false ∧ callImmediate 3 = false) ∧
    (Runs (alone box) (.sysc 0 [.ext 0x280] 5 0) 0 box ∧ (joinZ [.ext 0x280] 0 2).toNat = 0x0A00 ∧ callCommitted 0x0A00 = true ∧ callLevel (alone box).cfg 0 0x0A00 = false) ∧
    (Runs (alone record) (.sysc 0 [.ext 0x200] 5 1) 0 record ∧ (joinZ [.ext 0x200] 1 2).toNat = 0x0801 ∧ callForm (slotBegins (alone record) 0 record).1 0 0x0801 0x3FF 0 0 = false) :=
  ⟨⟨runs_of (by decide +kernel), by decide +kernel⟩, ⟨runs_of (by decide +kernel), by decide +kernel⟩, ⟨runs_of (by decide +kernel), by decide +kernel⟩,
    ⟨runs_of (by decide +kernel), by decide +kernel⟩, fun e m => runs_of (List.all_eq_true.mp (show ([(Instr.ylMbxRead 0 [] 5, 0x0502), (.nvRead 0 [] 5, 0x0B00),
      (.nvCountRead 0 [] 5, 0x0B04)].all fun e => runsB (untagged box) e.1 0 box) = true by decide +kernel) e m), by decide +kernel,
    ⟨runs_of (by decide +kernel), by decide +kernel⟩, ⟨runs_of (by decide +kernel), by decide +kernel⟩, runs_of (by decide +kernel), by decide +kernel⟩

/-- LOOP_READ of a loop read before in the instance, and calls on a loop and a shaft that are not enabled. -/
def readBefore : State := withInst 0 { inst with loopRd := [(0, some { isSys := false, num := 0x0600, status := 0, res := [(1, 4), (2, 5), (3, 6)], data := [] })] } (served cpy)
theorem test_ImmediateCalls_again : (Runs readBefore (.loopRead 0 [] 5) 0 cpy ∧ callForm (slotBegins readBefore 0 cpy).1 0 0x0600 (cpy.reg 0) 5 0 = true) ∧
    (Runs (alone cpy) (.loopRead 0 [] 5) 0 cpy ∧ lOn (cfgOf (alone cpy) 0) 0 = false ∧ ((alone cpy).inst 0).bind (fun i => tabGet none i.loopRd 0) = none) ∧
    (Runs (alone cpy) (.shaftRead 0 [] 5) 0 cpy ∧ shOn (cfgOf (alone cpy) 0) 0 = false ∧ (cpy.reg 0).getLsbD 8 = false) :=
  ⟨⟨runs_of (by decide +kernel), by decide +kernel⟩, ⟨runs_of (by decide +kernel), by decide +kernel⟩, runs_of (by decide +kernel), by decide +kernel⟩
/-! ## Tasks, pairs, lanes, memory -/

/-- No time passes. -/
abbrev at0 (s : State) : State := elapse 0 s
/-- Task `t`'s bookkeeping set. -/
def withTask (t : Nat) (x : TaskSt) (s : State) : State := { s with seq := { s.seq with tasks := tabPut t x s.seq.tasks } }
/-- Task 0 has no instance, at a boundary of its period. -/
def idle : State := cfgOn task0 inRun
/-- Task 1 is an event task with a gap of 25 us, armed, last released 25 us ago, and its trigger has come. -/
def event (x : TaskSt) : State :=
  let s := withTask 1 { x with armed := true, lastRel := some 999975000 } (cfgOn [(0x0203, 1, 0x84000000), (0x020A, 1, 0x50000019)] idle)
  { s with seq := { s.seq with trigs := [{ task := 1, source := 5, at_ := 1000000000 }] } }
def inHold (s : State) : State := moved { cause := 0x13, left := .run, entered := .hold, ok := rfl } s
/-- Its copy has not started and its starvation bound ended 1 ns ago. -/
def starved : Copy := { cpy with started := false }
/-- An instance of task `t` released behind its open one. -/
def behind (t : Nat) (s : State) : State := withInst (nextKey t) { inst with num := 2, outAt := 1000500000 } s

theorem test_TaskReleases_cyclic : (tEnable (at0 idle).cfg 0 = true ∧ tEvent (at0 idle).cfg 0 = false ∧ (1000 * tPeriod (at0 idle).cfg 0 : Int) = 1000000 ∧
      (((at0 idle).now : Int) - 1000 * tPhase (at0 idle).cfg 0) % 1000000 = 0 ∧ ((at0 idle).task 0).lastDue ≠ some (at0 idle).now ∧
      (at0 idle).seq.after < (at0 idle).now) ∧ Free (at0 idle) 0 ∧ (at0 idle).inst (nextKey 0) = none ∧
    ((at0 (inHold idle)).dev.state = .hold ∧ tGuard (at0 (inHold idle)).cfg 0 = false ∧ tEnable (at0 (inHold idle)).cfg 0 = true) ∧
    (releasable (at0 (withInst 0 inst idle)) 0 = true ∧ ((at0 (withInst 0 inst idle)).task 0).gstop = 0 ∧ ((at0 (withInst 0 inst idle)).task 0).cleared = false ∧
      ((at0 (withInst 0 inst idle)).inst 0).isSome = true ∧ (at0 (withInst 0 inst idle)).inst (nextKey 0) = none ∧ (at0 (withInst 0 inst idle)).pkg.exch.run = none) ∧
    ((at0 (behind 0 idle)).inst (nextKey 0)).isSome = true :=
  ⟨by decide +kernel, by unfold Free; decide +kernel, by decide +kernel, by decide +kernel, by decide +kernel, by decide +kernel⟩

theorem test_TaskReleases_event : (∃ g, (at0 (event {})).seq.trigs.find? (fun y => y.task == 1) = some g) ∧
    (tEnable (at0 (event {})).cfg 1 = true ∧ tEvent (at0 (event {})).cfg 1 = true ∧ ((at0 (event {})).task 1).armed = true ∧ ((at0 (event {})).task 1).latched = false ∧
      ((at0 (event {})).task 1).heldAt = none ∧ ((at0 (event {})).task 1).lastRel = some 999975000 ∧
      999975000 + 1000 * tGap (at0 (event {})).cfg 1 ≤ (at0 (event {})).now) ∧ Free (at0 (event {})) 1 ∧
    (releasable (at0 (withInst 1 inst (event {}))) 1 = true ∧ ((at0 (withInst 1 inst (event {}))).inst 1).isSome = true) ∧
    (((at0 (event { latched := true })).task 1).latched = true ∧ ((at0 (event { latched := true })).task 1).gstop = 0 ∧ releasable (at0 (event { latched := true })) 1 = true) ∧
    Free (at0 (event { latched := true })) 1 :=
  ⟨⟨_, rfl⟩, by decide +kernel, by unfold Free; decide +kernel, by decide +kernel, by decide +kernel, by unfold Free; decide +kernel⟩

theorem test_TaskReleases_ages : (let s := at0 (withInst 0 { inst with starveAt := 999999999 } (alone starved));
      (0, starved) ∈ copiesOf s 0 ∧ starved.lane = 0 ∧ ageDue s 0 starved = true ∧ starved.ended = none ∧ isFrozen s 0 = false) ∧
    (((at0 (event { atTime := some 1000000000 })).task 1).atTime = some 1000000000 ∧ 1000000000 ≤ (at0 (event { atTime := some 1000000000 })).now) := by decide +kernel

/-- A copy that has ended with HALT after its check-in and has written a line. -/
def done : Copy := { checked with ended := some .halt, shadow := [(0x10060000 / 64, some { data := 7, wrote := 1 })] }
def passed : Inst := { inst with phase := .passed }
/-- Five versions of task 0 are retained and task 2 reserves the rest of the pool. -/
def tight : State :=
  let s := withInst 0 passed (cfgOn [(0x0203, 2, 0x80000000), (0x0342, 0, 0x4000)] (alone done))
  { s with can := { s.can with retained := List.replicate 5 { line := 0x401801, owner := 0, data := 0, need := [2], rows := [] } } }
/-- The output release and the check-in window of the instance fall on this instant. -/
def dueNow (s : State) : State :=
  { s with seq := { s.seq with outs := [{ task := 0, num := 1, at_ := 1000000000 }], wins := [{ task := 0, num := 1, due := 1000000000, chk := true, isOpen := false, lanes := [0], pcs := [16] }] } }
def begunNow (s : State) : State := { s with seq := { s.seq with outs := [{ task := 0, num := 1, at_ := 1000000000, begun := true }] } }
def ago (s : State) : State := { s with seq := { s.seq with outs := [{ task := 0, num := 1, at_ := 999999999 }] } }
/-- A shadow line of the copy holds an unrepaired word; a read point of this instant has been taken. -/
def rotten : Copy := { done with ueWords := [(0x10060000, 0x80000000)] }
def readNow (s : State) : State := { s with seq := { s.seq with readAt := some 1000000000 } }
/-- Task 0 owns Q bytes 0 to 63, which the field channels follow, and releases them now. -/
def presents : State := cfgOn [(0x0303, 0, 0x10020000), (0x0304, 0, 0x10020040)] (dueNow idle)
theorem test_CommitsAndVerdicts_order : (let s := at0 (withInst 0 passed (alone rotten));
      s.inst 0 = some passed ∧ s.copy 0 = some rotten ∧ commitInOrder s 0 = true ∧ rotten.shadowUe = true ∧ s.copy 1 = none ∧ s.pkg.exch.run = none ∧ s.inst (nextKey 0) = none) ∧
    commitInOrder (at0 (readNow idle)) 0 = false ∧ commitInOrder (at0 (withTask 1 { lastCommit := some 1000000000 } idle)) 0 = false ∧
    commitInOrder (at0 (withTask 0 { lastCommit := some 1000000000 } idle)) 1 = true ∧
    (releaseOut (at0 (dueNow idle)) 0).fld.startDue = false ∧
    (let s := at0 (dueNow (alone cpy));
      outDue s 0 = some { task := 0, num := 1, at_ := 1000000000 } ∧ outOpen s { task := 0, num := 1, at_ := 1000000000 } = true) ∧
    (let s := at0 (begunNow (alone cpy));
      outDue s 0 = some { task := 0, num := 1, at_ := 1000000000, begun := true } ∧ outOpen s { task := 0, num := 1, at_ := 1000000000, begun := true } = true) ∧
    (let s := at0 (behind 0 (withInst 0 passed (alone done)));
      s.inst 0 = some passed ∧ s.copy 0 = some done ∧ commitInOrder s 0 = true ∧ mustWait s 0 done = false ∧ (s.inst (nextKey 0)).isSome = true ∧ s.pkg.exch.run = none ∧
        s.seq.calls = []) ∧
    (bridgeOn (releaseOut (at0 presents) 0) = true ∧ (releaseOut (at0 presents) 0).fld.startDue = true ∧ wireBusy (settled (releaseOut (at0 presents) 0)) = false) := by
  decide +kernel

theorem test_CommitsAndVerdicts : (let s := at0 (withInst 0 passed (alone done));
      s.inst 0 = some passed ∧ s.copy 0 = some done ∧ passed.phase = .passed ∧ commitInOrder s 0 = true ∧ done.shadowUe = false ∧ mustWait s 0 done = false ∧ done.ws = [] ∧ tabWf none done.shadow = true ∧ s.pkg.exch.run = none ∧ s.inst (nextKey 0) = none) ∧
    ((at0 tight).inst 0 = some passed ∧ (at0 tight).copy 0 = some done ∧ mustWait (at0 tight) 0 done = true ∧ commitInOrder (at0 tight) 0 = true ∧ passed.waitFrom = none) ∧
    (let s := at0 (dueNow idle);
      outDue s 0 = some { task := 0, num := 1, at_ := 1000000000 } ∧ outOpen s { task := 0, num := 1, at_ := 1000000000 } = false ∧ (winDue s 0).isSome = true ∧ s.dev.state = .run) ∧
    (let s := at0 (ago (alone cpy));
      outDue s 0 = some { task := 0, num := 1, at_ := 999999999 } ∧ outOpen s { task := 0, num := 1, at_ := 999999999 } = true ∧ 999999999 < s.now) ∧
    (let s := at0 (moved { cause := 0x0E, left := .run, entered := .stop, ok := rfl } (dueNow idle));
      (winDue s 0).isSome = true ∧ supervised s 0 = false) := by decide +kernel

/-- Task 0 is a paired task on lanes 0 and 10. -/
def paired (i : Inst) (a b : Copy) : State := withInst 0 i (cfgOn [(0x0203, 0, 0xA0000000), (0x0209, 0, 0x0A00)] (pair a b))
def other : Copy := { done with lane := 10 }
def differs : Copy := { other with ended := some (.fault 1 16) }
def fell : Copy := { done with ended := some (.fault 7 16), shadow := [] }
def fellToo : Copy := { fell with lane := 10 }
def replay : Copy := { done with lane := 9 }
/-- The lane is no part of the digest (R303). -/
theorem digest_lane (c : Copy) (n : Nat) : digest { c with lane := n } = digest c := rfl
/-- Copies that differ in their lane alone agree. -/
theorem agree_done : agree done other = true ∧ agree replay done = true := by
  have h : digest other = digest done := digest_lane done 10
  have g : digest replay = digest done := digest_lane done 9
  unfold agree
  rw [h, g]
  simp only [beq_self_eq_true, Bool.and_true]
  decide +kernel
theorem test_PairedInstances_gate : (let s := at0 (paired inst done other);
      s.inst 0 = some inst ∧ s.copy 0 = some done ∧ s.copy 1 = some other ∧ inst.phase = .going ∧ inst.frozenAt = none ∧ done.ended.isSome = true ∧ other.ended.isSome = true ∧ done.chk ≠ 0) ∧
    (let s := at0 (paired inst done differs);
      s.inst 0 = some inst ∧ s.copy 1 = some differs ∧ agree done differs = false ∧ sameFault done differs = false ∧ s.dev.state = .run ∧ (pickSpare s (tLanes s.cfg 0)).isSome = true ∧ tabWf none s.seq.insts = true ∧
        (waitingTasks s).all (waitsBefore s (0, s.now)) = true) ∧
    (let s := at0 (withInst 1 { inst with phase := .waitSpare 999999999 } (cfgOn [(0x0203, 1, 0xE0000000), (0x0209, 1, 0x0D0C)] (paired inst done differs)));
      (waitingTasks s).any (fun x => x.1 != 0 && !waitsBefore s (0, s.now) x) = true ∧ anyOutside s = true ∧ agree done differs = false ∧ s.inst 0 = some inst) ∧
    (let s := at0 (paired inst fell fellToo);
      s.inst 0 = some inst ∧ s.copy 0 = some fell ∧ s.copy 1 = some fellToo ∧ agree fell fellToo = false ∧ sameFault fell fellToo = true ∧ s.pkg.exch.run = none ∧ s.inst (nextKey 0) = none) := by decide +kernel

def waitsSpare : Inst := { inst with phase := .waitSpare 999999999 }
def wakes : Inst := { inst with phase := .waking 9 999999999 }
def replays : Inst := { inst with phase := .replaying 9 }
def late : Inst := { inst with lateAt := 1000000000 }
theorem test_PairedInstances_replay : (let s := at0 (paired waitsSpare done differs);
      servedNext s 0 = true ∧ (pickSpare s (tLanes s.cfg 0)).isSome = true ∧ s.inst 0 = some waitsSpare) ∧
    ((at0 (paired wakes done differs)).inst 0 = some wakes ∧ mayReplay (at0 (paired wakes done differs)) 0 = true) ∧
    (let s := at0 (withCopy 2 replay (paired replays done differs));
      s.inst 0 = some replays ∧ s.copy 0 = some done ∧ s.copy 1 = some differs ∧ s.copy 2 = some replay ∧ agree replay differs = false ∧ done.chk ≠ 0 ∧
        done.ws = [] ∧ (s.lane differs.lane).role = .bound ∧ (s.lane differs.lane).test = none ∧ commitInOrder s 0 = true ∧ s.pkg.exch.run = none ∧ mustWait s 0 done = false ∧ s.inst (nextKey 0) = none) ∧
    (let s := at0 (paired late done { twin with stall := .quota, loads := [{ dst := 5, val := 9, addr := 0x10060000, left := 1, arrived := false }] });
      (s.copy 1).any (fun c => c.mayStop && !c.mayYield) = true) ∧
    (let s := at0 (paired late done twin);
      s.inst 0 = some late ∧ late.lateAt ≤ s.now ∧ done.ended.isSome = true ∧ twin.ended = none ∧ twin.mayStop = true ∧ s.dev.state = .run ∧ (pickSpare s (tLanes s.cfg 0)).isSome = true) := by decide +kernel

/-- Lane 5 runs its periodic test since `a`; lane 6 stands in for lane 7, whose test has passed. -/
def tested (a : Nat) : State :=
  { inRun with ln := { inRun.ln with lanes := [(5, { role := .spareTest, test := some (.periodic, a) }), (6, { role := .awake, acts := some 7, standsFor := some 7 }), (7, { role := .testing, standIn := some 6 })] } }
theorem test_LaneTestsAndStandIns : (((at0 (tested 999820000)).lane 5).test = some (.periodic, 999820000) ∧ 999820000 + 180000 ≤ (at0 (tested 999820000)).now ∧
      (at0 (tested 999820000)).dev.state = .run ∧ (at0 (tested 999820000)).ln.takeoverDue = false ∧ (at0 (tested 999820001)).now < 999820001 + testNs none) ∧
    (((at0 (tested 999990000)).lane 5).test = some (.periodic, 999990000) ∧ 999990000 + testNs (some .oscillator) ≤ (at0 (tested 999990000)).now) ∧
    (let s := at0 (tested 0);
      (s.lane 6).standsFor = some 7 ∧ (s.lane 6).acts = some 7 ∧ laneBusy s 6 = false ∧ 7 ≠ 6 ∧ (s.lane 7).role = .testing ∧ (s.lane 7).test = none) ∧
    (let s := at0 inRun;
      s.dev.state = .run ∧ s.dev.pkgOk = true ∧ s.ln.spareFrom + s.ln.spareLen ≤ s.op ∧ (∀ j, j < 40 → (s.lane j).role ≠ .spareTest) ∧ nextSpare s = some 0) := by decide +kernel

/-- A load of G5 in its shadow, and one on whose data the lane stalls. -/
def loads : Copy := { cpy with loads := [{ dst := 5, val := 9, addr := 0x10060000, left := 1, arrived := false }] }
def stalls : Copy := { cpy with loads := [{ dst := 5, val := 9, addr := 0x10060000, left := 0, arrived := false }], stall := .load }
/-- Word 7 of the program store waits for its rewrite twice, first for a single-bit error, and word 9 once. -/
def rots : State := { inRun with ps := { inRun.ps with rewrites := [(7, 0xFF, false), (9, 0xFF, false), (7, 0xFF, true)] } }
theorem test_MemoryReturnsAndScrubs : ((at0 (alone loads)).copy 0 = some loads ∧ ((at0 (alone loads)).lane 0).running = some 0) ∧
    ((at0 (alone stalls)).copy 0 = some stalls ∧ ((at0 (alone stalls)).lane 0).running = some 0) ∧
    (laneCopy (at0 (alone cpy)) 0 = some (0, cpy) ∧ inCode (at0 (alone cpy)) 0 cpy.regs.pc 1 = true ∧ keyTask 0 < 64) ∧
    inCode (at0 (alone cpy)) 0 cpy.regs.pc ((3 : BitVec 21).toNat + 1) = true ∧
    (at0 rots).ps.rewrites.filter (fun r => r.1 == 7) = [(7, 0xFF, false), (7, 0xFF, true)] ∧
      [((7 : BitVec 21), (0xFF : Byte), false), (7, 0xFF, true)].filter (fun r => r.2.2) = [(7, 0xFF, true)] ∧
    (at0 rots).ps.rewrites.filter (fun r => r.1 == 9) = [(9, 0xFF, false)] ∧
    ((at0 (moved { cause := 0x17, left := .run, entered := .clearing, ok := rfl } (alone loads))).dev.state = .clearing ∧
      twdDue (at0 (moved { cause := 0x17, left := .run, entered := .clearing, ok := rfl } (alone loads))) = false ∧ Area.g.has 0x10060000 = false ∧
      (at0 (moved { cause := 0x17, left := .run, entered := .clearing, ok := rfl } (alone loads))).copy 0 = some loads) ∧ (at0 inRun).can.mem.wf = true ∧ powered (at0 inRun) = true ∧
    errReal (at0 inRun) { loc := .area, addr := 0x10060000, ecc := .wrong false } = true ∧
    errReal (at0 inRun) { loc := .area, addr := 0x1143FFFC - 0x40000, ecc := .corrected } = true ∧
    (errReal (at0 inRun) { loc := .area, addr := 0x10060000, ecc := .uncorrectable } = true ∧ Area.g.has 0x10060000 = false ∧ (at0 inRun).dev.state = .run ∧ twdDue (at0 inRun) = false) ∧
    stopping (at0 (alone loads)) 0 = false ∧ loads.restart = none := by decide +kernel

/-! ## Bridge, field, CAN, shafts, frets, loops -/

/-- The field side in RUN, changed by `f`. -/
def field (f : Field → Field) : State := { inRun with fld := f { inRun.fld with dieNs := 2000000000 } }
/-- Channel 0 in effect in mode `m`, changed by `f`. -/
def chan (m : Word) (f : Chan → Chan) (g : Field → Field) : State :=
  field fun x => g { x with chans := [(0, f { cfg := m <<< 28, active := true })] }
def down (t : DownType) : DownFrame := { type := t, seq := 3, time := 1000000000, values := 1, mask := 1 }
def flies (d : DownFrame) (a : Nat) : List Flight := [{ frame := d, at_ := a }]
def onWire (t : DownType) (a : Nat) : State := chan 3 id fun f => { f with wire := flies (down t) a, dieSeq := some 2 }
/-- What a tick sends is built from this state. -/
abbrev tickAt (s : State) : State := settled (canRepair (at0 s) Area.s.has)
/-- The values of the frame reach the drivers 1.5 us after its start at the earliest; the wire is free 1.28 us after it. -/
theorem test_BridgeDownFrames : (bridgeOn (at0 inRun) = true ∧ (at0 inRun).now % 10000 = 0 ∧ wireBusy (tickAt inRun) = false) ∧
    (bridgeOn (at0 State.reset) = true ∧ (at0 State.reset).now % 10000 = 0) ∧
    (bridgeOn (at0 (onWire .refresh 1999998721)) = true ∧ wireBusy (tickAt (onWire .refresh 1999998721)) = true ∧ wireBusy (tickAt (onWire .refresh 1999998720)) = false) ∧
    (let s := at0 (field fun f => { f with startDue := true }); bridgeOn s = true ∧ s.fld.startDue = true ∧ wireBusy s = false) ∧
    (∀ t : DownType, (at0 (onWire t 1999998500)).fld.wire = flies (down t) 1999998500 ∧ 1999998500 + 1500 ≤ (at0 (onWire t 1999998500)).fld.dieNs ∧
      (at0 (onWire t 1999998501)).fld.dieNs < 1999998501 + 1500 ∧ (down t).type = t ∧ (at0 (onWire t 1999998500)).fld.dieSeq ≠ some (down t).seq) ∧
    (let s := at0 (onWire .refresh 1999998500); (s.chan 0).newCfg = none ∧ (s.chan 0).active = true ∧ chMode (s.chan 0).cfg = 3 ∧ (s.chan 0).expired = false ∧
      (down .refresh).mask.getLsbD 0 = true) ∧
    (let s := at0 (field fun f => { f with wire := flies { down .config with cfg := some (31, 0x30000000, 0, 0) } 1999998500 });
      s.fld.wire = flies { down .config with cfg := some (31, 0x30000000, 0, 0) } 1999998500 ∧ s.fld.dieSeq ≠ some 3 ∧ s.fld.timed = []) ∧
    ((at0 (chan 3 (fun x => { x with newCfg := some (0x40000000, 0, some 5) }) id)).chan 0).newCfg = some (0x40000000, 0, some 5) ∧
    (at0 (chan 3 id fun f => { f with readmits := 1 })).fld.readmits.getLsbD 0 = true :=
  ⟨by decide +kernel, by decide +kernel, by decide +kernel, by decide +kernel, fun t => by cases t <;> decide +kernel, by decide +kernel, by decide +kernel, by decide +kernel, by decide +kernel⟩
theorem test_BridgeDownFrames_settled : (∀ w ∈ (at0 inRun).lp.pend, (at0 inRun).now < w.at_) ∧ (∀ o ∈ (at0 inRun).seq.outs, (at0 inRun).now < o.at_) ∧
    (∀ p, cycleOver (at0 inRun) p = false) ∧ (∀ b ∈ (at0 inRun).can.bad, Area.s.has b = false) :=
  ⟨by decide +kernel, by decide +kernel, fun _ => rfl, by decide +kernel⟩

def up : UpFrame := { seq := 3, vf := 0, hot := false, pending := 0, input := 1, readback := 0, edge := 0, fault := 0, expired := 0, repCh := 0, repKind := 0 }
def change : Change := { op := 1, id := 5, half := false, mask := 1, values := 1, stamp := 1000000000 }
/-- The up frame of the down frame that started at `a` comes back. -/
def back (u : Option UpFrame) (a : Nat) (f : Field → Field) : State := field fun x => f { x with answers := [{ frame := u, at_ := a }] }
theorem test_BridgeUpFramesAndSilence :
    (let s := at0 (back (some up) 1999996800 fun f => { f with lastUpSeq := some 2 }); readOpen s = true ∧ 1999996800 + 3200 ≤ s.fld.dieNs ∧
      s.fld.answers = [{ frame := some up, at_ := 1999996800 }] ∧ s.fld.lastUpSeq ≠ some up.seq) ∧
    (let s := at0 (field fun f => { f with valid := true, news := [.fault 3 1 1], answers := [{ frame := some up, at_ := 1999996800, news := [.fault 3 1 1] }] });
      s.fld.valid = true ∧ s.can.bad = [] ∧ s.fld.news = [.fault 3 1 1]) ∧
    (let s := at0 (back (some up) 1999996800 fun f => { f with lastUpSeq := some 3 }); s.fld.answers = [{ frame := some up, at_ := 1999996800 }] ∧ s.fld.lastUpSeq = some up.seq) ∧
    (let s := at0 (back none 1999996800 id); s.fld.answers = [{ frame := none, at_ := 1999996800 }]) ∧
    (let s := at0 (back none 1999996801 id); s.fld.dieNs < 1999996801 + 3200) ∧
    (let s := at0 (readNow (back none 0 id)); readOpen s = false) ∧
    (let s := at0 (field fun f => { f with valid := true, lastUpAt := 999970000 }); s.fld.valid = true ∧ s.fld.lastUpAt + 30000 ≤ s.now) ∧
    (let s := at0 (field fun f => { f with dieLastEnd := 1999970000 }); s.fld.silent = false ∧ s.fld.dieLastEnd + 30000 ≤ s.fld.dieNs ∧ s.fld.timed = []) ∧
    (let s := at0 (chan 3 (fun x => { x with hold := some 1 }) fun f => { f with silent := true, dieLastEnd := 1999000000 });
      s.fld.silent = true ∧ (s.chan 0).isOut = true ∧ (s.chan 0).expired = false ∧ (s.chan 0).hold = some 1 ∧ s.fld.dieLastEnd + 1000000 * 1 ≤ s.fld.dieNs) ∧
    ((at0 (chan 3 (fun x => { x with expired := true }) id)).chan 0).expired = true ∧
    (let s := at0 (chan 5 id fun f => { f with timed := [{ change with id := 6, stamp := 1000000001 }, change, { change with id := 7, values := 0 }], dieTime := 1000000000, dieLastEnd := 2000000000 });
      dueChanges s (dieClock s) = [change] ++ { change with id := 7, values := 0 } :: [] ∧ change.id ≠ 7 ∧
      change.channels.getLsbD 0 = true ∧ (s.chan 0).mode = 5 ∧ (s.chan 0).expired = false ∧ change.channels.getLsbD 1 = false) := by decide +kernel

theorem test_FieldChannelFaults : (let s := at0 (chan 1 id id); (s.chan 0).isIn = true ∧ s.fld.vfLost.getLsbD 0 = false ∧ (s.chan 0).input ≠ true ∧ (s.chan 0).mode ≠ 0 ∧
      (s.chan 0).inAt + (s.chan 0).filterNs ≤ s.fld.dieNs) ∧
    (let s := at0 (chan 1 (fun x => { x with inAt := 1999999001 }) id); s.fld.dieNs < (s.chan 0).inAt + (s.chan 0).filterNs) ∧
    (let s := at0 (chan 3 (fun x => { x with driver := true, value := true }) id); (s.chan 0).driver = true ∧ (s.chan 0).isOut = true ∧ readbackChecked s (s.chan 0) = true ∧
      false ≠ (s.chan 0).driver) ∧
    (let s := at0 (chan 3 (fun x => { x with driver := true, swAt := 1999700000 }) id); s.fld.dieNs ≤ (s.chan 0).swAt + fldReadback s) ∧
    (let s := at0 (chan 3 (fun x => { x with test := some 1999800000 }) id); (s.chan 0).test = some 1999800000 ∧ 1999800000 + fldTest s ≤ s.fld.dieNs) ∧
    (let s := at0 (chan 3 id fun f => { f with vfLost := 1 }); s.fld.vfLost.getLsbD 0 = true ∧ (s.chan 0).mode ≠ 0) ∧
    (∀ n : Nat, n = 1 ∨ n = 4 → let s := at0 (chan 3 (fun x => { x with fault := BitVec.ofNat 8 n, faultAt := 1900000000 }) id);
      1 ≤ (s.chan 0).fault.toNat ∧ (s.chan 0).fault.toNat ≤ 4 ∧ (s.chan 0).retired = false ∧ (s.chan 0).faultAt + 100000000 ≤ s.fld.dieNs) :=
  ⟨by decide +kernel, by decide +kernel, by decide +kernel, by decide +kernel, by decide +kernel, by decide +kernel, fun n h => by rcases h with rfl | rfl <;> decide +kernel⟩

def frame : CanFrame := { fdf := false, rtr := false, ide := false, id := 0x7FF, esi := false, brs := false, dlc := 8, data := [1, 2, 3, 4, 5, 6, 7, 8] }
def sends : TxFrame := { frame := frame, oneShot := false, echo := false, task := 0, key := 1 }
/-- CAN channel 3 in mode `m`, changed by `f`. -/
def can (m : Word) (f : CanCh → CanCh) : State :=
  let s := cfgOn [(0x0828, 0, 0x80000000 ||| m <<< 29)] inRun
  { s with cb := { s.cb with chs := [(3, f {})] } }
theorem test_CanChannels : (let s := at0 (can 1 id); canMode s 3 = 1 ∧ (s.canCh 3).live = true ∧ (s.canCh 3).onBus = none ∧ frame.fdf = false ∧ (s.canCh 3).recv.toNat ≤ 127) ∧
    (let s := at0 (can 1 fun x => { x with onBus := some sends });
      (s.canCh 3).live = true ∧ wbit (cCfg s.cfg 3) 28 = false ∧ sends.aborted = none ∧ sends.oneShot = false ∧ sends.last = false) ∧
    (let s := at0 (can 1 fun x => { x with queue := [sends] }); canMode s 3 = 1 ∧ (s.canCh 3).live = true ∧ (s.canCh 3).onBus = none ∧ txBest s (s.canCh 3).queue = some sends) ∧
    canMode (at0 (can 3 id)) 3 = 3 ∧
    (let s := at0 (can 1 fun x => { x with onBus := some sends }); (s.canCh 3).onBus = some sends ∧ sends.aborted = none ∧ sends.echo = false ∧ canMode s 3 = 1) ∧
    ((255 : BitVec 9).toNat ≤ 255 ∧ 255 < (256 : BitVec 9).toNat) ∧
    (let s := at0 (can 1 fun x => { x with err := 4 }); (s.canCh 3).err = 4 ∧ canMode s 3 ≠ 0) := by decide +kernel

/-- Shaft 0 on with 1,024 counts and the filter exponent `n` x 5 ns, changed by `f`. -/
def shaftFilt (n : Word) (f : Shaft → Shaft) : State :=
  let s := cfgOn [(0x0410, 0, 0x80000000 ||| n <<< 16), (0x0411, 0, 1024)] inRun
  { s with fret := { s.fret with shafts := [(0, f {})] } }
/-- Shaft 0 on with 1,024 counts and no filter, changed by `f`. -/
def shaft (f : Shaft → Shaft) : State := shaftFilt 0 f
/-- The operating-time stamps that count with a new strike at 2 s. -/
def hits (s : State) : List Nat := ((s.shaft 0).strikes.filter fun y => decide (s.op ≤ y + 60000000000)) ++ [s.op]
/-- Whether the levels are those that were accepted, so that a change is accepted at once where there is no filter. -/
def steadyB (s : State) : Bool := shaftLive s 0 && decide ((s.shaft 0).raw = ((s.shaft 0).a, (s.shaft 0).b, (s.shaft 0).z)) && decide (s.now / 5 * 5 + 5 * shFilt s.cfg 0 ≤ s.now)
/-- A forward edge with B low and A rising; with the mark it corrects or references. The least time between edges is 50 ns. -/
theorem test_ShaftEvents :
    (let s := at0 (shaft fun x => { x with edgeAt := some 999999950 }); steadyB s = true ∧ (s.shaft 0).fault = false ∧
      s.now / 5 * 5 = 1000000000 ∧ (true ≠ (s.shaft 0).a ↔ false = (s.shaft 0).b) ∧
      (s.shaft 0).edgeAt = some 999999950 ∧ (s.shaft 0).zArmed = false ∧ (false && !(s.shaft 0).z) = false) ∧
    (let s := at0 (shaft fun x => { x with zArmed := true, z := true, raw := (false, false, true), edges := [] }); steadyB s = true ∧
      ((true != false) != shInv s.cfg 0) = true ∧ (s.shaft 0).referenced = false ∧ (s.shaft 0).edgeAt = none ∧ shZero s.cfg 0 < shN s.cfg 0) ∧
    (let s := at0 (shaft fun x => { x with zArmed := true, z := true, raw := (false, false, true), referenced := true, cnt := 511 }); steadyB s = true ∧
      (s.shaft 0).referenced = true ∧ shZtol s.cfg 0 < 512) ∧
    (let s := at0 (shaft fun x => { x with edgeAt := some 999999951 }); steadyB s = true ∧ (s.shaft 0).edgeAt = some 999999951 ∧ ¬ 999999951 + 50 ≤ s.now / 5 * 5 ∧ (hits s).length < 3) ∧
    (let s := at0 (shaft id); steadyB s = true ∧ true ≠ (s.shaft 0).a ∧ true ≠ (s.shaft 0).b ∧ (hits s).length < 3 ∧ (s.shaft 0).wire = false ∧ false = (s.shaft 0).a) ∧
    (let s := at0 (shaft fun x => { x with strikes := [2000000000, 2000000000] }); steadyB s = true ∧ 3 ≤ (hits s).length ∧ (s.shaft 0).fault = false) ∧
    (let s := at0 (shaft fun x => { x with fault := true }); steadyB s = true ∧ (s.shaft 0).fault = true) ∧
    shaftLive (at0 inRun) 0 = false ∧
    (let s := at0 (shaft fun x => { x with wire := true, wireAt := 999000000 }); (s.shaft 0).wire = true ∧ (s.shaft 0).wireAt + 1000000 ≤ s.now ∧ (s.shaft 0).fault = false) ∧
    (let s := at0 (shaft fun x => { x with wire := true, wireAt := 999000001 }); s.now < (s.shaft 0).wireAt + 1000000) := by decide +kernel
/-- With a filter of 10 ns a level that has lasted 10 ns is accepted, and one that has lasted 5 ns is not. -/
theorem test_ShaftEvents_filter : (let s := at0 (shaftFilt 2 fun x => { x with raw := (true, false, false), since := (999999990, 0, 0) });
      shaftLive s 0 = true ∧ 999999990 + 5 * shFilt s.cfg 0 ≤ s.now ∧ (s.shaft 0).raw = (true, false, false) ∧ (s.shaft 0).since.1 = 999999990 ∧ (s.shaft 0).a = false) ∧
    (let s := at0 (shaftFilt 2 fun x => { x with raw := (true, false, false), since := (999999995, 0, 0) });
      shaftLive s 0 = true ∧ (s.shaft 0).raw.1 ≠ (s.shaft 0).a ∧ s.now < (s.shaft 0).since.1 + 5 * shFilt s.cfg 0 ∧ s.now < s.now / 5 * 5 + 5 * shFilt s.cfg 0 ∧
      (s.shaft 0).raw.2 = ((s.shaft 0).b, (s.shaft 0).z)) ∧
    (let s := at0 (shaftFilt 2 fun x => { x with raw := (false, false, true), since := (0, 0, 999999990) });
      shaftLive s 0 = true ∧ 999999990 + 5 * shFilt s.cfg 0 ≤ s.now ∧ (s.shaft 0).raw = ((s.shaft 0).a, (s.shaft 0).b, true) ∧ (s.shaft 0).z = false ∧ (s.shaft 0).since.2.2 = 999999990) := by decide +kernel
/-- No change of level waits for its filter time. -/
def quietB (s : State) : Bool := (List.range 4).all fun j => !shOn s.cfg j || decide ((s.shaft j).raw = ((s.shaft j).a, (s.shaft j).b, (s.shaft j).z))
theorem test_ShaftEvents_hold : (let s := at0 (inHold (shaft fun x => { x with fault := true })); let u : State := { s with dev := { s.dev with holdLeft := 1 } };
    u.now % 25000 = 0 ∧ u.dev.state.served = true ∧ quietB u = true ∧ (acceptShafts u).dev.state = .hold ∧ twdDue u = false ∧ u.dev.holdLeft ≠ 0 ∧ shOn u.cfg 0 = true ∧ (u.shaft 0).fault = true) := by decide +kernel
theorem test_ShaftEvents_velocity : (let s := at0 (shaft fun x => { x with edges := [(950000000, 5)] }); s.now % 25000 = 0 ∧ s.dev.state.served = true ∧ quietB s = true ∧ (acceptShafts s).dev.state ≠ .hold ∧
      shOn s.cfg 0 = true ∧ (∀ e ∈ (s.shaft 0).edges, e.1 + 50000000 ≤ s.now)) ∧
    (let s := at0 (shaft fun x => { x with edges := [(950000001, 30), (950000000, 20), (940000000, 0)] });
      quietB s = true ∧ (s.shaft 0).edges = [(950000001, 30), (950000000, 20), (940000000, 0)] ∧ s.now < 950000001 + 50000000) ∧
    (let s := at0 (shaft fun x => { x with fault := true, edgeAt := some 950000000 }); quietB s = true ∧ shOn s.cfg 0 = true ∧ (s.shaft 0).fault = true) ∧
    (∀ j, j < 4 → shOn (at0 (shaft id)).cfg j = true → ((at0 (shaft id)).shaft j).raw = (((at0 (shaft id)).shaft j).a, ((at0 (shaft id)).shaft j).b, ((at0 (shaft id)).shaft j).z)) ∧
    shOn (at0 inRun).cfg 0 = false := by decide +kernel

/-- The queue holds `e`, and shaft 0 is referenced and stands at count `n` with the velocity `v`. -/
def queued (n : Nat) (v : Rat) (e : FretE) : State :=
  let s := shaft fun x => { x with referenced := true, cnt := n, v := v, t1 := 1000000000 }
  { s with fret := { s.fret with queue := [e] } }
/-- An entry of kind 3 on the target 0, judged with the distance `d` before. -/
def entry (d : Int) (arm : Bool) : FretE :=
  { task := 0, target := 0, dir := 0, shaft := 0, kind := 3, lateFire := false, repeats := false, sub := 1, key := 1, word := 0, armed := arm, lastD := d, judged := true }
/-- The premise that is common to the evaluations. -/
def judgedB (s : State) (e : FretE) : Bool :=
  decide (s.now % 25 = 0) && s.dev.state.served && decide ((acceptShafts s).fret.queue = [e]) && (s.shaft 0).referenced && !(s.shaft 0).fault && shOn s.cfg 0 && e.judged && !e.fired && e.change.isNone
theorem test_FretQueueAndLoopEvents_evaluation :
    (let s := at0 (queued 0 0 (entry (-1) true)); judgedB s (entry (-1) true) = true ∧ (entry (-1) true).crosses (-1) ((entry (-1) true).dist (shaftPos s 0)) = true) ∧
    (let s := at0 (queued 0 0 { entry (-1) true with kind := 1 }); judgedB s { entry (-1) true with kind := 1 } = true ∧
      ({ entry (-1) true with kind := 1 } : FretE).projected s.cfg (s.shaft 0) = some 1000000000 ∧
      ({ entry (-1) true with kind := 1 } : FretE).crosses (-1) (({ entry (-1) true with kind := 1 } : FretE).dist (shaftPos s 0)) = true) ∧
    (let s := at0 (queued 1 100000 { entry (-16384) true with kind := 1, target := 32768, sideNeg := true }); let e : FretE := { entry (-16384) true with kind := 1, target := 32768, sideNeg := true };
      judgedB s e = true ∧ (e.projected s.cfg (s.shaft 0)).any (fun m => decide (m ≤ s.now + 10000)) = true ∧ e.before (e.dist (shaftPos s 0)) = true ∧
      e.before (e.dist (anchorPos s.cfg 0 (s.shaft 0))) = true ∧ e.crosses (-16384) (e.dist (shaftPos s 0)) = false) ∧
    (let s := at0 (queued 1 0 { entry (-16384) true with kind := 1, target := 32768, sideNeg := true }); let e : FretE := { entry (-16384) true with kind := 1, target := 32768, sideNeg := true };
      judgedB s e = true ∧ e.projected s.cfg (s.shaft 0) = none ∧ e.crosses (-16384) (e.dist (shaftPos s 0)) = false) ∧
    (let s := at0 (queued 1 0 (entry 1 true)); judgedB s (entry 1 true) = true ∧ ¬ (entry 1 true).crosses 1 ((entry 1 true).dist (shaftPos s 0)) = true) ∧
    (let s := at0 (queued 1023 0 { entry 0 false with dir := 1 }); judgedB s { entry 0 false with dir := 1 } = true ∧
      ({ entry 0 false with dir := 1 } : FretE).rearms ((2 ^ shHyst s.cfg 0 : Nat) : Int) (({ entry 0 false with dir := 1 } : FretE).dist (shaftPos s 0)) = true) := by decide +kernel

/-- A row of station 0 of port 0 whose target is crossed at this instant. -/
def row : RowSt := { id := 9, parts := [(0, 0, 4)], data := [1, 2, 3, 4], commitAt := 0, deadline := some 1000000000 }
def rowE : FretE := { entry (-1) true with kind := 2, row := some row }
def loopOn (s : State) : State := cfgOn [(0x0603, 255, 0x80000000), (0x0607, 255, 0x10060000), (0x060A, 255, 0x10060040), (0x0610, 0, 0x80000064)] s
def tune : Tune := { rule := 0, cycles := 2, dr := 0, eps := 0, limitNs := 1000000, startAt := 999000000 }
def tuning (t : Tune) : State := { loopOn inRun with lp := { inRun.lp with loops := [(255, { mode := 2, tune := some t })] } }
/-- That entry, its row committed at `c`, while port 0 runs a cycle and its wire is taken until `w`. -/
def streams (c w : Nat) : State :=
  let s := cfgOn [(0x0410, 0, 0x80000000), (0x0411, 0, 1024), (0x0510, 0, 0x80000000), (0x0507, 0, 0x80000004), (0x0508, 0, 0)]
    (queued 0 0 { rowE with row := some { row with commitAt := c } })
  { s with yl := { s.yl with ports := [(0, { state := 4, t0 := some 1000000000, wireTo := w })], stas := [(0, { state := 2, rowBuf := 1 })] } }
theorem test_FretQueueAndLoopEvents_rows : (let s := departAll (at0 (queued 0 0 rowE)); (leadDue s 9 0).isSome = true ∧ leadDue s 8 0 = none ∧ (s.port (homePort s.cfg 0)).t0 = none) ∧
    (let s := departAll (at0 (streams 0 0)); let y := (0, 0, 4); let first := reqWait 0 4 0 (rowBody rowE row 0 4 0 4) (.row 9 0 4);
      leadDue s 9 0 = some 1000000000 ∧ (s.port 0).t0 = some 1000000000 ∧ homePort s.cfg 0 = 0 ∧ lineState s 0 = 4 ∧ s.dev.state ≠ .setup ∧ s.fret.queue = [rowE] ∧ rowE.row = some row ∧
      row.commitAt ≤ 1000000000 ∧ row.parts = [y] ∧ mayStream s 0 0 = true ∧ slotAt s 0 5 = s.now ∧ fitsAt s first (slotAt s 0 5) = true ∧ freeTags s first.reserved ≠ []) ∧
    (let s := departAll (at0 (streams 0 1000000100)); slotAt s 0 5 = 1000000100 ∧ s.now = 1000000000) ∧
    (let s := departAll (at0 (streams 1000000001 0)); (leadDue s 9 0).isSome = true ∧ (s.port 0).t0 = some 1000000000) ∧
    (missDue (at0 (queued 0 0 rowE)) 9).isSome = true ∧ missDue (at0 (queued 0 0 rowE)) 8 = none ∧
    (let s := at0 (queued 0 0 rowE); judgedB s rowE = true ∧ rowE.row = some row ∧ rowE.crosses (-1) (rowE.dist (shaftPos s 0)) = true) ∧
    (let s := at0 (queued 0 0 (entry (-1) false)); judgedB s (entry (-1) false) = true ∧
      (entry (-1) false).rearms ((2 ^ shHyst s.cfg 0 : Nat) : Int) ((entry (-1) false).dist (shaftPos s 0)) = false) ∧
    (elapse 1 inRun).now % 25 ≠ 0 := by decide +kernel
theorem test_FretQueueAndLoopEvents :
    (let s := at0 (loopOn inRun); let q := settled s; classDue s 0 = true ∧ classDue s 1 = false ∧ (lAll s.cfg).filter (fun j => lClass s.cfg j == 0 && loopRuns s j) = [255] ∧ groupOf s.cfg 255 = none ∧
      cmdMode q 255 = 0 ∧ (q.loop 255).tune = none ∧ q.lp.cap = none) ∧
    ((settled (at0 (tuning { tune with ending := some 6 }))).loop 255).tune = some { tune with ending := some 6 } ∧
    (let s := at0 { inRun with lp := { inRun.lp with pend := [{ cls := 7, at_ := 1000000000, bytes := [(0x10060000, 1)], tunes := [], capEnds := none }] } };
      classReady s 7 = [{ cls := 7, at_ := 1000000000, bytes := [(0x10060000, 1)], tunes := [], capEnds := none }] ∧ classReady s 6 = []) ∧
    (let s := at0 (tuning tune); (s.loop 255).tune = some tune ∧ tune.ending = none ∧ tune.startAt + tune.limitNs ≤ s.now) ∧
    (let s := at0 (tuning { tune with startAt := 999000001 }); s.now < 999000001 + tune.limitNs) := by decide +kernel
/-! ## Hosts -/

/-- The last entry of the queue of slot 0 holds the command `op` with the identifier 7 and these bytes from offset 8 on, and
the window of the slot begins with `win`. -/
def asks (r : HRole) (op : Byte) (args win : List Byte) (s : State) : State :=
  { s with host := { s.host with slots := [(0, { front := some 0, base := .operator, role := r, cmdHead := 31, cmdTail := 0, map := (msixMasked.putBytes 0x17C0 ([op, 0, 7, 0, 0, 0, 0, 0] ++ args)).putBytes 0x4000 win })] } }
def inStop (s : State) : State := moved { cause := 0x0E, left := .run, entered := .stop, ok := rfl } s
/-- STOP with every readiness check passed. -/
def ready : State :=
  inStop { inRun with fld := { inRun.fld with valid := true }, safe := { inRun.safe with confA := some 0 } }
/-- `Asked` as a Boolean. -/
def askedB (u : State) (op : Nat) : Bool :=
  mayTake u 0 && decide (headOp (u.slot 0) = op) && decide (((u.slot 0).cmdHead + 1) % 32 = (u.slot 0).cmdTail)
/-- The Boolean decides `Asked`. -/
theorem asked_of {u : State} {op : Nat} (h : askedB u op = true) : Asked u 0 op := by
  simp only [askedB, Bool.and_eq_true, decide_eq_true_eq] at h
  exact ⟨h.1.1, h.1.2, h.2⟩

/-- Slot 0 with `cmdHead` 31, `cmdTail` 0 and one completion entry to be read. -/
def slots (f : Slot → Slot) : State :=
  let s := asks .operator 1 [] [] inRun
  { s with host := { s.host with slots := (s.host.slots.map fun e => (e.1, f { e.2 with cplHead := 31, cplTail := 0 })) ++ [(1, { front := some 4 }), (2, { front := some 5 })] } }
/-- A write frame of one word at 0x7FFC with its CRC and with a wrong one, and a read frame. -/
def wrote : List Byte := [0x01, 0x7F, 0xFC, 0, 1, 1, 2, 3, 4, 0x40, 0x3E]
def torn : List Byte := [0x01, 0x7F, 0xFC, 0, 1, 1, 2, 3, 4, 0x40, 0x3F]
def reads : List Byte := [0x12, 0x10, 0x00, 0, 1]
theorem test_SlotMapWrites : hostUp (at0 (slots id)) 0 = true ∧
    (∀ a : Nat, a = 0x1000 ∨ a = 0x17FC ∨ a = 0x4000 ∨ a = 0x7FFC → a % 4 = 0 ∧ (0x1000 ≤ a ∧ a < 0x1800 ∨ 0x4000 ≤ a ∧ a < 0x8000)) ∧
    (let x := (at0 (slots id)).slot 0; (x.cmdTail + 32 - x.cmdHead) % 32 = 1 ∧ (1 % 32 + 32 - x.cmdHead) % 32 = 2 ∧ (31 % 32 + 32 - x.cmdHead) % 32 = 0 ∧
      (x.cplTail + 32 - x.cplHead) % 32 = 1 ∧ (0 % 32 + 32 - x.cplHead) % 32 = 1 ∧ (1 % 32 + 32 - x.cplHead) % 32 = 2 ∧ x.role ≠ .observer) ∧
    (at0 (slots id)).dev.state ≠ .clearing ∧ ((at0 (slots id)).slot 1).role = .observer ∧
    (hostUp (at0 (slots id)) 1 = true ∧ ((at0 (slots id)).slot 1).pcie = false ∧ ((at0 (slots id)).slot 0).pcie = true) ∧
    (slotsUp (at0 (slots id)) = true ∧ slotOf (at0 (slots id)) (4 + b2n true) = some 2 ∧ slotOf (at0 (slots id)) (4 + b2n false) = some 1) ∧
    (byteAt wrote 0 = 0x01 ∧ writeFrameOk wrote = true ∧ frameCount wrote = 1 ∧ frameOff wrote = 0x7FFC) ∧ (byteAt torn 0 = 0x01 ∧ writeFrameOk torn = false) ∧
    (byteAt reads 0 = 0x12 ∧ reads.length = 5 ∧ frameOff reads % 4 = 0) ∧ hostUp (at0 State.reset) 0 = false ∧
    (let s := at0 (asks .operator 1 [] [] inRun); slotsUp s = true ∧ slotOf s (4 + b2n true) = none) :=
  ⟨by decide +kernel, fun a h => by rcases h with rfl | rfl | rfl | rfl <;> decide, by decide +kernel⟩

/-- Shaft 0 turns, so that it blocks HOLD. -/
def turns (s : State) : State :=
  let s := cfgOn [(0x0410, 0, 0x80000000), (0x0411, 0, 1024)] s
  { s with fret := { s.fret with shafts := [(0, { v := 16777216 })] } }
def inClearing (s : State) : State := moved { cause := 0x17, left := .run, entered := .clearing, ok := rfl } s
def moving (s : State) : State := { s with dev := { s.dev with lastMove := some 1000000000 } }
/-- HOLD with 1 ns left. -/
def holding (s : State) : State := let s := inHold s; { s with dev := { s.dev with holdLeft := 1 } }
/-- A word of area G, which no copy could repair, stands unrepaired, and one of K. -/
def rottenAt (a : Nat) (s : State) : State := { s with can := { s.can with bad := [a] } }
/-- Released before this instant, and its copy waits for a load. -/
def earlier : Inst := { inst with rel := 999999999 }
def loading : Copy := { cpy with stall := .load }
theorem test_DeviceCommands_moves : (Asked (at0 (asks .operator 0x10 [] [] ready)) 0 0x10 ∧ Calm (at0 (asks .operator 0x10 [] [] ready)) ∧
      (let u := at0 (asks .operator 0x10 [] [] ready); (u.slot 0).role ≠ .observer ∧ twdDue u = false ∧ u.moving = false ∧ u.dev.state = .stop ∧ allReady u = true)) ∧
    (Asked (at0 (asks .operator 0x10 [] [] (inStop inRun))) 0 0x10 ∧ (let u := at0 (asks .operator 0x10 [] [] (inStop inRun)); twdDue u = false ∧ u.moving = false ∧ allReady u = false)) ∧
    (Asked (at0 (asks .operator 0x11 [] [] (alone loading))) 0 0x11 ∧ (let u := at0 (asks .operator 0x11 [] [] (alone loading)); isRunning u = true ∧ twdDue u = false ∧
      hasPassed u 0 = false ∧ u.inst 0 = some inst ∧ inst.frozenAt = none ∧ ∃ y ∈ copiesOf u 0, y.2.mayStop = false ∧ (u.lane y.2.lane).running = some y.1)) ∧
    (∀ y ∈ copiesOf (at0 (asks .operator 0x11 [] [] (alone cpy))) 0, y.2.mayStop = true) ∧
    (Asked (at0 (asks .operator 0x11 [] [] (dueNow idle))) 0 0x11 ∧ Calm (at0 (asks .operator 0x11 [] [] (dueNow idle))) ∧
      (let u := at0 (asks .operator 0x11 [] [] (dueNow idle)); isRunning u = true ∧ twdDue u = true)) ∧
    (Asked (at0 (asks .owner 0x12 [] [] (withInst 0 earlier (alone cpy)))) 0 0x12 ∧ (let u := at0 (asks .owner 0x12 [] [] (withInst 0 earlier (alone cpy))); (u.slot 0).role = .owner ∧ twdDue u = false ∧ u.moving = false ∧ u.dev.state = .run ∧
      holdPending u = none ∧ holdBlocker u = none ∧ tGuard u.cfg 0 = false ∧ u.inst 0 = some earlier ∧ earlier.rel ≠ u.now ∧ earlier.phase = .going ∧ (∃ y ∈ copiesOf u 0, y.2.ended = none))) := by
  refine ⟨⟨asked_of (by decide +kernel), by unfold Calm; decide +kernel, by decide +kernel⟩, ⟨asked_of (by decide +kernel), by decide +kernel⟩,
    ⟨asked_of (by decide +kernel), by decide +kernel⟩, by decide +kernel, ⟨asked_of (by decide +kernel), by unfold Calm; decide +kernel, by decide +kernel⟩,
    asked_of (by decide +kernel), by decide +kernel⟩

theorem test_DeviceCommands_holds : (Asked (at0 (asks .owner 0x12 [] [] (turns inRun))) 0 0x12 ∧ (let u := at0 (asks .owner 0x12 [] [] (turns inRun)); holdPending u = none ∧ holdBlocker u = some 0 ∧ u.moving = false ∧ twdDue u = false)) ∧
    (Asked (at0 (asks .owner 0x12 [] [] (rottenAt 0x10080000 inRun))) 0 0x12 ∧ holdPending (at0 (asks .owner 0x12 [] [] (rottenAt 0x10080000 inRun))) = some 0x11) ∧
    holdPending (at0 (asks .owner 0x12 [] [] (rottenAt 0x10060000 inRun))) = some 0x17 ∧
    (Asked (at0 (asks .owner 0x13 [] [] (holding (withInst 0 { earlier with frozenAt := some 999999999 } inRun)))) 0 0x13 ∧
      Calm (at0 (asks .owner 0x13 [] [] (holding (withInst 0 { earlier with frozenAt := some 999999999 } inRun)))) ∧
      (let u := at0 (asks .owner 0x13 [] [] (holding (withInst 0 { earlier with frozenAt := some 999999999 } inRun))); u.dev.holdLeft ≠ 0 ∧ twdDue u = false ∧ u.dev.state = .hold)) ∧
    (Asked (at0 (asks .owner 0x14 [] [] (inClearing ready))) 0 0x14 ∧ Calm (at0 (asks .owner 0x14 [] [] (inClearing ready))) ∧
      (let u := at0 (asks .owner 0x14 [] [] (inClearing ready)); allReady u = true ∧ u.dev.state = .clearing ∧ twdDue u = false)) :=
  ⟨⟨asked_of (by decide +kernel), by decide +kernel⟩, ⟨asked_of (by decide +kernel), by decide +kernel⟩, by decide +kernel,
    ⟨asked_of (by decide +kernel), by unfold Calm; decide +kernel, by decide +kernel⟩, asked_of (by decide +kernel), by unfold Calm; decide +kernel, by decide +kernel⟩

/-- Every reserved tag is held; the command has or has not joined the wait. -/
def noReserved (w : Bool) (s : State) : State :=
  let s := tagsHeld 480 32 s
  { s with host := { s.host with slots := s.host.slots.map fun e => (e.1, { e.2 with tagWait := w }) } }
theorem test_DeviceCommands_standby : freeTags (at0 (asks .owner 0x17 [] [] (inStop inRun))) true ≠ [] ∧
    (∀ w, Asked (at0 (noReserved w (asks .owner 0x17 [] [] (inStop inRun)))) 0 0x17) ∧
    (∀ w, let u := at0 (noReserved w (asks .owner 0x17 [] [] (inStop inRun))); u.moving = false ∧ twdDue u = false ∧ u.dev.state = .stop ∧ noWake u = false ∧ freeTags u true = [] ∧ (u.slot 0).tagWait = w) :=
  ⟨by decide +kernel, fun w => by cases w <;> exact asked_of (by decide +kernel), fun w => by cases w <;> decide +kernel⟩
theorem test_DeviceCommands_others : (∀ op : Nat, op = 0x15 ∨ op = 0x16 ∨ op = 0x17 ∨ op = 0x18 → Asked (at0 (asks .owner (BitVec.ofNat 8 op) [0xFF] [] (inStop inRun))) 0 op) ∧
    (let u := at0 (asks .owner 0x17 [] [] (inStop inRun)); u.dev.state = .stop ∧ noWake u = false ∧ twdDue u = false ∧ u.moving = false ∧ u.dev.state ≠ .recovery) ∧
    Calm (at0 (asks .owner 0x17 [] [] (inStop inRun))) ∧
    (∀ op : Nat, op = 0x12 ∨ op = 0x13 ∨ op = 0x14 ∨ op = 0x15 ∨ op = 0x16 ∨ op = 0x17 ∨ op = 0x18 → Asked (at0 (asks .operator (BitVec.ofNat 8 op) [] [] inRun)) 0 op) ∧
    (∀ op : Nat, op = 0x10 ∨ op = 0x11 ∨ op = 0x12 ∨ op = 0x13 ∨ op = 0x14 ∨ op = 0x17 ∨ op = 0x18 → Asked (at0 (asks .owner (BitVec.ofNat 8 op) [] [] (moving inRun))) 0 op) ∧
    ((at0 (moving inRun)).moving = true ∧ twdDue (at0 (moving inRun)) = false) ∧ ((at0 (inHold inRun)).dev.state = .hold ∧ (at0 (inHold inRun)).dev.holdLeft = 0 ∧ twdDue (at0 (inHold inRun)) = false) ∧
    Calm (at0 (inHold inRun)) ∧ (at0 inRun).dev.state ≠ .hold ∧ (at0 (holding inRun)).dev.holdLeft ≠ 0 :=
  ⟨fun op h => by rcases h with rfl | rfl | rfl | rfl <;> exact asked_of (by decide +kernel), by decide +kernel, by unfold Calm; decide +kernel,
    fun op h => by rcases h with rfl | rfl | rfl | rfl | rfl | rfl | rfl <;> exact asked_of (by decide +kernel),
    fun op h => by rcases h with rfl | rfl | rfl | rfl | rfl | rfl | rfl <;> exact asked_of (by decide +kernel), by decide +kernel,
    by decide +kernel, by unfold Calm; decide +kernel, by decide +kernel⟩

/-- Address (the first line of K, or of H), length 4, window offset 0x3FFC. -/
def spanArgs : List Byte := [0, 0, 6, 0x10, 4, 0, 0, 0, 0xFC, 0x3F, 0, 0]
def hArgs : List Byte := [0, 0, 0, 0x12, 4, 0, 0, 0, 0xFC, 0x3F, 0, 0]
/-- The slot owner code `o` owns the line of H (or of K) with this base. -/
def slotOwns (a o : Word) (s : State) : State := cfgOn [(0x0303, 0, a), (0x0304, 0, a + 64), (0x0305, 0, o)] s
def recorded (s : State) : State := { s with nv := { s.nv with newest := 5 } }
/-- All 480 tags of the common part are held; slot 0 has or has not joined the wait. -/
def noTags (w : Bool) (s : State) : State :=
  { s with nv := { s.nv with incW := (List.range 480).map fun g => (0, TagSt.has g) }, host := { s.host with slots := s.host.slots.map fun e => (e.1, { e.2 with tagWait := w }) } }
def readArgs (s : State) : State := asks .observer 0x20 spanArgs [] s
def writeArgs (r : HRole) (s : State) : State := asks r 0x21 hArgs [] s
theorem test_HostReadsAndWrites_reads : Asked (at0 (asks .observer 0x01 [] [] inRun)) 0 0x01 ∧
    (Asked (at0 (readArgs inRun)) 0 0x20 ∧ (let u := at0 (readArgs inRun); let e := headEntry (u.slot 0);
      leAt e 8 4 = 0x10060000 ∧ leAt e 12 4 = 4 ∧ leAt e 16 2 = 0x3FFC ∧ winOk 0x3FFC 4 4 = true ∧ inOneArea 0x10060000 4 = true ∧ u.dev.state.served = true ∧ u.dev.state ≠ .setup ∧
      (freeTags u false).isEmpty = false)) ∧
    (Asked (at0 (readArgs (setup cpy))) 0 0x20 ∧ (at0 (readArgs (setup cpy))).dev.state = .setup ∧ (freeTags (at0 (readArgs (setup cpy))) false).isEmpty = false) ∧
    (Asked (at0 (asks .observer 0x20 [] [] inRun)) 0 0x20 ∧ ¬ 0 < leAt (headEntry ((at0 (asks .observer 0x20 [] [] inRun)).slot 0)) 12 4) ∧
    (Asked (at0 (noTags false (readArgs inRun))) 0 0x20 ∧ (freeTags (at0 (noTags false (readArgs inRun))) false).isEmpty = true ∧ ((at0 (noTags false (readArgs inRun))).slot 0).tagWait = false) ∧
    (Asked (at0 (noTags true (readArgs inRun))) 0 0x20 ∧ (freeTags (at0 (noTags true (readArgs inRun))) false).isEmpty = true ∧ ((at0 (noTags true (readArgs inRun))).slot 0).tagWait = true) :=
  ⟨asked_of (by decide +kernel), ⟨asked_of (by decide +kernel), by decide +kernel⟩, ⟨asked_of (by decide +kernel), by decide +kernel⟩, ⟨asked_of (by decide +kernel), by decide +kernel⟩,
    ⟨asked_of (by decide +kernel), by decide +kernel⟩, asked_of (by decide +kernel), by decide +kernel⟩

theorem test_HostReadsAndWrites_writes : readOpen (at0 (readNow inRun)) = false ∧
    (Asked (at0 (writeArgs .operator (slotOwns 0x12000000 0x44 inRun))) 0 0x21 ∧ (let u := at0 (writeArgs .operator (slotOwns 0x12000000 0x44 inRun)); let e := headEntry (u.slot 0);
      readOpen u = true ∧ (freeTags u false).isEmpty = false ∧ leAt e 8 4 = 0x12000000 ∧ leAt e 12 4 = 4 ∧ inOneArea 0x12000000 4 = true ∧ inSrh u = true ∧
      (spanLines 0x12000000 4).all (fun l => Area.h.has l && ownerOf u.cfg l == some (slotOwner 0)) = true)) ∧
    (Asked (at0 (writeArgs .operator (slotOwns 0x12000000 0x45 inRun))) 0 0x21 ∧
      (spanLines 0x12000000 4).all (fun l => Area.h.has l && ownerOf (at0 (writeArgs .operator (slotOwns 0x12000000 0x45 inRun))).cfg l == some (slotOwner 0)) = false) ∧
    (Asked (at0 (asks .operator 0x21 spanArgs [] (slotOwns 0x10060000 0x44 inRun))) 0 0x21 ∧
      (spanLines 0x10060000 4).all (fun l => Area.h.has l && ownerOf (at0 (asks .operator 0x21 spanArgs [] (slotOwns 0x10060000 0x44 inRun))).cfg l == some (slotOwner 0)) = false) ∧
    (Asked (at0 (writeArgs .observer inRun)) 0 0x21 ∧ ((at0 (writeArgs .observer inRun)).slot 0).role = .observer) ∧
    (Asked (at0 (writeArgs .operator (inClearing inRun))) 0 0x21 ∧ inSrh (at0 (writeArgs .operator (inClearing inRun))) = false) :=
  ⟨by decide +kernel, ⟨asked_of (by decide +kernel), by decide +kernel⟩, ⟨asked_of (by decide +kernel), by decide +kernel⟩, ⟨asked_of (by decide +kernel), by decide +kernel⟩,
    ⟨asked_of (by decide +kernel), by decide +kernel⟩, asked_of (by decide +kernel), by decide +kernel⟩

def inRecovery (s : State) : State := moved { cause := 0x05, left := .boot, entered := .recovery, ok := rfl } s
theorem test_HostReadsAndWrites_denied : Asked (at0 (asks .observer 0x22 [0x10, 0] [] (inRecovery inRun))) 0 0x22 ∧ (at0 (inRecovery inRun)).dev.state.served = false ∧
    (let u := at0 (asks .observer 0x22 [0x10, 0] [] (inRecovery inRun)); (sysReg (popCmd u 0) u.cfg 0x0010).isSome = true) :=
  ⟨asked_of (by decide +kernel), by decide +kernel, by decide +kernel⟩
theorem test_HostReadsAndWrites_registers : (Asked (at0 (asks .observer 0x22 [0x10, 0] [] inRun)) 0 0x22 ∧
      (sysReg (popCmd (at0 (asks .observer 0x22 [0x10, 0] [] inRun)) 0) (at0 (asks .observer 0x22 [0x10, 0] [] inRun)).cfg 0x0010).isSome = true) ∧
    (Asked (at0 (asks .observer 0x22 [0xFF, 0] [] inRun)) 0 0x22 ∧ sysReg (popCmd (at0 (asks .observer 0x22 [0xFF, 0] [] inRun)) 0) (at0 (asks .observer 0x22 [0xFF, 0] [] inRun)).cfg 0x00FF = none) ∧
    Asked (at0 (asks .observer 0x23 [7, 12] [] inRun)) 0 0x23 ∧
    (Asked (at0 (asks .observer 0x24 [0, 0, 0, 0, 128, 0, 0, 0, 0, 0] [] (recorded inRun))) 0 0x24 ∧ winOk 0 (128 * 128) 128 = true ∧ (at0 (recorded inRun)).nv.newest ≠ 0) ∧
    (Asked (at0 (asks .observer 0x24 [6, 0, 0, 0, 1, 0, 0, 0, 0, 0] [] (recorded inRun))) 0 0x24 ∧ seqNewer 6 (at0 (recorded inRun)).nv.newest = true) ∧
    (Asked (at0 (asks .owner 0x25 [5, 0, 0, 0] [] (recorded (inStop inRun)))) 0 0x25 ∧ seqNewer (at0 (recorded (inStop inRun))).nv.newest 5 = false) ∧
    (Asked (at0 (asks .owner 0x25 [4, 0, 0, 0] [] (recorded (inStop inRun)))) 0 0x25 ∧ seqNewer (at0 (recorded (inStop inRun))).nv.newest 4 = true) :=
  ⟨⟨asked_of (by decide +kernel), by decide +kernel⟩, ⟨asked_of (by decide +kernel), by decide +kernel⟩, asked_of (by decide +kernel), ⟨asked_of (by decide +kernel), by decide +kernel⟩,
    ⟨asked_of (by decide +kernel), by decide +kernel⟩, ⟨asked_of (by decide +kernel), by decide +kernel⟩, asked_of (by decide +kernel), by decide +kernel⟩

/-- Key 3 is enrolled and slot 0 has a nonce of 30 s ago at most. -/
def proves (a : Nat) : State :=
  let s := asks .operator 0x03 [3, 0xC0, 0x3F] [] inRun
  { s with pkg := { s.pkg with keys := [(3, some [1])] }, clk := { s.clk with opNs := 40000000000 }, host := { s.host with slots := s.host.slots.map fun e => (e.1, { e.2 with nonce := some (9, a) }) } }
/-- Whatever the signature check answers, one of the two clauses about a proof applies to this state. -/
theorem test_OwnershipAndRequests_owner : (Asked (at0 (asks .observer 0x02 [] [] inRun)) 0 0x02 ∧ inSrh (at0 (asks .observer 0x02 [] [] inRun)) = true) ∧
    (Asked (at0 (proves 10000000000)) 0 0x03 ∧ (let u := at0 (proves 10000000000); winOk 0x3FC0 64 4 = true ∧ tabGet none u.pkg.keys 3 = some [1] ∧ liveNonce u 0 = some 9 ∧
      (∀ m, m < 4 → m ≠ 0 → (u.slot m).role ≠ .owner) ∧ (recentFails u 0).length < 3 ∧ (u.slot 0).long = none)) ∧
    (Asked (at0 (asks .owner 0x04 [] [] inRun)) 0 0x04 ∧ ((at0 (asks .owner 0x04 [] [] inRun)).slot 0).role = .owner) ∧
    (((at0 (proves 10000000000)).slot 0).nonce = some (9, 10000000000) ∧ 10000000000 + 30000000000 ≤ (at0 (proves 10000000000)).op) ∧
    (((at0 (proves 10000000001)).slot 0).nonce = some (9, 10000000001) ∧ (at0 (proves 10000000001)).op < 10000000001 + 30000000000) :=
  ⟨⟨asked_of (by decide +kernel), by decide +kernel⟩, ⟨asked_of (by decide +kernel), by decide +kernel⟩, ⟨asked_of (by decide +kernel), by decide +kernel⟩, by decide +kernel, by decide +kernel⟩

/-- The key record holds the keys of the mask `m`. -/
def keyed (m : Byte) (s : State) : State :=
  { s with nv := { s.nv with sys := [(0xF002, { a := { valid := true, blank := false, seq := 1, data := m :: List.replicate 263 0 }, b := {} })] } }
theorem test_OwnershipAndRequests_records : (Asked (at0 (asks .owner 0x05 [3, 7, 1] [] (inStop inRun))) 0 0x05 ∧ Asked (at0 (asks .owner 0x05 [0, 2, 0] [] (inStop inRun))) 0 0x05 ∧
      (∀ m, m < 4 → m ≠ 0 → (byteAt (sysStaged (at0 (asks .owner 0x05 [0, 2, 0] [] (inStop inRun))) 0xF001) (4 * m)).toNat ≠ 2)) ∧
    (Asked (at0 (asks .operator 0x06 [3, 0xC0, 0x3F] [] (inStop inRun))) 0 0x06 ∧ noKeys (at0 (asks .operator 0x06 [3, 0xC0, 0x3F] [] (inStop inRun))) = true) ∧
    (Asked (at0 (asks .owner 0x07 [3] [] (keyed 9 (inStop inRun)))) 0 0x07 ∧ (let u := at0 (asks .owner 0x07 [3] [] (keyed 9 (inStop inRun)));
      (byteAt (sysStaged u 0xF002) 0).getLsbD 3 = true ∧ byteAt (sysStaged u 0xF002) 0 ≠ BitVec.ofNat 8 (1 <<< 3) ∧ keySigned u 3 = false)) ∧
    (Asked (at0 (asks .owner 0x07 [3] [] (keyed 8 (inStop inRun)))) 0 0x07 ∧ byteAt (sysStaged (at0 (keyed 8 (inStop inRun))) 0xF002) 0 = BitVec.ofNat 8 (1 <<< 3)) :=
  ⟨⟨asked_of (by decide +kernel), asked_of (by decide +kernel), by decide +kernel⟩, ⟨asked_of (by decide +kernel), by decide +kernel⟩, ⟨asked_of (by decide +kernel), by decide +kernel⟩,
    asked_of (by decide +kernel), by decide +kernel⟩

def lost31 : State := { inRun with fld := { inRun.fld with view := [(31, { retired := true })] } }
def lost3 : State := { inRun with cb := { inRun.cb with chs := [(3, { retired := true })] } }
def lost39 : State := { inRun with ln := { inRun.ln with lanes := [(39, { role := .retired })] } }
/-- Slot 0 waits for the completion of a long command. -/
def engaged (s : State) : State := { s with host := { s.host with slots := s.host.slots.map fun e => (e.1, { e.2 with long := some 1 }) } }
theorem test_OwnershipAndRequests_readmit : (Asked (at0 (asks .owner 0x30 [2, 0, 0, 0, 31, 0, 0, 0] [] lost31)) 0 0x30 ∧ ((at0 lost31).seenChan 31).retired = true ∧ ((at0 (asks .owner 0x30 [2, 0, 0, 0, 31, 0, 0, 0] [] lost31)).slot 0).long = none) ∧
    (Asked (at0 (asks .owner 0x30 [2, 0, 0, 0, 31, 0, 0, 0] [] inRun)) 0 0x30 ∧ ((at0 inRun).seenChan 31).retired = false) ∧
    (Asked (at0 (asks .owner 0x30 [3, 0, 0, 0, 3, 0, 0, 0] [] lost3)) 0 0x30 ∧ ((at0 lost3).canCh 3).retired = true) ∧
    (Asked (at0 (asks .owner 0x30 [0, 0, 0, 0, 39, 0, 0, 0] [] lost39)) 0 0x30 ∧ ((at0 lost39).lane 39).role = .retired) ∧
    (Asked (at0 (engaged (asks .owner 0x30 [0, 0, 0, 0, 39, 0, 0, 0] [] lost39))) 0 0x30 ∧ ((at0 (engaged (asks .owner 0x30 [0, 0, 0, 0, 39, 0, 0, 0] [] lost39))).slot 0).long.isSome = true) ∧
    (Asked (at0 (asks .owner 0x30 [0, 0, 0, 0, 39, 0, 0, 0] [] inRun)) 0 0x30 ∧ ((at0 inRun).lane 39).role ≠ .retired) :=
  ⟨⟨asked_of (by decide +kernel), by decide +kernel⟩, ⟨asked_of (by decide +kernel), by decide +kernel⟩, ⟨asked_of (by decide +kernel), by decide +kernel⟩,
    ⟨asked_of (by decide +kernel), by decide +kernel⟩, ⟨asked_of (by decide +kernel), by decide +kernel⟩, asked_of (by decide +kernel), by decide +kernel⟩

/-- The command line of loop 255 asks for the mode `m`. -/
def setMode (m : Byte) (s : State) : State := { s with can := { s.can with mem := [(0x10060100, m)] } }
/-- Loop 255 is on and runs in AUTO; a capture buffer of 64 bytes. -/
def tunes (t : Option Tune) (s : State) : State := cfgOn [(0x0608, 255, 0x10060100), (0x0621, 0, 64)] { loopOn (setMode 2 s) with lp := { s.lp with loops := [(255, { mode := 2, tune := t })] } }
/-- The end of a tune of loop 255 stands in a write set; a capture of loop 255 runs. -/
def tuneEnds : State := let s := tunes none inRun; { s with lp := { s.lp with pend := [{ cls := 0, at_ := 1000000001, bytes := [], tunes := [(255, 0, 1, 2)], capEnds := none }] } }
def capOf255 : Cap := { loop := 255, form := 0, atSp := false, dec := 1, amp := 0, par := 0, records := 0 }
def captures : State := let s := tunes none inRun; { s with lp := { s.lp with cap := some capOf255 } }
theorem test_OwnershipAndRequests_starts : (Asked (at0 (asks .operator 0x31 [255, 0xE0, 0, 0] [] (tunes none inRun))) 0 0x31 ∧ (let u := at0 (asks .operator 0x31 [255, 0xE0, 0, 0] [] (tunes none inRun));
      tuneForm 0xE0FF = true ∧ lOn u.cfg 255 = true ∧ fld (0xE0FF : Word) 12 4 = 14 ∧ fld (0xE2FF : Word) 8 2 ≠ 3 ∧ groupOf u.cfg 255 = none ∧ cmdMode u 255 = 2 ∧ (u.loop 255).mode ≠ 3 ∧ (u.loop 255).tune = none ∧ tunePending u 255 = false ∧ u.lp.cap = none)) ∧
    (Asked (at0 (asks .operator 0x31 [255, 0xF0, 0, 0] [] (tunes none inRun))) 0 0x31 ∧ tuneForm 0xF0FF = false) ∧
    (Asked (at0 (asks .observer 0x31 [255, 0x22, 0, 0] [] (tunes none inRun))) 0 0x31 ∧ tuneForm 0x22FF = true ∧ ((at0 (asks .observer 0x31 [255, 0x22, 0, 0] [] (tunes none inRun))).slot 0).role = .observer) ∧
    (Asked (at0 (asks .owner 0x31 [255, 0x22, 0, 0] [] (inStop (tunes none inRun)))) 0 0x31 ∧ (at0 (inStop inRun)).dev.state ≠ .run ∧ (at0 (inStop inRun)).dev.state ≠ .hold) ∧
    (Asked (at0 (asks .operator 0x32 [255, 0, 0, 0] [] (tunes none inRun))) 0 0x32 ∧ 64 + 16 * 0 ≤ (capBuf (at0 (tunes none inRun)).cfg).2 ∧ (at0 (tunes none inRun)).lp.cap = none) ∧
    (Asked (at0 (asks .operator 0x32 [255, 5, 0, 0] [] (tunes none inRun))) 0 0x32 ∧ capForm 0x05FF 0 = false) :=
  ⟨⟨asked_of (by decide +kernel), by decide +kernel⟩, ⟨asked_of (by decide +kernel), by decide +kernel⟩, ⟨asked_of (by decide +kernel), by decide +kernel⟩,
    ⟨asked_of (by decide +kernel), by decide +kernel⟩, ⟨asked_of (by decide +kernel), by decide +kernel⟩, asked_of (by decide +kernel), by decide +kernel⟩

theorem test_OwnershipAndRequests_aborts : readOpen (at0 (readNow inRun)) = false ∧ (Asked (at0 (asks .operator 0x33 [255, 0, 0, 0] [] (tunes (some tune) inRun))) 0 0x33 ∧ readOpen (at0 (asks .operator 0x33 [255, 0, 0, 0] [] (tunes (some tune) inRun))) = true ∧ ((at0 (tunes (some tune) inRun)).loop 255).tune = some tune) ∧
    (Asked (at0 (asks .operator 0x33 [255, 0, 0, 0] [] tuneEnds)) 0 0x33 ∧ ((at0 tuneEnds).loop 255).tune = none ∧ tunePending (at0 tuneEnds) 255 = true) ∧
    (Asked (at0 (asks .operator 0x33 [255, 1, 0, 0] [] captures)) 0 0x33 ∧ (at0 captures).lp.cap = some capOf255 ∧ capOf255.loop = 255) ∧
    (Asked (at0 (asks .operator 0x33 [255, 1, 0, 0] [] (tunes none inRun))) 0 0x33 ∧ (at0 (tunes none inRun)).lp.cap = none) ∧
    (Asked (at0 (asks .operator 0x33 [255, 0, 0, 0] [] (tunes none inRun))) 0 0x33 ∧ tunePending (at0 (tunes none inRun)) 255 = false) ∧
    (let u := at0 (asks .owner 0 [] [] { inRun with clk := { inRun.clk with opNs := 60000000000 } }); (u.slot 0).role = .owner ∧ 60000000000 ≤ leaseUsed u (u.slot 0)) ∧
    (let u := at0 (asks .owner 0 [] [] { inRun with clk := { inRun.clk with opNs := 59999999999 } }); leaseUsed u (u.slot 0) < 60000000000) :=
  ⟨by decide +kernel, ⟨asked_of (by decide +kernel), by decide +kernel⟩, ⟨asked_of (by decide +kernel), by decide +kernel⟩, ⟨asked_of (by decide +kernel), by decide +kernel⟩,
    ⟨asked_of (by decide +kernel), by decide +kernel⟩, ⟨asked_of (by decide +kernel), by decide +kernel⟩, by decide +kernel, by decide +kernel⟩

theorem password_right {s : State} {p salt : List Byte} (h : s.safe.password = some (salt, Config.pbkdf2 p salt)) : passwordOk s p = true := by
  simp [passwordOk, h]
theorem password_wrong {s : State} {p salt : List Byte} (h : s.safe.password = some (salt, 0 :: Config.pbkdf2 p salt)) : passwordOk s p = false := by
  simp [passwordOk, h]
/-- The password of eight bytes in the window. -/
def word8 : List Byte := [1, 2, 3, 4, 5, 6, 7, 8]
def guarded (k : List Byte) (n : Word) (s : State) : State := { s with safe := { s.safe with password := some ([], k), lockEnd := n, check := 5 } }
/-- SAFE_PASSWORD with the old password at the window's start, and with none; SAFE_CONFIRM and SAFE_REVOKE of slot A. -/
def changes (k : List Byte) : State := asks .owner 0x50 [8, 8, 0, 0] (word8 ++ word8) (inStop (guarded k 0 inRun))
def confirms (op : Byte) (v : Byte) (k : List Byte) (n : Word) : State := asks .owner op [0, 0, 0, 0, v, 0, 0, 0, 8, 0, 0, 0] word8 (inStop (guarded k n inRun))
def derived : List Byte := Config.pbkdf2 word8 []
theorem test_SafetyCommands : (Asked (at0 (asks .owner 0x50 [0, 64, 0, 0] [] (inStop inRun))) 0 0x50 ∧ passLen 64 = true ∧ (at0 (asks .owner 0x50 [0, 64, 0, 0] [] (inStop inRun))).safe.password = none) ∧
    (Asked (at0 (changes derived)) 0 0x50 ∧ passLen 8 = true ∧ winOk 0 16 4 = true ∧ passwordOk (at0 (changes derived)) (winBytes (at0 (changes derived)) 0 0 8) = true) ∧
    (Asked (at0 (changes (0 :: derived))) 0 0x50 ∧ passwordOk (at0 (changes (0 :: derived))) (winBytes (at0 (changes (0 :: derived))) 0 0 8) = false) ∧
    (Asked (at0 (confirms 0x51 5 derived 0)) 0 0x51 ∧ lockedOut (at0 (confirms 0x51 5 derived 0)) = false ∧ confirmValue (at0 (confirms 0x51 5 derived 0)) (0 == 1) = 5 ∧
      passwordOk (at0 (confirms 0x51 5 derived 0)) (winBytes (at0 (confirms 0x51 5 derived 0)) 0 0 8) = true) ∧
    (Asked (at0 (confirms 0x51 4 derived 0)) 0 0x51 ∧ confirmValue (at0 (confirms 0x51 4 derived 0)) (0 == 1) ≠ 4) ∧
    (Asked (at0 (confirms 0x51 5 (0 :: derived) 0)) 0 0x51 ∧ passwordOk (at0 (confirms 0x51 5 (0 :: derived) 0)) (winBytes (at0 (confirms 0x51 5 (0 :: derived) 0)) 0 0 8) = false) ∧
    (Asked (at0 (confirms 0x52 0 derived 0)) 0 0x52 ∧ passwordOk (at0 (confirms 0x52 0 derived 0)) (winBytes (at0 (confirms 0x52 0 derived 0)) 0 0 8) = true) ∧
    (Asked (at0 (confirms 0x52 0 (0 :: derived) 0)) 0 0x52 ∧ passwordOk (at0 (confirms 0x52 0 (0 :: derived) 0)) (winBytes (at0 (confirms 0x52 0 (0 :: derived) 0)) 0 0 8) = false) ∧
    (Asked (at0 (confirms 0x52 0 derived 3)) 0 0x52 ∧ lockedOut (at0 (confirms 0x52 0 derived 3)) = true) ∧
    (Asked (at0 (asks .observer 0x53 [0, 0x3E] [] inRun)) 0 0x53 ∧ winOk 0x3E00 512 4 = true) ∧
    ((at0 (confirms 0x52 0 derived 2)).safe.lockEnd ≠ 0 ∧ lockedOut (at0 (confirms 0x52 0 derived 2)) = false ∧ slotsUp (at0 (confirms 0x52 0 derived 2)) = true) := by
  have r : ∀ u : State, winBytes u 0 0 8 = word8 → u.safe.password = some ([], derived) → passwordOk u (winBytes u 0 0 8) = true := fun u h g => by
    rw [h]; exact password_right g
  have w : ∀ u : State, winBytes u 0 0 8 = word8 → u.safe.password = some ([], 0 :: derived) → passwordOk u (winBytes u 0 0 8) = false := fun u h g => by
    rw [h]; exact password_wrong g
  exact ⟨⟨asked_of (by decide +kernel), by decide +kernel, rfl⟩, ⟨asked_of (by decide +kernel), by decide +kernel, by decide +kernel, r _ (by decide +kernel) rfl⟩,
    ⟨asked_of (by decide +kernel), w _ (by decide +kernel) rfl⟩, ⟨asked_of (by decide +kernel), by decide +kernel, by decide +kernel, r _ (by decide +kernel) rfl⟩,
    ⟨asked_of (by decide +kernel), by decide +kernel⟩, ⟨asked_of (by decide +kernel), w _ (by decide +kernel) rfl⟩, ⟨asked_of (by decide +kernel), r _ (by decide +kernel) rfl⟩,
    ⟨asked_of (by decide +kernel), w _ (by decide +kernel) rfl⟩, ⟨asked_of (by decide +kernel), by decide +kernel⟩, ⟨asked_of (by decide +kernel), by decide +kernel⟩, by decide +kernel⟩

/-! ## Records, packages, service core, supplies -/

/-- The parameter store changed by `f`. -/
def store (f : Nv → Nv) (s : State) : State := { s with nv := f s.nv }
def writes : UserW := { task := 0, rno := 1023, key := 1, data := [1], setup := false }
def ctr (h : Word) (n : BitVec 256) : Ctr := { hiA := some h, hiB := some h, tag := some h, cells := n }
def waitsFor (id : BitVec 16) : Wait := { slot := 0, cid := 7, op := 5, for_ := .sysRecord id }
def oldRec : Rec :=
  { seq := 512, code := 1, rep := 0, firstS := 0, firstMs := 0, cycles := 0, state := 6, lastS := 0, lastMs := 0, contents := [], snap := [], tb := 0 }
/-- Operating time at `n` ns. -/
def opAt (n : Nat) (s : State) : State := { s with clk := { s.clk with opNs := n } }
def waiting : UserW := { writes with tag := .wait false }
theorem test_ServiceCoreWork_writes : (let u := at0 (store (fun v => { v with userW := [writes] }) inRun); u.nv.sysW = [] ∧ incReady u = false ∧ u.nv.userW = [writes] ∧ writes.tag.ready = true) ∧
    incReady (at0 (store (fun v => { v with incW := [(0, .no)] }) inRun)) = true ∧ (∀ y ∈ (at0 (store (fun v => { v with userW := [waiting] }) inRun)).nv.userW, y.tag.ready = false) ∧
    ([((0xFFFFFFFF : Word), BitVec.allOnes 256 >>> 1), (0, BitVec.allOnes 256), (5, 0)].all fun e => let v := (at0 (store (fun v => { v with incW := [(255, .has 3)], ctrs := [(255, ctr e.1 e.2)] }) inRun)).nv; let c := tabGet ({} : Ctr) v.ctrs 255; decide (v.sysW = [] ∧ v.incW = [(255, .has 3)] ∧ (TagSt.has 3).ready = true ∧ c.hiA = some e.1 ∧ c.tag = some e.1 ∧ (e.1 ≠ 0xFFFFFFFF ∨ c.cells ≠ BitVec.allOnes 256))) = true ∧
    (at0 (store (fun v => { v with sysW := [0xF001], userW := [writes] }) inRun)).nv.sysW ≠ [] ∧
    (let u := at0 (opAt 60000000000 inRun); u.op % 60000000000 = 0 ∧ u.nv.minutes < u.op / 60000000000) ∧
    ([(0xF001 : BitVec 16), 0xF002, 0xF004, 0xF005, 0xF006].all fun id => let u := at0 (store (fun v => { v with sysW := [id, 0xF003] }) inRun); decide (u.nv.sysW.head? = some id ∧ id.toNat ∈ sysIds ∧ id ≠ 0xF003 ∧ u.host.waits = [])) = true ∧
    ([(0xF001 : BitVec 16), 0xF002, 0xF004, 0xF005, 0xF006].all fun id => let s := store (fun v => { v with sysW := [id] }) inRun; let u := at0 { s with host := { s.host with waits := [waitsFor id] } }; decide (u.nv.sysW.head? = some id ∧ id.toNat ∈ sysIds ∧ id ≠ 0xF003 ∧ u.host.waits = [waitsFor id] ∧ (waitsFor id).for_ = .sysRecord id ∧ (waitsFor id).live = true ∧
        (u.slot 0).cplFull = false ∧ (u.slot 0).owed = [])) = true ∧
    (at0 (store (fun v => { v with sysW := [0xF001] }) inRun)).nv.sysW.head? ≠ some 0xF002 := by decide +kernel
theorem test_ServiceCoreWork_rest : ((at0 inRun).dev.state ≠ .off ∧ (at0 inRun).dev.state ≠ .standby) ∧
    (let v := (at0 (store (fun v => { v with buf := [oldRec] }) inRun)).nv; v.buf = [oldRec] ∧ v.overflow = 0) ∧
    (let u := at0 (tagsHeld 480 32 (store (fun v => { v with saveFrom := some 0 }) inRun)); periodicDue u = true ∧ freeTags u true = []) ∧
    freeTags (at0 (store (fun v => { v with saveFrom := some 0 }) inRun)) true ≠ [] ∧
    (∀ a : Nat, a = 0 ∨ a = 0x3FFFF → a < 0x40000) ∧ (∀ a : Nat, a = 0x20000 ∨ a = 0x3FFFF → 0x20000 ≤ a ∧ a < 0x40000) ∧
    periodicDue (at0 (store (fun v => { v with saveFrom := some 0 }) inRun)) = true ∧ periodicDue (at0 (store (fun v => { v with saveFrom := some 1 }) inRun)) = false ∧
    (let u := at0 (store (fun v => { v with copyDue := true, warmA := { hdrOk := true, seq := 2 }, warmB := { hdrOk := true, seq := 1 } }) inRun); u.nv.copyDue = true ∧ newestWarm u = some false) ∧
    (let u := at0 (store (fun v => { v with copyDue := true, warmB := { hdrOk := true, seq := 1 } }) inRun); u.nv.copyDue = true ∧ newestWarm u = some true) :=
  ⟨by decide +kernel, by decide +kernel, by decide +kernel, by decide +kernel, fun a h => by rcases h with rfl | rfl <;> decide, fun a h => by rcases h with rfl | rfl <;> decide, by decide +kernel⟩

/-- The packages changed by `f`. -/
def pkgs (f : Pkg → Pkg) (s : State) : State := { s with pkg := f s.pkg }
/-- A NOR die that holds `l` from address `a` on. -/
def nors (a : Nat) (l : List Byte) (s : State) : State :=
  { s with svc := { s.svc with nor := ((List.range l.length).zip l).map fun e => (a + e.1, e.2) } }
/-- A package of one word, with the sections CODE and LAYOUT and the key 0. -/
def image : List Byte :=
  [0x53, 0x50, 0x4B, 0x47, 1, 0, 0, 0, 172, 0, 0, 0, 1, 0, 0, 0] ++ [0, 0, 0, 0, 0, 0, 0, 0, 0x88, 0x13, 0, 2, 9, 0, 0, 0] ++ List.replicate 32 0 ++
  [1, 0, 0, 0, 96, 0, 0, 0, 2, 0, 0, 0, 0, 0, 0, 0] ++ [3, 0, 0, 0, 98, 0, 0, 0, 0, 0, 0, 0, 0, 0, 0, 0] ++ List.replicate 76 0
/-- The package stands in slot B (A), whose key is enrolled; slot B is LOADED (or RETIRED). -/
def loaded (b : Bool) (st : BitVec 3) (s : State) : State :=
  nors (slotBase b) image (pkgs (fun p => { p with keys := [(0, some [1])], stB := if b then st else p.stB, stA := if b then p.stA else st }) s)
/-- The form of the package is right and nothing of it is lost: what the opaque signature check answers decides. -/
theorem image_ok (b : Bool) (st : BitVec 3) (s : State) (h : pkgForm (loaded b st s) b = true) (g : pkgLost (loaded b st s) b = false)
    (k : pkgSigned (loaded b st s) b = true) : pkgCheck (loaded b st s) b = 0 := by simp [pkgCheck, h, g, k]
theorem image_form : (∀ b, pkgForm (loaded b 2 inRun) b = true ∧ pkgLost (loaded b 2 inRun) b = false) ∧ (∀ b, pkgForm inRun b = false) := by decide +kernel
def loadsOf (l : Load) : State := pkgs (fun p => { p with load := some l }) inRun
/-- A load of slot B of 16 KB, and one of the length of `image`. -/
def open_ (n : Nat) : Load := { slotB := true, len := n }
theorem test_PackageCommands_load : ([[(0 : Byte), 0, 0x80, 1], [4, 0, 0, 0]].all fun a => let u := at0 (asks .owner 0x40 a [] inRun); decide (askedB u 0x40 = true ∧ 0 < leAt (headEntry (u.slot 0)) 8 4 ∧ leAt (headEntry (u.slot 0)) 8 4 % 4 = 0 ∧ leAt (headEntry (u.slot 0)) 8 4 ≤ slotSize ∧ (u.slot 0).role = .owner ∧
        inSrh u = true ∧ u.pkg.load = none ∧ u.pkg.exch.run = none ∧ u.pkg.exch.staged = none ∧ (u.slot 0).long = none)) = true ∧
    (let u := at0 (asks .owner 0x41 [0, 0, 0, 0, 0, 0x40, 0, 0, 0, 0] [] (loadsOf (open_ 16384))); let e := headEntry (u.slot 0)
      askedB u 0x41 = true ∧ leAt e 12 4 = 16384 ∧ winOk (leAt e 16 2) 16384 4 = true ∧ u.pkg.load = some (open_ 16384) ∧ erasing u .load = false ∧ leAt e 8 4 + 16384 ≤ (open_ 16384).len) ∧
    (let u := at0 (asks .owner 0x42 [] [] (loadsOf (open_ 172))); askedB u 0x42 = true ∧ u.pkg.load = some (open_ 172) ∧ erasing u .load = false ∧ (open_ 172).closing = none ∧ (u.slot 0).long = none ∧
      pkgCheck u true = stBadForm ∧ stBadForm ≠ 0) ∧
    (let u := at0 (asks .owner 0x43 [] [] (loadsOf (open_ 172))); askedB u 0x43 = true ∧ u.pkg.load = some (open_ 172) ∧ u.host.waits = []) ∧
    (askedB (at0 (asks .owner 0x42 [] [] inRun)) 0x42 = true ∧ askedB (at0 (asks .owner 0x43 [] [] inRun)) 0x43 = true) := by decide +kernel
/-- PKG_CLOSE of a package whose form is right: it depends on the opaque signature check alone which clause applies. -/
theorem test_PackageCommands_close : (let u := at0 (asks .owner 0x42 [] [] (loaded true 2 (loadsOf (open_ 172))));
      askedB u 0x42 = true ∧ u.pkg.load = some (open_ 172) ∧ erasing u .load = false ∧ (u.slot 0).long = none ∧ pkgForm u true = true ∧ pkgLost u true = false) ∧
    pkgSigned (at0 (asks .owner 0x42 [] [] (loaded true 2 (loadsOf (open_ 172))))) true =
      Config.ecdsaP256 [1] (Config.sha256 (image.take 100)) (image.drop 108) := by
  refine ⟨by decide +kernel, ?_⟩
  have h : ∀ u : State, pkgKeyIndex u true = 0 → tabGet none u.pkg.keys 0 = some [1] → norBytes u (slotBase true) (pkgLength u true - 72) = image.take 100 →
      norBytes u (slotBase true + pkgLength u true - 64) 64 = image.drop 108 → pkgSigned u true = Config.ecdsaP256 [1] (Config.sha256 (image.take 100)) (image.drop 108) := by
    intro u h1 h2 h3 h4
    simp [pkgSigned, h1, h2, h3, h4]
  exact h _ (by decide +kernel) (by decide +kernel) (by decide +kernel) (by decide +kernel)

def usableB (u : State) : Bool := (List.range 40).any fun j => decide ((u.lane j).role ≠ .retired) && (u.lane j).test.isNone
def plan : Plan := { id := 1, pause := 5, coord := [], cfg := [], mem := [], check := 0, hdr := { pack with base := 0x100000 }, slotB := true }
def exch (f : Exch → Exch) : State := pkgs (fun p => { p with hdr := some pack, exch := f p.exch }) inRun
theorem test_PackageCommands_calm : Calm (at0 (asks .owner 0x44 [] [] (inStop (loaded true 2 inRun)))) ∧ Calm (at0 (asks .owner 0x45 [] [] (inStop (loaded true 4 inRun)))) := by
  unfold Calm; decide +kernel
theorem test_PackageCommands_exchange : ([((0x44 : Byte), (2 : BitVec 3)), (0x45, 4), (0x44, 3), (0x45, 2)].all fun e => let u := at0 (asks .owner e.1 [] [] (inStop (loaded true e.2 inRun))); decide (askedB u e.1.toNat = true ∧ (u.slot 0).role = .owner ∧ u.moving = false ∧ twdDue u = false ∧ u.dev.state = .stop ∧
        (u.slot 0).long = none ∧ u.pkg.st (!u.pkg.active) = e.2 ∧ usableB u = true ∧ freeTags u true ≠ [])) = true ∧
    (let u := at0 (tagsHeld 480 32 (asks .owner 0x44 [] [] (inStop (loaded true 2 inRun)))); askedB u 0x44 = true ∧ u.pkg.st true = 2 ∧ freeTags u true = []) ∧
    (let u := at0 (asks .owner 0x46 [0] [] (pkgs (fun p => { p with hdr := some pack, stB := 2 }) inRun)); askedB u 0x46 = true ∧ (u.slot 0).role = .owner ∧ u.dev.state = .run ∧
      exchangeable u ((byteAt (headEntry (u.slot 0)) 8).getLsbD 0) = true ∧ stageSpare u = some 39 ∧ u.pkg.exch.staged = none ∧ u.pkg.exch.run = none ∧ (u.slot 0).long = none) ∧
    (let u := at0 (asks .owner 0x46 [1] [] (pkgs (fun p => { p with hdr := some pack, stB := 2 }) inRun)); askedB u 0x46 = true ∧
      exchangeable u ((byteAt (headEntry (u.slot 0)) 8).getLsbD 0) = false) ∧
    (let u := at0 (asks .owner 0x47 [1, 0, 0, 0, 5, 0, 0, 0] [] (exch fun x => { x with plan := some plan })); askedB u 0x47 = true ∧ u.pkg.exch.plan = some plan ∧ plan.unconfirmed = false ∧
      plan.id.toNat = leAt (headEntry (u.slot 0)) 8 2 ∧ plan.pause = leAt (headEntry (u.slot 0)) 12 4 ∧ u.pkg.exch.run = none ∧ (u.slot 0).long = none) ∧
    (askedB (at0 (asks .owner 0x47 [] [] inRun)) 0x47 = true ∧ (at0 (asks .owner 0x47 [] [] inRun)).pkg.exch.plan = none) ∧
    (at0 (exch fun x => { x with plan := some { plan with unconfirmed := true } })).pkg.exch.plan = some { plan with unconfirmed := true } ∧
    (let u := at0 (asks .owner 0x48 [] [] (exch fun x => { x with run := some (plan, 1000000000) })); askedB u 0x48 = true ∧ u.pkg.exch.run.isSome = true ∧ u.pkg.exch.epochPassed = false ∧ u.host.waits = []) ∧
    (let u := at0 (asks .owner 0x48 [] [] (exch fun x => { x with run := some (plan, 1000000000), epochPassed := true })); askedB u 0x48 = true ∧ u.pkg.exch.epochPassed = true) ∧
    (let u := at0 (exch fun x => { x with run := some (plan, 1000000000) }); u.pkg.exch.run = some (plan, 1000000000) ∧ u.pkg.exch.epochPassed = false ∧ 1000000000 ≤ u.now ∧ u.pkg.load = none) ∧
    (let u := at0 (exch fun x => { x with run := some (plan, 1000000001) }); u.pkg.exch.run = some (plan, 1000000001) ∧ u.now < 1000000001) := by decide +kernel

/-- The service core changed by `f`. -/
def core_ (f : Svc → Svc) (s : State) : State := { s with svc := f s.svc }
/-- A firmware image of 192 bytes in the capture area. -/
def captured (l : Bool) (st : BitVec 2) (s : State) : State :=
  core_ (fun v => { v with cap := { state := st, loader := l, len := 192, pause := 661 } })
    (nors capBase ([0x53, 0x46, 0x57, 0x49, 0x41, 0, 0, 0, 192, 0, 0, 0] ++ List.replicate 180 0) s)
/-- A firmware install that runs, with these erases to come. -/
def installs (l : List (Nat × EraseUse)) (s : State) : State := core_ (fun v => { v with install := some (false, 0), erases := l }) s
/-- The FW_INSTALL of slot 1 that waits for it. -/
def installer : Wait := { slot := 1, cid := 7, op := 0x65, for_ := .install }
theorem test_FirmwareService_commands : askedB (at0 (asks .observer 0x60 [] [] inRun)) 0x60 = true ∧
    ([([(0 : Byte), 0, 0x40, 0, 0], false), ([0, 0, 4, 0, 1], true), ([4, 0, 0, 0, 0], false)].all fun e => let u := at0 (asks .owner 0x61 e.1 [] inRun); let h := headEntry (u.slot 0); decide (askedB u 0x61 = true ∧ (byteAt h 12).toNat ≤ 1 ∧ (byteAt h 12 == 1) = e.2 ∧ 0 < leAt h 8 4 ∧ leAt h 8 4 % 4 = 0 ∧ leAt h 8 4 ≤ (imageRegion e.2).2 ∧ fwMay u 0 = true ∧
        u.svc.install = none ∧ erasing u .capture = false)) = true ∧
    (let u := at0 (asks .owner 0x62 [0, 0, 0, 0, 0, 0x40, 0, 0, 0, 0] [] (core_ (fun v => { v with cap := { state := 1, len := 16384 } }) inRun)); let h := headEntry (u.slot 0)
      askedB u 0x62 = true ∧ leAt h 12 4 = 16384 ∧ winOk (leAt h 16 2) 16384 4 = true ∧ fwMay u 0 = true ∧ u.svc.cap.state = 1 ∧ erasing u .capture = false ∧ leAt h 8 4 + 16384 ≤ u.svc.cap.len) ∧
    (let u := at0 (asks .owner 0x63 [] [] (captured false 1 inRun)); askedB u 0x63 = true ∧ fwMay u 0 = true ∧ u.svc.cap.state = 1 ∧ erasing u .capture = false ∧
      imageForm u capBase false = true) ∧
    (let u := at0 (asks .owner 0x63 [] [] (captured true 1 inRun)); askedB u 0x63 = true ∧ imageForm u capBase true = false ∧ imageFails u capBase true = 1) ∧
    (let u := at0 (asks .owner 0x64 [] [] (captured false 1 inRun)); askedB u 0x64 = true ∧ fwMay u 0 = true ∧ u.svc.cap.state = 1 ∧ u.host.waits = []) ∧
    (let u := at0 (asks .owner 0x64 [] [] inRun); askedB u 0x64 = true ∧ fwMay u 0 = true ∧ u.svc.cap.state ≠ 1 ∧ u.svc.install = none) ∧
    (let u := at0 (asks .owner 0x64 [] [] (installs [(0, .firmware)] inRun)); askedB u 0x64 = true ∧ u.svc.cap.state ≠ 1 ∧ u.svc.installBegun = true) ∧
    (let u := at0 (asks .owner 0x64 [] [] (installs [(113, .refresh), (0, .firmware)] inRun)); askedB u 0x64 = true ∧ u.svc.install.isSome = true ∧ u.svc.installBegun = false ∧ u.host.waits = []) ∧
    (let s := asks .owner 0x64 [] [] (installs [(113, .refresh), (0, .firmware)] inRun); let u := at0 { s with host := { s.host with waits := [installer] } };
      askedB u 0x64 = true ∧ u.svc.installBegun = false ∧ u.host.waits = [installer] ∧ installer.for_ = .install ∧ installer.live = true ∧ installer.slot ≠ 0 ∧
      (u.slot installer.slot).cplFull = false ∧ (u.slot installer.slot).owed = []) ∧
    (let u := at0 (asks .owner 0x65 [0, 0, 0, 0, 0x95, 2, 0, 0] [] (captured false 2 inRun)); askedB u 0x65 = true ∧ fwMay u 0 = true ∧ u.svc.cap.state = 2 ∧ u.pkg.load = none ∧ u.svc.install = none ∧
      leAt (headEntry (u.slot 0)) 12 4 = u.svc.cap.pause ∧ regionFails u true = 0) ∧
    (let u := at0 (asks .owner 0x65 [0, 0, 0, 0, 0x96, 2, 0, 0] [] (captured false 2 inRun)); askedB u 0x65 = true ∧ u.svc.cap.state = 2 ∧ leAt (headEntry (u.slot 0)) 12 4 ≠ u.svc.cap.pause) ∧
    (let u := at0 (asks .owner 0x66 [] [] inRun); askedB u 0x66 = true ∧ (u.slot 0).role = .owner ∧ inSrh u = true ∧ u.svc.refresh.running = false) := by decide +kernel

/-- The request 3, unanswered for 2 ms, after `k` answered ones; ten of which the last is late at this instant. -/
def asked3 : HsReq := { n := 3, issued := 998000000 }
def replied (k : Nat) : List HsReq := (List.range k).map fun j => { n := j + 1, issued := 990000000, answered := some true }
def toldOf (r : HsReq) : List HsReq := replied 2 ++ [{ r with answered := some true }]
def lost10 : List HsReq := ((List.range 9).map fun j => { n := j, issued := 980000000 + 1000000 * j, answered := some false }) ++ [{ n := 9, issued := 998000000 }]
def lateOf (u : State) : List HsReq :=
  u.svc.hsReqs.map fun y => if y.answered.isNone && decide (y.issued + 2000000 ≤ u.now) then { y with answered := some false } else y
/-- Fewer requests than `k` hold no run of `k`. -/
theorem no_run {k : Nat} {l : List HsReq} (h : l.length < k) (ok : Bool) :
    ¬ ∃ pre mid post, l = pre ++ mid ++ post ∧ mid.length = k ∧ ∀ y ∈ mid, y.answered = some ok := by
  rintro ⟨p, m, q, rfl, hm, -⟩
  simp only [List.length_append] at h
  omega
theorem test_FirmwareService_die : (let u := at0 (core_ (fun v => { v with hsOn := true }) inRun); u.svc.hsOn = true ∧ u.dev.state.served = true ∧ u.now % 1000000 = 0) ∧
    (let u := at0 (core_ (fun v => { v with answering := false, hsReqs := replied 2 ++ [asked3] }) inRun); asked3 ∈ u.svc.hsReqs ∧ asked3.answered = none ∧ u.now ≤ asked3.issued + 2000000 ∧
      u.svc.install = none ∧ u.svc.answering = false ∧ u.svc.hsReqs.map (fun y => if y.n = 3 then { y with answered := some true } else y) = [] ++ toldOf asked3 ++ []) ∧
    (let u := at0 (installs [] (core_ (fun v => { v with hsReqs := [asked3], cap := { pause := 2000 } }) inRun)); asked3 ∈ u.svc.hsReqs ∧ u.svc.install = some (false, 0) ∧ erasing u .firmware = false ∧
      u.dev.state ≠ .recovery ∧ 0 + u.svc.cap.pause * 1000000 ≤ u.op) ∧
    (∀ y ∈ (at0 (core_ (fun v => { v with hsReqs := [{ asked3 with issued := 997999999 }] }) inRun)).svc.hsReqs, y.n = 3 → y.answered = none → y.issued + 2000000 < (at0 inRun).now) ∧
    (let u := at0 (core_ (fun v => { v with hsReqs := lost10 }) inRun); u.svc.answering = true ∧ lateOf u = [] ++ lateOf u ++ [] ∧ (lateOf u).length = 10 ∧ ∀ y ∈ lateOf u, y.answered = some false) ∧ Calm (at0 inRun) ∧ twdDue (at0 inRun) = false ∧
    (let u := at0 (core_ (fun v => { v with erases := [(113, .load), (114, .load)], eraseAt := 1400000000 }) inRun); slotsUp u = true ∧ u.svc.erases = (113, EraseUse.load) :: (114, .load) :: [] ∧
      u.op - u.svc.eraseAt ≤ 600000000 ∧ u.svc.eraseAt + 600000000 ≤ u.op) ∧
    (let u := at0 (core_ (fun v => { v with refresh := { v.refresh with due := 2 } }) inRun); u.clk.fwRuns = true ∧ u.svc.refresh.due.toNat ≤ u.opSec ∧ u.svc.refresh.running = false) ∧
    (let u := at0 (core_ (fun v => { v with refresh := { v.refresh with running := true, next := 225 } }) inRun); refreshMay u = true ∧ refreshNext u = some 225) ∧
    (∀ blk : Nat, blk = 0 ∨ blk = 225 → blk < 226) := by
  refine ⟨by decide +kernel, by decide +kernel, by decide +kernel, by decide +kernel, by decide +kernel, ?_, by decide +kernel, by decide +kernel, by decide +kernel, by decide +kernel, ?_⟩
  · unfold Calm; decide +kernel
  · rintro blk (rfl | rfl) <;> decide

/-- Clocks, supplies and watchdog changed. -/
def clks (f : Clk → Clk) (s : State) : State := { s with clk := f s.clk }
def wds (f : Wd → Wd) (s : State) : State := { s with wd := f s.wd }
def inOff : State := moved { cause := 0x03, left := .run, entered := .off, ok := rfl } inRun
def inStandby (s : State) : State := moved { cause := 0x19, left := .stop, entered := .standby, ok := rfl } s
theorem test_PowerClocksAndWatchdog_supplies : (at0 inOff).dev.state = .off ∧ (at0 inRun).dev.state ≠ .off ∧
    (let s := inStandby inRun; let u := at0 { s with dev := { s.dev with lastMove := some 999000000 } }; u.dev.state = .standby ∧ u.clk.loadOn = true ∧
      u.dev.lastMove.getD 0 + 1000000 ≤ u.now ∧ u.clk.wakeHeld = none) ∧
    ([1, 2, 3].all fun n => let c : BitVec 3 := 7 ^^^ BitVec.ofNat 3 (1 <<< (n - 1)); let u := fun g : Clk → Clk => at0 (inStandby (clks (fun c' => g { c' with loadOn := false, wakeArmed := some c }) inRun)); decide ((u id).dev.state = .standby ∧ (u id).clk.wakeArmed = some c ∧ c.getLsbD (n - 1) = false ∧ (u id).clk.loadOn = false ∧ (u id).clk.warn = false ∧
        (u fun x => { x with loadOn := true }).clk.loadOn = true ∧ (u fun x => { x with loadOn := true }).clk.wakeHeld = none ∧
        (u fun x => { x with warn := true }).clk.warn = true ∧ (7 : BitVec 3).getLsbD (n - 1) = true)) = true ∧
    ((at0 inRun).clk.warn = false ∧ isRunning (at0 inRun) = true ∧ freeTags (at0 inRun) true ≠ [] ∧ freeTags (at0 (tagsHeld 480 32 inRun)) true = [] ∧ (∀ y, savingNow (at0 (tagsHeld 480 32 inRun)) = some y → y.slot = none) ∧
      savingNow (at0 inRun) = none ∧ (at0 (inStop inRun)).dev.state = .stop ∧ (at0 (clks (fun c => { c with warn := true }) inRun)).clk.warn = true) ∧
    ((at0 inRun).dev.state ≠ .standby ∧ (at0 inRun).clk.lock = true) := by decide +kernel

theorem test_PowerClocksAndWatchdog_watchdog : (let u := at0 (wds (fun w => { w with count := 2000 * 100000000 / 105 }) inRun); wdCounts u = true ∧ wdLimit u ≤ u.wd.count) ∧
    (let u := at0 (wds (fun w => { w with count := 2000 * 100000000 / 105 - 1 }) inRun); wdCounts u = true ∧ u.wd.count < wdLimit u) ∧
    wdCounts (at0 (wds (fun w => { w with enabled := false }) inRun)) = false ∧
    ((at0 inRun).wd.clkXfo = false ∧ (at0 inRun).wd.clkXfo ≠ true ∧ (at0 inRun).wd.monOk = true ∧ (at0 inRun).wd.lock = false) ∧
    (fld (0xFFFF5EED : Word) 0 16 = 0x5EED ∧ fld (0 : Word) 0 16 ≠ 0x5EED ∧ fld (0xA5C3 : Word) 0 16 = 0xA5C3 ∧ fld (0x3C5A : Word) 0 16 = 0x3C5A ∧ fld (0x4C4B : Word) 0 16 = 0x4C4B ∧
      fld (0 : Word) 0 16 ≠ 0x4C4B) ∧
    (let u := at0 (wds (fun w => { w with disAt := some 1999900000 }) inRun); u.wd.disAt = some 1999900000 ∧ u.op ≤ 1999900000 + 100000 ∧ u.wd.lock = false) ∧
    (at0 (wds (fun w => { w with lock := true }) inRun)).wd.lock = true ∧
    clockPresent (at0 inRun) false = true ∧ clockPresent (at0 (clks (fun c => { c with lfo := false }) inRun)) false = false := by decide +kernel

/-- BOOT with the firmware running and the PLL locked. -/
def booted (b : Bool) (st : BitVec 3) : State :=
  moved { cause := 0x01, left := .off, entered := .boot, ok := rfl } (loaded b st inRun)
theorem test_BootAndSetupLimit : (awaitsLock (at0 State.reset) = true ∧ (at0 State.reset).tap.testEn = false ∧ (at0 State.reset).clk.recoveryReq = false ∧ regionFails (at0 State.reset) false = 0) ∧
    (let u := at0 (core_ (fun v => { v with fwShipped := false }) State.reset); awaitsLock u = true ∧ u.tap.testEn = false ∧ regionFails u false ≠ 0) ∧
    (let u := at0 (clks (fun c => { c with recoveryReq := true }) State.reset); awaitsLock u = true ∧ u.tap.testEn = false ∧ u.clk.recoveryReq = true) ∧
    (let u := at0 { State.reset with tap := { testEn := true } }; awaitsLock u = true ∧ u.tap.testEn = true) ∧ awaitsLock (at0 inRun) = false ∧
    (let u := at0 (booted false 3); u.dev.state = .boot ∧ u.clk.fwRuns = true ∧ u.clk.lock = true ∧ u.pkg.active = false ∧ u.pkg.st false = 3 ∧ pkgForm u false = true ∧ pkgLost u false = false ∧
      (u.lane 0).role ≠ .retired ∧ (u.lane 0).test = none) ∧
    ([(2 : BitVec 3), 4].all fun st => let u := at0 (booted true st); decide (u.dev.state = .boot ∧ u.clk.fwRuns = true ∧ u.clk.lock = true ∧ u.pkg.st false ≠ 3 ∧ u.pkg.st true = st ∧ pkgForm u true = true ∧
      pkgLost u true = false ∧ (u.lane 0).role ≠ .retired ∧ (u.lane 0).test = none)) = true ∧
    (let u := at0 (booted true 1); u.pkg.st false ≠ 3 ∧ u.pkg.st true ≠ 2 ∧ u.pkg.st true ≠ 4) ∧ (∃ j : LaneId, ∀ y ∈ [((0 : LaneId), TestPart.logic)], y.1 ≠ j) ∧ (at0 inRun).dev.state ≠ .boot := by
  refine ⟨by decide +kernel, by decide +kernel, by decide +kernel, by decide +kernel, by decide +kernel, by decide +kernel, by decide +kernel, by decide +kernel, ⟨1, by decide +kernel⟩, by decide +kernel⟩
theorem test_BootAndSetupLimit_limit : (let u := at0 (clks (fun c => { c with tb := 5000000000 }) (setup cpy)); u.dev.state = .setup ∧ u.seq.setupAt + 5000000000 ≤ u.now) ∧
    (let u := at0 (clks (fun c => { c with tb := 6000000000 }) (withInst 65 inst (exch fun x => { x with staged := some ([], []) }))); u.dev.state ≠ .setup ∧ u.inst 65 = some inst ∧
      inst.rel + 5000000000 ≤ u.now ∧ u.pkg.exch.staged.isSome = true) ∧
    ((at0 inRun).dev.state ≠ .setup ∧ (at0 inRun).inst 65 = none) := by decide +kernel

theorem test_TapInstructions : (at0 inRun).tap.testEn = false ∧ (at0 { inRun with tap := { testEn := true } }).tap.testEn = true ∧
    ¬ ((at0 inOff).dev.state ≠ .off ∧ (at0 inOff).dev.state ≠ .standby) := by decide +kernel

/-! ## Yelx -/

/-- Port 0 on with a cycle of 8 ms, its stations 0 and 1 with four input bytes each; the port, its stations and the rest of the fabric
as given. -/
def wired (x : Port) (st : Tab Sta) (f : Yelx → Yelx) : State :=
  let s := cfgOn [(0x0510, 0, 0x80000000), (0x0507, 0, 0x80000004), (0x0507, 1, 0x80000004), (0x0508, 0, 0), (0x0508, 1, 2)] { inRun with pkg := {}, nv := { inRun.nv with identOk := false } }
  { s with yl := f { s.yl with ports := [(0, x)], stas := st } }
/-- Ports 0 and 1 as a closed line, of which the BASIC task 0 declares group 0. -/
def closed (x y : Port) : State :=
  let s := cfgOn [(0x0502, 0, 0x100), (0x0203, 0, 0x90000000), (0x020D, 0, 1), (0x0280, 0, 0x10000000)] (wired x [] id)
  { s with yl := { s.yl with ports := [(0, x), (1, y)] } }
/-- What a Yelx command acts on when no time passes. -/
def atY (s : State) : State := departAll (at0 s)
theorem test_YelxLinkAndCycle_ports : (atY (wired { state := 1 } [] id)).port 0 = { state := 1 } ∧
    (let u := atY (wired { state := 2 } [(0, { state := 2 })] id); (u.port 0).state = 2 ∧ pClosed u.cfg 0 = false ∧ 1 ∈ pStas u.cfg 0 ∧ (u.sta 1).admitted = false ∧
      (∀ j ∈ pStas u.cfg 0, j < 1 → (u.sta j).admitted = true)) ∧
    ([(2 : BitVec 3), 3, 4].all fun n => let u := atY (wired { state := n } [] id); decide ((u.port 0).state = n ∧ pClosed u.cfg 0 = false ∧ u.yl.trans = [] ∧ u.yl.waits = [])) = true ∧
    (let u := atY (closed { state := 4 } { state := 1 }); pClosed u.cfg 0 = true ∧ (u.port 0).link = true ∧ (u.port (pairPort 0)).link = false ∧ u.yl.trans = [] ∧ u.yl.waits = [] ∧
      (u.port 0).lossSaid = false ∧ lineBasic u.cfg (0 / 2 * 2) = true ∧ u.dev.state = .run ∧ twdDue u = false) ∧ (let u := atY (wired { state := 2, syncingAt := 990000000 } [] id); (u.port 0).state = 2 ∧ (u.port 0).syncingAt + 10000000 ≤ u.now) ∧ Calm (atY (closed { state := 4 } { state := 1 })) ∧
    ([(1 : BitVec 3), 2].all fun n => let u := atY (wired { state := n, noLinkAt := 500000000 } [] id); decide ((u.port 0).state = n ∧ (u.port 0).noLinkAt + yPortLoss u.cfg ≤ u.now)) = true ∧
    (let u := atY (wired { state := 1, noLinkAt := 500000001 } [] id); u.now < (u.port 0).noLinkAt + yPortLoss u.cfg) ∧
    (let u := atY (wired { state := 3, passSta := 32, admitAt := 990000000 } [] id); (u.port 0).state = 3 ∧ 32 ≤ (u.port 0).passSta ∧ (u.port 0).admitAt + 10000000 ≤ u.now) ∧
    (let u := atY (wired { state := 3, passSta := 32, admitAt := 990000001 } [] id); u.now < (u.port 0).admitAt + 10000000) ∧
    (let u := atY (wired { state := 2, syncingAt := 990000001 } [] id); u.now < (u.port 0).syncingAt + 10000000) ∧
    (let u := atY (wired { state := 4, discovers := 4 } [] id); 4 ≤ (u.port 0).discovers) ∧
    (let u := atY (wired { state := 4 } [(0, { state := 2 }), (1, { discoverAt := 900000000 })] id); homePort u.cfg 0 = 0 ∧ (u.port 0).state = 4 ∧ u.yl.trans = [] ∧ u.yl.waits = [] ∧ (u.port 0).discovers < 4 ∧ 1 ∈ pStas u.cfg 0 ∧
      ((u.sta 1).admitted = false ∧ (u.sta 1).discoverAt + 100000000 ≤ u.now) ∧ (∀ j ∈ pStas u.cfg 0, j < 1 → ¬ ((u.sta j).admitted = false ∧ (u.sta j).discoverAt + 100000000 ≤ u.now))) ∧
    (atY (wired {} [] id)).port (pairPort 0) = {} := by
  refine ⟨by decide +kernel, by decide +kernel, by decide +kernel, by decide +kernel, by decide +kernel, by unfold Calm; decide +kernel, by decide +kernel⟩
/-- Both stations have answered in the cycle that began at `e`. -/
def both : Tab Sta := [(0, { state := 3, arrived := some [1, 2, 3, 4] }), (1, { state := 3, arrived := some [5, 6, 7, 8] })]
theorem test_YelxLinkAndCycle_cycles : (let u := atY (wired { state := 4 } [] id); pOn u.cfg 0 = true ∧ (u.port 0).state ≠ 0 ∧ u.now % pCycle u.cfg 0 = 0 ∧ (u.port 0).t0 ≠ some u.now ∧
      pClosed u.cfg 0 = false ∧ (u.port 0).link = true ∧ activeHdr u = none) ∧
    (let u := atY (wired { state := 4, t0 := some 1000000000 } [] id); (u.port 0).t0 = some u.now) ∧
    (let u := atY (wired { state := 4, t0 := some 992000000 } both id); (u.port 0).t0 = some 992000000 ∧ 992000000 + pCycle u.cfg 0 ≤ u.now ∧ pClosed u.cfg 0 = false ∧ u.yl.trans = [] ∧ u.yl.waits = [] ∧
      0 ∈ pStas u.cfg 0 ∧ (u.sta 0).arrived = some [1, 2, 3, 4] ∧ (u.sta 1).arrived = some [5, 6, 7, 8] ∧ pStas u.cfg 0 = [0, 1] ∧ sI u.cfg 0 + 4 ≤ sI u.cfg 1) ∧
    (let u := atY (wired { state := 4, t0 := some 992000001 } [] id); (u.port 0).t0 = some 992000001 ∧ u.now < 992000001 + pCycle u.cfg 0) := by decide +kernel

/-- IMGR: the flag of outputs taken, and four input bytes. -/
def fImgr : List Byte := [2, 0, 0, 0, 0, 0, 2, 9, 9, 9, 9, 9, 136, 181, 18, 128, 0, 0, 7, 0, 5, 128, 0, 0, 0, 0, 20, 0, 0, 0, 2, 0, 0, 0, 0, 0, 0, 0, 0, 0, 0, 0, 0, 0, 0, 0, 11, 12, 13, 14, 192, 68, 134, 231, 180, 198, 241, 114]
/-- ACK with a wrong FCS. -/
def fTorn : List Byte := [2, 0, 0, 0, 0, 0, 2, 9, 9, 9, 9, 9, 136, 181, 25, 128, 0, 0, 7, 0, 5, 128, 0, 0, 0, 0, 0, 0, 0, 0, 118, 29, 186, 221, 132, 193, 237, 38]
/-- ACK with a wrong CRC of its own. -/
def fInner : List Byte := [2, 0, 0, 0, 0, 0, 2, 9, 9, 9, 9, 9, 136, 181, 25, 128, 0, 0, 7, 0, 5, 128, 0, 0, 0, 0, 0, 0, 0, 0, 119, 29, 186, 221, 224, 166, 81, 158]
/-- A frame of 17 bytes. -/
def fShort : List Byte := [2, 0, 0, 0, 0, 0, 2, 9, 9, 9, 9, 9, 136, 7, 21, 208, 146]
/-- ACK. -/
def fAck : List Byte := [2, 0, 0, 0, 0, 0, 2, 9, 9, 9, 9, 9, 136, 181, 25, 128, 0, 0, 7, 0, 5, 128, 0, 0, 0, 0, 0, 0, 0, 0, 118, 29, 186, 221, 133, 193, 237, 38]
/-- NAK with the reason 0x02. -/
def fNak2 : List Byte := [2, 0, 0, 0, 0, 0, 2, 9, 9, 9, 9, 9, 136, 181, 26, 128, 0, 0, 7, 0, 5, 128, 0, 0, 0, 0, 1, 0, 0, 0, 2, 19, 33, 158, 60, 47, 229, 99, 202]
/-- NAK with the reason 0x05. -/
def fNak5 : List Byte := [2, 0, 0, 0, 0, 0, 2, 9, 9, 9, 9, 9, 136, 181, 26, 128, 0, 0, 7, 0, 5, 128, 0, 0, 0, 0, 1, 0, 0, 0, 5, 248, 69, 84, 232, 243, 181, 72, 134]
/-- IDENT: type 77, four input bytes at most. -/
def fIdent : List Byte := [2, 0, 0, 0, 0, 0, 2, 9, 9, 9, 9, 9, 136, 181, 24, 128, 0, 129, 7, 0, 5, 128, 0, 0, 0, 0, 20, 0, 0, 0, 77, 0, 0, 0, 0, 0, 0, 0, 0, 0, 0, 0, 4, 0, 0, 0, 0, 0, 0, 0, 21, 111, 193, 116, 249, 113, 141, 6]
/-- SYNC reply. -/
def fSync : List Byte := [2, 0, 0, 0, 0, 0, 2, 9, 9, 9, 9, 9, 136, 181, 22, 128, 0, 2, 7, 0, 5, 128, 0, 0, 0, 0, 24, 0, 0, 0, 192, 135, 139, 59, 0, 0, 0, 0, 100, 0, 0, 0, 0, 0, 0, 0, 44, 1, 0, 0, 0, 0, 0, 0, 207, 128, 133, 84, 74, 119, 41, 222]
/-- MBX response. -/
def fMbx : List Byte := [2, 0, 0, 0, 0, 0, 2, 9, 9, 9, 9, 9, 136, 181, 23, 128, 0, 0, 7, 0, 5, 128, 0, 0, 0, 0, 2, 0, 0, 0, 1, 2, 128, 241, 170, 249, 55, 130, 214, 238]
/-- A CYC frame of port 1 that has come round. -/
def fBack : List Byte := [2, 0, 0, 0, 0, 0, 2, 0, 0, 0, 0, 1, 136, 181, 17, 0, 0, 0, 0, 0, 5, 128, 4, 0, 0, 0, 0, 0, 0, 0, 15, 54, 20, 201, 134, 80, 130, 19]
/-- The transaction with the tag 5, to station 0 of port 0. -/
def trans (typ : BitVec 4) (f : TransFor) : Trans :=
  { tag := 5, frame := { type := typ, port := 0, seq := 7, tag := some 5 }, for_ := f, firstAt := 1000000000, sentAt := some 1000000000 }
/-- The frame `b` arrives while this transaction is out. -/
def answers (st : Sta) (y : Trans) : State := wired { state := 4, t0 := some 1000000000 } [(0, st)] fun f => { f with trans := [y] }
/-- The premises of an answer, as a Boolean. -/
def answersB (u : State) (b : List Byte) (y : Trans) (typ : BitVec 4) (len : Nat) : Bool :=
  (u.port 0).link && (u.port 0).injHeld.isEmpty && (activeHdr u).isNone && !fcsBad b && (match rxKind u 0 b with
    | .good f => f.up && decide (f.port.toNat = homePort u.cfg 0) && decide (answered u f = some y) && decide (f.type = typ) && decide (f.body.length = len) && decide (f.key = 0)
    | _ => false)
theorem test_YelxFramesAndTimers_refused : ((atY (wired { state := 1 } [] id)).port 0).link = false ∧ fcsBad fTorn = true ∧
    (let u := atY (wired { state := 4 } [] id); (u.port 0).link = true ∧ fcsBad fShort = false ∧ rxKind u 0 fShort = .discard ∧ fcsBad fInner = false ∧ rxKind u 0 fInner = .inner ∧
      fcsBad fAck = false ∧ (u.port 0).injHeld = [] ∧ activeHdr u = none ∧ pClosed u.cfg 0 = false) ∧
    ∃ f, rxKind (atY (wired { state := 4 } [] id)) 0 fAck = .good f ∧ f.type.toNat = 9 ∧ f.up = true ∧ f.port.toNat = homePort (atY (wired { state := 4 } [] id)).cfg 0 ∧
      answered (atY (wired { state := 4 } [] id)) f = none ∧ (let u := atY (closed { state := 4 } { state := 4 }); pClosed u.cfg 0 = true ∧ (u.port 0).link = true ∧ rxKind u 0 fAck = .good f ∧
        f.port.toNat = homePort u.cfg 0 ∧ answered u f = none ∧ activeHdr u = none) :=
  ⟨by decide +kernel, by decide +kernel, by decide +kernel, { type := 9, up := true, port := 0, seq := 7, tag := some 5 }, by decide +kernel⟩
theorem test_YelxFramesAndTimers_answers : answersB (atY (answers { state := 2 } (trans 2 .imgw))) fImgr (trans 2 .imgw) 2 (16 + sIn (atY (answers {} (trans 2 .imgw))).cfg 0) = true ∧
    (let u := atY (answers {} (trans 2 .imgw)); (u.port (trans 2 .imgw).frame.port.toNat).t0 = some 1000000000 ∧ 1000000000 ≤ (trans 2 .imgw).firstAt) ∧
    ([TransFor.safe, .release, .retire, .admission false, .admission true, .readmit none].all fun f => answersB (atY (answers {} (trans 4 f))) fAck (trans 4 f) 9 0) = true ∧
    (answersB (atY (answers {} (trans 3 (.row 9 0 4)))) fNak2 (trans 3 (.row 9 0 4)) 10 1 = true ∧ answersB (atY (answers {} (trans 2 .imgw))) fNak5 (trans 2 .imgw) 10 1 = true) ∧
    (answersB (atY (answers {} (trans 8 .discover))) fIdent (trans 8 .discover) 8 20 = true ∧ identMatches (atY (answers {} (trans 8 .discover))) 0 77 4 0 0 = true ∧
      identMatches (atY (answers {} (trans 8 .discover))) 0 77 3 0 0 = false) ∧
    (answersB (atY (answers {} (trans 6 .sync))) fSync (trans 6 .sync) 6 24 = true ∧ pClosed (atY (answers {} (trans 6 .sync))).cfg 0 = false) ∧
    answersB (atY (answers {} (trans 7 (.mbx 3)))) fMbx (trans 7 (.mbx 3)) 7 2 = true := by decide +kernel

/-- The transaction has been out since the start of this cycle, 1 ms ago. -/
def early (y : Trans) : State := let s := answers {} { y with sentAt := some 1000000000 }; { s with clk := { s.clk with tb := 1001000000 } }
/-- The cycle frame of port 1 is back at port 0 in the cycle 4. -/
def round : State := closed { state := 4, t0 := some 1000000000, cycle := 4, lineOpen := true } { state := 4 }
def sent (n : Nat) (y : Trans) : Trans := { y with sentAt := some 990000000, retries := n }
/-- A frame that waits for a tag of the common part, and one that waits for a later cycle. -/
def awaits : YWait := { port := 0, frame := { type := 2, port := 0 }, for_ := .imgw, tag := .wait false }
def laterOn : YWait := { awaits with later := true }
/-- The SAFE frame (a timed change) waits for a tag. -/
def safeWaits_ : State := let s := at0 inRun; { s with fld := { s.fld with safeTag := .wait true } }
def timed : Change := { op := 0, id := 0, half := false, mask := 0, values := 0, stamp := 0, tag := .wait false }
def changeWaits : State := let s := at0 inRun; { s with fld := { s.fld with changeQ := [timed] } }
def holds (n : Nat) (st : BitVec 3) : State := wired { state := st, injHeld := [(n, [1], false)] } [] id
/-- The second copy of a NAK on a closed line, whose first came at port 1. -/
def secondNak : State :=
  let s := closed { state := 4, t0 := some 1000000000 } { state := 4 }
  { s with yl := { s.yl with trans := [{ trans 2 .imgw with nakFrom := some 1 }] } }
theorem test_YelxFramesAndTimers_second : answersB (atY secondNak) fNak5 { trans 2 .imgw with nakFrom := some 1 } 10 1 = true ∧ pClosed (atY secondNak).cfg 0 = true ∧
    ({ trans 2 .imgw with nakFrom := some 1 } : Trans).nakFrom = some (pairPort 0) ∧ pClosed (atY (answers {} (trans 2 .imgw))).cfg 0 = false := by decide +kernel
theorem test_YelxFramesAndTimers_attempts : (let u := atY (answers {} { sent 1 (trans 2 .imgw) with sentAt := some 999000000 }); let y := { sent 1 (trans 2 .imgw) with sentAt := some 999000000 }; overdue u 5 = some y ∧ attemptEnd u y ≤ u.now ∧ lineLinked u 0 = true) ∧
    (let u := atY (early (sent 1 (trans 2 .imgw))); let y := { sent 1 (trans 2 .imgw) with sentAt := some 1000000000 }; overdue u 5 = some y ∧ y.retries < yRetries u.cfg ∧
      slotAt u 0 3 + spanNs u y.frame y.for_ ≤ attemptEnd u y ∧ mayGo u y.asWait = true ∧ u.yl.plan = [] ∧ u.now < attemptEnd u y) ∧
    (let u := atY (early (sent 2 (trans 2 .imgw))); let y := { sent 2 (trans 2 .imgw) with sentAt := some 1000000000 }; overdue u 5 = some y ∧ yRetries u.cfg ≤ y.retries ∧ u.now < attemptEnd u y) ∧
    overdue (atY (answers {} (trans 2 .imgw))) 5 = none := by decide +kernel
theorem test_YelxFramesAndTimers_timers : (let u := atY round; (u.port 0).link = true ∧ fcsBad fBack = false ∧ rxKind u 0 fBack = .own ∧ (fBack.drop 6).take 6 = portAddr u (pairPort 0) ∧
      (yParse ((fBack.take (fBack.length - 4)).drop 14)).type = 1 ∧ (yParse ((fBack.take (fBack.length - 4)).drop 14)).cycle = (u.port 0).cycle ∧ (u.port 0).t0.isSome = true ∧
      (u.port (0 / 2 * 2)).lineOpen = true) ∧
    (∀ n : Nat, n = 900000000 ∨ n = 900000001 → (mbxOverdue (atY (answers {} { trans 7 (.mbx 3) with firstAt := n })) 5).isSome = decide (n = 900000000)) ∧
    syncDueAt (atY (wired { state := 4 } [(0, { state := 2, syncAt := 0 })] id)) 0 = [0] ∧ syncDueAt (atY (wired { state := 4 } [(0, { state := 2, syncAt := 1 })] id)) 0 = [] ∧
    (injExpired (atY (holds 1000000000 4)) 0 = some (1000000000, [1], false) ∧ ((atY (holds 1000000000 4)).port 0).link = true ∧ injExpired (atY (holds 1000000000 1)) 0 = some (1000000000, [1], false) ∧
      ((atY (holds 1000000000 1)).port 0).link = false ∧ injExpired (atY (holds 1000000001 4)) 0 = none) :=
  ⟨by decide +kernel, fun n h => by rcases h with rfl | rfl <;> decide +kernel, by decide +kernel⟩
/-- A periodic save waits for a tag; the lane of the copy 0 stalls for one. -/
def saveWaits : State := { inRun with nv := { inRun.nv with saveWait := some 4 } }
def stallsTag : Copy := { cpy with stall := .tag false }
theorem test_YelxFramesAndTimers_saveAndLane : (saveGrantable (atY saveWaits) = true ∧ (atY saveWaits).nv.saveWait = some 4) ∧
    (let u := atY (alone stallsTag); saveGrantable u = false ∧ u.yl.waits = [] ∧ u.fld.safeTag.grantable u = false ∧ u.fld.changeQ = [] ∧ u.nv.incW = [] ∧ u.nv.userW = [] ∧
      u.ln.copies = [(0, some stallsTag)] ∧ (freeTags u false).isEmpty = false ∧ u.copy 0 = some stallsTag) := by decide +kernel
theorem test_YelxFramesAndTimers_tags : ([awaits, laterOn].all fun w => let u := atY (wired { state := 4, t0 := some 1000000000 } [] fun f => { f with waits := [w] });
      decide (saveGrantable u = false ∧ (∀ d ∈ u.yl.plan, d.port = w.port → d.before w.for_.step = true) ∧ u.yl.waits.find? (fun e => e.tag.grantable u) = some w ∧ w.tag = .wait w.reserved ∧ mayGo u w = true ∧ (u.port 0).t0.isSome = true ∧ fitsAt u w (slotAt u 0 w.for_.step) = true)) = true ∧
    (let u := atY (wired { state := 4 } [] fun f => { f with waits := [awaits] }); u.yl.waits.find? (fun e => e.tag.grantable u) = some awaits ∧ (u.port 0).t0 = none) ∧
    (let u := departAll safeWaits_; u.yl.waits = [] ∧ u.fld.safeTag.grantable u = true ∧ u.fld.safeTag = .wait true) ∧
    (let u := departAll changeWaits; u.yl.waits = [] ∧ u.fld.safeTag.grantable u = false ∧ u.fld.changeQ.find? (fun e => e.tag.grantable u) = some timed) ∧
    (let u := atY inRun; saveGrantable u = false ∧ u.ln.copies = [] ∧ u.yl.waits = [] ∧ u.fld.safeTag.grantable u = false ∧ u.fld.changeQ = [] ∧ u.nv.incW = [] ∧ u.nv.userW = []) := by decide +kernel

/-! ## The step, time, invariants -/

theorem test_IdleStepAndTime : inRun.pending = [] ∧ (inRun.dev.state ≠ .off ∧ inRun.dev.state ≠ .standby) ∧ ¬ (inOff.dev.state ≠ .off ∧ inOff.dev.state ≠ .standby) ∧
    wdCounts inRun = true ∧ wdCounts { inRun with tap := { testEn := true } } = false ∧ inRun.clk.lock = true ∧ State.reset.clk.lock = false ∧ (inHold inRun).dev.state = .hold := by decide +kernel
/-- A state of board test with EXTEST in force, and a step from it and from reset. -/
def boardTest : State := { State.reset with tap := { testEn := true, ir := .extest, padsFromCells := true } }
theorem test_TapInvariant : tapOk State.reset = true ∧ tapOk boardTest = true ∧ tapOk { boardTest with tap := { boardTest.tap with testEn := false } } = false := by decide +kernel

/-! ## Commands that are not well-formed -/

theorem test_wf_span : Instr.wf (.commit (2 ^ 64) 0) = false ∧ Instr.wf (.commit (2 ^ 64 - 1) 0) = true := by decide +kernel
theorem test_wf_unit : ∀ n, 2 ^ 21 ≤ n → Instr.wf (.ret 0 (List.replicate n .rep)) = false := by
  intro n h
  have g : ¬ (List.replicate n Pre.rep).length < 2 ^ 21 := by rw [List.length_replicate]; omega
  exact decide_eq_false g
theorem test_wf_run : Instr.wf (.movsw 0 [] (2 ^ 32)) = false ∧ Instr.wf (.movsw 0 [] (2 ^ 32 - 1)) = true := by decide +kernel
theorem test_wf_errs : Instr.wf (.canopyScrub 0 [{ loc := .area, addr := 0x10060002, ecc := .corrected }]) = false ∧
    Instr.wf (.canopyScrub 0 [{ loc := .shadow 264, addr := 0, ecc := .corrected }]) = false ∧ Instr.wf (.canopyScrub 0 [{ loc := .shadow 263, addr := 0, ecc := .corrected }]) = true := by decide +kernel
theorem test_wf_can : Instr.wf (.canRxFrame 0 0 0 { frame with data := [1] }) = false ∧ Instr.wf (.canRxFrame 0 0 0 { frame with id := 0x800 }) = false ∧ Instr.wf (.canRxFrame 0 0 0 frame) = true := by decide +kernel
theorem test_wf_writes : Instr.wf (.cmdTail 0 0 [(0x1002, 0)] 0) = false := by decide +kernel
theorem test_wf_frame : Instr.wf (.imgr 0 0 []) = false := by decide +kernel
theorem test_wf_tec : Instr.wf (.canError 0 0 264 0) = false ∧ Instr.wf (.canError 0 0 263 0) = true := by decide +kernel
theorem test_wf_lanes : Instr.wf (.bootComplete 0 [(3, .logic), (3, .scratch)]) = false := by decide +kernel
theorem test_wf_nvErrs : Instr.wf (.nvScrub 0 [(0x40000, false)]) = false := by decide +kernel
theorem test_wf_block : Instr.wf (.norPageCheck 0 256 0 false) = false ∧ Instr.wf (.supwdLongErase 0 256) = false := by decide +kernel
theorem test_wf_unassigned : Instr.wf (.unassignedEncoding 0 [] 0) = false ∧ okUnassigned 0 = false := by decide +kernel

/-! ## The words of lane instructions, as the worked examples of the spec print them -/

/-- The instruction that one word, or one unit, of lane 0 spells; a string or CRC form runs two elements. -/
def unitAt (l : List (BitVec 14)) : Option Instr := decodeUnit 0 2 [] l
/-- R113 and its case: a load of the address of a bit window, and a rung over it. -/
theorem test_decode_rung : unitAt [0x3C44, 0x3C00, 0x3E00, 0x2008] = some (.movi 0 [.ext 0x044, .ext 0, .ext 0x200] 2 0) ∧ unitAt [0x2D12] = some (.mts 0 [] 2 2) ∧
    unitAt [0x0011] = some (.bld 0 [] 17) ∧ unitAt [0x0682] = some (.bandn 0 [] 130) ∧ unitAt [0x0883] = some (.bor 0 [] 131) ∧ unitAt [0x0AC8] = some (.bst 0 [] 200) := by decide +kernel
/-- R147 and its case: two loops that share one end word. -/
theorem test_decode_loops : unitAt [0x3C01, 0x2004] = some (.movi 0 [.ext 1] 1 0) ∧ unitAt [0x351E] = some (.loop 0 [] 1 14) ∧ unitAt [0x352B] = some (.loop 0 [] 2 11) ∧
    unitAt [0x2835] = some (.ldw 0 [] 3 5) ∧ unitAt [0x2846] = some (.ldw 0 [] 4 6) ∧ unitAt [0x3C01, 0x2054] = some (.addi 0 [.ext 1] 5 0) ∧ unitAt [0x2193] = some (.xori 0 [] 4 3) ∧
    unitAt [0x1634] = some (.and 0 [] 3 4) ∧ unitAt [0x2B37] = some (.stw 0 [] 3 7) := by decide +kernel
/-- The case of the CRC chapter: a CRC-16 over two bytes. -/
theorem test_decode_crc : unitAt [0x2D31] = some (.mts 0 [] 6 1) ∧ unitAt [0x2D41] = some (.mts 0 [] 8 1) ∧ unitAt [0x3848] = some (.crci 0 []) ∧ unitAt [0x3400, 0x3840] = some (.crcmb 0 [.rep] 2) ∧
    unitAt [0x3854] = some (.crcf 0 [] 4) := by decide +kernel
/-- R127, R142 and the tables: the system registers of the case are BW (2), CP (6) and CM (8); a word between two rows of a table. -/
theorem test_decode_unassigned : unitAt [0x2363] = some (.unassignedEncoding 0 [] 0x2363) ∧ (unitAt [0x236F]).isSome = true ∧ assignedWord 0x236F = false := by decide +kernel
/-- R124, R128: the pair g0/g1 divided by g7; a binary32 sum. -/
theorem test_decode_pairs : unitAt [0x2387] = some (.divs 0 [] 0 7) ∧ unitAt [0x23FF] = some (.divu 0 [] 7 7) ∧ unitAt [0x2E3F] = some (.fadd 0 [] 7 7) ∧ unitAt [0x2F40] = some (.ftoi 0 [] 0 0) := by decide +kernel
/-- What UnitsEncodeAndDecode asks of an instruction, its words and a word list that is no unit. -/
theorem test_UnitsEncodeAndDecode : Instr.wf (.movi 39 [.ext 0x3FF, .rep] 15 3) = true ∧ encodeUnit (.movi 39 [.ext 0x3FF, .rep] 15 3) = some [0x3FFF, 0x3400, 0x203F] ∧
    decodeUnit 39 0 [] [0x3FFF, 0x3400, 0x203F, 0x0011] = some (.movi 39 [.ext 0x3FF, .rep] 15 3) ∧ decodeUnit 39 0 [] [0x3FFF, 0x3400] = none := by decide +kernel

/-! ## Single steps, with the values that the rules of the spec give -/

/-- The general register `j` of copy `k` after a command. -/
def regAfter (i : Instr) (s : State) (k j : Nat) : Option Word :=
  match exec i s with
  | .next t => (t.copy k).map fun x => x.reg j
  | _ => none
/-- FL of copy `k` after a command. -/
def flAfter (i : Instr) (s : State) (k : Nat) : Option (BitVec 5) :=
  match exec i s with
  | .next t => (t.copy k).map fun x => x.regs.fl
  | _ => none
/-- `cpy` with G1 = a and G2 = b. -/
def with12 (a b : Word) : State := alone { cpy with regs := { cpy.regs with g := cpy.regs.g.set 1 a |>.set 2 b } }
/-- R115, R116: the sum wraps; C and Z are set, N and V are not. -/
theorem test_add_wraps : regAfter (.add 0 [] 1 2) (with12 0xFFFFFFFF 1) 0 1 = some 0 ∧ flAfter (.add 0 [] 1 2) (with12 0xFFFFFFFF 1) 0 = some 0b00101 := by decide +kernel
/-- R116: the largest positive number plus 1 overflows into a negative one. -/
theorem test_add_overflows : flAfter (.add 0 [] 1 2) (with12 0x7FFFFFFF 1) 0 = some 0b01010 := by decide +kernel
/-- R124: the most negative number divided by -1. -/
theorem test_divs_corner : regAfter (.divs 0 [] 1 1) (with12 0xFFFFFFFF 0x80000000) 0 2 = some 0x80000000 ∧ flAfter (.divs 0 [] 1 1) (with12 0xFFFFFFFF 0x80000000) 0 = some 0b01010 := by decide +kernel
/-- R85, R108: an immediate of two bits is sign-extended. -/
theorem test_movi_extends : regAfter (.movi 0 [] 3 2) (with12 0 0) 0 3 = some 0xFFFFFFFE := by decide +kernel
/-- R73, R74: the load of 9 into G5 whose shadow ends writes G5, and one whose data has not come stalls its lane. -/
theorem test_load_shadows_end : (tickLoads { loads with loads := loads.loads.map fun x => { x with arrived := true } }).reg 5 = 9 ∧ (tickLoads loads).stall = .load := by decide +kernel
/-- R388, R389: IDENTIFY answers by a completion entry and pends cause 0. -/
theorem test_identify_answers : (match exec (.identify 0 0) (asks .observer 0x01 [] [] inRun) with
    | .next t => (t.slot 0).cplTail == 1 && (t.slot 0).cmdHead == 0 && (t.slot 0).pend.getLsbD 0
    | _ => false) = true := by decide +kernel
/-- R36, R37: START takes the device from STOP to RUN with cause 0x0D. -/
theorem test_start_runs : (match exec (.start 0 0) (asks .operator 0x10 [] [] ready) with
    | .next t => decide (t.dev.state = .run ∧ t.dev.last.cause = 0x0D)
    | _ => false) = true := by decide +kernel
/-- A step takes the command at the front and leaves the rest. -/
theorem test_step_front : (match step { inRun with pending := [.nresetRelease 0, .nreset 0] } with
    | .next t => decide (t.pending = [.nreset 0])
    | _ => false) = true := by decide +kernel
/-- No row of the table gives bits, so no word spells a command, and the queue stays. -/
theorem test_decode_words : decodeTableWord 16 0 = none ∧ (inRun.withFetchWord 16 0).pending = [] := by decide +kernel
end Sys2Proof.Tests
end

section
/-! The special registers of R127: what each reads after a write of the same and of another, and the moves MFS and MTS. -/
namespace Sys2Proof.Machine

variable {s : State} {l : LaneId} {p : List Pre} {k : Nat} {c : Copy} {r : Regs} {n m : BitVec 5} {v : Word}

/-- A write of a special register leaves the general registers and the loop depth. -/
theorem srWrite_keeps : (srWrite r n v).g = r.g ∧ (srWrite r n v).depth = r.depth := by
  unfold srWrite
  split
  case h_10 => split <;> [skip; split] <;> exact ⟨rfl, rfl⟩
  all_goals exact ⟨rfl, rfl⟩

/-- An entry of a register of four levels after one has been written. -/
theorem getD_setLevel {α : Type} {d w : α} {g : Vector α 4} {i j : Nat} (h : j < 4) :
    (g.setIfInBounds i w).toList.getD j d = if j = i then w else g.toList.getD j d := by
  rw [List.getD_eq_getElem _ _ (by simpa using h), List.getD_eq_getElem _ _ (by simpa using h)]
  simp only [Vector.getElem_toList, Vector.getElem_setIfInBounds, eq_comm]

theorem toNat_ne_of_ne (h : n ≠ m) : n.toNat ≠ m.toNat := fun e => h (BitVec.eq_of_toNat_eq e)

/-- A number of R127 names one of the nine single registers or a level of LS, LE or LC. -/
theorem srLegal_iff : srLegal n = true ↔ n.toNat < 9 ∨ (0x10 ≤ n.toNat ∧ n.toNat < 0x1C) := by
  simp only [srLegal, srNamed, decide_eq_true_eq]
  omega

/-- A level register reads by its group of four numbers. -/
theorem srRead_level (h : 0x10 ≤ n.toNat) : srRead r n =
    if n.toNat < 0x14 then (r.lsAt (n.toNat - 0x10)).setWidth 32
    else if n.toNat < 0x18 then (r.leAt (n.toNat - 0x14)).setWidth 32
    else r.lcAt (n.toNat - 0x18) := by
  unfold srRead
  split
  case h_10 => rfl
  all_goals omega

/-- A level register is written by its group of four numbers. -/
theorem srWrite_level (h : 0x10 ≤ n.toNat) : srWrite r n v =
    if n.toNat < 0x14 then { r with ls := r.ls.setIfInBounds (n.toNat - 0x10) (v.setWidth 21) }
    else if n.toNat < 0x18 then { r with le := r.le.setIfInBounds (n.toNat - 0x14) (v.setWidth 21) }
    else { r with lc := r.lc.setIfInBounds (n.toNat - 0x18) v } := by
  unfold srWrite
  split
  case h_10 => rfl
  all_goals omega

/-- A single register other than RLO, FL and CM reads as it was written. -/
theorem srRead_srWrite_single (h : n.toNat < 9) (h0 : n ≠ 0) (h1 : n ≠ 1) (h8 : n ≠ 8) : srRead (srWrite r n v) n = v := by
  have e0 : n.toNat ≠ 0 := toNat_ne_of_ne h0
  have e1 : n.toNat ≠ 1 := toNat_ne_of_ne h1
  have e8 : n.toNat ≠ 8 := toNat_ne_of_ne h8
  have e : n.toNat = 2 ∨ n.toNat = 3 ∨ n.toNat = 4 ∨ n.toNat = 5 ∨ n.toNat = 6 ∨ n.toNat = 7 := by omega
  unfold srWrite srRead
  generalize n.toNat = a at e
  rcases e with rfl | rfl | rfl | rfl | rfl | rfl <;> rfl

/-- A level of LC reads as it was written. -/
theorem srRead_srWrite_count (h : 0x18 ≤ n.toNat) (h' : n.toNat < 0x1C) : srRead (srWrite r n v) n = v := by
  rw [srRead_level (by omega), srWrite_level (by omega), if_neg (by omega), if_neg (by omega), if_neg (by omega),
    if_neg (by omega), Regs.lcAt, getD_setLevel (by omega), if_pos rfl]

/-- The low 21 bits of a word. -/
theorem setWidth_21 : ((v.setWidth 21).setWidth 32 : Word) = v &&& 0x1FFFFF := by
  apply BitVec.eq_of_toNat_eq
  have h : (0x1FFFFF : Nat) = 2 ^ 21 - 1 := rfl
  rw [BitVec.toNat_and, BitVec.toNat_setWidth, BitVec.toNat_setWidth]
  show _ = v.toNat &&& 0x1FFFFF
  rw [h, Nat.and_two_pow_sub_one_eq_mod]
  omega

/-- A level of LS or LE reads as the low 21 bits of what was written. -/
theorem srRead_srWrite_address (h : 0x10 ≤ n.toNat) (h' : n.toNat < 0x18) :
    srRead (srWrite r n v) n = v &&& 0x1FFFFF := by
  rw [srRead_level h, srWrite_level h, ← setWidth_21]
  by_cases hs : n.toNat < 0x14
  · rw [if_pos hs, if_pos hs, Regs.lsAt, getD_setLevel (by omega), if_pos rfl]
  · rw [if_neg hs, if_neg hs, if_pos h', if_pos h', Regs.leAt, getD_setLevel (by omega), if_pos rfl]

/-- A single register written leaves every other register. -/
theorem srRead_srWrite_single_other (h : n.toNat < 9) (e : n ≠ m) : srRead (srWrite r n v) m = srRead r m := by
  have e := toNat_ne_of_ne e
  unfold srWrite srRead
  generalize n.toNat = a at *
  generalize m.toNat = b at *
  interval_cases a <;> split <;> trivial

/-- A level register written leaves every single register. -/
theorem srRead_srWrite_level_single (h : 0x10 ≤ n.toNat) (hm : m.toNat < 9) : srRead (srWrite r n v) m = srRead r m := by
  rw [srWrite_level h]
  unfold srRead
  generalize m.toNat = b at *
  interval_cases b <;> split_ifs <;> rfl

/-- A level register written leaves every other level register. -/
theorem srRead_srWrite_level_other (h : 0x10 ≤ n.toNat) (hm : 0x10 ≤ m.toNat) (hm' : m.toNat < 0x1C) (e : n ≠ m) :
    srRead (srWrite r n v) m = srRead r m := by
  have e := toNat_ne_of_ne e
  rw [srRead_level hm, srRead_level hm, srWrite_level h]
  unfold Regs.lsAt Regs.leAt Regs.lcAt
  by_cases s : m.toNat < 0x14
  · rw [if_pos s, if_pos s]
    split_ifs
    · rw [getD_setLevel (by omega), if_neg (by omega)]
    all_goals rfl
  · by_cases s' : m.toNat < 0x18
    · rw [if_neg s, if_neg s, if_pos s', if_pos s']
      split_ifs
      · rfl
      · rw [getD_setLevel (by omega), if_neg (by omega)]
      · rfl
    · rw [if_neg s, if_neg s, if_neg s', if_neg s']
      split_ifs
      · rfl
      · rfl
      · rw [getD_setLevel (by omega), if_neg (by omega)]

/-- A write of one register leaves what every other reads. -/
theorem srRead_srWrite_other (hn : srLegal n = true) (hm : srLegal m = true) (e : n ≠ m) :
    srRead (srWrite r n v) m = srRead r m := by
  rw [srLegal_iff] at hn hm
  obtain hn | ⟨hn, -⟩ := hn
  · exact srRead_srWrite_single_other hn e
  · obtain hm | ⟨hm, hm'⟩ := hm
    · exact srRead_srWrite_level_single hn hm
    · exact srRead_srWrite_level_other hn hm hm' e

/-- A move of a special register to a general one (R127). -/
theorem mfs_wrote {d : Dec} {g : Nat} (h : UnitRuns s l p d k c) :
    Ends (answer s (issue l.val p d (pureUnit fun x => x.setReg g (srRead x.regs n)) s))
      (Wrote s k c (p.length + 1) [(g, srRead c.regs n)] c.regs) :=
  pure_wrote (r := c.regs) (g := c.regs.g.setIfInBounds g (srRead c.regs n)) h
    (fun x hx => ⟨x.winFull, by rw [Copy.setReg_eq, hx]⟩) rfl fun _ hj => lookup_one hj

/-- A move of a general register to a special one (R112, R127). -/
theorem mts_wrote {d : Dec} {g : Nat} (h : UnitRuns s l p d k c) :
    Ends (answer s (issue l.val p d (pureUnit (mtsOn n g)) s))
      (Wrote s k c (p.length + 1) [] (srWrite c.regs n (c.reg g))) := by
  obtain ⟨hg, hd⟩ := srWrite_keeps (r := c.regs) (n := n) (v := c.reg g)
  refine pure_wrote (g := c.regs.g) h (fun x hx => ⟨x.winFull && n != 2, ?_⟩) hd fun _ _ => lookup_none
  rw [mtsOn, Copy.reg, hx, ← Copy.reg, ← hg]

/-- Settles O8: what a special register reads after a write is the case of its number (single, address, count). -/
theorem specialRegisterMoves : Obligations.SpecialRegisterMoves := by
  unfold Obligations.SpecialRegisterMoves
  intro s l p k c sr g v
  refine ⟨mfs_wrote, mts_wrote, ⟨?_, rfl, rfl, rfl, rfl, rfl, rfl, rfl, rfl⟩, fun n hn h0 h1 h8 hc => ?_,
    fun n h h' => srRead_srWrite_address h h', ⟨rfl, rfl, rfl⟩, fun n m hn hm e => srRead_srWrite_other hn hm e⟩
  · show b2w c.regs.rlo = _
    cases c.regs.rlo <;> rfl
  · rw [srLegal_iff] at hn
    obtain hn | ⟨hn, hn'⟩ := hn
    · exact srRead_srWrite_single hn h0 h1 h8
    · exact srRead_srWrite_count (by omega) hn'

end Sys2Proof.Machine
end

section
/-! Host slots: what the shared operations of the slot map (R387 to R393) leave in a slot and in the slots beside it. -/
namespace Sys2Proof.Machine

variable {s t u : State} {ps : List Part} {n m k dt : Nat} {x y z : Slot}

/-! ## Answers -/

/-- A command that leaves the queue and the test access port alone answers the state it has come to. -/
theorem answer_of_only (h : Only ps (elapse dt s) t) (hp : .pending ∉ ps) (ht : .tap ∉ ps) : answer s t = .next t := by
  have e1 : t.pending = s.pending := h.pending_eq hp
  have e2 : t.tap = s.tap := h.tap_eq ht
  rw [answer_next, ← e1, ← e2]

/-- Such a command ends in what holds of that state. -/
theorem ends_answer {P : State → Prop} (h : Only ps (elapse dt s) t) (hp : .pending ∉ ps) (ht : .tap ∉ ps) (hP : P t) :
    Ends (answer s t) P := ⟨t, answer_of_only h hp ht, hP⟩

theorem State.when_true {b : Bool} {f : State → State} (h : b = true) : s.when b f = f s := if_pos h

theorem State.when_false {b : Bool} {f : State → State} (h : b = false) : s.when b f = s := by
  rw [State.when, h, if_neg Bool.false_ne_true]

/-! ## One slot changes -/

/-- Slot `n` changes as `R` says, and no other slot does. -/
def OnSlot (R : Slot → Slot → Prop) (n : Nat) (s t : State) : Prop :=
  R (s.slot n) (t.slot n) ∧ ∀ m, m ≠ n → t.slot m = s.slot m

section
variable {R : Slot → Slot → Prop}

theorem OnSlot.refl (h : ∀ x, R x x) : OnSlot R n s s := ⟨h _, fun _ _ => rfl⟩

theorem OnSlot.trans (h : ∀ {x y z}, R x y → R y z → R x z) (a : OnSlot R n s t) (b : OnSlot R n t u) : OnSlot R n s u :=
  ⟨h a.1 b.1, fun m hm => (b.2 m hm).trans (a.2 m hm)⟩

theorem OnSlot.mono {Q : Slot → Slot → Prop} (h : ∀ {x y}, R x y → Q x y) (a : OnSlot R n s t) : OnSlot Q n s t :=
  ⟨h a.1, a.2⟩

theorem OnSlot.modSlot {f : Slot → Slot} (h : R (s.slot n) (f (s.slot n))) : OnSlot R n s (s.modSlot n f) := by
  refine ⟨?_, fun m hm => ?_⟩
  · rwa [State.slot_modSlot, if_pos rfl]
  · rw [State.slot_modSlot, if_neg hm]

/-- Steps that each change slot `n` as `R` says, one after another. -/
theorem OnSlot.foldl {α : Type} {f : State → α → State} {l : List α} (hr : ∀ x, R x x)
    (ht : ∀ {x y z}, R x y → R y z → R x z) (h : ∀ u, ∀ a ∈ l, OnSlot R n u (f u a)) : OnSlot R n s (l.foldl f s) :=
  List.foldlRecOn l f (OnSlot.refl hr) fun u hu a ha => hu.trans ht (h u a ha)

end

/-! ## Interrupt causes -/

/-- At most a slot's MSI-X pending bits have changed. -/
def Slot.PbaOnly (x y : Slot) : Prop := ∃ c, y = { x with pba := c }

theorem Slot.PbaOnly.refl : x.PbaOnly x := ⟨_, rfl⟩

theorem Slot.PbaOnly.trans (h : x.PbaOnly y) (k : y.PbaOnly z) : x.PbaOnly z := by
  obtain ⟨_, rfl⟩ := h
  obtain ⟨_, rfl⟩ := k
  exact ⟨_, rfl⟩

/-- At most a slot's pending causes and its MSI-X pending bits have changed. -/
def Slot.Alerted (x y : Slot) : Prop := ∃ a b c, y = { x with pend := a, pendSet := b, pba := c }

theorem Slot.Alerted.refl : x.Alerted x := ⟨_, _, _, rfl⟩

theorem Slot.Alerted.trans (h : x.Alerted y) (k : y.Alerted z) : x.Alerted z := by
  obtain ⟨_, _, _, rfl⟩ := h
  obtain ⟨_, _, _, rfl⟩ := k
  exact ⟨_, _, _, rfl⟩

theorem Slot.PbaOnly.alerted (h : x.PbaOnly y) : x.Alerted y := by
  obtain ⟨_, rfl⟩ := h
  exact ⟨_, _, _, rfl⟩

/-- What the message of a cause can do (R392): nothing, be sent, or be kept pending by its vector's mask. -/
theorem sendIrq_cases : sendIrq s n k = s ∨ sendIrq s n k = s.emit (.msix n k) ∨
    sendIrq s n k = s.modSlot n fun x => { x with pba := x.pba ||| BitVec.ofNat 4 (1 <<< k) } := by
  unfold sendIrq
  dsimp only
  split
  · split
    · exact .inr (.inr rfl)
    · exact .inr (.inl rfl)
  · exact .inl rfl

theorem pbaOnly_sendIrq : OnSlot Slot.PbaOnly n s (sendIrq s n k) := by
  rcases sendIrq_cases (s := s) (n := n) (k := k) with h | h | h <;> rw [h]
  · exact .refl fun _ => .refl
  · exact ⟨.refl, fun _ _ => rfl⟩
  · exact .modSlot ⟨_, rfl⟩

theorem alerted_raiseIrq : OnSlot Slot.Alerted n s (raiseIrq s n k) := by
  have h : OnSlot Slot.Alerted n s (s.modSlot n fun x => { x with
      pend := x.pend ||| BitVec.ofNat 4 (1 <<< k)
      pendSet := (s.op, (if x.pendSet.1 = s.op then x.pendSet.2 else 0) ||| BitVec.ofNat 4 (1 <<< k)) }) :=
    .modSlot ⟨_, _, _, rfl⟩
  unfold raiseIrq
  dsimp only
  split
  · exact h.trans .trans (pbaOnly_sendIrq.mono Slot.PbaOnly.alerted)
  · exact h

/-- A cause raised on one slot or on every slot alerts slots at most. -/
theorem alerted_raiseIrqAll : (s.slot m).Alerted ((raiseIrqAll s k).slot m) := by
  refine List.foldlRecOn (motive := fun u : State => (s.slot m).Alerted (u.slot m)) _ _ .refl fun u hu n _ => hu.trans ?_
  obtain ⟨h, h'⟩ := alerted_raiseIrq (s := u) (n := n) (k := k)
  by_cases e : m = n
  · rwa [e]
  · rw [h' m e]
    exact .refl

/-- What the recording of an event can do (R459, R460): the recorder changes, and every slot may be interrupted. -/
theorem record_cases {code : Nat} {items : List RItem} : ∃ f,
    record s code items = s.onNv f ∨ record s code items = raiseIrqAll (s.onNv f) 2 := by
  unfold record newRec mergeRec addRec
  split
  · split
    · exact ⟨fun v => { v with buf := _ }, .inr rfl⟩
    · exact ⟨fun v => { v with recs := _, dirty := _ }, .inr rfl⟩
  · split
    · exact ⟨fun v => { v with overflow := _ }, .inl rfl⟩
    · exact ⟨fun v => { v with buf := _, newest := _ }, .inr rfl⟩

theorem alerted_record {code : Nat} {items : List RItem} : (s.slot m).Alerted ((record s code items).slot m) := by
  obtain ⟨f, h | h⟩ := record_cases (s := s) (code := code) (items := items) <;> rw [h]
  · exact .refl
  · exact alerted_raiseIrqAll (s := s.onNv f)

/-! ## Memory of a slot -/

/-- Bytes that have been written read as they were written. -/
theorem Mem.bytes_putBytes {M : Mem} {a : Nat} {l : List Byte} : (M.putBytes a l).bytes a l.length = l := by
  refine List.ext_getElem (by simp [Mem.bytes]) fun i h h' => ?_
  simp only [Mem.bytes, List.getElem_map, List.getElem_range]
  rw [Mem.byte_putBytes, if_pos (by omega), Nat.add_sub_cancel_left, List.getD_eq_getElem]

/-- A word reads as the four bytes of which it was made. -/
theorem wordAt_leBytes (w : Word) : wordAt (leBytes 4 w.toNat) 0 = w := by
  apply BitVec.eq_of_toNat_eq
  have h := w.isLt
  simp only [wordAt, leAt, leBytes, byteOf, List.range, List.range.loop, List.map, List.drop, List.take, ofLe,
    BitVec.toNat_ofNat, Nat.shiftRight_eq_div_pow]
  omega

/-- A word written to the memory of a slot reads as it was written. -/
theorem wordAt_putBytes {M : Mem} {a : Nat} {w : Word} : wordAt ((M.putBytes a (leBytes 4 w.toNat)).bytes a 4) 0 = w := by
  have h := Mem.bytes_putBytes (M := M) (a := a) (l := leBytes 4 w.toNat)
  rw [show (leBytes 4 w.toNat).length = 4 from by simp [leBytes]] at h
  rw [h, wordAt_leBytes]

/-! ## The service of the queues -/

/-- What taking a command and answering it leave of a slot: its role and the host's own registers, and its memory outside the
completion queue. -/
structure Slot.Served (x y : Slot) : Prop where
  role : y.role = x.role
  base : y.base = x.base
  front : y.front = x.front
  cmdTail : y.cmdTail = x.cmdTail
  cplHead : y.cplHead = x.cplHead
  qerr : y.qerr = x.qerr
  qspiAt : y.qspiAt = x.qspiAt
  map : ∀ a, a < 0x1800 ∨ 0x1A00 ≤ a → y.map.byte a = x.map.byte a

theorem Slot.Served.refl : x.Served x := ⟨rfl, rfl, rfl, rfl, rfl, rfl, rfl, fun _ _ => rfl⟩

theorem Slot.Served.trans (h : x.Served y) (k : y.Served z) : x.Served z :=
  ⟨k.role.trans h.role, k.base.trans h.base, k.front.trans h.front, k.cmdTail.trans h.cmdTail, k.cplHead.trans h.cplHead,
    k.qerr.trans h.qerr, k.qspiAt.trans h.qspiAt, fun a ha => (k.map a ha).trans (h.map a ha)⟩

theorem Slot.Alerted.served (h : x.Alerted y) : x.Served y := by
  obtain ⟨_, _, _, rfl⟩ := h
  exact ⟨rfl, rfl, rfl, rfl, rfl, rfl, rfl, fun _ _ => rfl⟩

/-- An entry of 16 bytes put into the completion queue lies within it. -/
theorem served_putCpl {e : List Byte} (h : e.length = 16) : x.Served (x.putCpl e) :=
  ⟨rfl, rfl, rfl, rfl, rfl, rfl, rfl, fun a ha => by
    have := Nat.mod_lt x.cplTail (show 0 < 32 by decide)
    show (x.map.putBytes _ e).byte a = _
    rw [Mem.byte_putBytes, if_neg (by omega)]⟩

theorem length_cplEntry {cid : BitVec 16} {st op v0 v1 v2 : Nat} : (cplEntry cid st op v0 v1 v2).length = 16 := by
  simp [cplEntry, leBytes]

theorem served_popCmd : OnSlot Slot.Served n s (popCmd s n) :=
  .modSlot ⟨rfl, rfl, rfl, rfl, rfl, rfl, rfl, fun _ _ => rfl⟩

theorem served_complete {cid : BitVec 16} {op st v0 v1 v2 : Nat} :
    OnSlot Slot.Served n s (complete s n cid op st v0 v1 v2) := by
  unfold complete
  dsimp only
  split
  · exact .modSlot ⟨rfl, rfl, rfl, rfl, rfl, rfl, rfl, fun _ _ => rfl⟩
  · exact OnSlot.trans .trans (.modSlot (served_putCpl length_cplEntry)) (alerted_raiseIrq.mono Slot.Alerted.served)

theorem served_drainBad : OnSlot Slot.Served n s (drainBad s n) := by
  refine .foldl (fun _ => .refl) .trans fun u _ _ => ?_
  split
  · exact served_popCmd.trans .trans served_complete
  · exact .refl fun _ => .refl

/-- The host's registers of the completion queue are as they were. -/
def Slot.HeadKept (x y : Slot) : Prop := y.cplHead = x.cplHead ∧ y.qerr = x.qerr

theorem Slot.HeadKept.trans (h : x.HeadKept y) (k : y.HeadKept z) : x.HeadKept z := ⟨k.1.trans h.1, k.2.trans h.2⟩

theorem Slot.Served.headKept (h : x.Served y) : x.HeadKept y := ⟨h.cplHead, h.qerr⟩

theorem headKept_payOwed : OnSlot Slot.HeadKept n s (payOwed s n) := by
  refine .foldl (fun _ => ⟨rfl, rfl⟩) .trans fun u _ _ => ?_
  split
  · exact .refl fun _ => ⟨rfl, rfl⟩
  · refine OnSlot.trans .trans (.modSlot ⟨rfl, rfl⟩) (alerted_raiseIrq.mono fun h => h.served.headKept)

/-! ## The host's writes -/

/-- A word of the command queue or of the window (R387). -/
def QueueWord (a : Nat) : Prop := a % 4 = 0 ∧ (0x1000 ≤ a ∧ a < 0x1800 ∨ 0x4000 ≤ a ∧ a < 0x8000)

theorem mapped_queueWord {a : Nat} (h : QueueWord a) : mapped x a = true := by
  obtain ⟨-, h | h⟩ := h
  · have : 0x1000 ≤ a ∧ a < 0x1A00 := by omega
    simp [mapped, this]
  · simp [mapped, h]

theorem pbaOnly_vecUnmask : OnSlot Slot.PbaOnly n s (vecUnmask s n k) := by
  unfold vecUnmask
  dsimp only
  split
  · exact OnSlot.modSlot (s := s) ⟨_, rfl⟩
  · exact .refl fun _ => .refl

/-- A write to a word of the command queue or of the window writes the memory of the slot. -/
theorem slotWrite_queueWord {a : Nat} {v : Word} (h : QueueWord a) :
    slotWrite s n a v = (List.range 4).foldl (fun s k => vecUnmask s n k)
      (s.modSlot n fun x => { x with map := x.map.putBytes a (leBytes 4 v.toNat) }) := by
  have hm : mapped (s.slot n) a = true := mapped_queueWord h
  obtain ⟨h4, ha⟩ := h
  unfold slotWrite
  split
  case h_8 => rw [if_pos (by simp [h4, hm]; omega)]
  all_goals omega

/-- What the host's writes to its queue and window leave of a slot: everything but its memory and its MSI-X pending bits. -/
def Slot.HostWrote (x y : Slot) : Prop := ∃ M c, y = { x with map := M, pba := c }

theorem Slot.HostWrote.refl : x.HostWrote x := ⟨_, _, rfl⟩

theorem Slot.HostWrote.trans (h : x.HostWrote y) (k : y.HostWrote z) : x.HostWrote z := by
  obtain ⟨_, _, rfl⟩ := h
  obtain ⟨_, _, rfl⟩ := k
  exact ⟨_, _, rfl⟩

theorem Slot.PbaOnly.hostWrote (h : x.PbaOnly y) : x.HostWrote y := by
  obtain ⟨_, rfl⟩ := h
  exact ⟨_, _, rfl⟩

/-- What a write to a word of the command queue or of the window leaves: the slot's memory holds the word. -/
theorem slotWrite_queueWord_leaves {a : Nat} {v : Word} (h : QueueWord a) :
    OnSlot Slot.HostWrote n s (slotWrite s n a v) ∧ Only [.host, .out] s (slotWrite s n a v) ∧
      wordAt (((slotWrite s n a v).slot n).map.bytes a 4) 0 = v := by
  rw [slotWrite_queueWord h]
  have ha : OnSlot Slot.PbaOnly n (s.modSlot n fun x => { x with map := x.map.putBytes a (leBytes 4 v.toNat) })
      ((List.range 4).foldl (fun s k => vecUnmask s n k)
        (s.modSlot n fun x => { x with map := x.map.putBytes a (leBytes 4 v.toNat) })) :=
    .foldl (fun _ => .refl) .trans fun _ _ _ => pbaOnly_vecUnmask
  refine ⟨OnSlot.trans .trans (.modSlot ⟨_, _, rfl⟩) (ha.mono Slot.PbaOnly.hostWrote), ?_, ?_⟩
  · exact only_foldl (by simp) fun _ _ => by simp
  · obtain ⟨_, e⟩ := ha.1
    rw [e, State.slot_modSlot, if_pos rfl]
    exact wordAt_putBytes

/-- The host's writes before a write of `CMD_TAIL` (R389): the last of them stands. -/
theorem hostWrites_leave {wr : List (BitVec 16 × Word)} {o : BitVec 16} {w : Word} (hw : ∀ e ∈ wr, QueueWord e.1.toNat)
    (ho : QueueWord o.toNat) :
    let t := (wr ++ [(o, w)]).foldl (fun t w => if mapped (t.slot n) w.1.toNat then slotWrite t n w.1.toNat w.2 else t) s
    OnSlot Slot.HostWrote n s t ∧ Only [.host, .out] s t ∧ wordAt ((t.slot n).map.bytes o.toNat 4) 0 = w := by
  rw [List.foldl_append, List.foldl_cons, List.foldl_nil, if_pos (mapped_queueWord ho)]
  have h : OnSlot Slot.HostWrote n s
        (wr.foldl (fun t w => if mapped (t.slot n) w.1.toNat then slotWrite t n w.1.toNat w.2 else t) s) ∧
      Only [.host, .out] s
        (wr.foldl (fun t w => if mapped (t.slot n) w.1.toNat then slotWrite t n w.1.toNat w.2 else t) s) := by
    refine List.foldlRecOn (motive := fun t : State => OnSlot Slot.HostWrote n s t ∧ Only [.host, .out] s t) wr _
      ⟨.refl fun _ => .refl, .refl⟩ fun t ht e he => ?_
    obtain ⟨h1, h2, -⟩ := slotWrite_queueWord_leaves (s := t) (n := n) (v := e.2) (hw e he)
    rw [if_pos (mapped_queueWord (hw e he))]
    exact ⟨ht.1.trans .trans h1, ht.2.trans h2⟩
  obtain ⟨h1, h2, h3⟩ := slotWrite_queueWord_leaves (n := n) (v := w) (s :=
    wr.foldl (fun t w => if mapped (t.slot n) w.1.toNat then slotWrite t n w.1.toNat w.2 else t) s) ho
  exact ⟨h.1.trans .trans h1, h.2.trans h2, h3⟩

/-- A write of `CMD_TAIL` that does not pass `CMD_HEAD` (R387). -/
theorem writeTail_accepts {v : Word}
    (h : ((s.slot n).cmdTail + 32 - (s.slot n).cmdHead) % 32 ≤ (v.toNat % 32 + 32 - (s.slot n).cmdHead) % 32) :
    writeTail s n v = drainBad (s.modSlot n fun x => { x with cmdTail := v.toNat % 32 }) n := if_pos h

/-- One that would pass it. -/
theorem writeTail_refuses {v : Word}
    (h : (v.toNat % 32 + 32 - (s.slot n).cmdHead) % 32 < ((s.slot n).cmdTail + 32 - (s.slot n).cmdHead) % 32) :
    writeTail s n v = s.modSlot n fun x => { x with qerr := true } := if_neg (not_le.mpr h)

/-! ## Doorbells and interrupt registers -/

/-- The triggers of a source are raised for the tasks of a list that select it, one after another (R168, R170). -/
theorem foldl_raiseTrigger {source : Nat} {sel : Nat → Bool} {l : List Nat} :
    l.foldl (fun s t => if tEnable s.cfg t && tEvent s.cfg t && tSource s.cfg t == source && sel (tArg s.cfg t) then
        raiseTrigger s t source else s) s =
      s.onSeq fun q => { q with trigs := q.trigs ++ (l.filter fun j => tEnable s.cfg j && tEvent s.cfg j &&
        tSource s.cfg j == source && sel (tArg s.cfg j) && (s.task j).armed).map fun j =>
          { task := j, source := BitVec.ofNat 4 source, at_ := s.now } } := by
  induction l generalizing s with
  | nil => simp [State.onSeq]
  | cons j l ih =>
    rw [List.foldl_cons, List.filter_cons]
    cases hs : (tEnable s.cfg j && tEvent s.cfg j && tSource s.cfg j == source && sel (tArg s.cfg j))
    · rw [if_neg Bool.false_ne_true, ih, Bool.false_and, if_neg Bool.false_ne_true]
    · have he : (tEnable s.cfg j && tEvent s.cfg j) = true := by
        simp only [Bool.and_eq_true] at hs ⊢
        exact hs.1.1
      rw [if_pos rfl, raiseTrigger, he, Bool.true_and]
      cases (s.task j).armed
      · exact ih
      · rw [if_pos rfl, if_pos rfl, ih]
        simp only [State.onSeq, List.append_assoc, List.singleton_append, List.map_cons]
        rfl

/-- One occurrence of a source raises its triggers and changes nothing else. -/
theorem raiseSource_eq {source : Nat} {sel : Nat → Bool} :
    raiseSource s source sel = s.onSeq fun q => { q with trigs := q.trigs ++ raised s source sel } := foldl_raiseTrigger

/-- A cause whose vector is not masked sends its message (R392). -/
theorem sendIrq_sends (h1 : (s.slot n).msixOn = true) (h2 : (s.slot n).pcie = true) (h3 : (s.slot n).vecMasked k = false) :
    sendIrq s n k = s.emit (.msix n k) := by
  simp [sendIrq, h1, h2, h3]

theorem out_sendIrq {o : Out} (h : o ∈ s.out) : o ∈ (sendIrq s n k).out := by
  rcases sendIrq_cases (s := s) (n := n) (k := k) with e | e | e <;> rw [e]
  · exact h
  · exact List.mem_append_left _ h
  · exact h

/-- The messages of the causes that `c` names, of a list. -/
def sendIrqs (c : Nat → Bool) (n : Nat) (l : List Nat) (s : State) : State :=
  l.foldl (fun s k => if c k then sendIrq s n k else s) s

variable {c : Nat → Bool} {l : List Nat}

theorem pbaOnly_sendIrqs : OnSlot Slot.PbaOnly n s (sendIrqs c n l s) := by
  refine .foldl (fun _ => .refl) .trans fun u _ _ => ?_
  split
  · exact pbaOnly_sendIrq
  · exact .refl fun _ => .refl

theorem out_sendIrqs {o : Out} (h : o ∈ s.out) : o ∈ (sendIrqs c n l s).out := by
  refine List.foldlRecOn (motive := fun u : State => o ∈ u.out) l _ h fun u hu k _ => ?_
  split
  · exact out_sendIrq hu
  · exact hu

theorem sendIrqs_none (h : ∀ k ∈ l, c k = false) : sendIrqs c n l s = s :=
  List.foldlRecOn (motive := fun u => u = s) l _ rfl fun u hu k hk => by rw [h k hk, hu, if_neg Bool.false_ne_true]

/-- Each of the causes named whose vector is not masked sends its message. -/
theorem sendIrqs_sends (hk : k ∈ l) (hc : c k = true) (h1 : (s.slot n).msixOn = true) (h2 : (s.slot n).pcie = true)
    (h3 : (s.slot n).vecMasked k = false) : Out.msix n k ∈ (sendIrqs c n l s).out := by
  induction l generalizing s with
  | nil => cases hk
  | cons j l ih =>
    show _ ∈ (sendIrqs c n l _).out
    by_cases e : k = j
    · refine out_sendIrqs ?_
      dsimp only
      rw [← e, if_pos hc, sendIrq_sends h1 h2 h3]
      exact List.mem_append_right _ (List.mem_singleton_self _)
    · have hl : k ∈ l := (List.mem_cons.mp hk).resolve_left e
      dsimp only
      split
      · obtain ⟨⟨a, ha⟩, -⟩ := pbaOnly_sendIrq (s := s) (n := n) (k := j)
        exact ih hl (by rw [ha]; exact h1) (by rw [ha]; exact h2) (by rw [ha]; exact h3)
      · exact ih hl h1 h2 h3

/-- A write of `IRQ_MASK` sends the messages of the pending causes that it unmasks (R392). -/
theorem writeMask_eq {v : Word} : writeMask s n v =
    sendIrqs (fun k => (BitVec.ofNat 4 v.toNat).getLsbD k && !(s.slot n).mask.getLsbD k && (s.slot n).pend.getLsbD k) n
      (List.range 4) (s.modSlot n fun x => { x with mask := BitVec.ofNat 4 v.toNat }) := rfl

/-! ## Slot reset and link -/

/-- What a slot reset leaves of its slot (R393). -/
theorem slotReset_leaves : ∃ y : Slot, (slotReset s n).slot n = { y with
      role := (s.slot n).base, cmdTail := 0, cmdHead := 0, cplTail := 0, cplHead := 0, mask := 0, pend := 0, qerr := false
      owed := [], pba := 0, msixOn := false, map := (s.slot n).map, front := (s.slot n).front, nonce := (s.slot n).nonce } := by
  have h : (s.slot n).Alerted
      ((if (s.slot n).role = .owner then record s 0x0903 [.b1 n, .b1 2] else s).slot n) := by
    split
    · exact alerted_record
    · exact .refl
  obtain ⟨a, b, d, e⟩ := h
  refine ⟨{ s.slot n with pendSet := b, tagWait := false }, ?_⟩
  rw [State.slot, slotReset]
  dsimp only [State.onLn, State.onHost, State.modSlot]
  rw [tabGet_tabMod, if_pos rfl]
  exact congrArg (fun y : Slot => { y with
    role := y.base, cmdTail := 0, cmdHead := 0, cplTail := 0, cplHead := 0, mask := 0, pend := 0, qerr := false
    owed := [], pba := 0, msixOn := false, tagWait := false }) e

/-- The completions of the commands of a reset slot are discarded (R393). -/
theorem slotReset_waits {y : Wait} (h : y ∈ (slotReset s n).host.waits) (hs : y.slot = n) : y.live = false := by
  obtain ⟨w, -, rfl⟩ := List.mem_map.mp h
  split at hs
  · rw [if_pos ‹_›]
  · exact absurd hs ‹_›

/-- What a front end shows at offset 0 depends on the slots alone. -/
theorem frontRead_congr {f : Nat} (h : t.host = s.host) : frontRead t f 0 = frontRead s f 0 := by
  simp only [frontRead, slotOf, slotRead, State.slot, h]

@[simp] theorem State.slot_enumerate : (enumerate s).slot m = s.slot m := rfl

/-- The four functions enumerate, with their identity and what they show at offset 0 (R385). -/
theorem enumerate_out : (enumerate s).out =
    s.out ++ (List.range 4).map fun f => .enumerates f (pcieId s) (frontRead (enumerate s) f 0) := by
  have h {f : Nat} : frontRead (enumerate s) f 0 = frontRead s f 0 := frontRead_congr rfl
  simp only [h]
  simp [enumerate, List.range, List.range.loop, State.emit, pcieId, frontRead, slotOf, slotRead, State.slot]

/-! ## The writes of the queue indices -/

/-- A slot whose changes are one function of it: that function holds of it, and the slots beside it stay. -/
theorem State.slot_modSlot_leaves {f : Slot → Slot} :
    (s.modSlot n f).slot n = f (s.slot n) ∧ ∀ m, m ≠ n → (s.modSlot n f).slot m = s.slot m :=
  ⟨State.slot_modSlot.trans (if_pos rfl), fun _ hm => State.slot_modSlot.trans (if_neg hm)⟩

/-- What a write of `CMD_TAIL` leaves (R387, R389): the index moves, or `QERR` is set and it stays where it would pass the
head; the slot's role, the slots beside it and its memory outside the completion queue stay. -/
theorem writeTail_leaves {v : Word} :
    ((((s.slot n).cmdTail + 32 - (s.slot n).cmdHead) % 32 ≤ (v.toNat % 32 + 32 - (s.slot n).cmdHead) % 32 →
      ((writeTail s n v).slot n).cmdTail = v.toNat % 32 ∧ ((writeTail s n v).slot n).qerr = (s.slot n).qerr) ∧
    ((v.toNat % 32 + 32 - (s.slot n).cmdHead) % 32 < ((s.slot n).cmdTail + 32 - (s.slot n).cmdHead) % 32 →
      ((writeTail s n v).slot n).cmdTail = (s.slot n).cmdTail ∧ ((writeTail s n v).slot n).qerr = true)) ∧
    ((writeTail s n v).slot n).role = (s.slot n).role ∧
    (∀ a, a < 0x1800 ∨ 0x1A00 ≤ a → ((writeTail s n v).slot n).map.byte a = (s.slot n).map.byte a) ∧
    ∀ m, m ≠ n → (writeTail s n v).slot m = s.slot m := by
  rcases le_or_gt (((s.slot n).cmdTail + 32 - (s.slot n).cmdHead) % 32) ((v.toNat % 32 + 32 - (s.slot n).cmdHead) % 32) with h | h
  · obtain ⟨h1, h2⟩ := served_drainBad (s := s.modSlot n fun x => { x with cmdTail := v.toNat % 32 }) (n := n)
    rw [State.slot_modSlot, if_pos rfl] at h1
    rw [writeTail_accepts h]
    refine ⟨⟨fun _ => ⟨h1.cmdTail, h1.qerr⟩, fun h' => absurd h (not_le.mpr h')⟩, h1.role, h1.map, fun m hm => ?_⟩
    rw [h2 m hm, State.slot_modSlot, if_neg hm]
  · rw [writeTail_refuses h, State.slot_modSlot, if_pos rfl]
    refine ⟨⟨fun h' => absurd h' (not_le.mpr h), fun _ => ⟨rfl, rfl⟩⟩, rfl, fun _ _ => rfl, fun m hm => ?_⟩
    rw [State.slot_modSlot, if_neg hm]

theorem headKept_drainBad_payOwed : OnSlot Slot.HeadKept n s (drainBad (payOwed s n) n) :=
  headKept_payOwed.trans Slot.HeadKept.trans (served_drainBad.mono fun h => h.headKept)

/-- What a write of `CPL_HEAD` that does not pass `CPL_TAIL` leaves (R387). -/
theorem writeCplHead_accepts {v : Word}
    (h : (v.toNat % 32 + 32 - (s.slot n).cplHead) % 32 ≤ ((s.slot n).cplTail + 32 - (s.slot n).cplHead) % 32) :
    ((writeCplHead s n v).slot n).cplHead = v.toNat % 32 ∧ ((writeCplHead s n v).slot n).qerr = (s.slot n).qerr ∧
      ∀ m, m ≠ n → (writeCplHead s n v).slot m = s.slot m := by
  have e : writeCplHead s n v = drainBad (payOwed (s.modSlot n fun x => { x with cplHead := v.toNat % 32 }) n) n := if_pos h
  obtain ⟨⟨h1, h2⟩, h3⟩ := headKept_drainBad_payOwed (s := s.modSlot n fun x => { x with cplHead := v.toNat % 32 }) (n := n)
  rw [State.slot_modSlot_leaves.1] at h1 h2
  rw [e]
  refine ⟨h1, h2, fun m hm => ?_⟩
  rw [h3 m hm, State.slot_modSlot, if_neg hm]

/-- One that would pass it. -/
theorem writeCplHead_refuses {v : Word}
    (h : ((s.slot n).cplTail + 32 - (s.slot n).cplHead) % 32 < (v.toNat % 32 + 32 - (s.slot n).cplHead) % 32) :
    writeCplHead s n v = s.modSlot n fun x => { x with qerr := true } := if_neg (not_le.mpr h)

/-! ## What the commands leave -/

/-- What a write of `IRQ_MASK` leaves (R387, R392). -/
theorem writeMask_leaves {v : Word} :
    (∃ c, (writeMask s n v).slot n = { s.slot n with mask := BitVec.ofNat 4 v.toNat, pba := c }) ∧
      ∀ m, m ≠ n → (writeMask s n v).slot m = s.slot m := by
  obtain ⟨h, h'⟩ := pbaOnly_sendIrqs (n := n) (l := List.range 4)
    (c := fun k => (BitVec.ofNat 4 v.toNat).getLsbD k && !(s.slot n).mask.getLsbD k && (s.slot n).pend.getLsbD k)
    (s := s.modSlot n fun x => { x with mask := BitVec.ofNat 4 v.toNat })
  rw [← writeMask_eq] at h h'
  rw [State.slot_modSlot, if_pos rfl] at h
  refine ⟨h, fun m hm => ?_⟩
  rw [h' m hm, State.slot_modSlot, if_neg hm]

/-- A pending cause that the write unmasks sends its message, unless its vector is masked. -/
theorem writeMask_sends {v : Word} (hk : k < 4) (hv : v.getLsbD k = true) (hm : (s.slot n).mask.getLsbD k = false)
    (hp : (s.slot n).pend.getLsbD k = true) (h1 : (s.slot n).msixOn = true) (h2 : (s.slot n).pcie = true)
    (h3 : (s.slot n).vecMasked k = false) : Out.msix n k ∈ (writeMask s n v).out := by
  have hv' : (BitVec.ofNat 4 v.toNat).getLsbD k = true := by
    rw [BitVec.getLsbD_ofNat, decide_eq_true hk, Bool.true_and]
    exact hv
  obtain ⟨e, -⟩ := State.slot_modSlot_leaves (s := s) (n := n) (f := fun x => { x with mask := BitVec.ofNat 4 v.toNat })
  rw [writeMask_eq]
  refine sendIrqs_sends (List.mem_range.mpr hk) ?_ ?_ ?_ ?_
  · rw [hv', hm, hp]
    rfl
  all_goals rw [e]; assumption

/-- Where no cause is pending, the write sends nothing. -/
theorem writeMask_sends_nothing {v : Word} (h : (s.slot n).pend = 0) : (writeMask s n v).out = s.out := by
  rw [writeMask_eq, sendIrqs_none]
  · rfl
  · intro k _
    rw [h, show (0 : BitVec 4).getLsbD k = false from BitVec.getLsbD_zero, Bool.and_false]

/-- A raised bell (R391). -/
theorem ringBell_eq (h1 : (s.slot n).role ≠ .observer) (h2 : s.dev.state ≠ .clearing) :
    ringBell s n = s.onSeq fun q => { q with trigs := q.trigs ++ raised s 0x9 fun a => a % 4 == n } := by
  rw [ringBell, if_pos (by simp [h1, h2]), raiseSource_eq]

/-- A bell that no one hears. -/
theorem ringBell_silent (h : (s.slot n).role = .observer ∨ s.dev.state = .clearing) : ringBell s n = s :=
  if_neg (by rcases h with h | h <;> simp [h])

/-! ## The commands -/

/-- A memory that differs within the completion queue alone reads alike outside it. -/
theorem Mem.bytes_congr {M N : Mem} {a l : Nat} (h : ∀ a, a < 0x1800 ∨ 0x1A00 ≤ a → N.byte a = M.byte a)
    (ha : a + l ≤ 0x1800 ∨ 0x1A00 ≤ a) : N.bytes a l = M.bytes a l := by
  refine List.map_congr_left fun j hj => h _ ?_
  have := List.mem_range.mp hj
  omega

/-- What a read frame finds at a front end that no slot is bound to. -/
theorem frontRead_unbound {f a : Nat} (h : slotOf s f = none) :
    frontRead s f a = if a = 0 then slotIdReg f 0 false else 0 := by
  rw [frontRead, h]

/-- A command that its slot takes ends in what its operation comes to. -/
theorem ends_when {P : State → Prop} {g : Bool} {f : State → State} (hg : g = true)
    (h : Only ps (elapse dt s) (f (elapse dt s))) (hp : .pending ∉ ps) (ht : .tap ∉ ps) (hP : P (f (elapse dt s))) :
    Ends (answer s ((elapse dt s).when g f)) P := by
  rw [State.when_true hg]
  exact ends_answer h hp ht hP

/-! ## QSPI frames -/

/-- What the QSPI front end notes of a frame lies in its slot. -/
theorem qspiSeen_leaves : (qspiSeen s n).slot n = { s.slot n with qspiAt := some s.op } ∧
    ∀ m, m ≠ n → (qspiSeen s n).slot m = s.slot m := State.slot_modSlot_leaves

/-- A good frame of one word is that word's write (R386). -/
theorem execQspiWriteFrame_one {b : Bool} {f : List Byte} (h1 : slotsUp (elapse dt s) = true)
    (h2 : slotOf (elapse dt s) (4 + b2n b) = some n) (h3 : byteAt f 0 = 0x01 ∨ byteAt f 0 = 0x11) (h4 : writeFrameOk f = true)
    (h5 : frameCount f = 1) : execQspiWriteFrame dt b f s =
      answer s (slotWrite (qspiSeen (elapse dt s) n) n (frameOff f) (wordAt f 5)) := by
  have h3' : (byteAt f 0 == 0x01 || byteAt f 0 == 0x11) = true := by simpa using h3
  rw [execQspiWriteFrame, h1, h3', Bool.and_true, if_pos rfl, h2]
  exact congrArg (answer s) ((if_pos h4).trans (by rw [h5]; rfl))

/-- The words of a good frame lie at words. -/
theorem writeFrameOk_word {f : List Byte} (h : writeFrameOk f = true) : frameOff f % 4 = 0 := by
  simp only [writeFrameOk, Bool.and_eq_true, beq_iff_eq] at h
  exact h.1.2

/-- A bad frame sets `QERR`. -/
theorem execQspiWriteFrame_bad {b : Bool} {f : List Byte} (h1 : slotsUp (elapse dt s) = true)
    (h2 : slotOf (elapse dt s) (4 + b2n b) = some n) (h3 : byteAt f 0 = 0x01 ∨ byteAt f 0 = 0x11) (h4 : writeFrameOk f = false) :
    execQspiWriteFrame dt b f s = answer s ((elapse dt s).modSlot n fun x => { x with qerr := true }) := by
  have h3' : (byteAt f 0 == 0x01 || byteAt f 0 == 0x11) = true := by simpa using h3
  rw [execQspiWriteFrame, h1, h3', Bool.and_true, if_pos rfl, h2, h4]
  rfl

/-- A read frame at a word returns itself, its words and the check value (R386). -/
theorem execQspiReadFrame_eq {b : Bool} {f : List Byte} (h1 : slotsUp (elapse dt s) = true)
    (h3 : byteAt f 0 = 0x02 ∨ byteAt f 0 = 0x12) (h4 : f.length = 5) (h5 : frameOff f % 4 = 0) :
    let body := f ++ ((List.range (frameCount f)).map fun k =>
      frontRead (elapse dt s) (4 + b2n b) (frameOff f + 4 * k)).flatMap fun y => leBytes 4 y.toNat
    execQspiReadFrame dt b f s = answer s ((match slotOf (elapse dt s) (4 + b2n b) with
      | some n => qspiSeen (elapse dt s) n
      | none => elapse dt s).emit (.qspi (4 + b2n b) (body ++ (leBytes 2 (crc16 body)).reverse))) := by
  have h3' : (byteAt f 0 == 0x02 || byteAt f 0 == 0x12) = true := by simpa using h3
  have hw : readFrameWords (elapse dt s) (4 + b2n b) (frameOff f) (frameCount f) =
      (List.range (frameCount f)).map fun k => frontRead (elapse dt s) (4 + b2n b) (frameOff f + 4 * k) := by
    simp [readFrameWords, h5]
  rw [execQspiReadFrame]
  dsimp only
  rw [h1, h3', decide_eq_true h4, Bool.and_true, Bool.and_true, if_pos rfl, hw]
  simp only [if_pos h5]
  cases slotOf (elapse dt s) (4 + b2n b) <;> rfl

/-- Settles O41: each write is one operation on its slot, after which the command answers the state it has come to. -/
theorem slotMapWrites : Obligations.SlotMapWrites := by
  unfold Obligations.SlotMapWrites
  intro s dt n b f v w o wr u x others up now1 now2 inQueue fresh
  have reset {t : State} (ht : ∃ c, t.slot n.val = { x with pcieUp := c }) : fresh (slotReset t n) := by
    obtain ⟨c, e⟩ := ht
    obtain ⟨y, hy⟩ := slotReset_leaves (s := t) (n := n.val)
    refine ⟨⟨y, ?_⟩, fun y hy hs => slotReset_waits hy hs⟩
    rw [hy, e]
  have drawn {t : State} (ht : fresh t) : fresh t.drawn := ht
  refine ⟨?_, ?_, ?_, ?_, ?_, ?_, ?_, ?_, ?_, ?_, ?_, ?_, ?_, ?_, ?_, ?_, ?_⟩
  · -- CMD_TAIL
    intro hu hq ho
    obtain ⟨⟨⟨M, c, hx⟩, ht⟩, hO, hw⟩ := hostWrites_leave (s := u) (n := n.val) (w := w) hq ho
    obtain ⟨⟨h1, h2⟩, hr, hm, ho'⟩ := writeTail_leaves (n := n.val) (v := v) (s :=
      (wr ++ [(o, w)]).foldl (fun t w => if mapped (t.slot n) w.1.toNat then slotWrite t n w.1.toNat w.2 else t) u)
    rw [hx] at h1 h2 hr
    have ha : o.toNat + 4 ≤ 0x1800 ∨ 0x1A00 ≤ o.toNat := by
      obtain ⟨h4, h | h⟩ := ho <;> omega
    have hf : Only [.host, .out] u (writeTail _ n v) := only_writeTail hO (by simp)
    refine ends_when hu hf (by decide) (by decide) ⟨?_, h1, fun h => ⟨(h2 h).1, (h2 h).2, hf⟩, hr,
      fun m h => (ho' m h).trans (ht m h), hf⟩
    rw [Mem.bytes_congr hm ha, hw]
  · -- CPL_HEAD up to CPL_TAIL
    intro hu h
    obtain ⟨h1, h2, h3⟩ := writeCplHead_accepts (s := u) h
    have hO : Only [.host, .out] u (writeCplHead u n v) := only_writeCplHead .refl (by simp)
    exact ends_when hu hO (by decide) (by decide) ⟨h1, h2, h3, hO⟩
  · -- CPL_HEAD past CPL_TAIL
    intro hu h
    have hO : Only [.host] u (u.modSlot n fun x => { x with qerr := true }) := only_modSlot .refl (by simp)
    rw [← writeCplHead_refuses h] at hO
    refine ends_when hu hO (by decide) (by decide) ?_
    rw [writeCplHead_refuses h] at hO ⊢
    exact ⟨State.slot_modSlot_leaves.1, State.slot_modSlot_leaves.2, hO⟩
  · -- TASK_BELL
    intro hu hr hd
    have hO : Only [.seq] u (ringBell u n) := only_ringBell .refl (by simp)
    refine ends_when hu hO (by decide) (by decide) ?_
    rw [ringBell_eq hr hd] at hO ⊢
    exact ⟨rfl, rfl, hO⟩
  · -- TASK_BELL that no one hears
    intro h
    show answer s (u.when (hostUp u n) fun t => ringBell t n) = _
    have e : ringBell u n = u := ringBell_silent h
    rw [State.when, e, ite_self]
    rfl
  · -- NOTIFY
    intro hu
    have hO : Only [.host] u (clearNotify u n v) := only_clearNotify .refl (by simp)
    exact ends_when hu hO (by decide) (by decide) ⟨State.slot_modSlot_leaves.1, State.slot_modSlot_leaves.2, hO⟩
  · -- IRQ_MASK
    intro hu
    have hO : Only [.host, .out] u (writeMask u n v) := only_writeMask .refl (by simp)
    obtain ⟨⟨c, h⟩, h'⟩ := writeMask_leaves (s := u) (n := n.val) (v := v)
    exact ends_when hu hO (by decide) (by decide) ⟨by rw [h], by rw [h], h',
      fun _ => writeMask_sends, writeMask_sends_nothing, hO⟩
  · -- IRQ_PEND
    intro hu
    have hO : Only [.host] u (clearPend u n v) := only_clearPend .refl (by simp)
    exact ends_when hu hO (by decide) (by decide) ⟨State.slot_modSlot_leaves.1, State.slot_modSlot_leaves.2, hO⟩
  · -- SLOT_ID with the key 0 through a QSPI front end
    intro hu hp
    have e : slotWrite u n 0 0 = slotReset u n := if_pos (by rw [show (u.slot n).pcie = false from hp]; rfl)
    have hO : Only [.ln, .host, .nv, .out] u (slotReset u n) := only_slotReset .refl (by simp)
    rw [← e] at hO
    refine ends_when hu hO (by decide) (by decide) ?_
    rw [e] at hO ⊢
    exact ⟨reset ⟨_, rfl⟩, hO⟩
  · -- SLOT_ID otherwise
    intro h
    have e : slotWrite u n 0 v = u := if_neg (by rcases h with h | h <;> simp_all [u, x])
    show answer s (u.when (hostUp u n) fun t => slotWrite t n 0 v) = _
    rw [State.when, e, ite_self]
    rfl
  · -- SLOT_RESET
    intro hu hp
    have hg : (hostUp u n && (u.slot n).pcie) = true := by rw [hu, show (u.slot n).pcie = true from hp]; rfl
    have hO : Only [.free, .ln, .host, .nv, .out] u
        (slotReset (u.modSlot n fun x => { x with pcieUp := x.pcieUp && Config.freeBit u.free }) n).drawn :=
      only_drawn (only_slotReset (only_modSlot .refl (by simp)) (by simp)) (by simp)
    exact ends_when hg hO (by decide) (by decide) ⟨drawn (reset ⟨_, State.slot_modSlot_leaves.1⟩), hO⟩
  · -- PCIE_LINK_UP
    intro hu hp
    have hg : (hostUp u n && (u.slot n).pcie) = true := by rw [hu, show (u.slot n).pcie = true from hp]; rfl
    have hO : Only [.free, .clk, .host, .out] u
        (enumerate (((u.modSlot n fun x => { x with pcieUp := true, msixOn := Config.freeBit u.free }).onClk fun c =>
          { c with refclk := true }).drawn)) :=
      only_enumerate (only_drawn (only_onClk (only_modSlot .refl (by simp)) (by simp)) (by simp)) (by simp)
    exact ends_when hg hO (by decide) (by decide) ⟨⟨_, State.slot_enumerate.trans State.slot_modSlot_leaves.1⟩, rfl,
      enumerate_out, fun m hm => State.slot_enumerate.trans (State.slot_modSlot_leaves.2 m hm), hO⟩
  · -- a good write frame
    intro h1 h2 h3 h4 h5 h6 h7
    have hq : QueueWord (frameOff f) := ⟨writeFrameOk_word h4, .inr ⟨h6, h7⟩⟩
    obtain ⟨⟨⟨M, c, hx⟩, ht⟩, hO, hw⟩ := slotWrite_queueWord_leaves (s := qspiSeen u n) (n := n) (v := wordAt f 5) hq
    rw [qspiSeen_leaves.1] at hx
    replace hO : Only [.host, .out] u (slotWrite (qspiSeen u n) n (frameOff f) (wordAt f 5)) :=
      (only_qspiSeen .refl (by simp)).trans hO
    show Ends (execQspiWriteFrame dt b f s) _
    rw [execQspiWriteFrame_one h1 h2 h3 h4 h5]
    exact ends_answer hO (by decide) (by decide)
      ⟨hw, by rw [hx], by rw [hx], fun m hm => (ht m hm).trans (qspiSeen_leaves.2 m hm), hO⟩
  · -- a bad write frame
    intro h1 h2 h3 h4
    have hO : Only [.host] u (u.modSlot n fun x => { x with qerr := true }) := only_modSlot .refl (by simp)
    show Ends (execQspiWriteFrame dt b f s) _
    rw [execQspiWriteFrame_bad h1 h2 h3 h4]
    exact ends_answer hO (by decide) (by decide) ⟨State.slot_modSlot_leaves.1, State.slot_modSlot_leaves.2, hO⟩
  · -- a read frame of a bound slot
    intro h1 h2 h3 h4 h5
    show Ends (execQspiReadFrame dt b f s) _
    rw [execQspiReadFrame_eq h1 h3 h4 h5, h2]
    have hO (e : Out) : Only [.host, .out] u ((qspiSeen u n).emit e) :=
      only_emit (only_qspiSeen .refl (by simp)) (by simp)
    exact ends_answer (hO _) (by decide) (by decide) ⟨rfl, qspiSeen_leaves.1, qspiSeen_leaves.2, hO _⟩
  · -- a read frame at an unbound front end
    intro h1 h2 h3 h4 h5
    show Ends (execQspiReadFrame dt b f s) _
    rw [execQspiReadFrame_eq h1 h3 h4 h5, h2]
    have hO (e : Out) : Only [.out] u (u.emit e) := only_emit .refl (by simp)
    refine ends_answer (hO _) (by decide) (by decide) ⟨?_, hO _⟩
    have hr (a : Nat) : frontRead (elapse dt s) (4 + b2n b) a = if a = 0 then slotIdReg (4 + b2n b) 0 false else 0 :=
      frontRead_unbound h2
    simp only [hr]
    rfl
  · -- an unbound slot
    intro h
    have off (g : State → State) : answer s (u.when (hostUp u n) g) = .next u := by
      rw [State.when_false h]
      rfl
    exact ⟨off _, off _, off _, off _, off _⟩

end Sys2Proof.Machine
end

section
/-! Refutations: the concrete states in which three statements fail, and how the outcome of a command is tested in them. -/
namespace Sys2Proof.Machine

/-- The outcome is a next state that passes a test. -/
def endsTest (o : Host.Outcome State Fault Refusal) (f : State → Bool) : Bool :=
  match o with
  | .next t => f t
  | _ => false

/-- An outcome that fails a test does not end in a state whose property implies the test. -/
theorem not_ends_of_test {o : Host.Outcome State Fault Refusal} {P : State → Prop} {f : State → Bool}
    (hf : endsTest o f = false) (h : ∀ t, P t → f t = true) : ¬ Ends o P := by
  rintro ⟨t, rfl, ht⟩
  exact Bool.false_ne_true (hf.symm.trans (h t ht))

/-- RUN, at 1 s of the time base and 2 s of operating time. -/
def runningDevice : State :=
  { State.reset with
    dev := { last := { cause := 0x0A, left := .setup, entered := .run, ok := rfl }, pkgOk := true }
    clk := { lock := true, tb := 1000000000, opNs := 2000000000, awaitLock := false } }

/-- Slot 0, an OPERATOR, has one command at the head of its queue, with this code and these arguments. -/
def State.withCommand (s : State) (op : Byte) (args : List Byte) : State :=
  { s with host := { slots := [(0, { front := some 0, base := .operator, role := .operator, cmdTail := 1
                                     map := Mem.putBytes [] 0x1000 ([op, 0, 7, 0, 0, 0, 0, 0] ++ args) })] } }

/-- A task's release at the present instant of `runningDevice`, to which the S area still reads as 0. -/
def releasedNow : Inst :=
  { num := 1, rel := 1000000000, due := 1000100000, outAt := 1000050000, starveAt := 1000200000, lateAt := 1000090000
    snap := [], groups := [], shafts := [] }

/-- Slot 0 asks for ACK_FAULT without the OWNER role, at the instant at which task 0 was released. -/
def ackWhileReleased : State :=
  { runningDevice.withCommand 0x15 [] with seq := { insts := [(0, some releasedNow)] } }

/-- The denied ACK_FAULT lets the task released at its instant see the S bytes, so that the sequencer is not as it was. -/
theorem ackWhileReleased_changes_seq :
    endsTest (exec (.ackFault 0 0) ackWhileReleased) (fun t => decide (t.seq.insts = ackWhileReleased.seq.insts)) = false := by
  decide +kernel

/-- Refutes O42: an ACK_FAULT that is denied for want of the OWNER role changes more than host slots and outputs, since
the answer of the command still shows the S bytes to the tasks released at its instant (R205, R213). -/
theorem not_deviceCommands : ¬ Obligations.DeviceCommands := by
  unfold Obligations.DeviceCommands
  intro h
  obtain ⟨-, -, -, -, -, -, -, -, -, -, -, -, -, -, -, -, hdenied, -⟩ := h ackWhileReleased 0 0 0 releasedNow 0
  have asked : Asked (elapse 0 ackWhileReleased) 0 0x15 :=
    ⟨by decide +kernel, by decide +kernel, by decide +kernel⟩
  refine not_ends_of_test ackWhileReleased_changes_seq (fun t ht => ?_)
    (hdenied 0x15 (.ackFault 0 0) (by simp) asked (by decide +kernel) ⟨by decide +kernel, by decide +kernel⟩ (by decide +kernel))
  exact decide_eq_true (congrArg Seq.insts (ht.2.seq_eq (by decide)))

/-! ## The record of a capture's end -/

/-- The capture that loop 0 runs. -/
def runningCapture : Cap := { loop := 0, form := 0, atSp := false, dec := 1, amp := 0, par := 0, records := 1 }

/-- A tune, of which the clause about the abort of a capture says nothing. -/
def someTune : Tune := { rule := 0, cycles := 2, dr := 0, eps := 0, mode := 1, limitNs := 0, startAt := 0 }

/-- Record `q` of the buffer, of a transition. -/
def bufferedRec (q : Nat) : Rec :=
  { seq := BitVec.ofNat 32 q, code := 0x0001, rep := 1, firstS := 0, firstMs := 0, cycles := 0, state := 0, lastS := 0
    lastMs := 0, contents := [], snap := [], tb := 0 }

/-- Slot 0 asks for the abort of the capture of loop 0. The first word of the capture buffer is unrepaired, and the record
buffer has room for one record. -/
def abortWithOneRecordLeft : State :=
  { runningDevice.withCommand 0x33 [0, 1, 0, 0] with
    cfg := rSet (rSet (rSet [] 0x0603 0 0x80000000) 0x0620 0 0x12000000) 0x0621 0 0x100
    can := { bad := [0x12000000] }
    lp := { cap := some runningCapture }
    nv := { buf := (List.range 31).map fun q => bufferedRec (q + 1), newest := 31 } }

/-- The newest record is that of the word which the capture's header repairs: the end of the capture found no room. -/
theorem abortWithOneRecordLeft_newest : endsTest (exec (.hostLoopAbort 0 0) abortWithOneRecordLeft)
    (fun t => decide ((newestRec t).map (fun r => r.code) = some 0x0603)) = false := by
  decide +kernel

/-- Refutes O44: where LOOP_ABORT ends a capture, the write of its header line may repair a word, and the record of that
repair (R217) may take the last place of the record buffer, so that the end of the capture is recorded as lost (R459). -/
theorem not_ownershipAndRequests : ¬ Obligations.OwnershipAndRequests := by
  unfold Obligations.OwnershipAndRequests
  intro h
  obtain ⟨-, -, -, -, -, -, -, -, -, -, -, -, -, -, -, -, -, -, -, -, -, habort, -⟩ :=
    h abortWithOneRecordLeft 0 0 [] 0 0 256 someTune runningCapture
  have asked : Asked (elapse 0 abortWithOneRecordLeft) 0 0x33 :=
    ⟨by decide +kernel, by decide +kernel, by decide +kernel⟩
  refine not_ends_of_test abortWithOneRecordLeft_newest (fun t ht => ?_)
    (habort asked (by decide +kernel) ⟨by decide +kernel, by decide +kernel, by decide +kernel, by decide +kernel⟩
      (by decide +kernel) rfl rfl)
  obtain ⟨-, -, -, -, hlogs⟩ := ht
  obtain ⟨r, hr, hcode, -⟩ := hlogs (by decide +kernel)
  rw [hr, Option.map_some, hcode]
  decide

/-! ## The low mark of the shadow pool -/

/-- Copy 0, of task 0: its G2 is the address of a line of the task's own. -/
def storingCopy : Copy := { lane := 0, started := true, regs := { g := (Vector.replicate 16 0).set 2 0x10060000 } }

/-- Copy 4, of task 1: aged, on the same lane, with a shadow line. -/
def agedCopy : Copy := { lane := 0, regs := {}, started := true, aged := true, shadow := [(0, some { data := 0, wrote := 0 })] }

/-- Lane 0 runs copy 0. The table of copies is not in canonical form: key 8, with no copy, is listed before key 4. -/
def storeBesideUnsortedCopies : State :=
  { runningDevice with
    cfg := rSet (rSet (rSet [] 0x0303 0 0x10060000) 0x0304 0 0x10060100) 0x0305 0 0
    pkg := { hdr := some { testPermit := true, online := true, words := 4096, base := 0, entry := 0, lane := 0, version := 1
                           layout := [] } }
    ln := { lanes := [(0, { role := .bound, acts := some 0, running := some 0 })]
            copies := [(0, some storingCopy), (8, none), (4, some agedCopy)] } }

/-- The switch to copy 4 after the store lists that copy a second time, so that the pool holds a line more than the low mark
has noted. -/
theorem storeBesideUnsortedCopies_lowMark : endsTest (exec (.stw 0 [] 1 2) storeBesideUnsortedCopies)
    (fun t => decide (t.can.low = storeBesideUnsortedCopies.can.low ∨
      t.can.low = min storeBesideUnsortedCopies.can.low (32768 - poolUsed t))) = false := by
  decide +kernel

/-- Refutes O13: a store notes the low mark of the pool before the scheduling decision, and where the table of copies is not
in canonical form, the switch to another copy changes what the pool counts. -/
theorem not_stores : ¬ Obligations.Stores := by
  unfold Obligations.Stores
  rintro ⟨h, -⟩
  have room : Room storeBesideUnsortedCopies 0 storingCopy (storingCopy.reg 2 + joinS [] 0 0).toNat := by
    unfold Room
    decide +kernel
  have runs : UnitRuns storeBesideUnsortedCopies 0 [] { ext := true } 0 storingCopy :=
    ⟨by decide +kernel, by decide +kernel, by decide +kernel, by decide +kernel, by decide +kernel⟩
  obtain ⟨-, -, hword⟩ := h storeBesideUnsortedCopies 0 [] 0 storingCopy 1 2 room
  refine not_ends_of_test storeBesideUnsortedCopies_lowMark (fun t ht => ?_) (hword runs (by decide +kernel))
  exact decide_eq_true ht.2.2

end Sys2Proof.Machine
end

section
/-! A step and the command at the front of the queue. -/
namespace Sys2Proof.Machine

/-- Settles O54: a step on a queue with a command in front is that command's execution on the rest, by definition. -/
theorem stepRunsTheFront : Obligations.StepRunsTheFront := by
  unfold Obligations.StepRunsTheFront
  intro c r s
  rfl

end Sys2Proof.Machine
end

section
/-! The frame of the lane units: what an issued unit changes, whatever it does (R83). -/
namespace Sys2Proof.Machine

variable {s : State} {p : List Pre} {l : LaneId} {d : Dec} {errs : List EccErr}

/-- The outcome is a next state that keeps the queue and changes the parts `ps` at most. -/
def Within (ps : List Part) (s : State) (o : Host.Outcome State Fault Refusal) : Prop :=
  Ends o fun t => t.pending = s.pending ∧ Only ps s t

/-- Inclusion of lists of parts, by running both: it spares the search for each membership. -/
theorem listed {l ps : List Part} (h : (l.all fun q => ps.contains q) = true) : l ⊆ ps := by
  intro q hq
  simpa using List.all_eq_true.mp h q hq

theorem within_answer {ps : List Part} {t : State} (h : Only ps s t) : Within ps s (answer s t) :=
  ⟨_, rfl, rfl, (only_answer h).mono (List.filter_subset_self _)⟩

theorem within_answerTap {ps : List Part} {t : State} (h : Only ps s t) : Within ps s (answerTap s t) := by
  refine ⟨_, rfl, rfl, fun q hq => ?_⟩
  cases q
  case pending => rfl
  all_goals exact h _ hq

/-- The parts that a unit of a lane may change, whatever it does and whatever its end brings about. -/
def unitParts : List Part :=
  [.free, .cfg, .dev, .ln, .seq, .can, .fret, .yl, .lp, .fld, .cb, .host, .pkg, .safe, .nv, .out]

/-- An operation of a unit changes only the parts of units. -/
def UnitFrame (body : State → Nat → Copy → Res) : Prop := ∀ s k c, Only unitParts s (body s k c).s

theorem within_issueWith {body : State → Nat → Copy → Res} (h : UnitFrame body) :
    Within unitParts s (answer s (issueWith errs l.val p d body s)) :=
  within_answer (only_issueWith .refl h (List.Subset.refl _))

theorem within_issue {body : State → Nat → Copy → Res} (h : UnitFrame body) :
    Within unitParts s (answer s (issue l.val p d body s)) := within_issueWith h

theorem unitFrame_pureUnit {f : Copy → Copy} : UnitFrame (pureUnit f) := fun _ _ _ => .refl

theorem unitFrame_flowUnit {f : Copy → Flow} : UnitFrame (flowUnit f) := fun _ _ _ => .refl

theorem unitFrame_callUnit {t : Copy → BitVec 21} : UnitFrame (callUnit p t) := fun _ _ _ => .refl

theorem unitFrame_divUnit {b : Bool} {x y : BitVec 3} : UnitFrame (divUnit b x y) := by
  intro s k c
  unfold divUnit
  dsimp only
  split <;> exact .refl

theorem unitFrame_bitUnit {op : BitVec 3} {n : BitVec 9} : UnitFrame (bitUnit op p n) := by
  intro s k c
  unfold bitUnit
  dsimp only
  split
  · exact .refl
  · split_ifs
    · exact only_bitAct .refl (listed rfl)
    · exact .refl
    · exact only_bitAct .refl (listed rfl)
    · exact .refl

theorem unitFrame_loadUnit {x y : BitVec 4} {n : Nat} {b : Bool} : UnitFrame (loadUnit p x y n b) := by
  intro s k c
  unfold loadUnit
  dsimp only
  split <;> exact .refl

theorem unitFrame_storeUnit {x y : BitVec 4} {n : Nat} : UnitFrame (storeUnit p x y n) := by
  intro s k c
  unfold storeUnit
  dsimp only
  split
  · exact .refl
  · split
    · rename_i h
      exact only_copyStore .refl (listed rfl) h
    · exact .refl

/-- An element of a string or CRC unit changes only the parts of units. -/
def ElemFrame (f : State → Nat → Copy → Elem) : Prop := ∀ s k c t y, f s k c = .ok t y → Only unitParts s t

theorem elemFrame_movsElem {n : Nat} : ElemFrame (movsElem n) := by
  intro s k c t y h
  unfold movsElem at h
  dsimp only at h
  split at h
  · cases h
  · split at h
    · cases h
    · split at h
      · rename_i hs
        cases h
        exact only_copyStore .refl (listed rfl) hs
      · cases h

theorem elemFrame_fillElem {g : Nat} : ElemFrame (fillElem g) := by
  intro s k c t y h
  unfold fillElem at h
  split at h
  · cases h
  · split at h
    · rename_i hs
      cases h
      exact only_copyStore .refl (listed rfl) hs
    · cases h

theorem elemFrame_crcmElem {n : Nat} : ElemFrame (crcmElem n) := by
  intro s k c t y h
  unfold crcmElem at h
  split at h
  · cases h
  · cases h
    exact .refl

theorem only_repeatUnit {f : State → Nat → Copy → Elem} (hf : ElemFrame f) {k n : Nat} {c : Copy} :
    Only unitParts s (repeatUnit f k n s c).s := by
  induction n generalizing s c with
  | zero => exact .refl
  | succ n ih =>
    unfold repeatUnit
    split
    · exact .refl
    · split
      · rename_i h
        exact (hf _ _ _ _ _ h).trans ih
      · exact .refl
      · exact .refl

theorem unitFrame_elemUnit {run : Nat} {f : State → Nat → Copy → Elem} (hf : ElemFrame f) :
    UnitFrame (elemUnit p run f) := by
  intro s k c
  unfold elemUnit
  split
  · split
    · rename_i h
      exact hf _ _ _ _ _ h
    · exact .refl
    · exact .refl
  · exact only_repeatUnit hf

theorem unitFrame_repUnit {b : RepBody} {run : Nat} : UnitFrame (repUnit p b run) := by
  cases b with
  | movs w => exact unitFrame_elemUnit elemFrame_movsElem
  | fillw r => exact unitFrame_elemUnit elemFrame_fillElem
  | crcm w => exact unitFrame_elemUnit elemFrame_crcmElem
  | writesRep => exact fun _ _ _ => .refl
  | other => exact fun _ _ _ => .refl

theorem unitFrame_chkUnit : UnitFrame chkUnit := by
  intro s k c
  unfold chkUnit
  dsimp only
  split_ifs
  · exact .refl
  · exact only_onSeq .refl (listed rfl)
  · exact only_record (only_seeS (only_modTask .refl (listed rfl)) (listed rfl)) (listed rfl)

theorem unitFrame_sysUnit {x n : Nat} : UnitFrame (sysUnit x n) := by
  intro s k c
  unfold sysUnit
  dsimp only
  split
  · exact .refl
  · exact only_accessOnce .refl (listed rfl) fun _ => .refl

theorem unitFrame_cfgUnit {g n : Nat} : UnitFrame (cfgUnit g n) := by
  intro s k c
  unfold cfgUnit
  dsimp only
  split
  · exact .refl
  · split
    · exact .refl
    · split
      · exact .refl
      · exact only_ite (only_cfgStore .refl (listed rfl)) .refl

theorem unitFrame_fretUnit {x g : Nat} : UnitFrame (fretUnit x g) := by
  intro s k c
  unfold fretUnit
  dsimp only
  split <;> exact .refl

theorem unitFrame_fretcUnit {x g : Nat} : UnitFrame (fretcUnit x g) := fun _ _ _ => .refl

theorem only_iteRes {ps : List Part} {c : Prop} [Decidable c] {a b : Res} (ha : Only ps s a.s) (hb : Only ps s b.s) :
    Only ps s (if c then a else b).s := by
  split
  · exact ha
  · exact hb

theorem unitFrame_sysCall {x n : Nat} : UnitFrame (sysCall x n) := by
  intro s k c
  have h (g0 g1 g2 : Word) (u : State) : Only unitParts u (immAccess (keyTask k) n g0 g1 g2 u).1 :=
    only_immAccess .refl (listed rfl)
  refine only_iteRes .refl (only_iteRes .refl (only_iteRes .refl (only_iteRes .refl (only_iteRes ?_ ?_))))
  · dsimp only
    exact only_drawTag .refl (listed rfl)
  · dsimp only
    split
    · exact .refl
    · rename_i hs
      exact only_copyStoreAll (only_accessOnce .refl (listed rfl) (h _ _ _)) (listed rfl) hs

end Sys2Proof.Machine
end

section
/-! The frame of the host commands: what their bodies change before the completion (R389). -/
namespace Sys2Proof.Machine

variable {s t : State} {ps : List Part} {b : Bool} {st op n dt : Nat} {body : CmdBody}

/-- What a host command does before its completion changes the parts `ps` at most. -/
def BodyFrame (ps : List Part) (body : CmdBody) : Prop := ∀ u n e, Only ps u (body u n e).left

theorem only_unless {rest : CmdEnd} (h : Only ps s t) (hr : Only ps s rest.left) :
    Only ps s (CmdEnd.unless b t st rest).left := by
  unfold CmdEnd.unless
  split
  · exact h
  · exact hr

theorem only_done {v0 v1 v2 : Nat} (h : Only ps s t) : Only ps s (CmdEnd.done t st v0 v1 v2).left := h

theorem only_ends (h : Only ps s t) : Only ps s (ends t st).left := h

theorem only_wait {w : WaitFor} {ev : Nat} {items : List (Nat × Nat)} (h : Only ps s t) :
    Only ps s (CmdEnd.wait t w ev items).left := h

theorem only_waits {id ev : Nat} {items : List (Nat × Nat)} (h : Only ps s t) : Only ps s (waits t id ev items).left := h

theorem only_long (h : Only ps s t) : Only ps s (CmdEnd.long t).left := h

theorem only_gone (h : Only ps s t) : Only ps s (CmdEnd.gone t).left := h

theorem only_whenTag {go : CmdEnd} (h : Only ps s t) (hg : Only ps s go.left) : Only ps s (whenTag t go).left := by
  unfold whenTag
  split
  · exact h
  · exact hg

theorem only_whenReady {go : CmdEnd} (h : Only ps s t) (hg : Only ps s go.left) (k : [.host, .nv, .out] ⊆ ps) :
    Only ps s (whenReady t op go).left := by
  unfold whenReady
  split
  · exact hg
  · exact only_record h k

/-- The parts that a STOP trigger may change, which the state-changing commands judge first (R41). -/
def stopParts : List Part :=
  [.free, .cfg, .dev, .ln, .seq, .can, .fret, .yl, .lp, .fld, .cb, .host, .pkg, .nv, .out]

theorem only_transGate {role : Bool} {state : State → Bool} {rest : State → CmdEnd} (k : stopParts ⊆ ps)
    (hr : ∀ u, Only ps u (rest u).left) : Only ps s (transGate s role state rest).left :=
  have h : Only ps s (judgeStops s) := only_judgeStops .refl k
  only_unless h (only_unless h (only_unless h (h.trans (hr _))))

theorem within_cmd (h : BodyFrame ps body) (k : [.free, .dev, .clk, .yl, .fld, .host, .wd, .out] ⊆ ps) :
    Within ps s (answer s (runCmd op body (elapse dt s) n)) := by
  simp only [List.cons_subset, List.nil_subset, and_true] at k
  exact within_answer (only_runCmd (only_elapse .refl (by simp [*])) h (by simp [*]))

theorem within_cmdS (h : BodyFrame ps body) (k : [.free, .dev, .clk, .seq, .yl, .fld, .host, .wd, .out] ⊆ ps) :
    Within ps s (answerS s (runCmd op body (elapse dt s) n)) := by
  simp only [List.cons_subset, List.nil_subset, and_true] at k
  exact within_answer (only_seeS (only_runCmd (only_elapse .refl (by simp [*])) h (by simp [*])) (by simp [*]))

theorem frame_cmdIdentify : BodyFrame ps cmdIdentify := fun _ _ _ => .refl

theorem frame_cmdOwnerChallenge (k : [.free, .host] ⊆ ps) : BodyFrame ps cmdOwnerChallenge := fun _ _ _ => by
  simp only [List.cons_subset, List.nil_subset, and_true] at k
  exact only_unless .refl (only_winPut (only_drawn (only_modSlot .refl (by simp [*])) (by simp [*])) (by simp [*]))

theorem frame_cmdOwnerProve (k : [.host, .nv, .out] ⊆ ps) : BodyFrame ps cmdOwnerProve := by
  intro u n e
  have k' := k
  simp only [List.cons_subset, List.nil_subset, and_true] at k'
  refine only_unless .refl (only_unless .refl ?_)
  split
  · refine only_unless .refl ?_
    dsimp only
    split <;> exact only_record (only_modSlot (only_modSlot .refl (by simp [*])) (by simp [*])) k
  · exact .refl

theorem frame_cmdRelease (k : [.host, .nv, .out] ⊆ ps) : BodyFrame ps cmdRelease := fun _ _ _ =>
  only_unless .refl (only_dropOwner .refl k)

theorem frame_cmdSlotBind (k : [.nv] ⊆ ps) : BodyFrame ps cmdSlotBind := fun _ _ _ =>
  only_unless .refl (only_unless .refl (only_stageSys .refl k))

theorem frame_cmdKeyEnrol (k : [.nv] ⊆ ps) : BodyFrame ps cmdKeyEnrol := fun _ _ _ =>
  only_unless .refl (only_unless .refl (only_stageSys .refl k))

theorem frame_cmdKeyRemove (k : [.nv] ⊆ ps) : BodyFrame ps cmdKeyRemove := fun _ _ _ =>
  only_unless .refl (only_unless .refl (only_unless .refl (only_unless .refl (only_stageSys .refl k))))

theorem frame_cmdRead (k : [.host] ⊆ ps) : BodyFrame ps cmdRead := fun _ _ _ =>
  only_unless .refl (only_unless .refl (only_unless .refl (only_winPut .refl k)))

theorem frame_cmdWrite (k : [.seq, .can, .host, .nv, .out] ⊆ ps) : BodyFrame ps cmdWrite := fun _ _ _ =>
  only_unless .refl (only_unless .refl (only_unless .refl (only_publishWhole .refl k)))

theorem frame_cmdSysread : BodyFrame ps cmdSysread := fun u n e => by
  unfold cmdSysread
  split
  · exact only_unless .refl .refl
  · exact .refl

theorem frame_cmdLinkCount : BodyFrame ps cmdLinkCount := fun _ _ _ => only_unless .refl (only_unless .refl .refl)

theorem frame_cmdRecRead (k : [.host] ⊆ ps) : BodyFrame ps cmdRecRead := by
  intro u n e
  refine only_unless .refl (only_unless .refl ?_)
  split_ifs
  · exact .refl
  · exact .refl
  · exact .refl
  · exact only_winPut .refl k

theorem frame_cmdRecClear (k : [.host, .nv, .out] ⊆ ps) : BodyFrame ps cmdRecClear := by
  intro u n e
  simp only [List.cons_subset, List.nil_subset, and_true] at k
  exact only_unless .refl (only_unless .refl
    (only_stageSys (only_raiseIrqAll (only_onNv .refl (by simp [*])) (by simp [*])) (by simp [*])))

theorem frame_cmdReadmit (k : [.free, .ln, .yl, .fld, .cb, .host, .nv, .out] ⊆ ps) : BodyFrame ps cmdReadmit := by
  intro u n e
  simp only [List.cons_subset, List.nil_subset, and_true] at k
  refine only_unless .refl (only_unless .refl ?_)
  split
  · exact only_unless .refl (only_unless .refl (only_long (only_startTest .refl (by simp [*]))))
  · unfold readmitLink
    split
    · exact only_unless .refl (only_portReadmit .refl (by simp [*]))
    · have h := only_staReadmit (ps := ps) (s := u) (x1 := staArgKey (BitVec.ofNat 32 (leAt e 12 4))) (slot := some (n, 0))
        .refl (by simp [*])
      generalize staReadmit u _ _ = r at h
      split
      · exact only_unless .refl h
      · exact only_unless .refl h
  · exact only_unless .refl (only_chanReadmit .refl (by simp [*]))
  · exact only_unless .refl (only_canReadmit .refl (by simp [*]))

theorem frame_loopCmd {form : Word → Word → Bool} {room : State → Word → Bool}
    {f : State → Word → Word → Word → Word → State × Nat} (h : ∀ u g0 g1 g2 g3, Only ps u (f u g0 g1 g2 g3).1) :
    BodyFrame ps (loopCmd form room f) := fun _ _ _ =>
  only_unless .refl (only_unless .refl (only_unless .refl (h _ _ _ _ _)))

theorem frame_cmdLoopTune (k : [.seq, .can, .lp, .host, .nv, .out] ⊆ ps) : BodyFrame ps cmdLoopTune :=
  frame_loopCmd fun _ _ _ _ _ => only_tuneStart .refl k

theorem frame_cmdLoopCapture (k : [.seq, .lp, .host, .nv, .out] ⊆ ps) : BodyFrame ps cmdLoopCapture :=
  frame_loopCmd fun _ _ _ _ _ => only_capStart .refl k

theorem frame_cmdLoopAbort (k : [.seq, .can, .lp, .host, .nv, .out] ⊆ ps) : BodyFrame ps cmdLoopAbort :=
  frame_loopCmd fun _ _ _ _ _ => only_loopAbortOf .refl k

theorem frame_cmdSafePassword (k : [.free, .host, .safe, .nv, .out] ⊆ ps) : BodyFrame ps cmdSafePassword := by
  intro u n e
  simp only [List.cons_subset, List.nil_subset, and_true] at k
  refine only_unless .refl (only_unless .refl (only_unless .refl ?_))
  split
  · exact only_done (only_passwordFail .refl (by simp [*]))
  · exact only_waits (only_stageSafe (only_set_free .refl (by simp [*])) (by simp [*]))

theorem frame_cmdSafeConfirm (k : [.host, .safe, .nv, .out] ⊆ ps) : BodyFrame ps cmdSafeConfirm := by
  intro u n e
  have k' := k
  simp only [List.cons_subset, List.nil_subset, and_true] at k'
  refine only_unless .refl (only_unless .refl (only_unless .refl (only_unless .refl ?_)))
  split_ifs
  · exact only_done (only_passwordFail .refl k)
  · exact .refl
  · exact only_waits (only_stageSafe .refl (by simp [*]))

theorem frame_cmdSafeRevoke (k : [.host, .safe, .nv, .out] ⊆ ps) : BodyFrame ps cmdSafeRevoke := by
  intro u n e
  have k' := k
  simp only [List.cons_subset, List.nil_subset, and_true] at k'
  refine only_unless .refl (only_unless .refl (only_unless .refl (only_unless .refl ?_)))
  split
  · exact only_done (only_passwordFail .refl k)
  · exact only_waits (only_stageSafe .refl (by simp [*]))

theorem frame_cmdSafeLogRead (k : [.host] ⊆ ps) : BodyFrame ps cmdSafeLogRead := fun _ _ _ =>
  only_unless .refl (only_unless .refl (only_winPut .refl k))

theorem frame_cmdPkgOpen (k : [.host, .pkg, .safe, .nv, .svc, .wd, .out] ⊆ ps) : BodyFrame ps cmdPkgOpen := by
  intro u n e
  simp only [List.cons_subset, List.nil_subset, and_true] at k
  exact only_unless .refl (only_unless .refl (only_unless .refl (only_addErases (only_pkgRecordNow
    (only_onPkg (only_clearConfirmed .refl (by simp [*])) (by simp [*])) (by simp [*])) (by simp [*]))))

theorem frame_cmdPkgWrite (k : [.free, .svc] ⊆ ps) : BodyFrame ps cmdPkgWrite := by
  intro u n e
  refine only_unless .refl (only_unless .refl ?_)
  split
  · exact .refl
  · exact only_unless .refl (only_norWrite .refl k)

theorem frame_cmdPkgClose (k : [.host, .pkg, .nv, .out] ⊆ ps) : BodyFrame ps cmdPkgClose := by
  intro u n e
  simp only [List.cons_subset, List.nil_subset, and_true] at k
  refine only_unless .refl ?_
  split
  · exact .refl
  · refine only_unless .refl ?_
    split
    · exact only_pkgRecordDue (only_onPkg .refl (by simp [*])) (by simp [*])
    · exact only_record (only_onPkg .refl (by simp [*])) (by simp [*])

theorem frame_cmdPkgAbort (k : [.host, .pkg, .svc, .out] ⊆ ps) : BodyFrame ps cmdPkgAbort := by
  intro u n e
  simp only [List.cons_subset, List.nil_subset, and_true] at k
  refine only_unless .refl ?_
  split
  · exact .refl
  · exact only_finishWaits (only_dropErases (only_onPkg .refl (by simp [*])) (by simp [*])) (by simp [*])

theorem frame_activateAs {want : Nat} (k : [.free, .cfg, .dev, .ps, .ln, .seq, .can, .fret, .yl, .lp, .fld, .cb, .host, .pkg,
    .safe, .nv, .svc, .out] ⊆ ps) : BodyFrame ps (activateAs op want) := by
  intro u n e
  have k' := k
  simp only [List.cons_subset, List.nil_subset, and_true] at k'
  refine only_transGate (by simp [stopParts, *]) fun u => ?_
  refine only_unless .refl (only_unless .refl (only_whenTag .refl
    (only_ends (only_setupEntry (only_record ?_ (by simp [*])) k))))
  exact only_pkgRecordDue (only_onPkg (only_warmSave .refl (by simp [*])) (by simp [*])) (by simp [*])

theorem frame_cmdExchangePlan (k : [.free, .ps, .ln, .seq, .host, .pkg, .nv, .out] ⊆ ps) : BodyFrame ps cmdExchangePlan := by
  intro u n e
  refine only_unless .refl ?_
  split
  · exact .refl
  · split
    · exact .refl
    · exact only_unless .refl (only_stageRun .refl k)

theorem frame_cmdExchange (k : [.pkg] ⊆ ps) : BodyFrame ps cmdExchange := by
  intro u n e
  refine only_unless .refl ?_
  split
  · exact only_unless .refl (only_unless .refl (only_unless .refl (only_wait (only_onPkg .refl k))))
  · exact .refl

theorem frame_cmdExchangeAbort (k : [.host, .pkg, .nv, .out] ⊆ ps) : BodyFrame ps cmdExchangeAbort := by
  intro u n e
  refine only_unless .refl ?_
  split
  · exact only_exchAbort .refl k
  · exact .refl

theorem frame_cmdFwInfo : BodyFrame ps cmdFwInfo := fun _ _ _ => only_unless .refl .refl

theorem frame_cmdFwOpen (k : [.svc, .wd] ⊆ ps) : BodyFrame ps cmdFwOpen := by
  intro u n e
  have k' := k
  simp only [List.cons_subset, List.nil_subset, and_true] at k'
  exact only_unless .refl (only_unless .refl (only_unless .refl (only_addErases (only_onSvc .refl (by simp [*])) k)))

theorem frame_cmdFwWrite (k : [.free, .svc] ⊆ ps) : BodyFrame ps cmdFwWrite := fun _ _ _ =>
  only_unless .refl (only_unless .refl (only_unless .refl (only_unless .refl (only_norWrite .refl k))))

theorem only_downloadFails (k : [.host, .nv, .svc, .out] ⊆ ps) : Only ps s (downloadFails s st).left := by
  simp only [List.cons_subset, List.nil_subset, and_true] at k
  exact only_record (only_onSvc .refl (by simp [*])) (by simp [*])

theorem frame_cmdFwClose (k : [.host, .nv, .svc, .out] ⊆ ps) : BodyFrame ps cmdFwClose := by
  intro u n e
  have k' := k
  simp only [List.cons_subset, List.nil_subset, and_true] at k'
  refine only_unless .refl (only_unless .refl (only_unless .refl ?_))
  dsimp only
  split_ifs
  · exact only_downloadFails k
  · exact only_downloadFails k
  · exact only_record (only_onSvc .refl (by simp [*])) (by simp [*])

theorem frame_cmdFwAbort (k : [.host, .svc, .out] ⊆ ps) : BodyFrame ps cmdFwAbort := by
  intro u n e
  have k' := k
  simp only [List.cons_subset, List.nil_subset, and_true] at k'
  refine only_unless .refl ?_
  split
  · exact only_finishWaits (only_dropErases (only_onSvc .refl (by simp [*])) (by simp [*])) (by simp [*])
  · split
    · split
      · exact .refl
      · exact only_dropInstall .refl k
    · exact .refl

theorem frame_cmdFwInstall (k : [.host, .svc, .wd] ⊆ ps) : BodyFrame ps cmdFwInstall := by
  intro u n e
  simp only [List.cons_subset, List.nil_subset, and_true] at k
  exact only_unless .refl (only_unless .refl (only_unless .refl (only_unless .refl
    (only_addErases (only_onHost (only_onSvc .refl (by simp [*])) (by simp [*])) (by simp [*])))))

theorem frame_cmdFwRefresh (k : [.svc] ⊆ ps) : BodyFrame ps cmdFwRefresh := fun _ _ _ =>
  only_unless .refl (only_unless .refl (only_refreshStart .refl k))

theorem frame_cmdStart (k : stopParts ⊆ ps) : BodyFrame ps cmdStart := by
  intro u n e
  have k' := k
  simp only [stopParts, List.cons_subset, List.nil_subset, and_true] at k'
  exact only_transGate k fun _ => only_whenReady .refl (only_enterRun .refl (by simp [*])) (by simp [*])

theorem frame_cmdStop (k : stopParts ⊆ ps) : BodyFrame ps cmdStop := fun _ _ _ =>
  only_transGate k fun _ => only_stopSequence .refl k

theorem frame_cmdHold (k : stopParts ⊆ ps) : BodyFrame ps cmdHold := by
  intro u n e
  have k' := k
  simp only [stopParts, List.cons_subset, List.nil_subset, and_true] at k'
  refine only_transGate k fun u => ?_
  split
  · exact only_ends (only_record .refl (by simp [*]))
  · exact only_ends (only_record .refl (by simp [*]))
  · exact only_ends (only_enterHold .refl (by simp [*]))

theorem frame_cmdResume (k : stopParts ⊆ ps) : BodyFrame ps cmdResume := by
  intro u n e
  have k' := k
  simp only [stopParts, List.cons_subset, List.nil_subset, and_true] at k'
  exact only_transGate k fun _ => only_ends (only_resumeRun .refl (by simp [*]))

theorem frame_cmdClearExit (k : stopParts ⊆ ps) : BodyFrame ps cmdClearExit := by
  intro u n e
  have k' := k
  simp only [stopParts, List.cons_subset, List.nil_subset, and_true] at k'
  exact only_transGate k fun _ => only_whenReady .refl (only_enterRun .refl (by simp [*])) (by simp [*])

theorem frame_cmdAckFault (k : [.dev, .seq] ⊆ ps) : BodyFrame ps cmdAckFault := by
  intro u n e
  simp only [List.cons_subset, List.nil_subset, and_true] at k
  exact only_unless .refl (only_ends (only_onDev (only_ackGuards .refl (by simp [*])) (by simp [*])))

/-- The parts that a reset may change. -/
def resetParts : List Part := [.free, .cfg, .dev, .clk, .ps, .ln, .seq, .can, .fret, .yl, .lp, .fld, .cb, .host, .pkg, .safe,
  .nv, .svc, .wd, .out]

theorem frame_cmdReset (k : resetParts ⊆ ps) : BodyFrame ps cmdReset := by
  intro u n e
  have k' := k
  simp only [resetParts, List.cons_subset, List.nil_subset, and_true] at k'
  exact only_unless .refl (only_gone (only_deviceReset (only_flushAll .refl (by simp [*])) k))

theorem frame_cmdRecover (k : resetParts ⊆ ps) : BodyFrame ps cmdRecover := by
  intro u n e
  have k' := k
  simp only [resetParts, List.cons_subset, List.nil_subset, and_true] at k'
  exact only_transGate (by simp [stopParts, *]) fun _ =>
    only_gone (only_deviceReset (only_flushAll (only_onClk .refl (by simp [*])) (by simp [*])) k)

theorem frame_cmdStandby (k : [.clk, .safe] ⊆ ps) (k' : stopParts ⊆ ps) : BodyFrame ps cmdStandby := by
  intro u n e
  have k'' := k'
  simp only [stopParts, List.cons_subset, List.nil_subset, and_true] at k k''
  exact only_transGate k'
    fun _ => only_unless .refl (only_whenTag .refl (only_gone (only_enterStandby .refl (by simp [*]))))

end Sys2Proof.Machine
end

section
/-! The frame of every command: what time and the rows of the table change. -/
namespace Sys2Proof.Machine

variable {s t : State} {ps : List Part} {b : Bool} {dt : Nat} {f : State → State}

theorem within_timed (h : Only ps (elapse dt s) t) (k : [.dev, .clk, .fld, .wd] ⊆ ps) : Within ps s (answer s t) :=
  within_answer ((only_elapse .refl k).trans h)

theorem within_timedWhen (h : ∀ u, Only ps u (f u)) (k : [.dev, .clk, .fld, .wd] ⊆ ps) :
    Within ps s (answer s ((elapse dt s).when b f)) := within_timed (only_when .refl h) k

theorem within_timedS (h : Only ps (elapse dt s) t) (k : [.dev, .clk, .seq, .fld, .wd] ⊆ ps) : Within ps s (answerS s t) := by
  simp only [List.cons_subset, List.nil_subset, and_true] at k
  exact within_answer (only_seeS ((only_elapse .refl (by simp [*])).trans h) (by simp [*]))

theorem within_timedSWhen (h : ∀ u, Only ps u (f u)) (k : [.dev, .clk, .seq, .fld, .wd] ⊆ ps) :
    Within ps s (answerS s ((elapse dt s).when b f)) := within_timedS (only_when .refl h) k

theorem within_tap (h : ∀ u, Only ps u (f u)) (k : [.dev, .clk, .fld, .wd] ⊆ ps) :
    Within ps s (answerTap s (onTap (elapse dt s) f)) :=
  within_answerTap (only_onTap (only_elapse .refl k) h)

/-- The parts that time may change at the fabric, whose frames depart as it passes. -/
def ylParts : List Part := [.dev, .clk, .seq, .fret, .yl, .fld, .host, .nv, .wd, .out]

theorem within_yl (h : Only ps (ylElapse dt s) t) (k : ylParts ⊆ ps) : Within ps s (answerS s t) := by
  simp only [ylParts, List.cons_subset, List.nil_subset, and_true] at k
  exact within_answer (only_seeS ((only_ylElapse .refl (by simp [*])).trans h) (by simp [*]))

theorem within_ylWhen (h : ∀ u, Only ps u (f u)) (k : ylParts ⊆ ps) :
    Within ps s (answerS s ((ylElapse dt s).when b f)) := within_yl (only_when .refl h) k

theorem within_receiveType {p type : Nat} {l : List Byte} (k : [.free, .can] ⊆ ps) (k' : ylParts ⊆ ps) :
    Within ps s (receiveType dt p type l s) := by
  have h := k'
  simp only [ylParts, List.cons_subset, List.nil_subset, and_true] at k h
  exact within_ylWhen (fun _ => only_ylReceive .refl (by simp [*])) k'

/-- Settles O58, command by command: the operations of its row change no part outside its frame. -/
theorem everyCommandAnswersWithinItsFrame : Obligations.EveryCommandAnswersWithinItsFrame := by
  unfold Obligations.EveryCommandAnswersWithinItsFrame
  intro c s
  change Within (touches c) s (exec c s)
  cases c
  -- The units of lanes.
  case bld | bldn | band | bandn | bor | bst | bset | brst => exact within_issue unitFrame_bitUnit
  case mov | add | adc | sub | sbc | cmp | and | or | xor | tst | neg | lsl | lsr | asr | ror | mul | movi | addi | subi | cmpi
      | andi | ori | xori | tsti | muli | lsli | lsri | asri | rori | rtog | gtor | rnot | rset | rclr | par | brev | brevb
      | skcc | skz | sknz | crcb | crch | crcw | crci | crcf | fadd | fsub | fmul | fdiv | fcmp | ftoi | itof | mfs | mts =>
    exact within_issue unitFrame_pureUnit
  case divs | divu => exact within_issue unitFrame_divUnit
  case bcc | bra | br | ret | loop | leave => exact within_issue unitFrame_flowUnit
  case halt => exact within_issueWith unitFrame_flowUnit
  case call | callr => exact within_issue unitFrame_callUnit
  case ldb | ldbs | ldh | ldhs | ldw => exact within_issue unitFrame_loadUnit
  case stb | sth | stw => exact within_issue unitFrame_storeUnit
  case movsb | movsh | movsw => exact within_issue (unitFrame_elemUnit elemFrame_movsElem)
  case fillw => exact within_issue (unitFrame_elemUnit elemFrame_fillElem)
  case crcmb | crcmh | crcmw => exact within_issue (unitFrame_elemUnit elemFrame_crcmElem)
  case rep => exact within_issue unitFrame_repUnit
  case chk => exact within_issue unitFrame_chkUnit
  case sys => exact within_issue unitFrame_sysUnit
  case cfg => exact within_issue unitFrame_cfgUnit
  case fret => exact within_issue unitFrame_fretUnit
  case fretc => exact within_issue unitFrame_fretcUnit
  case sysc | taskTrigger | releaseTime | atTime | snapInfo | shaftRead | ylReadmit | ylMbxSend | ylMbxRead | ylStaInfo | ylCount
      | loopRead | loopTune | loopCapture | loopAbort | fldReadmit | cbusSend | cbusAbort | cbusRecover | cbusReadmit
      | hostNotify | safeStop | safeStatus | nvRead | nvWrite | nvAbort | nvCount | nvCountRead | recUser =>
    exact within_issue unitFrame_sysCall
  case unassignedEncoding => exact within_answer (only_ite .refl (only_issue .refl unitFrame_pureUnit (List.Subset.refl _)))
  -- The host commands.
  case identify => exact within_cmd frame_cmdIdentify (listed rfl)
  case ownerChallenge => exact within_cmd (frame_cmdOwnerChallenge (listed rfl)) (listed rfl)
  case ownerProve => exact within_cmd (frame_cmdOwnerProve (listed rfl)) (listed rfl)
  case release => exact within_cmd (frame_cmdRelease (listed rfl)) (listed rfl)
  case slotBind => exact within_cmd (frame_cmdSlotBind (listed rfl)) (listed rfl)
  case keyEnrol => exact within_cmd (frame_cmdKeyEnrol (listed rfl)) (listed rfl)
  case keyRemove => exact within_cmd (frame_cmdKeyRemove (listed rfl)) (listed rfl)
  case sysread => exact within_cmd frame_cmdSysread (listed rfl)
  case linkCount => exact within_cmd frame_cmdLinkCount (listed rfl)
  case recRead => exact within_cmd (frame_cmdRecRead (listed rfl)) (listed rfl)
  case recClear => exact within_cmd (frame_cmdRecClear (listed rfl)) (listed rfl)
  case hostLoopTune => exact within_cmd (frame_cmdLoopTune (listed rfl)) (listed rfl)
  case hostLoopCapture => exact within_cmd (frame_cmdLoopCapture (listed rfl)) (listed rfl)
  case safePassword => exact within_cmd (frame_cmdSafePassword (listed rfl)) (listed rfl)
  case safeConfirm => exact within_cmd (frame_cmdSafeConfirm (listed rfl)) (listed rfl)
  case safeRevoke => exact within_cmd (frame_cmdSafeRevoke (listed rfl)) (listed rfl)
  case safeLogRead => exact within_cmd (frame_cmdSafeLogRead (listed rfl)) (listed rfl)
  case pkgOpen => exact within_cmd (frame_cmdPkgOpen (listed rfl)) (listed rfl)
  case pkgWrite => exact within_cmd (frame_cmdPkgWrite (listed rfl)) (listed rfl)
  case pkgClose => exact within_cmd (frame_cmdPkgClose (listed rfl)) (listed rfl)
  case pkgAbort => exact within_cmd (frame_cmdPkgAbort (listed rfl)) (listed rfl)
  case exchangePlan => exact within_cmd (frame_cmdExchangePlan (listed rfl)) (listed rfl)
  case exchange => exact within_cmd (frame_cmdExchange (listed rfl)) (listed rfl)
  case exchangeAbort => exact within_cmd (frame_cmdExchangeAbort (listed rfl)) (listed rfl)
  case fwInfo => exact within_cmd frame_cmdFwInfo (listed rfl)
  case fwOpen => exact within_cmd (frame_cmdFwOpen (listed rfl)) (listed rfl)
  case fwWrite => exact within_cmd (frame_cmdFwWrite (listed rfl)) (listed rfl)
  case fwClose => exact within_cmd (frame_cmdFwClose (listed rfl)) (listed rfl)
  case fwAbort => exact within_cmd (frame_cmdFwAbort (listed rfl)) (listed rfl)
  case fwInstall => exact within_cmd (frame_cmdFwInstall (listed rfl)) (listed rfl)
  case fwRefresh => exact within_cmd (frame_cmdFwRefresh (listed rfl)) (listed rfl)
  case start => exact within_cmd (frame_cmdStart (listed rfl)) (listed rfl)
  case stop => exact within_cmd (frame_cmdStop (listed rfl)) (listed rfl)
  case hold => exact within_cmd (frame_cmdHold (listed rfl)) (listed rfl)
  case resume => exact within_cmd (frame_cmdResume (listed rfl)) (listed rfl)
  case clearExit => exact within_cmd (frame_cmdClearExit (listed rfl)) (listed rfl)
  case reset => exact within_cmd (frame_cmdReset (listed rfl)) (listed rfl)
  case recover => exact within_cmd (frame_cmdRecover (listed rfl)) (listed rfl)
  case activate | revert => exact within_cmd (frame_activateAs (listed rfl)) (listed rfl)
  case standby => exact within_cmd (frame_cmdStandby (listed rfl) (listed rfl)) (listed rfl)
  case readmit => exact within_cmdS (frame_cmdReadmit (listed rfl)) (listed rfl)
  case ackFault => exact within_cmdS (frame_cmdAckFault (listed rfl)) (listed rfl)
  case read => exact within_timed (only_hostAccess .refl (frame_cmdRead (listed rfl)) (listed rfl)) (listed rfl)
  case write => exact within_timedWhen (fun _ =>
    only_hostAccess .refl (frame_cmdWrite (listed rfl)) (listed rfl)) (listed rfl)
  case hostLoopAbort =>
    exact within_timedWhen (fun _ => only_runCmd .refl (frame_cmdLoopAbort (listed rfl)) (listed rfl)) (listed rfl)
  -- Events that time brings, none of which the sequencer sees at once.
  case canopyLoadReturn => exact within_timed (only_loadReturn .refl (listed rfl)) (listed rfl)
  case windowFill => exact within_timed (only_windowFill .refl (listed rfl)) (listed rfl)
  case instructionFetch => exact within_timed (only_fetchEnds .refl (listed rfl)) (listed rfl)
  case pstoreRewrite => exact within_timed (only_psRewrite .refl (listed rfl)) (listed rfl)
  case pstoreScrub => exact within_timed (only_psScrub .refl (listed rfl)) (listed rfl)
  case canopyScrub => exact within_timed (only_canScrub .refl (listed rfl)) (listed rfl)
  case canRxFrame => exact within_timed (only_canReceive .refl (listed rfl)) (listed rfl)
  case canTxAttempt => exact within_timed (only_canAttempt .refl (listed rfl)) (listed rfl)
  case canTxSuccess => exact within_timed (only_canSent .refl (listed rfl)) (listed rfl)
  case canError => exact within_timed (only_canErrorAt .refl (listed rfl)) (listed rfl)
  case cbusBusOn => exact within_timed (only_canBusOn .refl (listed rfl)) (listed rfl)
  case refresh | safeFrame | config | idle | releaseFrame =>
    exact within_timed (only_frameEnds .refl (listed rfl)) (listed rfl)
  case timedChange => exact within_timed (only_applyHeld .refl (listed rfl)) (listed rfl)
  case wireErrorCleared => exact within_timed (only_modShaft .refl (listed rfl)) (listed rfl)
  case loopClassCommit => exact within_timed (only_commitClass .refl (listed rfl)) (listed rfl)
  case nresetRelease => exact within_timed (only_onClk .refl (listed rfl)) (listed rfl)
  case cplHead => exact within_timedWhen (fun _ => only_writeCplHead .refl (listed rfl)) (listed rfl)
  case taskBell => exact within_timedWhen (fun _ => only_ringBell .refl (listed rfl)) (listed rfl)
  case notify => exact within_timedWhen (fun _ => only_clearNotify .refl (listed rfl)) (listed rfl)
  case irqMask => exact within_timedWhen (fun _ => only_writeMask .refl (listed rfl)) (listed rfl)
  case irqPend => exact within_timedWhen (fun _ => only_clearPend .refl (listed rfl)) (listed rfl)
  case slotId => exact within_timedWhen (fun _ => only_slotWrite .refl (listed rfl)) (listed rfl)
  case safeLockoutEnd => exact within_timedWhen (fun _ => only_bothSafe .refl (listed rfl)) (listed rfl)
  case wakeEdge | qspiCsWake | can0Wake => exact within_timedWhen (fun _ => only_wakeBy .refl (listed rfl)) (listed rfl)
  case powerWarning => exact within_timedWhen (fun _ => only_powerWarn .refl (listed rfl)) (listed rfl)
  case powerRideThrough => exact within_timedWhen (fun _ => only_powerReturns .refl (listed rfl)) (listed rfl)
  case pllLossOfLock => exact within_timedWhen (fun _ => only_onClk .refl (listed rfl)) (listed rfl)
  case supwdKick => exact within_timedWhen (fun _ => only_wdKick .refl (listed rfl)) (listed rfl)
  case supwdDis => exact within_timedWhen (fun _ => only_wdDis .refl (listed rfl)) (listed rfl)
  case supwdLock | supwdCfg | supwdLongErase => exact within_timedWhen (fun _ => only_onWd .refl (listed rfl)) (listed rfl)
  case pllLock => exact within_timedWhen (fun _ => only_pllLocks .refl (listed rfl)) (listed rfl)
  case norEraseEnd => exact within_timedWhen (fun _ => only_eraseEnds .refl (listed rfl)) (listed rfl)
  case handshakeRequest => exact within_timedWhen (fun _ => only_onSvc .refl (listed rfl)) (listed rfl)
  case handshakeAnswer => exact within_timedWhen (fun _ => only_hsAnswered .refl (listed rfl)) (listed rfl)
  case handshakeTimeout => exact within_timedWhen (fun _ => only_hsTimedOut .refl (listed rfl)) (listed rfl)
  case norRefreshDue => exact within_timedWhen (fun _ => only_refreshStart .refl (listed rfl)) (listed rfl)
  case norPageCheck => exact within_timedWhen (fun _ => only_pageChecked .refl (listed rfl)) (listed rfl)
  case holdLimit => exact within_timedWhen (fun _ => only_takeStop .refl (listed rfl)) (listed rfl)
  case upFrame => exact within_timedWhen (fun _ => only_upEnds .refl (listed rfl)) (listed rfl)
  case channelHoldExpiry | faultFollowResume =>
    exact within_timedWhen (fun _ => only_onChan .refl (listed rfl)) (listed rfl)
  case fieldInputChange => exact within_timedWhen (fun _ => only_modChan .refl (listed rfl)) (listed rfl)
  case overload => exact within_timedWhen (fun _ => only_chanFault .refl (listed rfl)) (listed rfl)
  case countEdge | zRisingEdge => exact within_timedWhen (fun _ => only_sampleShaft .refl (listed rfl)) (listed rfl)
  case wireFaultTimeout => exact within_timedWhen (fun _ => only_shaftFault .refl (listed rfl)) (listed rfl)
  case tuneTimeout => exact within_timedWhen (fun _ => only_tuneEndsAs .refl (listed rfl)) (listed rfl)
  case operatingMinute => exact within_timedWhen (fun _ => only_onNv .refl (listed rfl)) (listed rfl)
  case periodicWarmSave => exact within_timedWhen (fun _ => only_saveDue .refl (listed rfl)) (listed rfl)
  case warmCopy => exact within_timedWhen (fun _ => only_warmCopyOver .refl (listed rfl)) (listed rfl)
  case nreset => exact within_timedWhen (fun _ =>
    only_onClk (only_deviceReset .refl (listed rfl)) (listed rfl)) (listed rfl)
  case supwdExpired => exact within_timedWhen (fun _ =>
    only_deviceReset (only_onWd .refl (listed rfl)) (listed rfl)) (listed rfl)
  case clockStopped =>
    exact within_timedWhen (fun _ => only_deviceReset (only_clockLost .refl (listed rfl)) (listed rfl)) (listed rfl)
  case bootComplete =>
    exact within_timedWhen (fun _ => only_bootPackages (only_bootTests .refl (listed rfl)) (listed rfl)) (listed rfl)
  case downFrameDeferred =>
    exact within_timedWhen (fun _ => only_sendFrame (only_settled .refl (listed rfl)) (listed rfl)) (listed rfl)
  case velocityUpdate =>
    exact within_timedWhen (fun _ => only_velocityUpdate (only_acceptShafts .refl (listed rfl)) (listed rfl)) (listed rfl)
  case fretEvaluation =>
    exact within_timedWhen (fun _ => only_evalAll (only_acceptShafts .refl (listed rfl)) (listed rfl)) (listed rfl)
  case loopSample =>
    exact within_timedWhen (fun _ => only_sampleClass (only_settled .refl (listed rfl)) (listed rfl)) (listed rfl)
  case userRecordWrite =>
    exact within_timedWhen (fun _ => only_userStep (only_otherWork .refl (listed rfl)) (listed rfl)) (listed rfl)
  case counterIncrement =>
    exact within_timedWhen (fun _ => only_counterStep (only_otherWork .refl (listed rfl)) (listed rfl)) (listed rfl)
  case systemRecordWrite =>
    exact within_timedWhen (fun _ => only_commitSys (only_otherWork .refl (listed rfl)) (listed rfl)) (listed rfl)
  case recorderWrite =>
    exact within_timedWhen (fun _ => only_recorderStep (only_otherWork .refl (listed rfl)) (listed rfl)) (listed rfl)
  case mergedRecordRewrite =>
    exact within_timedWhen (fun _ => only_onNv (only_otherWork .refl (listed rfl)) (listed rfl)) (listed rfl)
  case wireError => exact within_timedWhen (fun _ =>
    only_encError (only_modShaft .refl (listed rfl)) (listed rfl)) (listed rfl)
  case bridgeLoss => exact within_timedWhen (fun _ => only_record (only_onFld .refl (listed rfl)) (listed rfl)) (listed rfl)
  case supwdMonLost =>
    exact within_timedWhen (fun _ =>
      only_record (only_onWd (only_clockLost .refl (listed rfl)) (listed rfl)) (listed rfl)) (listed rfl)
  case cmdTail =>
    exact within_timedWhen (fun _ =>
      only_writeTail (only_foldl .refl fun _ _ => only_ite (only_slotWrite .refl (listed rfl)) .refl) (listed rfl)) (listed rfl)
  case slotReset =>
    exact within_timedWhen (fun _ =>
      only_drawn (only_slotReset (only_modSlot .refl (listed rfl)) (listed rfl)) (listed rfl)) (listed rfl)
  case pcieLinkUp =>
    exact within_timedWhen (fun _ =>
      only_enumerate (only_drawn (only_onClk (only_modSlot .refl (listed rfl)) (listed rfl)) (listed rfl)) (listed rfl)) (listed rfl)
  case pllLockRetry =>
    exact within_timedWhen (fun _ =>
      only_ite (only_pllLocks (only_drawn .refl (listed rfl)) (listed rfl)) (only_onClk .refl (listed rfl))) (listed rfl)
  case silence =>
    exact within_timedWhen (fun _ =>
      only_foldl (only_onFld (only_applyHeld .refl (listed rfl)) (listed rfl)) fun _ _ => only_onChan .refl (listed rfl)) (listed rfl)
  case darkTestEnd =>
    exact within_timedWhen (fun _ =>
      only_ite (only_chanFault (only_onChan .refl (listed rfl)) (listed rfl)) (only_onChan .refl (listed rfl))) (listed rfl)
  case vfLoss =>
    exact within_timedWhen (fun _ =>
      only_foldl (only_onFld .refl (listed rfl)) fun _ _ => only_modChan (only_chanFault .refl (listed rfl)) (listed rfl)) (listed rfl)
  case vfReturn =>
    exact within_timedWhen (fun _ =>
      only_foldl (only_onFld .refl (listed rfl)) fun _ _ => only_onChan .refl (listed rfl)) (listed rfl)
  case nvScrub => exact within_timedWhen (fun _ => only_foldl .refl fun _ _ => only_nvError .refl (listed rfl)) (listed rfl)
  case ownerLeaseExpiry =>
    exact within_timed (only_foldl .refl fun _ _ => only_ite (only_dropOwner .refl (listed rfl)) .refl) (listed rfl)
  case groupLimit => exact within_timed (only_foldl .refl fun _ _ => only_chanFault .refl (listed rfl)) (listed rfl)
  case readback =>
    exact within_timed (only_when (only_when .refl
      fun _ => only_chanFault .refl (listed rfl)) fun _ => only_modChan .refl (listed rfl)) (listed rfl)
  case downFrameTick =>
    exact within_timed (only_when (only_canRepair .refl (listed rfl))
      fun _ => only_frameStart (only_settled .refl (listed rfl)) (listed rfl)) (listed rfl)
  case nonceLapse dt _ =>
    refine within_timed (dt := dt) ?_ (listed rfl)
    split
    · exact only_ite (only_modSlot .refl (listed rfl)) .refl
    · exact .refl
  case exchangeEpoch dt =>
    refine within_timed (dt := dt) ?_ (listed rfl)
    split
    · exact only_ite (only_epoch .refl (listed rfl)) .refl
    · exact .refl
  case qspiWriteFrame dt _ _ =>
    refine within_timed (dt := dt) ?_ (listed rfl)
    split
    · exact only_ite (only_foldl (only_qspiSeen .refl (listed rfl))
        fun _ _ => only_slotWrite .refl (listed rfl)) (only_modSlot .refl (listed rfl))
    · exact .refl
  case qspiReadFrame dt _ _ =>
    refine within_timed (dt := dt)
      (only_ite (only_emit (only_set_free ?_ (List.mem_of_elem_eq_true rfl)) (listed rfl)) .refl) (listed rfl)
    split
    · exact only_ite (only_qspiSeen .refl (listed rfl)) .refl
    · exact .refl
  case setupLimit dt =>
    refine within_timed (dt := dt) (only_ite (only_setupFail .refl (listed rfl)) ?_) (listed rfl)
    split
    · exact only_ite (only_planFault .refl (listed rfl)) .refl
    · exact .refl
  case norRefreshBlock dt =>
    refine within_timed (dt := dt) ?_ (listed rfl)
    split
    · exact only_refreshBlock .refl (listed rfl)
    · exact .refl
  case fretLead dt _ _ =>
    refine within_timed (dt := dt) ((only_departAll .refl (listed rfl)).trans ?_) (listed rfl)
    split
    · exact only_ite (only_sendRows (only_modRow .refl (listed rfl)) (listed rfl)) (only_modRow .refl (listed rfl))
    · exact .refl
  case fretMissed dt _ =>
    refine within_timed (dt := dt) ?_ (listed rfl)
    split
    · exact only_rowMissed .refl (listed rfl)
    · exact .refl
  -- Events after which the sequencer sees the S bytes.
  case compareGate => exact within_timedS (only_compareGate .refl (listed rfl)) (listed rfl)
  case spareWaitEnd => exact within_timedS (only_spareWaitEnd .refl (listed rfl)) (listed rfl)
  case spareWake => exact within_timedS (only_spareWake .refl (listed rfl)) (listed rfl)
  case pairVote => exact within_timedS (only_pairVote .refl (listed rfl)) (listed rfl)
  case pairStraggler => exact within_timedS (only_pairStraggler .refl (listed rfl)) (listed rfl)
  case laneSelfTestEnd => exact within_timedS (only_laneTestEnd .refl (listed rfl)) (listed rfl)
  case standInReturn => exact within_timedS (only_standInReturn .refl (listed rfl)) (listed rfl)
  case spareTestStart => exact within_timedS (only_spareTestStart .refl (listed rfl)) (listed rfl)
  case eventTrigger => exact within_timedS (only_takeTrig .refl (listed rfl)) (listed rfl)
  case cyclicRelease => exact within_timedSWhen (fun _ => only_boundary .refl (listed rfl)) (listed rfl)
  case latchedRelease =>
    exact within_timedSWhen (fun _ => only_releaseOrSwitch (only_modTask .refl (listed rfl)) (listed rfl)) (listed rfl)
  case taskAged =>
    exact within_timedS (only_decideLane (only_foldl .refl
      fun _ _ => only_ite (only_ageCopy .refl (listed rfl)) .refl) (listed rfl)) (listed rfl)
  case outputRelease =>
    exact within_timedS (only_when (only_releaseOut .refl (listed rfl))
      fun _ => only_frameStart (only_settled .refl (listed rfl)) (listed rfl)) (listed rfl)
  case commit dt _ =>
    refine within_timedS (dt := dt) ?_ (listed rfl)
    split
    · exact only_when .refl fun _ => only_tryCommit .refl (listed rfl)
    · exact .refl
  case taskWatchdogVerdict dt _ =>
    refine within_timedS (dt := dt) ?_ (listed rfl)
    split
    · exact only_ite (only_judgeTwd .refl (listed rfl)) (only_decideWin .refl (listed rfl))
    · exact .refl
  case atTimeExpiry dt _ =>
    refine within_timedS (dt := dt) ?_ (listed rfl)
    split
    · exact only_ite (only_raiseTrigger (only_modTask .refl (listed rfl)) (listed rfl)) .refl
    · exact .refl
  -- Events of the fabric, whose frames depart first.
  case portSignalDetect => exact within_ylWhen (fun _ => only_modPort .refl (listed rfl)) (listed rfl)
  case portLink | partnerIdleTimeout => exact within_ylWhen (fun _ => only_gainLink .refl (listed rfl)) (listed rfl)
  case portLinkLoss => exact within_ylWhen (fun _ => only_portDown .refl (listed rfl)) (listed rfl)
  case ylPortRetired => exact within_ylWhen (fun _ => only_retirePort .refl (listed rfl)) (listed rfl)
  case admissionPassEnd => exact within_ylWhen (fun _ => only_portUp .refl (listed rfl)) (listed rfl)
  case cycReturn => exact within_ylWhen (fun _ => only_ylReceive .refl (listed rfl)) (listed rfl)
  case inputReadPoint => exact within_yl (only_inputsDue .refl (listed rfl)) (listed rfl)
  case fabricTagGrant => exact within_yl (only_grantTag .refl (listed rfl)) (listed rfl)
  case linkCycleStart =>
    exact within_ylWhen (fun _ => only_cycleStart (only_settled .refl (listed rfl)) (listed rfl)) (listed rfl)
  case imgr | ack | nak | ident | syncReply | mbxResponse => exact within_receiveType (listed rfl) (listed rfl)
  case rediscovery =>
    exact within_yl (only_foldl (only_modPort .refl (listed rfl)) fun _ _ => only_offer .refl (listed rfl)) (listed rfl)
  case syncMeasurement =>
    exact within_yl (only_foldl .refl fun _ _ => only_offer (only_modSta .refl (listed rfl)) (listed rfl)) (listed rfl)
  case attemptTimeout dt _ =>
    refine within_yl (dt := dt) ?_ (listed rfl)
    split
    · exact only_attemptFailed .refl (listed rfl)
    · exact .refl
  case mbxTimeout dt _ =>
    refine within_yl (dt := dt) ?_ (listed rfl)
    split
    · exact only_modSta (only_dropTrans .refl (listed rfl)) (listed rfl)
    · exact .refl
  case injectDelayExpiry dt _ =>
    refine within_yl (dt := dt) ?_ (listed rfl)
    split
    · exact only_injPass .refl (listed rfl)
    · exact .refl
  -- The test access port and the power.
  case testLogicReset | extest | idcode | clamp | highz | bypass =>
    exact within_tap (fun _ => only_tapSelect .refl (listed rfl)) (listed rfl)
  case samplePreload => exact within_tap (fun _ => only_tapSample .refl (listed rfl)) (listed rfl)
  case vlogBelowPrst =>
    exact within_answerTap ((only_elapse .refl (listed rfl)).trans
      (only_ite .refl (only_set_tap (only_powerOff .refl (listed rfl)) (List.mem_of_elem_eq_true rfl))))
  case powerOnResetRelease =>
    exact within_answerTap ((only_elapse .refl (listed rfl)).trans
      (only_ite (only_set_tap (only_powerOn .refl (listed rfl)) (List.mem_of_elem_eq_true rfl)) .refl))
  case loadSwitchOpen =>
    exact within_answerTap ((only_elapse .refl (listed rfl)).trans
      (only_ite (only_set_tap (only_openSwitches .refl (listed rfl)) (List.mem_of_elem_eq_true rfl)) .refl))

end Sys2Proof.Machine
end

section
/-! Refutations by states whose tables are not in canonical form: a copy beside others listed out of order, and a port. -/
namespace Sys2Proof.Machine

/-- Copy 0, of task 0: it asks for one byte of user record 0, to a line of the task's own. -/
def readingCopy : Copy :=
  { lane := 0, started := true, regs := { g := ((Vector.replicate 16 0).set 1 0x10060000).set 2 1 } }

/-- User record 0 is held, and lane 0 runs a copy that asks for it, beside copies listed as in `storeBesideUnsortedCopies`. -/
def readBesideUnsortedCopies : State :=
  { storeBesideUnsortedCopies with
    ln := { storeBesideUnsortedCopies.ln with copies := [(0, some readingCopy), (8, none), (4, some agedCopy)] }
    nv := { mirror := [(0, some (1, [0x5A]))] } }

/-- The switch to copy 4 after the call lists that copy a second time, so that the pool holds a line more than the low mark
has noted. -/
theorem readBesideUnsortedCopies_lowMark : endsTest (exec (.nvRead 0 [] 4) readBesideUnsortedCopies)
    (fun t => decide (t.can.low = readBesideUnsortedCopies.can.low ∨
      t.can.low = min readBesideUnsortedCopies.can.low (32768 - poolUsed t))) = false := by
  decide +kernel

/-- Refutes O29: a call that copies bytes notes the low mark of the pool before the scheduling decision, and where the table
of copies is not in canonical form, the switch to another copy changes what the pool counts. -/
theorem not_immediateCallsWithData : ¬ Obligations.ImmediateCallsWithData := by
  unfold Obligations.ImmediateCallsWithData
  intro h
  obtain ⟨hdata, -⟩ := h readBesideUnsortedCopies 0 [] 0 readingCopy 4
  obtain ⟨-, hread, -⟩ := hdata (.inl (by decide +kernel)) (by decide) (by decide) (by decide +kernel)
  have runs : Runs readBesideUnsortedCopies (.nvRead 0 [] 4) 0 readingCopy :=
    ⟨by decide +kernel, by decide +kernel, by decide +kernel, by decide +kernel, by decide +kernel⟩
  refine not_ends_of_test readBesideUnsortedCopies_lowMark (fun t ht => ?_)
    (hread 1 [0x5A] runs (by decide +kernel) (by decide +kernel) (by decide +kernel) (by decide +kernel) (by decide +kernel))
  obtain ⟨-, -, hlow⟩ := ht
  exact decide_eq_true hlow

/-! ## The second copy of a NAK -/

/-- The transaction with tag 5, an IMGW to station 0 of port 0, whose first NAK came at port 1. -/
def nakedTrans : Trans :=
  { tag := 5, frame := { type := 2, port := 0, seq := 7, tag := some 5 }, for_ := .imgw, firstAt := 1000000000
    sentAt := some 1000000000, nakFrom := some 1 }

/-- Ports 0 and 1 form a closed line of one station, and port 0 has link. The table of ports is not in canonical form: port 1
is listed before port 0. -/
def nakAtUnsortedPorts : State :=
  { runningDevice with
    cfg := rSet (rSet (rSet [] 0x0510 0 0x80000000) 0x0507 0 0x80000004) 0x0502 0 0x100
    nv := { identOk := false }
    yl := { ports := [(1, {}), (0, { state := 4 })], trans := [nakedTrans] } }

/-- A NAK with the reason 0x05 of station 0, which answers `nakedTrans`. -/
def nakBytes : List Byte :=
  [2, 0, 0, 0, 0, 0, 2, 9, 9, 9, 9, 9, 136, 181, 26, 128, 0, 0, 7, 0, 5, 128, 0, 0, 0, 0, 1, 0, 0, 0, 5, 248, 69, 84, 232,
    243, 181, 72, 134]

/-- The frame that `nakBytes` carries. -/
def nakFrame : YFrame := { type := 10, up := true, port := 0, seq := 7, tag := some 5, body := [5] }

/-- A change, of which the clause about the second copy of a NAK says nothing. -/
def someChange : Change := { op := 0, id := 0, half := false, mask := 0, values := 0, stamp := 0 }

/-- After the frame has been taken, port 0 stands in front of the list of ports. -/
theorem nakAtUnsortedPorts_ports : endsTest (exec (.nak 0 0 nakBytes) nakAtUnsortedPorts)
    (fun t => decide (t.yl.ports = nakAtUnsortedPorts.yl.ports)) = false := by
  decide +kernel

/-- Refutes O53: the second copy of a NAK leaves the ports as the injection unit leaves them, which writes the entry of the
port anew (R293); where the table of ports is not in canonical form, that changes the table. -/
theorem not_yelxFramesAndTimers : ¬ Obligations.YelxFramesAndTimers := by
  unfold Obligations.YelxFramesAndTimers
  intro h
  obtain ⟨-, -, -, -, -, -, -, -, -, -, -, -, -, hsecond, -⟩ :=
    h nakAtUnsortedPorts 0 0 nakBytes 0 (.nak 0 0 nakBytes) nakFrame nakedTrans 0
      nakedTrans.asWait (0, [], false) someChange 0 storingCopy
  refine not_ends_of_test nakAtUnsortedPorts_ports (fun t ht => ?_)
    (hsecond ⟨⟨by decide +kernel, ⟨by decide +kernel, by decide +kernel⟩, by decide +kernel⟩, by decide +kernel,
      by decide +kernel, by decide +kernel⟩ rfl ⟨by decide +kernel, by decide +kernel⟩)
  obtain ⟨hyl, -⟩ := ht
  have ports : (departAll (elapse 0 nakAtUnsortedPorts)).yl.ports = nakAtUnsortedPorts.yl.ports := by decide +kernel
  exact decide_eq_true ((congrArg Yelx.ports hyl).trans ports)

end Sys2Proof.Machine
end

section
/-! A host command that the device takes from the head of its queue (R389): what its start and its completion leave of its
slot, and the tag of one that accesses the Canopy (R31, R32). -/
namespace Sys2Proof.Machine

variable {s t u : State} {ps : List Part} {n op st v0 v1 v2 dt : Nat} {x y z : Slot} {b : Bool} {body : CmdBody}

/-! ## A command that is taken -/

/-- What a command's start leaves of a slot whose queue holds no other: the queue is empty, and nothing of the completion queue
has changed. -/
structure Slot.Taken (x y : Slot) : Prop where
  cmdHead : y.cmdHead = x.cmdTail
  cmdTail : y.cmdTail = x.cmdTail
  cplTail : y.cplTail = x.cplTail
  cplHead : y.cplHead = x.cplHead
  owed : y.owed = x.owed
  tagWait : y.tagWait = false

theorem Slot.Taken.alerted (h : x.Taken y) (k : y.Alerted z) : x.Taken z := by
  obtain ⟨_, _, _, rfl⟩ := k
  exact ⟨h.cmdHead, h.cmdTail, h.cplTail, h.cplHead, h.owed, h.tagWait⟩

theorem Asked.taken (h : Asked u n op) : (u.slot n).Taken ((popCmd u n).slot n) := by
  have e : (popCmd u n).slot n = _ := State.slot_modSlot_leaves.1
  rw [e]
  exact ⟨h.last, rfl, rfl, rfl, rfl, rfl⟩

theorem Asked.space (h : Asked u n op) : (u.slot n).cplFull = false ∧ (u.slot n).owed = [] := by
  have := h.takes
  simp only [mayTake, Bool.and_eq_true, Bool.not_eq_true', List.isEmpty_iff] at this
  obtain ⟨⟨⟨-, hfull⟩, howed⟩, -⟩ := this
  exact ⟨hfull, howed⟩

/-- The device takes nothing from an empty queue. -/
theorem mayTake_empty (h : (s.slot n).cmdHead = (s.slot n).cmdTail) : mayTake s n = false := by
  simp [mayTake, h]

theorem drainBad_idle (h : mayTake s n = false ∨ headOp (s.slot n) ∈ knownOps) : drainBad s n = s := by
  refine List.foldlRecOn (motive := fun t => t = s) _ _ rfl fun t ht k _ => ?_
  subst ht
  refine if_neg ?_
  rcases h with h | h <;> simp [h]

/-- A command that stands at the head is taken (R389). -/
theorem runCmd_asked (h : Asked u n op) (hk : op ∈ knownOps) : runCmd op body u n =
    drainBad (goOn (u.slot n) n op (body (popCmd u n) n (headEntry (u.slot n)))) n := by
  have hd : drainBad u n = u := drainBad_idle (.inr (h.head ▸ hk))
  unfold runCmd
  rw [hd]
  exact if_pos (by rw [h.takes, h.head, beq_self_eq_true]; rfl)

/-! ## Its completion -/

theorem pend_raiseIrq {k : Nat} (hk : k < 4) : ((raiseIrq s n k).slot n).pend.getLsbD k = true := by
  have h : (((s.modSlot n fun x => { x with
      pend := x.pend ||| BitVec.ofNat 4 (1 <<< k)
      pendSet := (s.op, (if x.pendSet.1 = s.op then x.pendSet.2 else 0) ||| BitVec.ofNat 4 (1 <<< k)) }).slot n).pend).getLsbD k
        = true := by
    rw [State.slot_modSlot_leaves.1]
    dsimp only
    rw [BitVec.getLsbD_or, BitVec.getLsbD_ofNat, Nat.one_shiftLeft, Nat.testBit_two_pow_self, decide_eq_true hk, Bool.and_self,
      Bool.or_true]
  unfold raiseIrq
  dsimp only
  split
  · obtain ⟨c, hc⟩ := (pbaOnly_sendIrq (n := n) (k := k) (s := s.modSlot n fun x => { x with
      pend := x.pend ||| BitVec.ofNat 4 (1 <<< k)
      pendSet := (s.op, (if x.pendSet.1 = s.op then x.pendSet.2 else 0) ||| BitVec.ofNat 4 (1 <<< k)) })).1
    rw [hc]
    exact h
  · exact h

/-- A completion with space in its queue writes its entry and raises cause 0. -/
theorem complete_eq {cid : BitVec 16} (h : (t.slot n).cplFull = false) (h' : (t.slot n).owed = []) :
    complete t n cid op st v0 v1 v2 = raiseIrq (t.modSlot n fun x => x.putCpl (cplEntry cid st op v0 v1 v2)) n 0 := by
  unfold complete
  exact if_neg (by simp [h, h'])

/-- What the completion of a command just taken leaves: the answer, and an empty queue. -/
theorem complete_leaves (h : Asked u n op) (ht : (u.slot n).Taken (t.slot n)) :
    let r := complete t n (headCid (u.slot n)) op st v0 v1 v2
    Answered u r n op st v0 v1 v2 ∧ (u.slot n).cmdTail = (r.slot n).cmdHead ∧ (r.slot n).tagWait = false := by
  obtain ⟨hfull, howed⟩ := h.space
  have hfull' : (t.slot n).cplFull = false := by rwa [Slot.cplFull, ht.cplTail, ht.cplHead]
  have hput := (alerted_raiseIrq (n := n) (k := 0)
    (s := t.modSlot n fun x => x.putCpl (cplEntry (headCid (u.slot n)) st op v0 v1 v2))).1
  have hpend := pend_raiseIrq (n := n) (k := 0) (by decide)
    (s := t.modSlot n fun x => x.putCpl (cplEntry (headCid (u.slot n)) st op v0 v1 v2))
  rw [← complete_eq hfull' (ht.owed.trans howed)] at hput hpend
  rw [State.slot_modSlot_leaves.1] at hput
  obtain ⟨p, q, r, hr⟩ := hput
  have hmap := Mem.bytes_putBytes (M := (t.slot n).map) (a := 0x1800 + 16 * ((u.slot n).cplTail % 32))
    (l := cplEntry (headCid (u.slot n)) st op v0 v1 v2)
  rw [length_cplEntry] at hmap
  dsimp only
  unfold Answered
  rw [hr] at hpend ⊢
  refine ⟨⟨?_, ?_, ht.cmdHead, ht.cmdTail, hpend⟩, ht.cmdHead.symm, ht.tagWait⟩
  · show ((t.slot n).map.putBytes (0x1800 + 16 * ((t.slot n).cplTail % 32)) _).bytes _ 16 = _
    rw [ht.cplTail, hmap]
  · show ((t.slot n).cplTail + 1) % 32 = _
    rw [ht.cplTail]

/-- A command whose body comes to an end completes in its state. -/
theorem runCmd_done (h : Asked u n op) (hk : op ∈ knownOps)
    (hb : body (popCmd u n) n (headEntry (u.slot n)) = .done t st v0 v1 v2) (ht : (u.slot n).Taken (t.slot n)) :
    runCmd op body u n = complete t n (headCid (u.slot n)) op st v0 v1 v2 := by
  obtain ⟨⟨-, -, -, htail, -⟩, hhead, -⟩ := complete_leaves (st := st) (v0 := v0) (v1 := v1) (v2 := v2) h ht
  rw [runCmd_asked h hk, hb]
  exact drainBad_idle (.inl (mayTake_empty (hhead.symm.trans htail.symm)))

/-- Of the slots only `n` has changed, and of the other parts only `ps`. -/
def Replied (ps : List Part) (u : State) (n : Nat) (t : State) : Prop := Only ps u t ∧ ∀ m, m ≠ n → t.slot m = u.slot m

/-- The completion of a command leaves its window and the rest of the machine as its body left them. -/
theorem complete_replied {cid : BitVec 16} (h : Replied ps u n t) (k : [.host, .out] ⊆ ps) :
    Replied ps u n (complete t n cid op st v0 v1 v2) :=
  ⟨only_complete h.1 k, fun m hm => (served_complete.2 m hm).trans (h.2 m hm)⟩

theorem popCmd_replied : Replied [.host, .out] u n (popCmd u n) :=
  ⟨only_popCmd .refl (by decide), State.slot_modSlot_leaves.2⟩

theorem winPut_replied {a : Nat} {l : List Byte} (h : Replied [.host, .out] u n t) : Replied [.host, .out] u n (winPut t n a l) :=
  ⟨only_winPut h.1 (by decide), fun m hm => (State.slot_modSlot_leaves.2 m hm).trans (h.2 m hm)⟩

theorem winPut_taken {a : Nat} {l : List Byte} (h : x.Taken (t.slot n)) : x.Taken ((winPut t n a l).slot n) := by
  have e : (winPut t n a l).slot n = _ := State.slot_modSlot_leaves.1
  rw [e]
  exact ⟨h.cmdHead, h.cmdTail, h.cplTail, h.cplHead, h.owed, h.tagWait⟩

/-- What stands in the window once bytes have been put into it and the command has completed. -/
theorem byte_complete_winPut {cid : BitVec 16} {a j : Nat} {l : List Byte} (hj : j < l.length) :
    ((complete (winPut t n a l) n cid op st v0 v1 v2).slot n).map.byte (0x4000 + a + j) = l.getD j 0 := by
  have e : (winPut t n a l).slot n = _ := State.slot_modSlot_leaves.1
  rw [served_complete.1.map _ (by omega), e, Mem.byte_putBytes, if_pos (by omega), Nat.add_sub_cancel_left]

/-! ## Commands that change only their slot -/

/-- The command has been answered, its queue is empty, and nothing but its slot and the outputs has changed. -/
structure Finished (u : State) (n op st v0 v1 v2 : Nat) (t : State) : Prop where
  answered : Answered u t n op st v0 v1 v2
  replied : Replied [.host, .out] u n t
  tagWait : (t.slot n).tagWait = false

theorem finished_runCmd (h : Asked u n op) (hk : op ∈ knownOps)
    (hb : body (popCmd u n) n (headEntry (u.slot n)) = .done t st v0 v1 v2) (ht : (u.slot n).Taken (t.slot n))
    (hr : Replied [.host, .out] u n t) : Finished u n op st v0 v1 v2 (runCmd op body u n) := by
  obtain ⟨hans, -, hwait⟩ := complete_leaves (st := st) (v0 := v0) (v1 := v1) (v2 := v2) h ht
  rw [← runCmd_done h hk hb ht] at hans hwait
  refine ⟨hans, ?_, hwait⟩
  rw [runCmd_done h hk hb ht]
  exact complete_replied hr (List.Subset.refl _)

/-- A command that ends in the state in which it was taken. -/
theorem finished_popped (h : Asked u n op) (hk : op ∈ knownOps)
    (hb : body (popCmd u n) n (headEntry (u.slot n)) = .done (popCmd u n) st v0 v1 v2) :
    Finished u n op st v0 v1 v2 (runCmd op body u n) := finished_runCmd h hk hb h.taken popCmd_replied

theorem ends_finished {P : State → Prop} (h : Finished (elapse dt s) n op st v0 v1 v2 t) (hP : P t) : Ends (answer s t) P :=
  ends_answer h.replied.1 (by decide) (by decide) hP

/-- A command that changes nothing but its completion. -/
theorem ends_popped (h : Asked (elapse dt s) n op) (hk : op ∈ knownOps)
    (hb : body (popCmd (elapse dt s) n) n (headEntry ((elapse dt s).slot n)) = .done (popCmd (elapse dt s) n) st v0 v1 v2) :
    Ends (answer s (runCmd op body (elapse dt s) n)) fun t =>
      Answered (elapse dt s) t n op st v0 v1 v2 ∧ Replied [.host, .out] (elapse dt s) n t :=
  have hf := finished_popped h hk hb
  ends_finished hf ⟨hf.answered, hf.replied⟩

/-! ## Commands that draw a tag -/

/-- A request has drawn a tag and given it back (R31, R32). -/
def State.passed (u : State) (peak : Nat) (ended : Tab (Option Nat)) : State :=
  { u with free := u.free + 1, yl := { u.yl with peak := peak, ended := ended } }

theorem drawTag_eq (h : (freeTags u b).isEmpty = false) : ∃ p g, drawTag u b = (u.passed p u.yl.ended, g) := by
  unfold drawTag
  generalize freeTags u b = l at h ⊢
  dsimp only
  rw [h, if_neg Bool.false_ne_true]
  exact ⟨_, _, rfl⟩

theorem passTag_eq (h : (freeTags u b).isEmpty = false) : ∃ p e, passTag u b st = u.passed p e := by
  obtain ⟨p, g, hd⟩ := drawTag_eq h
  unfold passTag
  rw [hd]
  exact ⟨p, _, rfl⟩

/-- A command that accesses the Canopy goes ahead once it has a tag (R32). -/
theorem hostAccess_tagged (h : Asked u n op) (ht : (freeTags u false).isEmpty = false) :
    ∃ p e, hostAccess op body u n = runCmd op body (u.passed p e) n := by
  obtain ⟨p, e, hp⟩ := passTag_eq (st := stDone) ht
  refine ⟨p, e, ?_⟩
  rw [← hp]
  unfold hostAccess
  rw [if_pos (by rw [h.takes, h.head, beq_self_eq_true]; rfl), ht, if_neg Bool.false_ne_true]

/-- Without a free tag it waits at the head of its queue. -/
theorem hostAccess_waits (h : Asked u n op) (ht : (freeTags u false).isEmpty = true) :
    hostAccess op body u n =
      if (u.slot n).tagWait then u else (drawTag u false).1.modSlot n fun x => { x with tagWait := true } := by
  unfold hostAccess
  rw [if_pos (by rw [h.takes, h.head, beq_self_eq_true]; rfl), if_pos ht]

/-- The device finds the same command at the head of the queue after a tag has passed. -/
theorem Asked.passed {p : Nat} {e : Tab (Option Nat)} (h : Asked u n op) : Asked (u.passed p e) n op :=
  ⟨h.takes, h.head, h.last⟩

/-- What a command leaves that needed a tag and acted on its slot alone. -/
def Tagged (u : State) (n : Nat) (t : State) : Prop :=
  Only [.free, .yl, .host, .out] u t ∧ t.yl = { u.yl with peak := t.yl.peak, ended := t.yl.ended } ∧
    (t.slot n).tagWait = false ∧ ∀ m, m ≠ n → t.slot m = u.slot m

theorem only_passed {p : Nat} {e : Tab (Option Nat)} : Only [.free, .yl] u (u.passed p e) := by
  intro q hq
  cases q
  case free => exact absurd (by decide) hq
  case yl => exact absurd (by decide) hq
  all_goals rfl

theorem Finished.tagged {p : Nat} {e : Tab (Option Nat)} (h : Finished (u.passed p e) n op st v0 v1 v2 t) : Tagged u n t := by
  refine ⟨(only_passed.mono (by decide)).trans (h.replied.1.mono (by decide)), ?_, h.tagWait, h.replied.2⟩
  rw [h.replied.1.yl_eq (by decide)]
  rfl

/-- A command with a tag that finishes on its slot alone. -/
theorem ends_tagged {P : State → Prop} {p : Nat} {e : Tab (Option Nat)}
    (h : Finished ((elapse dt s).passed p e) n op st v0 v1 v2 t)
    (hP : P t) : Ends (answer s t) fun t => Answered (elapse dt s) t n op st v0 v1 v2 ∧ Tagged (elapse dt s) n t ∧ P t :=
  ends_answer h.tagged.1 (by decide) (by decide) ⟨h.answered, h.tagged, hP⟩

end Sys2Proof.Machine
end

section
/-! The bodies of IDENTIFY, READ, WRITE, SYSREAD, LINK_COUNT, REC_READ and REC_CLEAR (R395, R396, R462, R463). -/
namespace Sys2Proof.Machine

variable {s t u : State} {n m op : Nat} {e : List Byte}

/-! ## A write set of a host slot -/

theorem can_mem_retainLines {o : Option Nat} {l : List Nat} : (l.foldl (retainLine o) s).can.mem = s.can.mem :=
  List.foldlRecOn (motive := fun t : State => t.can.mem = s.can.mem) l _ rfl fun _ ht _ _ => ht

/-- The bytes of a write set become the current version (R33). -/
theorem can_mem_publish {l : List (Nat × Byte)} : (publish s none l).can.mem = putAll s.can.mem l := by
  show putAll ((linesOf l).foldl (retainLine none) s).can.mem l = _
  rw [can_mem_retainLines]

/-- The repair of words leaves the bytes and, but for interrupts, the slots (R217). -/
theorem canRepair_leaves {has : Nat → Bool} :
    (canRepair s has).can.mem = s.can.mem ∧ (s.slot m).Alerted ((canRepair s has).slot m) := by
  refine List.foldlRecOn (motive := fun t : State => t.can.mem = s.can.mem ∧ (s.slot m).Alerted (t.slot m)) _ _
    ⟨rfl, .refl⟩ fun t ht a _ => ?_
  obtain ⟨hmem, hslot⟩ := ht
  refine ⟨?_, hslot.trans alerted_record⟩
  refine Eq.trans (congrArg Canopy.mem (Only.can_eq (only_record .refl (List.Subset.refl _)) (by decide))) hmem

theorem publishWhole_leaves {l : List (Nat × Byte)} :
    (publishWhole s l).can.mem = putAll s.can.mem l ∧ (s.slot m).Alerted ((publishWhole s l).slot m) := by
  obtain ⟨hmem, hslot⟩ := canRepair_leaves (s := publish s none l) (has := wholeWord l) (m := m)
  have hhost : (publish s none l).host = s.host := (only_publish (ps := [.seq, .can]) .refl (by decide)).host_eq (by decide)
  refine ⟨hmem.trans can_mem_publish, ?_⟩
  rwa [State.slot, hhost] at hslot

theorem now_publishWhole {l : List (Nat × Byte)} : (publishWhole s l).now = s.now :=
  congrArg Clk.tb ((only_publishWhole .refl (List.Subset.refl _)).clk_eq (by decide))

/-- Consecutive bytes written one by one are written as a run. -/
theorem putAll_zip {M : Mem} {a : Nat} {l : List Byte} :
    putAll M (((List.range l.length).map (a + ·)).zip l) = M.putBytes a l := by
  induction l generalizing M a with
  | nil => rfl
  | cons c l ih =>
    rw [List.length_cons, List.range_succ_eq_map, List.map_cons, List.map_map, List.zip_cons_cons, Mem.putBytes, ← ih]
    have : (fun x => a + x) ∘ Nat.succ = fun x => a + 1 + x := by
      funext x
      simp only [Function.comp]
      omega
    rw [this]
    rfl

/-! ## The bodies of the commands -/

/-- The form of a READ or a WRITE (R396): a length of its range, the window and the area. -/
def AccessForm (max a len off : Nat) : Prop := 0 < len ∧ len ≤ max ∧ winOk off len 4 = true ∧ inOneArea a len = true

theorem accessForm_iff {max a len off : Nat} :
    (len == 0 || decide (max < len) || !winOk off len 4 || !inOneArea a len) = false ↔ AccessForm max a len off := by
  simp [AccessForm, Nat.pos_iff_ne_zero, and_assoc]

section
variable (hform : AccessForm 16384 (leAt e 8 4) (leAt e 12 4) (leAt e 16 2))

theorem cmdRead_badForm (h : ¬ AccessForm 16384 (leAt e 8 4) (leAt e 12 4) (leAt e 16 2)) :
    cmdRead t n e = .done t stBadForm 0 0 0 :=
  if_pos (by rwa [← accessForm_iff, Bool.not_eq_false] at h)

include hform

theorem cmdRead_setup (h : t.dev.state = .setup) : cmdRead t n e = .done t stBusy 0 0 0 := by
  unfold cmdRead
  simp [accessForm_iff.mpr hform, CmdEnd.unless, served, h, DevState.served, ends]

theorem cmdRead_reads (h : t.dev.state.served = true) (h' : t.dev.state ≠ .setup) :
    cmdRead t n e = .done (winPut t n (leAt e 16 2) (canBytes t (leAt e 8 4) (leAt e 12 4))) stDone (t.now % 2 ^ 32)
      (t.now / 2 ^ 32) 0 := by
  unfold cmdRead
  simp [accessForm_iff.mpr hform, CmdEnd.unless, served, h, h']

end

section
variable (hform : AccessForm 4096 (leAt e 8 4) (leAt e 12 4) (leAt e 16 2))
include hform

theorem cmdWrite_denied (h : (t.slot n).role = .observer ∨ inSrh t = false) : cmdWrite t n e = .done t stDenied 0 0 0 := by
  unfold cmdWrite
  rcases h with h | h <;> simp [accessForm_iff.mpr hform, CmdEnd.unless, mayOperate, h, ends]

theorem cmdWrite_protected (h1 : (t.slot n).role ≠ .observer) (h2 : inSrh t = true)
    (h3 : ((spanLines (leAt e 8 4) (leAt e 12 4)).all fun l => Area.h.has l && ownerOf t.cfg l == some (slotOwner n)) = false) :
    cmdWrite t n e = .done t stProtected 0 0 0 := by
  unfold cmdWrite
  simp only [accessForm_iff.mpr hform, CmdEnd.unless, mayOperate, h2, h3, ends]
  simp [h1]

/-- The bytes that a WRITE takes from the window. -/
theorem cmdWrite_writes (h1 : (t.slot n).role ≠ .observer) (h2 : inSrh t = true)
    (h3 : ((spanLines (leAt e 8 4) (leAt e 12 4)).all fun l => Area.h.has l && ownerOf t.cfg l == some (slotOwner n)) = true) :
    cmdWrite t n e = .done (publishWhole t (((List.range (leAt e 12 4)).map (leAt e 8 4 + ·)).zip
      (winBytes t n (leAt e 16 2) (leAt e 12 4)))) stDone (t.now % 2 ^ 32) (t.now / 2 ^ 32) 0 := by
  unfold cmdWrite
  simp only [accessForm_iff.mpr hform, CmdEnd.unless, mayOperate, h2, h3, ends]
  simp [h1, now_publishWhole]

end

theorem cmdSysread_reads {v : Word} (h : sysReg t t.cfg (leAt e 8 2) = some v) (h' : t.dev.state.served = true) :
    cmdSysread t n e = .done t stDone v.toNat 0 0 := by
  unfold cmdSysread
  rw [h]
  simp [CmdEnd.unless, served, h']

theorem cmdSysread_denied {v : Word} (h : sysReg t t.cfg (leAt e 8 2) = some v) (h' : ¬ t.dev.state.served = true) :
    cmdSysread t n e = .done t stDenied 0 0 0 := by
  unfold cmdSysread
  rw [h]
  simp [CmdEnd.unless, served, h', ends]

theorem cmdSysread_badForm (h : sysReg t t.cfg (leAt e 8 2) = none) : cmdSysread t n e = .done t stBadForm 0 0 0 := by
  unfold cmdSysread
  rw [h]
  rfl

theorem cmdLinkCount_reads (h : t.dev.state.served = true) (h1 : (byteAt e 8).toNat ≤ 7) (h2 : (byteAt e 9).toNat ≤ 12) :
    cmdLinkCount t n e =
      .done t stDone (tabGet 0 t.yl.counts (16 * (byteAt e 8).toNat + (byteAt e 9).toNat)).toNat 0 0 := by
  unfold cmdLinkCount
  simp [CmdEnd.unless, served, h, Nat.not_lt.mpr h1, Nat.not_lt.mpr h2]

/-- The first record that a REC_READ returns (R462). -/
def recFirst (t : State) (e : List Byte) : Word :=
  if BitVec.ofNat 32 (leAt e 8 4) = 0 ∨ seqNewer (recOldest t) (BitVec.ofNat 32 (leAt e 8 4)) = true then recOldest t
  else BitVec.ofNat 32 (leAt e 8 4)

section
variable (hstate : t.dev.state.served = true ∨ t.dev.state = .recovery) (hc : 0 < leAt e 12 2) (hc' : leAt e 12 2 ≤ 128)
  (hwin : winOk (leAt e 16 2) (128 * leAt e 12 2) 128 = true) (hnew : t.nv.newest ≠ 0)
include hstate hc hc' hwin hnew

theorem cmdRecRead_reads (h : BitVec.ofNat 32 (leAt e 8 4) = 0 ∨ seqNewer (BitVec.ofNat 32 (leAt e 8 4)) t.nv.newest = false) :
    let l := seqRun (recFirst t e) t.nv.newest (leAt e 12 2)
    cmdRecRead t n e = .done (winPut t n (leAt e 16 2) (l.flatMap (recBytes t))) stDone (recFirst t e).toNat l.length
      t.nv.newest.toNat := by
  unfold cmdRecRead recFirst
  have hs : (served t || t.dev.state == .recovery) = true := by simpa [served] using hstate
  simp only [CmdEnd.unless, hs, hwin, if_neg hnew]
  rcases h with h | h <;> simp [h, Nat.pos_iff_ne_zero.mp hc, Nat.not_lt.mpr hc']

theorem cmdRecRead_notFound (h : BitVec.ofNat 32 (leAt e 8 4) ≠ 0)
    (h' : seqNewer (BitVec.ofNat 32 (leAt e 8 4)) t.nv.newest = true) : cmdRecRead t n e = .done t stNotFound 0 0 0 := by
  unfold cmdRecRead
  have hs : (served t || t.dev.state == .recovery) = true := by simpa [served] using hstate
  have hf : (BitVec.ofNat 32 (leAt e 8 4) != 0 && seqNewer (BitVec.ofNat 32 (leAt e 8 4)) t.nv.newest) = true := by
    rw [h', Bool.and_true]
    exact bne_iff_ne.mpr h
  simp only [CmdEnd.unless, hs, hwin, if_neg hnew, if_neg h, if_pos hf]
  simp [Nat.pos_iff_ne_zero.mp hc, Nat.not_lt.mpr hc', ends]

end

/-- A record put into the store as the newest (R463). -/
def State.stored (t : State) (r : Rec) : State :=
  t.onNv fun v => { v with newest := r.seq, recs := tabSet none (recSlot r.seq) (some r) v.recs }

/-- The start of a system record's write, with its interrupt, leaves the rest of the parameter store and of the recorder. -/
theorem nv_stageSys_raiseIrqAll {k id : Nat} {d : List Byte} :
    ∃ a b, (stageSys (raiseIrqAll t k) id d).nv = { t.nv with sys := a, sysW := b } := by
  have h : (raiseIrqAll t k).nv = t.nv := (only_raiseIrqAll .refl (List.Subset.refl _)).nv_eq (by decide)
  dsimp only [stageSys, State.onNv]
  rw [h]
  exact ⟨_, _, rfl⟩

section
variable (hrole : (t.slot n).role = .owner) (hstop : t.dev.state = .stop)
include hrole hstop

theorem cmdRecClear_fails (h : seqNewer t.nv.newest (BitVec.ofNat 32 (leAt e 8 4)) = true) :
    cmdRecClear t n e = .done t stCheckFail 0 0 0 := by
  unfold cmdRecClear
  simp [CmdEnd.unless, isOwner, hrole, hstop, h, ends]

/-- The record of a clearance stands in the store, and its mark is being written (R463). -/
theorem cmdRecClear_waits (h : seqNewer t.nv.newest (BitVec.ofNat 32 (leAt e 8 4)) = false) :
    ∃ r d, r.code = 0x0B0C ∧ r.seq = nextSeq t.nv.newest ∧ cmdRecClear t n e =
      waits (stageSys (raiseIrqAll (t.stored r) 2) 0xF006 d) 0xF006 0 [] := by
  refine ⟨makeRec t 0x0B0C [.b1 n, .b1 (t.slot n).key, .b4 (recHeld t)],
    leBytes 4 (nextSeq t.nv.newest).toNat ++ leBytes 4 0, rfl, rfl, ?_⟩
  unfold cmdRecClear
  simp only [CmdEnd.unless, isOwner, hrole, hstop, h]
  rfl

end

theorem waits_raiseIrq {k : Nat} : (raiseIrq s n k).host.waits = s.host.waits := by
  unfold raiseIrq
  dsimp only
  split
  · rcases sendIrq_cases (n := n) (k := k) (s := s.modSlot n fun x => { x with
      pend := x.pend ||| BitVec.ofNat 4 (1 <<< k)
      pendSet := (s.op, (if x.pendSet.1 = s.op then x.pendSet.2 else 0) ||| BitVec.ofNat 4 (1 <<< k)) }) with h | h | h <;>
    rw [h] <;> rfl
  · rfl

theorem waits_raiseIrqAll {k : Nat} : (raiseIrqAll s k).host.waits = s.host.waits :=
  List.foldlRecOn (motive := fun t : State => t.host.waits = s.host.waits) _ _ rfl fun _ ht _ _ => waits_raiseIrq.trans ht

/-- A short command that waits for a record stands among the started ones, and its queue is empty (R389). -/
theorem runCmd_waits {body : CmdBody} {id : Nat} (h : Asked u n op) (hk : op ∈ knownOps) (hl : op ∉ longOps)
    (hb : body (popCmd u n) n (headEntry (u.slot n)) = waits t id 0 []) (ht : (u.slot n).Taken (t.slot n))
    (hw : t.host.waits = u.host.waits) :
    Waiting u (runCmd op body u n) n op (.sysRecord (BitVec.ofNat 16 id)) ∧ Only [.host] t (runCmd op body u n) := by
  have hi : goOn (u.slot n) n op (waits t id 0 []) = (t.modSlot n fun y => y).onHost fun h => { h with waits := h.waits ++
      [{ slot := n, cid := headCid (u.slot n), op := BitVec.ofNat 8 op, for_ := .sysRecord (BitVec.ofNat 16 id), ev := 0
         items := [] }] } := by
    unfold waits goOn
    have : longOps.contains op = false := by simpa using hl
    simp only [this, Bool.false_eq_true, if_false]
  have hslot : ((t.modSlot n fun y => y).slot n) = t.slot n := State.slot_modSlot_leaves.1
  rw [runCmd_asked h hk, hb, hi, drainBad_idle (.inl (mayTake_empty ?_))]
  · refine ⟨⟨⟨_, congrArg (· ++ _) hw, rfl, rfl, rfl, rfl, rfl⟩, ?_, ?_⟩, ?_⟩
    · exact (congrArg Slot.cplTail hslot).trans ht.cplTail
    · exact (congrArg Slot.cmdHead hslot).trans ht.cmdHead
    · exact only_onHost (only_modSlot .refl (List.Subset.refl _)) (List.Subset.refl _)
  · show ((t.modSlot n fun y => y).slot n).cmdHead = ((t.modSlot n fun y => y).slot n).cmdTail
    rw [hslot, ht.cmdHead, ht.cmdTail]

end Sys2Proof.Machine
end

section
/-! The host reads and writes: what each command leaves once it has run. -/
namespace Sys2Proof.Machine

section
variable {s t u : State} {n op st v0 v1 v2 dt : Nat} {e : List Byte} {body : CmdBody}

/-! ## The commands -/

theorem roReg_part : roReg u 0x0000 = 0x5E709632 := by
  unfold roReg roBlock01
  rfl

theorem roReg_issue : roReg u 0x0001 = 0x4100 ||| BitVec.ofNat 32 (fwIssue u) := by
  unfold roReg roBlock01
  rfl

/-- The identity is the same once the command has been taken. -/
theorem cmdIdentify_popped : cmdIdentify (popCmd u n) n e =
    .done (popCmd u n) stDone (roReg u 0x0000).toNat (roReg u 0x0001).toNat (devStateReg u).toNat := by
  unfold cmdIdentify
  rw [roReg_part, roReg_part, roReg_issue, roReg_issue]
  rfl

theorem role_popCmd : ((popCmd u n).slot n).role = (u.slot n).role := by
  rw [show (popCmd u n).slot n = _ from State.slot_modSlot_leaves.1]

theorem winBytes_popCmd {a l : Nat} : winBytes (popCmd u n) n a l = (u.slot n).map.bytes (0x4000 + a) l := by
  rw [winBytes, show (popCmd u n).slot n = _ from State.slot_modSlot_leaves.1]

theorem Mem.getD_bytes {M : Mem} {a l j : Nat} (h : j < l) : (M.bytes a l).getD j 0 = M.byte (a + j) := by
  rw [Mem.bytes, List.getD_eq_getElem _ _ (by simpa using h), List.getElem_map, List.getElem_range]

/-- A command with a tag that changes nothing but its completion. -/
theorem ends_access_popped (h : Asked (elapse dt s) n op) (hk : op ∈ knownOps)
    (ht : (freeTags (elapse dt s) false).isEmpty = false)
    (hb : ∀ p d, body (popCmd ((elapse dt s).passed p d) n) n (headEntry ((elapse dt s).slot n)) =
      .done (popCmd ((elapse dt s).passed p d) n) st v0 v1 v2) :
    Ends (answer s (hostAccess op body (elapse dt s) n)) fun t =>
      Answered (elapse dt s) t n op st v0 v1 v2 ∧ Tagged (elapse dt s) n t := by
  obtain ⟨p, d, hp⟩ := hostAccess_tagged (body := body) h ht
  have hf := finished_popped (h.passed (p := p) (e := d)) hk (hb p d)
  rw [hp]
  exact ends_answer hf.tagged.1 (by decide) (by decide) ⟨hf.answered, hf.tagged⟩

/-- A command that puts bytes into the window before its completion. -/
theorem runCmd_window {a : Nat} {l : List Byte} (h : Asked u n op) (hk : op ∈ knownOps)
    (hb : body (popCmd u n) n (headEntry (u.slot n)) = .done (winPut (popCmd u n) n a l) st v0 v1 v2) :
    Finished u n op st v0 v1 v2 (runCmd op body u n) ∧
      ∀ j, j < l.length → ((runCmd op body u n).slot n).map.byte (0x4000 + a + j) = l.getD j 0 := by
  have ht := winPut_taken (a := a) (l := l) h.taken
  refine ⟨finished_runCmd h hk hb ht (winPut_replied popCmd_replied), fun j hj => ?_⟩
  rw [runCmd_done h hk hb ht]
  exact byte_complete_winPut hj

/-- READ puts the bytes of its range into the window (R396). -/
theorem runCmd_read (h : Asked u n 0x20) (he : e = headEntry (u.slot n))
    (hf : AccessForm 16384 (leAt e 8 4) (leAt e 12 4) (leAt e 16 2)) (hs : u.dev.state.served = true)
    (hd : u.dev.state ≠ .setup) :
    Finished u n 0x20 stDone (u.now % 2 ^ 32) (u.now / 2 ^ 32) 0 (runCmd 0x20 cmdRead u n) ∧ ∀ j, j < leAt e 12 4 →
      ((runCmd 0x20 cmdRead u n).slot n).map.byte (0x4000 + leAt e 16 2 + j) = canByte u (leAt e 8 4 + j) := by
  have hb : cmdRead (popCmd u n) n (headEntry (u.slot n)) = .done (winPut (popCmd u n) n (leAt e 16 2)
      (canBytes u (leAt e 8 4) (leAt e 12 4))) stDone (u.now % 2 ^ 32) (u.now / 2 ^ 32) 0 := by
    rw [← he]
    exact cmdRead_reads (t := popCmd u n) hf hs hd
  obtain ⟨hfin, hbytes⟩ := runCmd_window h (by decide) hb
  refine ⟨hfin, fun j hj => ?_⟩
  rw [hbytes j (by simpa [canBytes] using hj), canBytes, List.getD_eq_getElem _ _ (by simpa using hj), List.getElem_map,
    List.getElem_range]

/-- WRITE makes the bytes of the window the current version of its range (R396). -/
theorem runCmd_write (h : Asked u n 0x21) (he : e = headEntry (u.slot n))
    (hf : AccessForm 4096 (leAt e 8 4) (leAt e 12 4) (leAt e 16 2)) (hr : (u.slot n).role ≠ .observer) (hs : inSrh u = true)
    (ho : ((spanLines (leAt e 8 4) (leAt e 12 4)).all fun l => Area.h.has l && ownerOf u.cfg l == some (slotOwner n)) = true) :
    Answered u (runCmd 0x21 cmdWrite u n) n 0x21 stDone (u.now % 2 ^ 32) (u.now / 2 ^ 32) 0 ∧
      (runCmd 0x21 cmdWrite u n).can.mem =
        u.can.mem.putBytes (leAt e 8 4) ((u.slot n).map.bytes (0x4000 + leAt e 16 2) (leAt e 12 4)) := by
  have hb := cmdWrite_writes (t := popCmd u n) (n := n) hf (by rwa [role_popCmd]) hs ho
  rw [winBytes_popCmd] at hb
  generalize hl : (u.slot n).map.bytes (0x4000 + leAt e 16 2) (leAt e 12 4) = l at hb ⊢
  have hlen : leAt e 12 4 = l.length := by rw [← hl, Mem.bytes, List.length_map, List.length_range]
  rw [hlen] at hb
  obtain ⟨hmem, halert⟩ := publishWhole_leaves (s := popCmd u n) (m := n)
    (l := ((List.range l.length).map (leAt e 8 4 + ·)).zip l)
  have ht := h.taken.alerted halert
  rw [runCmd_done h (by decide) (by rw [← he]; exact hb) ht]
  refine ⟨(complete_leaves h ht).1, ?_⟩
  have hcan := (only_complete (t := publishWhole (popCmd u n) (((List.range l.length).map (leAt e 8 4 + ·)).zip l)) (n := n)
    (cid := headCid (u.slot n)) (op := 0x21) (st := stDone) (v0 := u.now % 2 ^ 32) (v1 := u.now / 2 ^ 32) (v2 := 0) .refl
    (List.Subset.refl _)).can_eq (by decide)
  exact (congrArg Canopy.mem hcan).trans (hmem.trans putAll_zip)

/-- REC_CLEAR puts its record into the store and waits for its mark (R463). -/
theorem runCmd_recClear (h : Asked u n 0x25) (hr : (u.slot n).role = .owner) (hs : u.dev.state = .stop)
    (hn : seqNewer u.nv.newest (BitVec.ofNat 32 (leAt (headEntry (u.slot n)) 8 4)) = false) :
    let t := runCmd 0x25 cmdRecClear u n
    t.nv.buf = u.nv.buf ∧ t.nv.newest = nextSeq u.nv.newest ∧ t.nv.clearMark = u.nv.clearMark ∧
      (∃ r, tabGet none t.nv.recs (recSlot (nextSeq u.nv.newest)) = some r ∧ r.code = 0x0B0C ∧
        r.seq = nextSeq u.nv.newest) ∧
      Waiting u t n 0x25 (.sysRecord 0xF006) ∧ Only [.host, .nv, .out] u t := by
  obtain ⟨r, d, hcode, hseq, hb⟩ := cmdRecClear_waits (t := popCmd u n) (n := n) (role_popCmd.trans hr) hs hn
  obtain ⟨hwait, honly⟩ := runCmd_waits h (by decide) (by decide) hb
    (h.taken.alerted (alerted_raiseIrqAll (s := (popCmd u n).stored r))) waits_raiseIrqAll
  obtain ⟨a, b, hnv⟩ := nv_stageSys_raiseIrqAll (t := (popCmd u n).stored r) (k := 2) (id := 0xF006) (d := d)
  have hframe : Only [.host, .nv, .out] u (stageSys (raiseIrqAll ((popCmd u n).stored r) 2) 0xF006 d) :=
    only_stageSys (only_raiseIrqAll (only_onNv (only_popCmd .refl (by decide)) (by decide)) (by decide)) (by decide)
  dsimp only
  rw [honly.nv_eq (by decide), hnv]
  refine ⟨rfl, hseq, rfl, ⟨r, ?_, hcode, hseq⟩, hwait, hframe.trans (honly.mono (by decide))⟩
  show tabGet none (tabSet none (recSlot r.seq) (some r) u.nv.recs) _ = _
  rw [hseq, tabGet_tabSet]
  exact if_pos rfl

/-- REC_READ puts its records into the window (R462). -/
theorem runCmd_recRead (h : Asked u n 0x24) (he : e = headEntry (u.slot n))
    (hstate : u.dev.state.served = true ∨ u.dev.state = .recovery) (hc : 0 < leAt e 12 2) (hc' : leAt e 12 2 ≤ 128)
    (hwin : winOk (leAt e 16 2) (128 * leAt e 12 2) 128 = true) (hnew : u.nv.newest ≠ 0)
    (hf : BitVec.ofNat 32 (leAt e 8 4) = 0 ∨ seqNewer (BitVec.ofNat 32 (leAt e 8 4)) u.nv.newest = false) :
    let l := seqRun (recFirst u e) u.nv.newest (leAt e 12 2)
    Finished u n 0x24 stDone (recFirst u e).toNat l.length u.nv.newest.toNat (runCmd 0x24 cmdRecRead u n) ∧
      ∀ j, j < (l.flatMap (recBytes u)).length → ((runCmd 0x24 cmdRecRead u n).slot n).map.byte (0x4000 + leAt e 16 2 + j) =
        (l.flatMap (recBytes u)).getD j 0 := by
  refine runCmd_window h (by decide) ?_
  rw [← he]
  exact cmdRecRead_reads (t := popCmd u n) hstate hc hc' hwin hnew hf

/-- A command that finds no free tag is counted as a wait, and its slot remembers it (R32). -/
theorem ends_access_waits (h : Asked (elapse dt s) n op) (ht : ¬ (freeTags (elapse dt s) false).isEmpty = false)
    (hw : ((elapse dt s).slot n).tagWait = false) :
    Ends (answer s (hostAccess op body (elapse dt s) n)) fun t =>
      t.slot n = { (elapse dt s).slot n with tagWait := true } ∧
        t.yl = { (elapse dt s).yl with waitCount := satInc (elapse dt s).yl.waitCount } ∧
        Only [.yl, .host] (elapse dt s) t := by
  have hd : (drawTag (elapse dt s) false).1 = (elapse dt s).onYl fun y => { y with waitCount := satInc y.waitCount } := by
    unfold drawTag
    generalize freeTags (elapse dt s) false = l at ht ⊢
    rw [Bool.not_eq_false] at ht
    dsimp only
    rw [ht, if_pos rfl]
  have hO : Only [.yl, .host] (elapse dt s) (((elapse dt s).onYl fun y => { y with waitCount := satInc y.waitCount }).modSlot n
      fun x => { x with tagWait := true }) := only_modSlot (only_onYl .refl (by decide)) (by decide)
  rw [hostAccess_waits h (by simpa using ht), hw, if_neg Bool.false_ne_true, hd]
  exact ends_answer hO (by decide) (by decide) ⟨State.slot_modSlot_leaves.1, rfl, hO⟩

end

/-- Settles O43, clause by clause: the body of each command as it stands, then its completion. -/
theorem hostReadsAndWrites : Obligations.HostReadsAndWrites := by
  unfold Obligations.HostReadsAndWrites
  intro s dt n v u x e a len off lo hi ans reply tag tagged served readForm writeForm owned c first newest oldest q run
  have role (t : State) : ((popCmd t n.val).slot n.val).role = (t.slot n.val).role := role_popCmd
  refine ⟨?_, ?_, ?_, ?_, ?_, ?_, ?_, ?_, ?_, ?_, ?_, ?_, ?_, ?_, ?_, ?_, ?_, ?_⟩
  · -- IDENTIFY
    exact fun h => ends_popped h (by decide) cmdIdentify_popped
  · -- READ
    intro h ht hf hs hd
    obtain ⟨p, d, hp⟩ := hostAccess_tagged (body := cmdRead) h ht
    obtain ⟨hfin, hbytes⟩ := runCmd_read (h.passed (p := p) (e := d)) rfl hf hs hd
    show Ends (answer s (hostAccess 0x20 cmdRead u n.val)) _
    rw [hp]
    exact ends_tagged hfin hbytes
  · -- READ in SETUP
    exact fun h ht hf hs => ends_access_popped h (by decide) ht fun _ _ => cmdRead_setup hf hs
  · -- READ of a bad form
    exact fun h ht hf => ends_access_popped h (by decide) ht fun _ _ => cmdRead_badForm hf
  · -- READ without a free tag
    exact fun h ht hw => ends_access_waits h ht hw
  · -- READ that waits for a tag already
    intro h ht hw
    show answer s (hostAccess 0x20 cmdRead u n.val) = _
    rw [hostAccess_waits h (by simpa [tag] using ht), if_pos hw]
    rfl
  · -- WRITE after a read point of its instant
    intro h
    show answer s (u.when (readOpen u) fun t => hostAccess 0x21 cmdWrite t n.val) = _
    rw [State.when_false h]
    rfl
  · -- WRITE
    intro h ht ho hf hr hs hown
    obtain ⟨p, d, hp⟩ := hostAccess_tagged (body := cmdWrite) h ht
    obtain ⟨hans, hmem⟩ := runCmd_write (h.passed (p := p) (e := d)) rfl hf hr hs hown
    have hO : Only [.free, .seq, .can, .yl, .host, .nv, .out] u (hostAccess 0x21 cmdWrite u n.val) :=
      only_hostAccess .refl (frame_cmdWrite (by decide)) (by decide)
    replace hmem : (runCmd 0x21 cmdWrite (u.passed p d) n.val).can.mem =
      u.can.mem.putBytes a (x.map.bytes (0x4000 + off) len) := hmem
    have hlen : (x.map.bytes (0x4000 + off) len).length = len := by simp [Mem.bytes]
    rw [← hp] at hans hmem
    refine ends_when ho hO (by decide) (by decide) ⟨hans, ?_, ?_, ?_, hO⟩
    · intro hwf
      rw [hmem]
      exact Mem.wf_putBytes hwf
    · intro k hk hk'
      rw [hmem, Mem.byte_putBytes, hlen, if_pos ⟨hk, hk'⟩, Mem.getD_bytes (by omega)]
    · intro k hk
      rw [hmem, Mem.byte_putBytes, hlen, if_neg (by omega)]
  · -- WRITE of lines that the slot does not own
    intro h ht ho hf hr hs hown
    show Ends (answer s (u.when (readOpen u) fun t => hostAccess 0x21 cmdWrite t n.val)) _
    rw [State.when_true ho]
    exact ends_access_popped h (by decide) ht fun p d => cmdWrite_protected hf (by rw [role]; exact hr) hs hown
  · -- WRITE without the role or the state
    intro h ht ho hf hr
    show Ends (answer s (u.when (readOpen u) fun t => hostAccess 0x21 cmdWrite t n.val)) _
    rw [State.when_true ho]
    exact ends_access_popped h (by decide) ht fun p d => cmdWrite_denied hf (by rw [role]; exact hr)
  · -- SYSREAD
    exact fun h hs hv => ends_popped h (by decide) (cmdSysread_reads hv hs)
  · -- SYSREAD where registers are not served
    exact fun h hs hv => ends_popped h (by decide) (cmdSysread_denied hv hs)
  · -- SYSREAD of no register
    exact fun h hv => ends_popped h (by decide) (cmdSysread_badForm hv)
  · -- LINK_COUNT
    exact fun h hs hp hi => ends_popped h (by decide) (cmdLinkCount_reads hs hp hi)
  · -- REC_READ
    intro h hs hc hc' hw hn hf
    obtain ⟨hfin, hbytes⟩ := runCmd_recRead h rfl hs hc hc' hw hn hf
    exact ends_finished hfin ⟨hfin.answered, hfin.replied, hbytes⟩
  · -- REC_READ beyond the newest record
    exact fun h hs hc hc' hw hn hf hf' => ends_popped h (by decide) (cmdRecRead_notFound hs hc hc' hw hn hf hf')
  · -- REC_CLEAR
    intro h hr hs hn
    obtain ⟨hbuf, hnew, hmark, hrec, hwait, hO⟩ := runCmd_recClear h hr hs hn
    exact ends_answer (t := runCmd 0x25 cmdRecClear u n.val) hO (by decide) (by decide) ⟨hbuf, hnew, hmark, hrec, hwait, hO⟩
  · -- REC_CLEAR where newer records exist
    exact fun h hr hs hn => ends_popped h (by decide) (cmdRecClear_fails ((role u).trans hr) hs hn)

end Sys2Proof.Machine
end

section
/-! A step on an empty queue, and the clocks that the passing of time moves. -/
namespace Sys2Proof.Machine

variable {s : State} {dt d : Nat}

/-- A step on an empty queue lets one ns pass (log entry 2). -/
theorem step_of_empty (h : s.pending = []) : step s = .next (elapse 1 s) := by
  unfold step
  rw [h]

/-- The time base runs modulo 2^64 while the PLL is locked (R507). -/
theorem elapse_tb : (elapse dt s).clk.tb = if s.clk.lock = true then (s.clk.tb + dt) % 2 ^ 64 else s.clk.tb := rfl

/-- What counts time in every state in which the main die is powered (R511, R362). -/
theorem elapse_powered (h : s.dev.state ≠ .off ∧ s.dev.state ≠ .standby) :
    (elapse dt s).clk.opNs = s.clk.opNs + dt ∧ (elapse dt s).fld.dieNs = s.fld.dieNs + dt := by
  obtain ⟨hoff, hstandby⟩ := h
  simp [elapse, hoff, hstandby]

/-- Without power those counts stand. -/
theorem elapse_unpowered (h : ¬ (s.dev.state ≠ .off ∧ s.dev.state ≠ .standby)) :
    (elapse dt s).clk.opNs = s.clk.opNs ∧ (elapse dt s).fld.dieNs = s.fld.dieNs := by
  have hor : s.dev.state = .off ∨ s.dev.state = .standby := by tauto
  simp [elapse, hor]

/-- The hold limit runs down in HOLD alone (R48). -/
theorem elapse_holdLeft :
    (elapse dt s).dev.holdLeft = if s.dev.state = .hold then s.dev.holdLeft - dt else s.dev.holdLeft := by
  simp [elapse]

/-- The watchdog count advances where the watchdog counts (R483). -/
theorem elapse_count : (elapse dt s).wd.count = if wdCounts s = true then s.wd.count + dt else s.wd.count := rfl

/-- Time adds up in the time base. -/
theorem elapse_elapse_tb (h : s.clk.lock = true) : (elapse d (elapse dt s)).clk.tb = (elapse (dt + d) s).clk.tb := by
  have hlock : (elapse dt s).clk.lock = true := h
  rw [elapse_tb, elapse_tb, elapse_tb, if_pos hlock, if_pos h, if_pos h, Nat.mod_add_mod, Nat.add_assoc]

/-- Settles O55, from the account of each clock that `elapse` moves. -/
theorem idleStepAndTime : Obligations.IdleStepAndTime := by
  unfold Obligations.IdleStepAndTime
  intro s dt d
  exact ⟨step_of_empty, elapse_tb, elapse_powered, elapse_unpowered, elapse_holdLeft,
    fun h => elapse_count.trans (if_pos h), fun h => elapse_count.trans (if_neg (ne_true_of_eq_false h)),
    ⟨rfl, rfl, rfl, rfl, rfl⟩, elapse_elapse_tb, only_elapse .refl (by simp)⟩

end Sys2Proof.Machine
end

section
/-! Refutations about a takeover, a commit, the scrubber and the limit of SETUP: the concrete states in which they fail. -/
namespace Sys2Proof.Machine

/-! ## A second release of the setup task -/

/-- SETUP, at 6 s of the time base: the setup task was released at 0, and once more behind its open run. -/
def setupWithReleaseBehind : State :=
  { runningDevice with
    dev := { last := { cause := 0x06, left := .boot, entered := .setup, ok := rfl }, pkgOk := true }
    clk := { lock := true, tb := 6000000000, opNs := 6000000000, awaitLock := false }
    seq := { insts := [(64, some releasedNow), (nextKey 64, some releasedNow)] } }

/-- At the limit of SETUP the second release becomes the open run of the setup task. -/
theorem setupWithReleaseBehind_open :
    endsTest (exec (.setupLimit 0) setupWithReleaseBehind) (fun t => (t.inst 64).isNone) = false := by
  decide +kernel

/-- Refutes O50: where the setup task has a release behind its open run, the end of that run at the limit of SETUP makes the
other one the open run (R176). -/
theorem not_bootAndSetupLimit : ¬ Obligations.BootAndSetupLimit := by
  unfold Obligations.BootAndSetupLimit
  intro h
  obtain ⟨-, -, -, -, -, -, -, -, -, -, hlimit, -⟩ := h setupWithReleaseBehind 0 false [] 0 releasedNow
  refine not_ends_of_test setupWithReleaseBehind_open (fun t ht => ?_) (hlimit (by decide) (by decide +kernel))
  obtain ⟨-, -, hinst⟩ := ht
  exact Option.isNone_iff_eq_none.mpr hinst

/-! ## An unrepaired word that a stopped loop writes -/

/-- RUN, with loop 0, whose output is a word of the Q area. -/
def loopWithOutputWord : State :=
  { runningDevice with cfg := rSet (rSet [] 0x0603 0 0x80000000) 0x0607 0 0x10020000 }

/-- The scrubber finds that word uncorrectable. -/
def outputWordLost : EccErr := { loc := .area, addr := 0x10020000, ecc := .uncorrectable }

/-- CLEARING stops the loop, whose safe value repairs its output word. -/
theorem loopWithOutputWord_repaired : endsTest (exec (.canopyScrub 0 [outputWordLost]) loopWithOutputWord)
    (fun t => decide (0x10020000 ∈ t.can.bad)) = false := by
  decide +kernel

/-- Refutes O34: an uncorrectable word that the scrubber finds in RUN takes the device to CLEARING, where a loop that is not
BASIC stops with its output at its safe value (R341); where the word is that output, the write repairs it (R217). -/
theorem not_memoryReturnsAndScrubs : ¬ Obligations.MemoryReturnsAndScrubs := by
  unfold Obligations.MemoryReturnsAndScrubs
  intro h
  obtain ⟨-, -, -, hscrub⟩ := h loopWithOutputWord 0 0 0 readingCopy
    { dst := 0, val := 0, addr := 0, left := 0, arrived := false } 0 false false false outputWordLost 0
  obtain ⟨-, -, -, hlost, -⟩ := hscrub (by decide +kernel)
  refine not_ends_of_test loopWithOutputWord_repaired (fun t ht => ?_)
    (hlost (by decide +kernel) rfl rfl (by decide +kernel) rfl (by decide +kernel))
  obtain ⟨-, hbad, -⟩ := ht
  exact decide_eq_true hbad

/-! ## A commit beside a replay -/

/-- A copy on lane 5 that has ended with no write. -/
def haltedCopy : Copy := { lane := 5, regs := {}, started := true, ended := some .halt, chk := 1 }

/-- Package lane 0 is carried by the retired lane 0 and by lane 1, a woken spare with the replay of task 0. The run of
that task has passed, and another one is released behind it. -/
def commitBesideReplay : State :=
  { runningDevice with
    seq := { insts := [(0, some { releasedNow with phase := .passed }), (nextKey 0, some releasedNow)] }
    ln := { lanes := [(0, { role := .retired, acts := some 0 }), (1, { role := .awake, acts := some 0 })]
            copies := [(0, some haltedCopy), (2, some { haltedCopy with lane := 1 })] } }

/-- The copy of the run behind does not stand on lane 1. -/
theorem commitBesideReplay_lane : endsTest (exec (.commit 0 0) commitBesideReplay)
    (fun t => decide ((t.copy 0).map (fun x => x.lane) = some 1)) = false := by
  decide +kernel

/-- Refutes O31: the end of a run gives a woken spare that ran its replay back (R308), so that the lane which carries the
task's package lane may be another one when the run behind begins. -/
theorem not_commitsAndVerdicts : ¬ Obligations.CommitsAndVerdicts := by
  unfold Obligations.CommitsAndVerdicts
  intro h
  obtain ⟨hcommit, -⟩ := h commitBesideReplay 0 0 { releasedNow with phase := .passed } haltedCopy
    { task := 0, num := 0, at_ := 0 } { task := 0, num := 0, due := 0, chk := false, isOpen := false, lanes := [], pcs := [] }
  refine not_ends_of_test commitBesideReplay_lane (fun t ht => ?_)
    (hcommit ⟨by decide +kernel, by decide +kernel, rfl⟩ (by decide +kernel) rfl (by decide +kernel) rfl rfl rfl)
  obtain ⟨-, hnext, -⟩ := ht
  obtain ⟨-, -, x, hx, hlane, -⟩ := hnext releasedNow (by decide +kernel)
  have carrier : copyLane (elapse 0 commitBesideReplay) 0 0 = 1 := by decide +kernel
  exact decide_eq_true (by rw [show t.copy 0 = some x from hx, Option.map_some, hlane]; exact congrArg some carrier)

/-! ## A takeover of a copy listed twice -/

/-- A copy on lane 0 that a takeover is to move to lane 1. -/
def movedCopy : Copy := { lane := 0, regs := {}, started := true, restart := some 1 }

/-- A copy of lane 1 that has not started, with an item in its stream. -/
def copyWithItem : Copy := { lane := 1, regs := {}, items := [4] }

/-- Lane 0 runs copy 0, past its starvation bound. The table of copies is not in canonical form: key 0 is listed twice. -/
def takeoverWithCopyTwice : State :=
  { runningDevice with
    pkg := { hdr := some { testPermit := true, online := true, words := 4096, base := 0, entry := 0, lane := 0, version := 1
                           layout := [] } }
    seq := { insts := [(0, some { releasedNow with starveAt := 0 })] }
    ln := { lanes := [(0, { role := .bound, acts := some 0, running := some 0 })]
            copies := [(0, some movedCopy), (0, some copyWithItem)] } }

/-- The copy that has moved holds an item. -/
theorem takeoverWithCopyTwice_items : endsTest (exec (.rset 0 []) takeoverWithCopyTwice)
    (fun t => decide ((t.copy 0).map (fun x => x.items) = some [])) = false := by
  decide +kernel

/-- Refutes O24: the scheduling decision on the lane to which a takeover has moved a copy ages each copy that the table lists
for that lane (R177); where the table lists the key twice, the copy aged last takes the place of the one begun anew. -/
theorem not_stopsAtBoundaries : ¬ Obligations.StopsAtBoundaries := by
  unfold Obligations.StopsAtBoundaries
  intro h
  obtain ⟨-, -, -, htakeover⟩ := h takeoverWithCopyTwice 0 [] 0 movedCopy { releasedNow with starveAt := 0 } 1
    (by decide +kernel) (by decide +kernel) rfl rfl rfl (by decide) (by decide +kernel)
  refine not_ends_of_test takeoverWithCopyTwice_items (fun t ht => ?_) (htakeover rfl rfl rfl)
  obtain ⟨x, hx, -, -, -, hitems, -⟩ := ht
  exact decide_eq_true (by rw [hx, Option.map_some, hitems])

end Sys2Proof.Machine
end

section
/-! The handshake with the service core: runs of requests, and the transition that a loss of its answers makes (R49, R474). -/
namespace Sys2Proof.Machine

variable {s : State} {k left : Nat} {ok : Bool} {l : List HsReq}

/-! ## Runs of requests -/

/-- `k` consecutive requests have been settled as `ok`. -/
def RowOf (k : Nat) (ok : Bool) (l : List HsReq) : Prop :=
  ∃ pre mid post, l = pre ++ mid ++ post ∧ mid.length = k ∧ ∀ y ∈ mid, y.answered = some ok

/-- The first `k` requests have been settled as `ok`. -/
def RowFirst (k : Nat) (ok : Bool) (l : List HsReq) : Prop :=
  ∃ mid post, l = mid ++ post ∧ mid.length = k ∧ ∀ y ∈ mid, y.answered = some ok

theorem rowFirst_cons {y : HsReq} : RowFirst (k + 1) ok (y :: l) ↔ y.answered = some ok ∧ RowFirst k ok l := by
  constructor
  · rintro ⟨_ | ⟨z, mid⟩, post, hl, hk, hall⟩
    · exact absurd hk (by simp)
    · obtain ⟨rfl, rfl⟩ := List.cons.inj hl
      exact ⟨hall y (by simp), mid, post, rfl, Nat.succ.inj hk, fun z hz => hall z (by simp [hz])⟩
  · rintro ⟨hy, mid, post, rfl, hk, hall⟩
    exact ⟨y :: mid, post, rfl, congrArg Nat.succ hk, by simpa [hy] using hall⟩

theorem rowOf_cons {y : HsReq} : RowOf k ok (y :: l) ↔ RowFirst k ok (y :: l) ∨ RowOf k ok l := by
  constructor
  · rintro ⟨_ | ⟨z, pre⟩, mid, post, hl, hk, hall⟩
    · exact .inl ⟨mid, post, hl, hk, hall⟩
    · obtain ⟨-, rfl⟩ := List.cons.inj hl
      exact .inr ⟨pre, mid, post, rfl, hk, hall⟩
  · rintro (⟨mid, post, hl, hk, hall⟩ | ⟨pre, mid, post, rfl, hk, hall⟩)
    · exact ⟨[], mid, post, hl, hk, hall⟩
    · exact ⟨y :: pre, mid, post, rfl, hk, hall⟩

/-- A longer run holds a shorter one. -/
theorem RowFirst.shorter (h : RowFirst k ok l) (hk : left ≤ k) : RowFirst left ok l := by
  obtain ⟨mid, post, rfl, rfl, hall⟩ := h
  refine ⟨mid.take left, mid.drop left ++ post, ?_, by simpa using hk, fun y hy => hall y (List.mem_of_mem_take hy)⟩
  rw [← List.append_assoc, List.take_append_drop]

theorem not_rowFirst_nil (hk : 0 < k) : ¬ RowFirst k ok [] := by
  rintro ⟨mid, post, hl, rfl, -⟩
  simp_all

theorem not_rowOf_nil (hk : 0 < k) : ¬ RowOf k ok [] := by
  rintro ⟨pre, mid, post, hl, rfl, -⟩
  simp_all

/-- The search goes on from a run of which `left` are still sought, and finds one begun or a whole one later. -/
theorem hsRun_isSome (hk : left ≤ k) : (hsRun ok k left l).isSome = true ↔ RowFirst left ok l ∨ RowOf k ok l := by
  induction l generalizing left with
  | nil =>
    cases left with
    | zero => exact iff_of_true rfl (.inl ⟨[], [], rfl, rfl, by simp⟩)
    | succ m => exact iff_of_false (by simp [hsRun]) (not_or.mpr ⟨not_rowFirst_nil (by omega), not_rowOf_nil (by omega)⟩)
  | cons y r ih =>
    cases left with
    | zero => exact iff_of_true rfl (.inl ⟨[], y :: r, rfl, rfl, by simp⟩)
    | succ m =>
      rw [rowFirst_cons, rowOf_cons]
      unfold hsRun
      split
      next hy =>
        rw [ih (by omega)]
        have hfirst : RowFirst k ok (y :: r) → RowFirst m ok r := fun h => (rowFirst_cons.mp (h.shorter hk)).2
        tauto
      next hy =>
        rw [ih (Nat.le_refl k)]
        have hno : ¬ RowFirst k ok (y :: r) := fun h => hy (rowFirst_cons.mp (h.shorter hk)).1
        have hsame : RowFirst k ok r → RowOf k ok r := fun ⟨mid, post, hl, hm, hall⟩ => ⟨[], mid, post, hl, hm, hall⟩
        tauto

/-- The device finds a run of `k` exactly where one stands (R474). -/
theorem hsRun_iff : (hsRun ok k k l).isSome = true ↔ RowOf k ok l := by
  rw [hsRun_isSome (Nat.le_refl k)]
  exact ⟨fun h => h.elim (fun ⟨mid, post, hl, hm, hall⟩ => ⟨[], mid, post, hl, hm, hall⟩) id, .inr⟩

theorem hsRun_none (h : ¬ RowOf k ok l) : hsRun ok k k l = none := by
  rwa [← hsRun_iff, Option.not_isSome_iff_eq_none] at h

theorem hsRun_some (h : RowOf k ok l) : ∃ rest, hsRun ok k k l = some rest := Option.isSome_iff_exists.mp (hsRun_iff.mpr h)

/-! ## Answers and losses -/

theorem returns_same {v : Svc} (h : v.answering = true ∨ ¬ RowOf 3 true v.hsReqs) : v.returns = v := by
  unfold Svc.returns
  rcases h with h | h
  · rw [if_pos h]
  · rw [hsRun_none h, ite_self]

theorem returns_answering {v : Svc} (h : v.answering = false) (h' : RowOf 3 true v.hsReqs) :
    ∃ rest, v.returns = { v with answering := true, hsReqs := rest } := by
  obtain ⟨rest, hr⟩ := hsRun_some h'
  refine ⟨rest, ?_⟩
  unfold Svc.returns
  rw [h, hr]
  rfl

/-- Where no run of lost requests stops the service core, nothing follows the timeout. -/
theorem hsStops_same (h : s.svc.answering = false ∨ ¬ RowOf 10 false s.svc.hsReqs) : hsStops s = s := by
  unfold hsStops
  rcases h with h | h
  · rw [h]
    rfl
  · rw [hsRun_none h, ite_self]

/-- The service core has stopped answering (R474). -/
def State.silent (s : State) (l : List HsReq) : State :=
  s.onSvc fun v => { v with hsReqs := l, answering := false, losses := satInc v.losses }

theorem hsStops_loses (h : s.svc.answering = true) (h' : RowOf 10 false s.svc.hsReqs) :
    ∃ rest, hsStops s = clearCond (s.silent rest) bSvcLoss 0xFF := by
  obtain ⟨rest, hr⟩ := hsRun_some h'
  refine ⟨rest, ?_⟩
  unfold hsStops
  rw [h, hr]
  rfl

/-! ## The entry to CLEARING -/

/-- The device state after a transition of R37. -/
def movedDev (s : State) (cause : Nat) (to_ : DevState) (h : moveOk (BitVec.ofNat 8 cause) s.dev.state to_ = true) : Dev :=
  { s.dev with
    last := { cause := BitVec.ofNat 8 cause, left := s.dev.state, entered := to_, ok := h }
    lastMove := some s.now
    trans := s.dev.trans + 1
    holdLeft := if to_ = .hold then 1000000000 * fld (rGet s.cfg 0x0013 0) 0 12 else 0 }

/-- A transition of R37 leaves the fault bits, and sets the state, the cause and the state that is left. -/
theorem moveTo_dev {cause : Nat} {to_ : DevState} (h : moveOk (BitVec.ofNat 8 cause) s.dev.state to_ = true) :
    (moveTo s cause to_).dev.state = to_ ∧ (moveTo s cause to_).dev.last.cause = BitVec.ofNat 8 cause ∧
      (moveTo s cause to_).dev.last.left = s.dev.state ∧ (moveTo s cause to_).dev.fault = s.dev.fault ∧
      (moveTo s cause to_).dev.pkgOk = s.dev.pkgOk := by
  have key : (moveTo s cause to_).dev = movedDev s cause to_ h := by
    unfold moveTo
    rw [dif_pos h]
    exact Only.dev_eq (only_seeS (only_armTasks (only_raiseIrqAll (only_ite .refl (only_record .refl (listed rfl)))
      (listed rfl)) (listed rfl)) (ps := [.host, .nv, .out, .seq]) (listed rfl)) (by decide)
  rw [key]
  exact ⟨rfl, rfl, rfl, rfl, rfl⟩

/-- The parts that the stops of CLEARING change: the device state and the service core are not among them. -/
def clearingParts : List Part := [.free, .cfg, .ln, .seq, .can, .fret, .yl, .lp, .fld, .cb, .host, .pkg, .nv, .out]

/-- CLEARING stops tasks, frets, outputs and loops, then makes its transition, and thaws. -/
theorem enterClearing_eq {item : Nat} :
    ∃ x, Only clearingParts s x ∧ enterClearing s item = thaw (moveTo x 0x17 .clearing) := by
  refine ⟨_, ?_, rfl⟩
  refine only_exchTransition (only_record (only_foldl (only_notLive (only_loopStop (only_admSafeOwned (only_when
    (only_foldl (only_cancelFrets (only_stopTasks .refl (listed rfl)) (listed rfl)) fun _ _ => only_canDrop .refl (listed rfl))
    fun _ => only_safeFrame .refl (listed rfl))
    (listed rfl)) (listed rfl)) (listed rfl)) fun _ _ => only_modTask .refl (listed rfl)) (listed rfl)) (listed rfl)

/-- The entry to CLEARING from RUN (R37, R50). -/
theorem enterClearing_dev {item : Nat} (h : s.dev.state = .run) :
    Moved s (enterClearing s item) 0x17 .clearing ∧ (enterClearing s item).dev.fault = s.dev.fault ∧
      (enterClearing s item).svc = s.svc := by
  obtain ⟨x, hx, he⟩ := enterClearing_eq (s := s) (item := item)
  have hdev : x.dev = s.dev := hx.dev_eq (by decide)
  have hmoves : moveOk (BitVec.ofNat 8 0x17) x.dev.state .clearing = true := by rw [hdev, h]; decide
  obtain ⟨hstate, hcause, hleft, hfault, -⟩ := moveTo_dev hmoves
  have hthaw : (enterClearing s item).dev = (moveTo x 0x17 .clearing).dev := by
    rw [he]
    exact (only_thaw .refl (List.Subset.refl _)).dev_eq (by decide)
  have hsvc : (enterClearing s item).svc = x.svc := by
    rw [he]
    exact (only_thaw (only_moveTo .refl (listed rfl)) (ps := [.dev, .seq, .host, .nv, .out, .ln]) (listed rfl)).svc_eq (by decide)
  rw [Moved, hthaw]
  exact ⟨⟨hstate, hcause, hleft.trans (congrArg Dev.state hdev)⟩, hfault.trans (congrArg Dev.fault hdev),
    hsvc.trans (hx.svc_eq (by decide))⟩

/-- Where neither the task watchdog nor the limit of HOLD stops the device, nothing is judged. -/
theorem judgeStops_same (h : twdDue s = false) (h' : s.dev.state = .hold → s.dev.holdLeft ≠ 0) : judgeStops s = s := by
  have hj : judgeTwd s = s := by
    unfold judgeTwd
    rw [h]
    rfl
  unfold judgeStops
  rw [hj]
  refine if_neg ?_
  simpa using h'
/-- A CLEARING entry condition in RUN, where no window closes at its instant (R49). -/
theorem clearCond_run {bit item : Nat} (hrun : s.dev.state = .run) (ht : twdDue s = false) :
    clearCond s bit item = enterClearing (setFault s bit) item := by
  unfold clearCond
  rw [judgeStops_same ht fun h => absurd (hrun.symm.trans h) nofun]
  dsimp only
  rw [hrun]

end Sys2Proof.Machine
end

section
/-! What a record and a completion leave: the newest record of the buffer, and the host side but for its slots. -/
namespace Sys2Proof.Machine

variable {s t u v : State} {n op st v0 v1 v2 k code : Nat} {items : List RItem} {cid : BitVec 16} {sel : Wait → Bool}

/-! ## The newest record -/

/-- The newest record is a matter of the recorder alone. -/
theorem newestRec_congr (h : t.nv = u.nv) : newestRec t = newestRec u := by
  unfold newestRec newestBuf
  rw [h]

theorem Logs.congr (h : Logs s t code items) (hs : u.nv = s.nv) (ht : v.nv = t.nv) : Logs u v code items := by
  unfold Logs at h ⊢
  rw [hs, newestRec_congr ht]
  exact h

theorem nv_raiseIrqAll : (raiseIrqAll s k).nv = s.nv :=
  (only_raiseIrqAll .refl (List.Subset.refl _)).nv_eq (by decide)

/-- A merged occurrence leaves a newest record with the same code (R460). -/
theorem newestRec_mergeRec {r : Rec} (h : newestRec s = some r) : ∃ q, newestRec (mergeRec s r) = some q ∧ q.code = r.code := by
  unfold newestRec at h
  unfold mergeRec
  cases hb : newestBuf s with
  | some b =>
    rw [hb] at h
    cases h
    obtain ⟨-, hseq⟩ := Option.filter_eq_some_iff.mp hb
    refine ⟨r.merged s, ?_, rfl⟩
    have : newestBuf { s with nv := { s.nv with buf := s.nv.buf.dropLast ++ [r.merged s] } } = some (r.merged s) := by
      unfold newestBuf
      rw [List.getLast?_append, List.getLast?_singleton, Option.some_or, Option.filter_some]
      exact if_pos hseq
    unfold newestRec
    rw [Option.isSome_some, if_pos rfl, this]
  | none =>
    rw [hb] at h
    obtain ⟨hz, hr⟩ : s.nv.newest ≠ 0 ∧ tabGet none s.nv.recs (recSlot s.nv.newest) = some r := by
      dsimp only at h
      split at h
      · cases h
      · exact ⟨‹_›, h⟩
    have : newestBuf { s with nv := { s.nv with
        recs := tabSet none (recSlot r.seq) (some (r.merged s)) s.nv.recs
        dirty := if s.nv.dirty.any fun d => d.seq == r.seq then s.nv.dirty else s.nv.dirty ++ [r] } } = none := hb
    unfold newestRec
    rw [Option.isSome_none, if_neg Bool.false_ne_true, this]
    dsimp only
    rw [if_neg hz, tabGet_tabSet]
    split
    · exact ⟨_, rfl, rfl⟩
    · exact ⟨r, hr, rfl⟩

/-- A new record stands at the end of the buffer. -/
theorem newestRec_addRec : newestRec (addRec s code items) = some (makeRec s code items) := by
  have : newestBuf (addRec s code items) = some (makeRec s code items) := by
    show ((s.nv.buf ++ [makeRec s code items]).getLast?.filter _) = _
    rw [List.getLast?_append, List.getLast?_singleton, Option.some_or, Option.filter_some]
    exact if_pos (beq_self_eq_true _)
  unfold newestRec
  rw [this]

/-- What is recorded is the newest record, where the buffer has room (R459, R460). -/
theorem logs_record : Logs s (record s code items) code items := by
  intro hroom
  unfold record
  split
  next r hr =>
    obtain ⟨hnew, hmerge⟩ := Option.filter_eq_some_iff.mp hr
    obtain ⟨q, hq, hcode⟩ := newestRec_mergeRec hnew
    unfold mergesInto at hmerge
    refine ⟨q, (newestRec_congr nv_raiseIrqAll).trans hq, ?_, ?_⟩
    · split at hmerge
      · cases hmerge
      · rw [hcode]
        exact eq_of_beq (Bool.and_eq_true_iff.mp hmerge).1
    · intro hnone
      rw [hnone] at hmerge
      cases hmerge
  next =>
    unfold newRec
    rw [if_neg (by omega)]
    exact ⟨makeRec s code items, (newestRec_congr nv_raiseIrqAll).trans newestRec_addRec, rfl, fun _ => rfl⟩

/-! ## The host side but for its slots -/

/-- Of the host side, only slots have changed: which commands wait, and whether commands are taken, stays. -/
def SlotsOnly (s t : State) : Prop := ∃ l, t.host = { s.host with slots := l }

theorem SlotsOnly.refl : SlotsOnly s s := ⟨_, rfl⟩

theorem SlotsOnly.trans (h : SlotsOnly s t) (h' : SlotsOnly t u) : SlotsOnly s u := by
  obtain ⟨l, hl⟩ := h
  obtain ⟨m, hm⟩ := h'
  exact ⟨m, by rw [hm, hl]⟩

theorem SlotsOnly.waits (h : SlotsOnly s t) : t.host.waits = s.host.waits := by
  obtain ⟨l, hl⟩ := h
  rw [hl]

theorem SlotsOnly.paused (h : SlotsOnly s t) : t.host.paused = s.host.paused := by
  obtain ⟨l, hl⟩ := h
  rw [hl]

theorem slotsOnly_modSlot {f : Slot → Slot} : SlotsOnly s (s.modSlot n f) := ⟨_, rfl⟩

theorem slotsOnly_raiseIrq : SlotsOnly s (raiseIrq s n k) := by
  unfold raiseIrq
  dsimp only
  split
  · rcases sendIrq_cases (n := n) (k := k) (s := s.modSlot n fun x => { x with
      pend := x.pend ||| BitVec.ofNat 4 (1 <<< k)
      pendSet := (s.op, (if x.pendSet.1 = s.op then x.pendSet.2 else 0) ||| BitVec.ofNat 4 (1 <<< k)) }) with h | h | h <;>
    rw [h] <;> exact ⟨_, rfl⟩
  · exact slotsOnly_modSlot

theorem slotsOnly_raiseIrqAll : SlotsOnly s (raiseIrqAll s k) :=
  List.foldlRecOn (motive := SlotsOnly s) _ _ .refl fun _ h _ _ => h.trans slotsOnly_raiseIrq

theorem slotsOnly_record : SlotsOnly s (record s code items) := by
  obtain ⟨f, h | h⟩ := record_cases (s := s) (code := code) (items := items) <;> rw [h]
  · exact ⟨_, rfl⟩
  · exact slotsOnly_raiseIrqAll (s := s.onNv f)

theorem slotsOnly_complete : SlotsOnly s (complete s n cid op st v0 v1 v2) := by
  unfold complete
  dsimp only
  split
  · exact slotsOnly_modSlot
  · exact slotsOnly_modSlot.trans slotsOnly_raiseIrq

theorem slotsOnly_popCmd : SlotsOnly s (popCmd s n) := slotsOnly_modSlot

theorem slotsOnly_drainBad : SlotsOnly s (drainBad s n) := by
  refine List.foldlRecOn (motive := SlotsOnly s) _ _ .refl fun t h _ _ => ?_
  split
  · exact h.trans (slotsOnly_popCmd.trans slotsOnly_complete)
  · exact h

theorem slotsOnly_finishWait {w : Wait} : SlotsOnly s (finishWait st v0 v1 v2 s w) := by
  unfold finishWait longEnd
  cases longOps.contains w.op.toNat <;> cases w.live
  · exact .refl
  · exact slotsOnly_complete
  · exact slotsOnly_modSlot
  · exact slotsOnly_modSlot.trans slotsOnly_complete

/-- The completion of started commands drops those from the list of what waits. -/
theorem slotsOnly_finishWaits : SlotsOnly (s.onHost fun h => { h with waits := h.waits.filter fun w => !sel w })
    (finishWaits s sel st v0 v1 v2) :=
  List.foldlRecOn (motive := SlotsOnly _) _ _ .refl fun _ h _ _ => h.trans slotsOnly_finishWait

end Sys2Proof.Machine
end

section
/-! The events of the service core: the handshake, the ends of erases, the refresh of the NOR die (R474, R481, R482, R485). -/
namespace Sys2Proof.Machine

variable {s : State} {b k q a : Nat} {use : EraseUse}

/-! ## Installs -/

/-- The image of an install is in use, and commands are taken again (R477, R478). -/
def State.imageRuns (s : State) (loader : Bool) (a : Nat) : State :=
  (s.onHost fun h => { h with
    paused := false
    slots := h.slots.map fun e => (e.1, if loader then e.2 else { e.2 with leaseAt := e.2.leaseAt + (s.op - a) }) }).onSvc
  fun v =>
    let v := { v with
      install := none
      bad := v.bad.filter fun b => !inRegion loader b }
    if loader then { v with ldrIssue := s.svc.cap.issue } else { v with issue := s.svc.cap.issue, build := s.svc.cap.build }

/-- Then the end of the install is recorded, its command completes, and unknown commands go. -/
theorem installDone_eq {loader : Bool} : ∃ items, installDone s loader a = (List.range 4).foldl drainBad
    (finishWaits (record (s.imageRuns loader a) 0x0D06 items) (fun w => w.for_ == .install) stDone 0 0 0) := by
  unfold installDone State.imageRuns
  exact ⟨_, rfl⟩

theorem installDone_leaves {loader : Bool} : (installDone s loader a).svc = (s.imageRuns loader a).svc ∧
    (installDone s loader a).host.paused = false := by
  obtain ⟨items, h⟩ := installDone_eq (s := s) (loader := loader) (a := a)
  rw [h]
  constructor
  · exact Only.svc_eq (only_foldl (ps := [.host, .nv, .out]) (only_finishWaits (only_record .refl (listed rfl)) (listed rfl))
      fun _ _ => only_drainBad .refl (listed rfl)) (by decide)
  · refine List.foldlRecOn (motive := fun t : State => t.host.paused = false) _ _ ?_ fun _ h _ _ =>
      slotsOnly_drainBad.paused.trans h
    exact slotsOnly_finishWaits.paused.trans slotsOnly_record.paused

/-! ## The handshake -/

/-- The requests with `q` answered. -/
def told (l : List HsReq) (q : Nat) : List HsReq := l.map fun y => if y.n = q then { y with answered := some true } else y

/-- The requests with those that are 2 ms old lost. -/
def lost (l : List HsReq) (now : Nat) : List HsReq :=
  l.map fun y => if y.answered.isNone && decide (y.issued + 2000000 ≤ now) then { y with answered := some false } else y

/-- The service core once those requests are lost. -/
def State.timedOut (s : State) : State := s.onSvc fun v => { v with hsReqs := lost v.hsReqs s.now }

theorem hsTimedOut_eq : hsTimedOut s = hsStops s.timedOut := rfl

/-- The service core once request `q` is answered. -/
def State.answered (s : State) (q : Nat) : State := s.onSvc fun v => Svc.returns { v with hsReqs := told v.hsReqs q }

theorem install_answered : (s.answered q).svc.install = s.svc.install ∧ (s.answered q).svc.cap = s.svc.cap ∧
    (s.answered q).svc.erases = s.svc.erases := by
  show (Svc.returns _).install = _ ∧ (Svc.returns _).cap = _ ∧ (Svc.returns _).erases = _
  unfold Svc.returns
  split <;> exact ⟨rfl, rfl, rfl⟩

theorem hsAnswered_eq (h : s.svc.install = none) : hsAnswered s q = s.answered q := by
  have hi : (s.answered q).svc.install = none := install_answered.1.trans h
  unfold hsAnswered
  dsimp only
  split
  next b hb => exact absurd (hi.symm.trans hb) nofun
  next => rfl

/-- The answer of the new firmware (R477): it comes after the pause of its install. -/
theorem hsAnswered_installs {b : Nat} (h : s.svc.install = some (false, b)) (he : erasing s .firmware = false)
    (hr : s.dev.state ≠ .recovery) (hp : b + s.svc.cap.pause * 1000000 ≤ s.op) :
    hsAnswered s q = installDone (s.answered q).drawn false b := by
  obtain ⟨hi, hc, hl⟩ := install_answered (s := s) (q := q)
  have hnew : newFirmware (s.answered q) b = true := by
    unfold newFirmware
    rw [hc]
    exact Bool.or_eq_true_iff.mpr (.inr (decide_eq_true hp))
  have hwait : (erasing (s.answered q) .firmware || (s.answered q).dev.state == .recovery) = false := by
    unfold erasing at he ⊢
    rw [hl, he]
    exact beq_eq_false_iff_ne.mpr hr
  unfold hsAnswered
  dsimp only
  split
  next c hb =>
    obtain rfl : c = b := congrArg Prod.snd (Option.some.inj (hb.symm.trans (hi.trans h)))
    exact (if_neg (ne_true_of_eq_false hwait)).trans (if_pos hnew)
  next hne => exact absurd (hi.trans h) (hne b)

/-! ## Erases -/

/-- What the start of an erase leaves of the service core: only its instant and what the regions hold as shipped change. -/
theorem beginErase_leaves : ∃ e f l, (beginErase s).svc = { s.svc with eraseAt := e, fwShipped := f, ldrShipped := l } := by
  unfold beginErase
  split
  · exact ⟨s.svc.eraseAt, s.svc.fwShipped, s.svc.ldrShipped, rfl⟩
  · exact ⟨_, _, _, rfl⟩

/-- An erase that begins kicks the watchdog, whose count then holds (R485). -/
theorem beginErase_starts {e : Nat × EraseUse} {l : List (Nat × EraseUse)} (h : s.svc.erases = e :: l) :
    (beginErase s).svc.eraseAt = s.op ∧ (beginErase s).wd.suspended = true ∧ (beginErase s).wd.count = 0 := by
  unfold beginErase
  rw [h]
  exact ⟨rfl, rfl, rfl⟩

/-- Erases that are asked for come after those that run or wait. -/
theorem addErases_leaves {blocks : List Nat} : ∃ e f l, (addErases s blocks use).svc = { s.svc with
    erases := s.svc.erases ++ blocks.map fun b => (b, use), eraseAt := e, fwShipped := f, ldrShipped := l } := by
  unfold addErases
  dsimp only
  split
  · exact beginErase_leaves
  · exact ⟨s.svc.eraseAt, s.svc.fwShipped, s.svc.ldrShipped, rfl⟩

/-- The first of the erases begins at once where none runs. -/
theorem addErases_starts (h : s.svc.erases = []) : (addErases s [b] use).wd.suspended = true := by
  unfold addErases
  rw [h]
  exact (beginErase_starts (congrArg (· ++ _) h)).2.1

/-- A table that lists no entry at a key reads as its default there. -/
theorem tabGet_default {α : Type} {d : α} {x : Tab α} (h : ∀ e ∈ x, e.1 ≠ k) : tabGet d x k = d := by
  simpa using tabGet_append (y := []) h

/-- An erased block reads 0xFF, and every other byte of the NOR die as before (R468). -/
theorem norByte_eraseBlock : norByte (eraseBlock s b) a = if a / blockBytes = b then 0xFF else norByte s a := by
  show tabGet 0xFF (s.svc.nor.filter fun e => e.1 / blockBytes != b) a = _
  split
  next h =>
    refine tabGet_default fun e he hk => ?_
    obtain ⟨-, hne⟩ := List.mem_filter.mp he
    exact bne_iff_ne.mp hne (by rw [hk, h])
  next h => exact tabGet_filter (p := fun k => k / blockBytes != b) (bne_iff_ne.mpr h)

/-- The machine once the erase at the head of its list has ended. -/
def State.eraseOver (s : State) (rest : List (Nat × EraseUse)) : State :=
  (s.onWd fun w => { w with suspended := false }).onSvc fun v => { v with erases := rest }

/-- Between two erases of one kind, but for those of a refresh, the block is erased and the next one begins (R485). -/
theorem eraseEnds_next {b2 : Nat} {rest : List (Nat × EraseUse)} (h : s.svc.erases = (b, use) :: (b2, use) :: rest)
    (hu : use ≠ .refresh) (ht : s.op - s.svc.eraseAt ≤ 600000000) :
    eraseEnds s = beginErase (eraseBlock (s.eraseOver ((b2, use) :: rest)) b) := by
  have herased : erased (s.eraseOver ((b2, use) :: rest)) b use = eraseBlock (s.eraseOver ((b2, use) :: rest)) b := by
    cases use
    case refresh => exact absurd rfl hu
    all_goals rfl
  have hmore (t : State) (he : t.svc.erases = (b2, use) :: rest) : erasesOver (beginErase t) use = beginErase t := by
    obtain ⟨e, f, l, hb⟩ := beginErase_leaves (s := t)
    refine if_pos ?_
    unfold erasing
    rw [hb]
    show t.svc.erases.any _ = true
    rw [he, List.any_cons, beq_self_eq_true, Bool.true_or]
  unfold eraseEnds
  rw [h]
  dsimp only
  rw [State.when_false (decide_eq_false (Nat.not_lt.mpr ht))]
  exact (congrArg (fun t => erasesOver (beginErase t) use) herased).trans (hmore _ rfl)

end Sys2Proof.Machine
end

section
/-! A host command that changes more than its slot (R389), and the bodies of FW_INFO, FW_OPEN and FW_WRITE (R475). -/
namespace Sys2Proof.Machine

variable {t u : State} {n op st v0 v1 v2 : Nat} {e : List Byte} {body : CmdBody} {ps : List Part} {f : WaitFor}

/-! ## A command that changes more than its slot -/

/-- `r` is the state `t` that the body of the command left, with its answer. -/
structure Completed (ps : List Part) (u t : State) (n op st v0 v1 v2 : Nat) (r : State) : Prop where
  answered : Answered u r n op st v0 v1 v2
  left : Only [.host, .out] t r
  frame : Only ps u r
  host : SlotsOnly t r
  others : ∀ m, m ≠ n → r.slot m = t.slot m

theorem runCmd_completed (h : Asked u n op) (hk : op ∈ knownOps)
    (hb : body (popCmd u n) n (headEntry (u.slot n)) = .done t st v0 v1 v2) (ht : (u.slot n).Taken (t.slot n))
    (hO : Only ps u t) (hps : [.host, .out] ⊆ ps) : Completed ps u t n op st v0 v1 v2 (runCmd op body u n) := by
  rw [runCmd_done h hk hb ht]
  exact ⟨(complete_leaves h ht).1, only_complete .refl (List.Subset.refl _), only_complete hO hps, slotsOnly_complete,
    served_complete.2⟩

/-- `r` is the state `t` that the body of the command left, with the command among those that wait. -/
structure Started (ps : List Part) (u t : State) (n op : Nat) (f : WaitFor) (r : State) : Prop where
  waiting : Waiting u r n op f
  left : Only [.host] t r
  frame : Only ps u r
  paused : r.host.paused = t.host.paused

/-- A short command that waits stands among the started ones, and its queue is empty (R389). -/
theorem runCmd_started (h : Asked u n op) (hk : op ∈ knownOps) (hl : op ∉ longOps)
    (hb : body (popCmd u n) n (headEntry (u.slot n)) = .wait t f 0 []) (ht : (u.slot n).Taken (t.slot n))
    (hw : t.host.waits = u.host.waits) (hO : Only ps u t) (hps : [.host] ⊆ ps) :
    Started ps u t n op f (runCmd op body u n) := by
  have hi : goOn (u.slot n) n op (.wait t f 0 []) = (t.modSlot n fun y => y).onHost fun h => { h with
      waits := h.waits ++ [{ slot := n, cid := headCid (u.slot n), op := BitVec.ofNat 8 op, for_ := f, ev := 0
                             items := [] }] } := by
    have : longOps.contains op = false := by simpa using hl
    unfold goOn
    simp only [this, Bool.false_eq_true, if_false]
  have hslot : ((t.modSlot n fun y => y).slot n) = t.slot n := State.slot_modSlot_leaves.1
  rw [runCmd_asked h hk, hb, hi, drainBad_idle (.inl (mayTake_empty ?_))]
  · have hleft : Only [.host] t (State.onHost (t.modSlot n fun y => y) fun h => { h with
        waits := h.waits ++ [{ slot := n, cid := headCid (u.slot n), op := BitVec.ofNat 8 op, for_ := f, ev := 0
                               items := [] }] }) :=
      only_onHost (only_modSlot .refl (List.Subset.refl _)) (List.Subset.refl _)
    exact ⟨⟨⟨_, congrArg (· ++ _) hw, rfl, rfl, rfl, rfl, rfl⟩, (congrArg Slot.cplTail hslot).trans ht.cplTail,
      (congrArg Slot.cmdHead hslot).trans ht.cmdHead⟩, hleft, hO.trans (hleft.mono hps), rfl⟩
  · show ((t.modSlot n fun y => y).slot n).cmdHead = ((t.modSlot n fun y => y).slot n).cmdTail
    rw [hslot, ht.cmdHead, ht.cmdTail]

/-- What a command finds of its slot once it has been taken. -/
theorem base_popCmd : ((popCmd u n).slot n).base = (u.slot n).base := by
  rw [show (popCmd u n).slot n = _ from State.slot_modSlot_leaves.1]

theorem fwMay_popCmd : fwMay (popCmd u n) n = fwMay u n := by
  unfold fwMay isBaseOp isOwner
  rw [base_popCmd, role_popCmd]
  rfl

/-! ## The bodies of the commands -/

theorem cmdFwInfo_popped (h : u.dev.state.served = true ∨ u.dev.state = .recovery) : cmdFwInfo (popCmd u n) n e =
    .done (popCmd u n) stDone (roReg u 0x0D00).toNat (fwStat u).toNat u.svc.refresh.due.toNat := by
  have hs : (!(served (popCmd u n) || (popCmd u n).dev.state == .recovery)) = false := by
    show (!(u.dev.state.served || u.dev.state == .recovery)) = false
    rcases h with h | h <;> simp [h]
  have hreg (t : State) : roReg t 0x0D00 = put (fwIssue t) 24 8 ||| put t.svc.build.toNat 0 24 := by
    unfold roReg roBlockBD
    rfl
  unfold cmdFwInfo
  rw [hs, hreg, hreg]
  rfl

/-- The machine once a download has been opened: the capture holds nothing yet, and its blocks are to be erased (R475). -/
def State.downloading (t : State) (ldr : Bool) (len : Nat) : State :=
  addErases (t.onSvc fun v => { v with cap := { state := 1, loader := ldr, len := len } }) capBlocks .capture

theorem only_downloading {ldr : Bool} {len : Nat} : Only [.svc, .wd] t (t.downloading ldr len) :=
  only_addErases (only_onSvc .refl (listed rfl)) (listed rfl)

/-- FW_OPEN opens the capture and asks for the erases of its blocks (R475). -/
theorem cmdFwOpen_waits (hkind : (byteAt e 12).toNat ≤ 1) (hlen : 0 < leAt e 8 4) (h4 : leAt e 8 4 % 4 = 0)
    (hfit : leAt e 8 4 ≤ (imageRegion (byteAt e 12 == 1)).2) (hmay : fwMay t n = true) (hi : t.svc.install = none)
    (he : erasing t .capture = false) : cmdFwOpen t n e = .wait (t.downloading (byteAt e 12 == 1) (leAt e 8 4)) .erase 0 [] := by
  have hbyte : ((byteAt e 12).toNat == 1) = (byteAt e 12 == 1) := by
    rw [Bool.eq_iff_iff, beq_iff_eq, beq_iff_eq, ← BitVec.toNat_inj]
    rfl
  unfold cmdFwOpen
  simp only [CmdEnd.unless, hbyte, hmay, hi, he, decide_eq_false (Nat.not_lt.mpr hkind), decide_eq_false (Nat.not_lt.mpr hfit)]
  simp [h4, Nat.pos_iff_ne_zero.mp hlen, State.downloading]

/-- FW_WRITE programs the bytes of the window into the capture (R475). -/
theorem cmdFwWrite_programs (hpos : 0 < leAt e 12 4) (hmax : leAt e 12 4 ≤ 16384) (h4 : leAt e 12 4 % 4 = 0)
    (hwin : winOk (leAt e 16 2) (leAt e 12 4) 4 = true) (hmay : fwMay t n = true) (hc : t.svc.cap.state = 1)
    (he : erasing t .capture = false) (hfit : leAt e 8 4 + leAt e 12 4 ≤ t.svc.cap.len) : cmdFwWrite t n e =
      .done (norWrite t (capBase + leAt e 8 4) (winBytes t n (leAt e 16 2) (leAt e 12 4))) stDone 0 0 0 := by
  unfold cmdFwWrite
  simp only [CmdEnd.unless, hmay, hc, he, hwin, decide_eq_false (Nat.not_lt.mpr hmax), decide_eq_false (Nat.not_lt.mpr hfit)]
  simp [h4, Nat.pos_iff_ne_zero.mp hpos, ends]

end Sys2Proof.Machine
end

section
/-! The bodies of FW_CLOSE, FW_ABORT, FW_INSTALL and FW_REFRESH, and the bytes that FW_WRITE programs (R468, R475-R477). -/
namespace Sys2Proof.Machine

variable {s t : State} {n st v0 v1 v2 a j : Nat} {e l : List Byte} {ldr : Bool}

/-- The service core once a captured image has verified (R475-R477). -/
def State.verified (t : State) : State :=
  t.onSvc fun v => { v with cap := { v.cap with
    state := 2
    pause := installPause v.cap.loader (capLength t)
    issue := norByte t (capBase + 4)
    build := BitVec.ofNat 24 (imageField t capBase 12 4) } }

section
variable (hmay : fwMay t n = true) (hc : t.svc.cap.state = 1) (he : erasing t .capture = false)
include hmay hc he

/-- FW_CLOSE of an image that verifies records it (R475). -/
theorem cmdFwClose_verifies (h : imageFails t capBase t.svc.cap.loader = 0) : cmdFwClose t n e =
    .done (record t.verified 0x0D04 [.b1 (b2n t.svc.cap.loader), .b1 (norByte t (capBase + 4)).toNat,
      .b4 (imageField t capBase 12 4), .b4 (installPause t.svc.cap.loader (capLength t))])
      stDone (installPause t.svc.cap.loader (capLength t)) 0 0 := by
  unfold cmdFwClose
  simp only [CmdEnd.unless, hmay, hc, he, h]
  rfl

/-- FW_CLOSE of one that does not verify empties the capture (R475). -/
theorem cmdFwClose_fails (h : imageFails t capBase t.svc.cap.loader ≠ 0) : cmdFwClose t n e =
    downloadFails t (if imageForm t capBase t.svc.cap.loader then 0x08 else 0x07) := by
  have hpart : imageFails t capBase t.svc.cap.loader = 1 ↔ imageForm t capBase t.svc.cap.loader = false := by
    unfold imageFails
    cases imageForm t capBase t.svc.cap.loader <;> cases imageKey t capBase <;> cases imageSigned t capBase <;> decide
  unfold cmdFwClose
  simp only [CmdEnd.unless, hmay, hc, he, hpart]
  cases imageForm t capBase t.svc.cap.loader
  · rfl
  · simp [h, stCheckFail]

end

/-- The capture is empty, and those of its erases that have not begun are dropped. -/
def State.downloadEnded (t : State) : State := dropErases (t.onSvc fun v => { v with cap := {} }) .capture

/-- An install that has not begun is dropped, and commands are taken again. -/
def State.installDropped (t : State) (ldr : Bool) : State :=
  (t.onSvc fun v => { v with install := none, erases := v.erases.filter fun e => e.2 != installUse ldr }).onHost
    fun h => { h with paused := false }

/-- Where no started command waits, none completes. -/
theorem finishWaits_none {sel : Wait → Bool} (h : t.host.waits = []) : finishWaits t sel st v0 v1 v2 = t := by
  unfold finishWaits
  rw [h]
  have hhost : { t.host with waits := t.host.waits.filter fun w => !sel w } = t.host := by
    rw [h]
    show { t.host with waits := [] } = t.host
    rw [← h]
  show { t with host := { t.host with waits := t.host.waits.filter fun w => !sel w } } = t
  rw [hhost]

/-- The machine once an install has been taken: commands pause where the service core stops, and the blocks of the image are
to be erased (R477, R478). -/
def State.installing (t : State) : State :=
  addErases ((t.onSvc fun v => { v with install := some (t.svc.cap.loader, t.op) }).onHost fun h =>
    { h with paused := !t.svc.cap.loader && t.dev.state != .recovery })
    (imageBlocks t.svc.cap.loader (capLength t)) (installUse t.svc.cap.loader)

section
variable (hmay : fwMay t n = true)
include hmay

/-- FW_ABORT of an open download (R475). -/
theorem cmdFwAbort_download (hc : t.svc.cap.state = 1) (hw : t.host.waits = []) :
    cmdFwAbort t n e = .done t.downloadEnded stDone 0 0 0 := by
  unfold cmdFwAbort
  rw [hmay]
  exact (if_pos hc).trans (congrArg (ends · stDone) (finishWaits_none (t := t.downloadEnded) hw))

section
variable (hc : t.svc.cap.state ≠ 1)
include hc

/-- FW_ABORT where nothing runs. -/
theorem cmdFwAbort_none (hi : t.svc.install = none) : cmdFwAbort t n e = .done t stNotFound 0 0 0 := by
  unfold cmdFwAbort
  rw [hmay, hi]
  exact if_neg hc

/-- FW_ABORT past the commit point of an install (R476). -/
theorem cmdFwAbort_late (hb : t.svc.installBegun = true) : cmdFwAbort t n e = .done t stAbortLate 0 0 0 := by
  obtain ⟨ldr, a, hi⟩ : ∃ ldr a, t.svc.install = some (ldr, a) := by
    unfold Svc.installBegun at hb
    split at hb
    · exact ⟨_, _, ‹_›⟩
    · cases hb
  unfold cmdFwAbort
  rw [hmay, hi, hb]
  exact if_neg hc

/-- FW_ABORT of an install that has not begun (R19, R476). -/
theorem cmdFwAbort_drops (hi : t.svc.install = some (ldr, a)) (hb : t.svc.installBegun = false) : cmdFwAbort t n e =
    .done (finishWaits (t.installDropped ldr) (fun w => w.for_ == .install) stAborted 0 0 0) stDone 0 0 0 := by
  unfold cmdFwAbort
  rw [hmay, hi, hb]
  exact if_neg hc

end

section
variable (hc : t.svc.cap.state = 2) (hl : t.pkg.load = none) (hi : t.svc.install = none)
include hc hl hi

/-- FW_INSTALL with the pause of the image begins its install (R477). -/
theorem cmdFwInstall_waits (hp : leAt e 12 4 = t.svc.cap.pause)
    (hr : t.svc.cap.loader = true ∨ t.dev.state = .recovery ∨ regionFails t true = 0) : cmdFwInstall t n e =
      .wait t.installing .install 0 [] := by
  have hgood : (leAt e 12 4 != t.svc.cap.pause || (!t.svc.cap.loader && t.dev.state != .recovery && regionFails t true != 0))
      = false := by
    rcases hr with hr | hr | hr <;> simp [hp, hr]
  unfold cmdFwInstall
  simp only [CmdEnd.unless, hmay, hc, hl, hi, hgood]
  rfl

/-- FW_INSTALL with another pause than that of the image (R477). -/
theorem cmdFwInstall_fails (hp : leAt e 12 4 ≠ t.svc.cap.pause) : cmdFwInstall t n e = .done t stCheckFail 0 0 0 := by
  unfold cmdFwInstall
  simp only [CmdEnd.unless, hmay, hc, hl, hi, bne_iff_ne.mpr hp, Bool.true_or]
  rfl

end

end

/-- FW_REFRESH begins a pass (R481). -/
theorem cmdFwRefresh_begins (hr : (t.slot n).role = .owner) (hs : inSrh t = true) (hn : t.svc.refresh.running = false) :
    cmdFwRefresh t n e = .done (refreshStart t) stDone 0 0 0 := by
  unfold cmdFwRefresh isOwner
  rw [hr, hs, hn]
  rfl

/-! ## Bytes programmed -/

/-- A table whose entries at a key all hold one value reads as that value there, if it has such an entry or reads so anyway. -/
theorem tabGet_agree {α : Type} {d v : α} {x : Tab α} {k : Nat} (h : ∀ y ∈ x, y.1 = k → y.2 = v)
    (hx : (∃ y ∈ x, y.1 = k) ∨ v = d) : tabGet d x k = v := by
  induction x with
  | nil => simpa [eq_comm] using hx
  | cons y x ih =>
    unfold tabGet
    split
    next hy => exact h y (by simp) hy
    next hy =>
      refine ih (fun z hz => h z (by simp [hz])) (hx.imp_left fun ⟨z, hz, hk⟩ => ⟨z, ?_, hk⟩)
      exact (List.mem_cons.mp hz).resolve_left fun hzy => hy (hzy ▸ hk)

/-- The bytes that are programmed, each with its address. -/
theorem mem_range_zip {i : Nat} {c : Byte} : (i, c) ∈ (List.range l.length).zip l ↔ ∃ h : i < l.length, l[i] = c := by
  rw [List.mem_iff_getElem]
  constructor
  · rintro ⟨m, hm, he⟩
    rw [List.getElem_zip, List.getElem_range, Prod.mk.injEq] at he
    obtain ⟨rfl, hc⟩ := he
    exact ⟨by simpa using hm, hc⟩
  · rintro ⟨hi, hc⟩
    exact ⟨i, by simpa using hi, by rw [List.getElem_zip, List.getElem_range, hc]⟩

/-- The bytes listed for the NOR die once some have been programmed: those below, those programmed and those above. -/
theorem nor_norWrite : (norWrite s a l).svc.nor = (s.svc.nor.filter fun e => decide (e.1 < a)) ++
    ((((List.range l.length).zip l).map fun e => (a + e.1, progByte (s.free + e.1) (norByte s (a + e.1)) e.2)).filter
      fun e => e.2 != 0xFF) ++ s.svc.nor.filter fun e => decide (a + l.length ≤ e.1) := rfl

/-- An erased byte of the NOR die reads as it was programmed (R468). -/
theorem norByte_norWrite (hj : j < l.length) (he : norByte s (a + j) = 0xFF) :
    norByte (norWrite s a l) (a + j) = l.getD j 0 := by
  rw [List.getD_eq_getElem _ _ hj, norByte, nor_norWrite]
  have hprog (k : Nat) (c : Byte) : progByte k (norByte s (a + j)) c = c := by
    rw [he]
    exact if_pos rfl
  refine tabGet_agree (fun y hy hk => ?_) (or_iff_not_imp_right.mpr fun hne => ?_)
  · simp only [List.mem_append, List.mem_filter, List.mem_map, decide_eq_true_eq, Prod.exists] at hy
    obtain (⟨-, hlt⟩ | ⟨⟨i, c, hm, rfl⟩, -⟩) | ⟨-, hge⟩ := hy
    · omega
    · obtain ⟨hi, rfl⟩ := mem_range_zip.mp hm
      obtain rfl : i = j := Nat.add_left_cancel hk
      exact hprog _ _
    · omega
  · refine ⟨(a + j, l[j]), List.mem_append_left _ (List.mem_append_right _ (List.mem_filter.mpr
      ⟨?_, bne_iff_ne.mpr hne⟩)), rfl⟩
    exact List.mem_map.mpr ⟨(j, l[j]), mem_range_zip.mpr ⟨hj, rfl⟩, congrArg (Prod.mk _) (hprog _ _)⟩

end Sys2Proof.Machine
end

section
/-! What the events of the firmware service leave: answers, timeouts, erases and refreshes (R474, R481, R482, R485). -/
namespace Sys2Proof.Machine

variable {u : State} {q blk bits b b2 : Nat} {use : EraseUse} {rest : List (Nat × EraseUse)}

/-- A timely answer reaches the service core (R474). -/
theorem inTime_any {x : HsReq} (hx : x ∈ u.svc.hsReqs) (hq : x.n = q) (ha : x.answered = none)
    (ht : u.now ≤ x.issued + 2000000) : (u.svc.hsReqs.any fun r => r.n == q && r.inTime u.now) = true :=
  List.any_eq_true.mpr ⟨x, hx, by simp [HsReq.inTime, hq, ha, ht]⟩

theorem inTime_none (h : ∀ y ∈ u.svc.hsReqs, y.n = q → y.answered = none → y.issued + 2000000 < u.now) :
    (u.svc.hsReqs.any fun r => r.n == q && r.inTime u.now) = false := by
  refine List.any_eq_false.mpr fun y hy hin => ?_
  simp only [HsReq.inTime, Bool.and_eq_true, beq_iff_eq, Option.isNone_iff_eq_none, decide_eq_true_eq] at hin
  obtain ⟨hn, ha, ht⟩ := hin
  exact absurd ht (Nat.not_le.mpr (h y hy hn ha))

/-- With ten consecutive requests lost in RUN, the device goes to CLEARING (R49, R474). -/
theorem hsTimedOut_clears (hrun : u.dev.state = .run) (ha : u.svc.answering = true)
    (hrow : RowOf 10 false (lost u.svc.hsReqs u.now)) (ht : twdDue u = false) :
    Moved u (hsTimedOut u) 0x17 .clearing ∧ (hsTimedOut u).svc.answering = false ∧
      (hsTimedOut u).svc.losses = satInc u.svc.losses ∧ (hsTimedOut u).dev.fault = u.dev.fault ||| 0x40 := by
  obtain ⟨l, hl⟩ := hsStops_loses (s := u.timedOut) ha hrow
  obtain ⟨hmoved, hfault, hsvc⟩ := enterClearing_dev (item := 0xFF) (s := setFault (u.timedOut.silent l) bSvcLoss) hrun
  rw [hsTimedOut_eq, hl, clearCond_run (s := u.timedOut.silent l) hrun ht, hsvc]
  exact ⟨hmoved, rfl, rfl, hfault⟩

/-- An erase that ends between two of its kind (R485). -/
theorem eraseEnds_leaves (h : u.svc.erases = (b, use) :: (b2, use) :: rest) (hu : use ≠ .refresh)
    (ht : u.op - u.svc.eraseAt ≤ 600000000) : let t := eraseEnds u
    t.svc.erases = (b2, use) :: rest ∧ t.svc.eraseAt = u.op ∧ t.wd.suspended = true ∧ t.wd.count = 0 ∧
      (∀ a, norByte t a = if a / 0x40000 = b then 0xFF else norByte u a) ∧ Only [.svc, .wd] u t := by
  obtain ⟨e, f, l, hsvc⟩ := beginErase_leaves (s := eraseBlock (u.eraseOver ((b2, use) :: rest)) b)
  obtain ⟨hat, hsusp, hcount⟩ := beginErase_starts (s := eraseBlock (u.eraseOver ((b2, use) :: rest)) b) (e := (b2, use))
    (l := rest) rfl
  dsimp only
  rw [eraseEnds_next h hu ht]
  refine ⟨?_, hat, hsusp, hcount, fun a => ?_, ?_⟩
  · rw [hsvc]
    rfl
  · unfold norByte
    rw [hsvc]
    exact norByte_eraseBlock (s := u.eraseOver ((b2, use) :: rest))
  · exact only_beginErase (only_eraseBlock (only_onSvc (only_onWd .refl (listed rfl)) (listed rfl)) (listed rfl)) (listed rfl)

/-- The refresh of a block copies it into the buffer and asks for its erase (R481). -/
theorem refreshBlock_leaves (h : refreshMay u = true) : let t := refreshBlock u blk
    t.svc.refresh.pending = some blk ∧ t.svc.erases = [(blk, .refresh)] ∧ t.svc.nor = u.svc.nor ∧ t.wd.suspended = true ∧
      Only [.svc, .wd] u t := by
  have he : u.svc.erases = [] := by
    simp only [refreshMay, Bool.and_eq_true, List.isEmpty_iff] at h
    exact h.2
  unfold refreshBlock
  dsimp only
  obtain ⟨e, f, l, hsvc⟩ := addErases_leaves (blocks := [blk]) (use := .refresh) (s := u.onSvc fun v => { v with
    refresh := { v.refresh with
    pending := some blk
    blockS := if v.refresh.running && v.refresh.extra.isEmpty then some u.opSec else v.refresh.blockS } })
  refine ⟨?_, ?_, ?_, addErases_starts he, only_addErases (only_onSvc .refl (listed rfl)) (listed rfl)⟩ <;> rw [hsvc]
  · rfl
  · exact congrArg (· ++ [(blk, EraseUse.refresh)]) he
  · rfl

/-- A page with two corrected bits has its block refreshed (R482). -/
theorem pageChecked_marks (h : 2 ≤ bits) : let t := pageChecked u blk bits false
    (∃ y ∈ t.svc.refresh.extra, y.1 = blk) ∧ t.svc.nor = u.svc.nor ∧ Only [.svc] u t := by
  unfold pageChecked
  rw [if_neg Bool.false_ne_true, if_pos h]
  refine ⟨?_, rfl, only_onSvc .refl (List.Subset.refl _)⟩
  show ∃ y ∈ (if u.svc.refresh.extra.any fun e => e.1 == blk then u.svc.refresh.extra
    else u.svc.refresh.extra ++ [(blk, bits)]), y.1 = blk
  split
  next hany =>
    obtain ⟨y, hy, hb⟩ := List.any_eq_true.mp hany
    exact ⟨y, hy, eq_of_beq hb⟩
  next => exact ⟨(blk, bits), by simp, rfl⟩

/-- A page that cannot be corrected makes its image fail its next check, and is recorded (R482). -/
theorem pageChecked_bad : let t := pageChecked u blk bits true
    blk ∈ t.svc.bad ∧ (∀ y ∈ u.svc.bad, y ∈ t.svc.bad) ∧ (blk < 16 → regionFails t false ≠ 0) ∧
      Logs u t 0x0D09 [.b4 blk, .b1 (Config.regionCode (regionOf blk)).toNat] ∧ Only [.host, .nv, .svc, .out] u t := by
  have hrec : (record u 0x0D09 [.b4 blk, .b1 (Config.regionCode (regionOf blk)).toNat]).svc = u.svc :=
    (only_record .refl (List.Subset.refl _)).svc_eq (by decide)
  have hbad : (pageChecked u blk bits true).svc.bad = if u.svc.bad.contains blk then u.svc.bad else u.svc.bad ++ [blk] := by
    show (if Svc.bad (record u _ _).svc |>.contains blk then _ else _) = _
    rw [hrec]
  have hmem : blk ∈ (pageChecked u blk bits true).svc.bad := by
    rw [hbad]
    split
    next h => simpa using h
    next => simp
  refine ⟨hmem, fun y hy => ?_, fun hblk => ?_, logs_record.congr rfl rfl,
    only_onSvc (only_record .refl (listed rfl)) (listed rfl)⟩
  · rw [hbad]
    split <;> simp [hy]
  · have hregion : regionBad (pageChecked u blk bits true) false = true :=
      List.any_eq_true.mpr ⟨blk, hmem, decide_eq_true ⟨Nat.zero_le _, by unfold blockBytes imageRegion; simp; omega⟩⟩
    unfold regionFails
    rw [if_pos hregion]
    omega

end Sys2Proof.Machine
end

section
/-! What the commands of the firmware service leave, with their completions and those that they bring about (R389, R475-R478). -/
namespace Sys2Proof.Machine

variable {s t u : State} {n op st v0 v1 v2 dt : Nat} {cid : BitVec 16} {y : Wait} {sel : Wait → Bool} {e : List Byte}

/-! ## The completion of a started command -/

/-- A completion with space in its queue stands at its tail (R388). -/
theorem bytes_complete (h : (t.slot n).cplFull = false) (h' : (t.slot n).owed = []) :
    ((complete t n cid op st v0 v1 v2).slot n).map.bytes (0x1800 + 16 * ((t.slot n).cplTail % 32)) 16 =
      cplEntry cid st op v0 v1 v2 := by
  have hput := (alerted_raiseIrq (n := n) (k := 0) (s := t.modSlot n fun x => x.putCpl (cplEntry cid st op v0 v1 v2))).1
  rw [← complete_eq h h', State.slot_modSlot_leaves.1] at hput
  obtain ⟨p, q, r, hr⟩ := hput
  have hmap := Mem.bytes_putBytes (M := (t.slot n).map) (a := 0x1800 + 16 * ((t.slot n).cplTail % 32))
    (l := cplEntry cid st op v0 v1 v2)
  rw [length_cplEntry] at hmap
  rw [hr]
  exact hmap

/-- A started command whose completion has not been discarded completes, and is no longer its slot's long command (R389). -/
theorem finishWait_live (h : y.live = true) : ∃ x, finishWait st 0 v1 v2 t y =
    complete x y.slot y.cid y.op.toNat st y.val0.toNat v1 v2 ∧ (∀ m, m ≠ y.slot → x.slot m = t.slot m) ∧
      ∃ a, x.slot y.slot = { t.slot y.slot with long := a } := by
  unfold finishWait
  rw [State.when_true h, State.when]
  split
  · exact ⟨_, rfl, State.slot_modSlot_leaves.2, _, State.slot_modSlot_leaves.1⟩
  · exact ⟨t, rfl, fun _ _ => rfl, _, rfl⟩

/-- The one command that waits completes in its slot, and another slot stays as it was (R389). -/
theorem finishWaits_one (hw : t.host.waits = [y]) (hs : sel y = true) (hl : y.live = true) (hn : y.slot ≠ n)
    (hfull : (t.slot y.slot).cplFull = false) (howed : (t.slot y.slot).owed = []) :
    let r := finishWaits t sel st 0 0 0
    r.host.waits = [] ∧ r.slot n = t.slot n ∧
      (r.slot y.slot).map.bytes (0x1800 + 16 * ((t.slot y.slot).cplTail % 32)) 16 =
        cplEntry y.cid st y.op.toNat y.val0.toNat 0 0 := by
  have hdue : t.host.waits.filter sel = [y] := by rw [hw, List.filter_cons_of_pos hs, List.filter_nil]
  have hrest : (t.host.waits.filter fun w => !sel w) = [] := by
    rw [hw]
    exact List.filter_cons_of_neg (by simp [hs])
  obtain ⟨x, hx, hothers, a, hslot⟩ := finishWait_live (st := st) (v1 := 0) (v2 := 0)
    (t := t.onHost fun h => { h with waits := h.waits.filter fun w => !sel w }) hl
  have hone : finishWaits t sel st 0 0 0 = complete x y.slot y.cid y.op.toNat st y.val0.toNat 0 0 := by
    unfold finishWaits
    rw [hdue]
    exact hx
  refine ⟨slotsOnly_finishWaits.waits.trans hrest, ?_, ?_⟩ <;> rw [hone]
  · exact (served_complete.2 n hn.symm).trans (hothers n hn.symm)
  · refine Eq.trans ?_ (bytes_complete (t := x) (by rw [hslot]; exact hfull) (by rw [hslot]; exact howed))
    rw [hslot]
    rfl

/-! ## A command that changes only its slot -/

/-- The device takes commands in a state that serves them, and in RECOVERY (R389, R480). -/
theorem Asked.serves (h : Asked u n op) : u.dev.state.served = true ∨ u.dev.state = .recovery := by
  have := h.takes
  simp only [mayTake, Bool.and_eq_true, Bool.or_eq_true, beq_iff_eq] at this
  obtain ⟨⟨⟨⟨⟨⟨⟨-, hs⟩, -⟩, -⟩, -⟩, -⟩, -⟩, -⟩ := this
  exact hs

/-- A command that changes nothing but its completion. -/
theorem ends_reply {body : CmdBody} (h : Asked (elapse dt s) n op) (hk : op ∈ knownOps)
    (hb : body (popCmd (elapse dt s) n) n (headEntry ((elapse dt s).slot n)) = .done (popCmd (elapse dt s) n) st v0 v1 v2) :
    Ends (answer s (runCmd op body (elapse dt s) n)) fun t =>
      Answered (elapse dt s) t n op st v0 v1 v2 ∧ Only [.host, .out] (elapse dt s) t :=
  have hf := finished_popped h hk hb
  ends_finished hf ⟨hf.answered, hf.replied.1⟩

/-- The slots are a matter of the host side alone. -/
theorem slot_of_host (h : t.host = u.host) : t.slot n = u.slot n := by
  unfold State.slot
  rw [h]

/-! ## What the commands leave -/

/-- FW_OPEN waits for the erase of the capture (R475). -/
theorem runCmd_fwOpen (h : Asked u n 0x61) (he : e = headEntry (u.slot n)) (hkind : (byteAt e 12).toNat ≤ 1)
    (hlen : 0 < leAt e 8 4) (h4 : leAt e 8 4 % 4 = 0) (hfit : leAt e 8 4 ≤ (imageRegion (byteAt e 12 == 1)).2)
    (hmay : fwMay u n = true) (hi : u.svc.install = none) (hidle : erasing u .capture = false) : let t := runCmd 0x61 cmdFwOpen u n
    Waiting u t n 0x61 .erase ∧ t.svc.cap = { state := 1, loader := byteAt e 12 == 1, len := leAt e 8 4 } ∧
      t.svc.erases = u.svc.erases ++ capBlocks.map (fun j => (j, EraseUse.capture)) ∧ Only [.host, .svc, .wd, .out] u t := by
  subst he
  have hO := only_downloading (t := popCmd u n) (ldr := byteAt (headEntry (u.slot n)) 12 == 1)
    (len := leAt (headEntry (u.slot n)) 8 4)
  have hhost := hO.host_eq (by decide)
  have hs := runCmd_started (ps := [.host, .svc, .wd, .out]) h (by decide) (by decide)
    (cmdFwOpen_waits hkind hlen h4 hfit (fwMay_popCmd.trans hmay) hi hidle)
    (by rw [slot_of_host hhost]; exact h.taken) (by rw [hhost]; rfl)
    ((only_popCmd .refl (listed rfl)).trans (hO.mono (by decide))) (listed rfl)
  obtain ⟨a, f, l, hsvc⟩ := addErases_leaves (blocks := capBlocks) (use := .capture)
    (s := (popCmd u n).onSvc fun v => { v with
      cap := { state := 1, loader := byteAt (headEntry (u.slot n)) 12 == 1, len := leAt (headEntry (u.slot n)) 8 4 } })
  refine ⟨hs.waiting, ?_, ?_, hs.frame⟩ <;> rw [hs.left.svc_eq (by decide), State.downloading, hsvc] <;> rfl

/-- FW_WRITE programs the erased bytes of the capture (R475). -/
theorem runCmd_fwWrite (h : Asked u n 0x62) (he : e = headEntry (u.slot n)) (hpos : 0 < leAt e 12 4) (hmax : leAt e 12 4 ≤ 16384)
    (h4 : leAt e 12 4 % 4 = 0) (hwin : winOk (leAt e 16 2) (leAt e 12 4) 4 = true) (hmay : fwMay u n = true)
    (hc : u.svc.cap.state = 1) (hidle : erasing u .capture = false) (hfit : leAt e 8 4 + leAt e 12 4 ≤ u.svc.cap.len) :
    let t := runCmd 0x62 cmdFwWrite u n
    Answered u t n 0x62 0 0 0 0 ∧ t.svc.cap = u.svc.cap ∧ Only [.free, .host, .svc, .out] u t ∧
      ∀ j, j < leAt e 12 4 → norByte u (capBase + leAt e 8 4 + j) = 0xFF →
        norByte t (capBase + leAt e 8 4 + j) = (u.slot n).map.byte (0x4000 + leAt e 16 2 + j) := by
  subst he
  have hs := runCmd_completed (ps := [.free, .host, .svc, .out]) h (by decide)
    (cmdFwWrite_programs (t := popCmd u n) hpos hmax h4 hwin (fwMay_popCmd.trans hmay) hc hidle hfit) h.taken
    (only_norWrite (only_popCmd .refl (listed rfl)) (listed rfl)) (listed rfl)
  refine ⟨hs.answered, ?_, hs.frame, fun j hj hff => ?_⟩
  · rw [hs.left.svc_eq (by decide)]
    rfl
  · unfold norByte
    rw [hs.left.svc_eq (by decide)]
    refine (norByte_norWrite (s := popCmd u n) (by simpa [winBytes, Mem.bytes] using hj) hff).trans ?_
    rw [winBytes_popCmd, Mem.getD_bytes hj]

section
variable (hmay : fwMay u n = true) (hc : u.svc.cap.state = 1) (hidle : erasing u .capture = false)
include hmay hc hidle

/-- FW_CLOSE of an image that verifies marks it (R475). -/
theorem runCmd_fwClose (h : Asked u n 0x63) (hf : imageFails u capBase u.svc.cap.loader = 0) :
    let t := runCmd 0x63 cmdFwClose u n
    let p := installPause u.svc.cap.loader (capLength u)
    Answered u t n 0x63 0 p 0 0 ∧ t.svc.cap.state = 2 ∧ t.svc.cap.pause = p ∧ t.svc.cap.loader = u.svc.cap.loader ∧
      Logs u t 0x0D04 [.b1 (b2n u.svc.cap.loader), .b1 (norByte u (capBase + 4)).toNat, .b4 (imageField u capBase 12 4), .b4 p] ∧
      Only [.host, .nv, .svc, .out] u t := by
  have hs := runCmd_completed (ps := [.host, .nv, .svc, .out]) h (by decide)
    (cmdFwClose_verifies (t := popCmd u n) (fwMay_popCmd.trans hmay) hc hidle hf)
    (h.taken.alerted (alerted_record (s := (popCmd u n).verified)))
    (only_record (only_onSvc (only_popCmd .refl (listed rfl)) (listed rfl)) (listed rfl)) (listed rfl)
  have hsvc := (hs.left.svc_eq (by decide)).trans ((only_record .refl (List.Subset.refl _)).svc_eq (by decide))
  dsimp only
  rw [hsvc]
  exact ⟨hs.answered, rfl, rfl, rfl, (logs_record (s := (popCmd u n).verified)).congr rfl (hs.left.nv_eq (by decide)), hs.frame⟩

/-- FW_CLOSE of an image that does not verify empties the capture (R475). -/
theorem runCmd_fwClose_fails (h : Asked u n 0x63) (hf : imageFails u capBase u.svc.cap.loader ≠ 0) :
    let t := runCmd 0x63 cmdFwClose u n
    let st := if imageForm u capBase u.svc.cap.loader then 0x08 else 0x07
    Answered u t n 0x63 st 0 0 0 ∧ t.svc.cap = {} ∧ Logs u t 0x0D05 [.b1 st] ∧ Only [.host, .nv, .svc, .out] u t := by
  have hs := runCmd_completed (ps := [.host, .nv, .svc, .out]) h (by decide)
    (cmdFwClose_fails (t := popCmd u n) (fwMay_popCmd.trans hmay) hc hidle hf)
    (h.taken.alerted (alerted_record (s := (popCmd u n).onSvc fun v => { v with cap := {} })))
    (only_record (only_onSvc (only_popCmd .refl (listed rfl)) (listed rfl)) (listed rfl)) (listed rfl)
  have hsvc := (hs.left.svc_eq (by decide)).trans ((only_record .refl (List.Subset.refl _)).svc_eq (by decide))
  refine ⟨hs.answered, congrArg Svc.cap hsvc, ?_, hs.frame⟩
  exact (logs_record (s := (popCmd u n).onSvc fun v => { v with cap := {} })).congr rfl (hs.left.nv_eq (by decide))

end

section
variable (h : Asked u n 0x64) (hmay : fwMay u n = true)
include h hmay

/-- FW_ABORT empties an open download (R475). -/
theorem runCmd_fwAbort_download (hc : u.svc.cap.state = 1) (hw : u.host.waits = []) : let t := runCmd 0x64 cmdFwAbort u n
    Answered u t n 0x64 0 0 0 0 ∧ t.svc.cap = {} ∧ Only [.host, .svc, .out] u t := by
  have hs := runCmd_completed (ps := [.host, .svc, .out]) h (by decide)
    (cmdFwAbort_download (t := popCmd u n) (fwMay_popCmd.trans hmay) hc hw) h.taken
    (only_onSvc (only_onSvc (only_popCmd .refl (listed rfl)) (listed rfl)) (listed rfl)) (listed rfl)
  exact ⟨hs.answered, congrArg Svc.cap (hs.left.svc_eq (by decide)), hs.frame⟩

section
variable {ldr : Bool} {a : Nat} (hc : u.svc.cap.state ≠ 1) (hi : u.svc.install = some (ldr, a))
  (hb : u.svc.installBegun = false)
include hc hi hb

/-- FW_ABORT drops an install that has not begun (R19, R476). -/
theorem runCmd_fwAbort_drops (hw : u.host.waits = []) : let t := runCmd 0x64 cmdFwAbort u n
    Answered u t n 0x64 0 0 0 0 ∧ t.svc.install = none ∧ t.svc.nor = u.svc.nor ∧ t.host.paused = false ∧
      (∀ y ∈ t.svc.erases, y ∈ u.svc.erases) ∧ Only [.host, .svc, .out] u t := by
  have hbody := cmdFwAbort_drops (t := popCmd u n) (e := headEntry (u.slot n)) (fwMay_popCmd.trans hmay) hc hi hb
  rw [finishWaits_none (t := (popCmd u n).installDropped ldr) hw] at hbody
  have hs := runCmd_completed (ps := [.host, .svc, .out]) h (by decide) hbody h.taken
    (only_onHost (only_onSvc (only_popCmd .refl (listed rfl)) (listed rfl)) (listed rfl)) (listed rfl)
  refine ⟨hs.answered, ?_, ?_, hs.host.paused, ?_, hs.frame⟩ <;> rw [hs.left.svc_eq (by decide)]
  · rfl
  · rfl
  · exact fun y hy => (List.mem_filter.mp hy).1

/-- The command that waits for the install completes as aborted (R19, R476). -/
theorem runCmd_fwAbort_completes (hw : u.host.waits = [y]) (hf : y.for_ = .install) (hl : y.live = true) (hn : y.slot ≠ n)
    (hfull : (u.slot y.slot).cplFull = false) (howed : (u.slot y.slot).owed = []) : let t := runCmd 0x64 cmdFwAbort u n
    Only [.host, .svc, .out] u t ∧ Answered u t n 0x64 0 0 0 0 ∧ t.svc.install = none ∧ t.host.waits = [] ∧
      (t.slot y.slot).map.bytes (0x1800 + 16 * ((u.slot y.slot).cplTail % 32)) 16 =
        cplEntry y.cid 0x01 y.op.toNat y.val0.toNat 0 0 := by
  have hother : ((popCmd u n).installDropped ldr).slot y.slot = u.slot y.slot := popCmd_replied.2 _ hn
  obtain ⟨hwaits, hslot, hbytes⟩ := finishWaits_one (st := stAborted) (n := n) (t := (popCmd u n).installDropped ldr)
    (sel := fun w => w.for_ == .install) hw (beq_iff_eq.mpr hf) hl hn (by rwa [hother]) (by rwa [hother])
  have hs := runCmd_completed (ps := [.host, .svc, .out]) h (by decide)
    (cmdFwAbort_drops (t := popCmd u n) (fwMay_popCmd.trans hmay) hc hi hb) (by rw [hslot]; exact h.taken)
    (only_finishWaits (only_onHost (only_onSvc (only_popCmd .refl (listed rfl)) (listed rfl)) (listed rfl)) (listed rfl))
    (listed rfl)
  have hsvc := (hs.left.svc_eq (by decide)).trans ((only_finishWaits .refl (List.Subset.refl _)).svc_eq (by decide))
  refine ⟨hs.frame, hs.answered, congrArg Svc.install hsvc, hs.host.waits.trans hwaits, ?_⟩
  rw [hs.others _ hn, ← hother]
  exact hbytes

end

end

/-- FW_INSTALL with the pause of the image waits for its install (R477, R478). -/
theorem runCmd_fwInstall (h : Asked u n 0x65) (hmay : fwMay u n = true) (hc : u.svc.cap.state = 2) (hl : u.pkg.load = none)
    (hi : u.svc.install = none) (hp : leAt (headEntry (u.slot n)) 12 4 = u.svc.cap.pause)
    (hr : u.svc.cap.loader = true ∨ u.dev.state = .recovery ∨ regionFails u true = 0) : let t := runCmd 0x65 cmdFwInstall u n
    Waiting u t n 0x65 .install ∧ t.svc.install = some (u.svc.cap.loader, u.op) ∧
      t.host.paused = (!u.svc.cap.loader && u.dev.state != .recovery) ∧
      t.svc.erases = u.svc.erases ++ (imageBlocks u.svc.cap.loader (capLength u)).map
        (fun j => (j, installUse u.svc.cap.loader)) ∧
      Only [.host, .svc, .wd, .out] u t := by
  have hO := only_addErases (ps := [.svc, .wd]) (blocks := imageBlocks u.svc.cap.loader (capLength u))
    (use := installUse u.svc.cap.loader) (s := ((popCmd u n).onSvc fun v =>
      { v with install := some (u.svc.cap.loader, u.op) }).onHost fun h =>
      { h with paused := !u.svc.cap.loader && u.dev.state != .recovery }) .refl (listed rfl)
  have hhost : (popCmd u n).installing.host = _ := hO.host_eq (by decide)
  have hs := runCmd_started (ps := [.host, .svc, .wd, .out]) h (by decide) (by decide)
    (cmdFwInstall_waits (t := popCmd u n) (fwMay_popCmd.trans hmay) hc hl hi hp hr)
    (by rw [slot_of_host hhost]; exact h.taken) (by rw [hhost]; rfl)
    (only_addErases (only_onHost (only_onSvc (only_popCmd .refl (listed rfl)) (listed rfl)) (listed rfl)) (listed rfl))
    (listed rfl)
  obtain ⟨a, f, l, hsvc⟩ := addErases_leaves (blocks := imageBlocks u.svc.cap.loader (capLength u))
    (use := installUse u.svc.cap.loader) (s := ((popCmd u n).onSvc fun v =>
      { v with install := some (u.svc.cap.loader, u.op) }).onHost fun h =>
      { h with paused := !u.svc.cap.loader && u.dev.state != .recovery })
  have hsvc' := (hs.left.svc_eq (by decide)).trans hsvc
  exact ⟨hs.waiting, congrArg Svc.install hsvc', hs.paused.trans (congrArg Hosts.paused hhost),
    congrArg Svc.erases hsvc', hs.frame⟩

/-- FW_REFRESH begins a pass (R475, R481). -/
theorem runCmd_fwRefresh (h : Asked u n 0x66) (hr : (u.slot n).role = .owner) (hs : inSrh u = true)
    (hn : u.svc.refresh.running = false) : let t := runCmd 0x66 cmdFwRefresh u n
    Answered u t n 0x66 0 0 0 0 ∧ t.svc = { u.svc with
      refresh := { u.svc.refresh with running := true, next := 0, startS := u.opSec, blockS := none } } ∧
      Only [.host, .svc, .out] u t := by
  have hs := runCmd_completed (ps := [.host, .svc, .out]) h (by decide)
    (cmdFwRefresh_begins (t := popCmd u n) (role_popCmd.trans hr) hs hn) h.taken
    (only_onSvc (only_popCmd .refl (listed rfl)) (listed rfl)) (listed rfl)
  exact ⟨hs.answered, hs.left.svc_eq (by decide), hs.frame⟩

end Sys2Proof.Machine
end

section
/-! The firmware service, clause by clause. -/
namespace Sys2Proof.Machine

/-- Settles O48, clause by clause: the handshake, the commands of the firmware service, the erases and the refresh. -/
theorem firmwareService : Obligations.FirmwareService := by
  unfold Obligations.FirmwareService
  intro s dt n blk bits b2 q b use r y rest u x e v w ans reply may len ldr n4 off tld late inRow opened served
  have hnor (hi : blk < 226) (hs : served) (hfw : u.clk.fwRuns = true) :
      (u.dev.state.served && u.clk.fwRuns && decide (blk < refreshBlocks)) = true := by
    rw [show u.dev.state.served = true from hs, hfw]
    exact decide_eq_true hi
  refine ⟨?_, ?_, ?_, ?_, ?_, ?_, ?_, ?_, ?_, ?_, ?_, ?_, ?_, ?_, ?_, ?_, ?_, ?_, ?_, ?_, ?_, ?_, ?_, ?_, ?_, ?_⟩
  · -- HANDSHAKE_REQUEST
    intro hon hs hms
    refine ends_when (ps := [.svc]) ?_ (only_onSvc .refl (listed rfl)) (by decide) (by decide)
      ⟨rfl, only_onSvc .refl (listed rfl)⟩
    show (v.hsOn && u.dev.state.served && u.now % 1000000 == 0) = true
    rw [hon, show u.dev.state.served = true from hs, hms]
    rfl
  · -- HANDSHAKE_ANSWER with no install
    intro hr hq ha ht hi
    have hO : Only [.svc] u (u.answered q) := only_onSvc .refl (listed rfl)
    refine ends_when (ps := [.svc]) (inTime_any hr hq ha ht) ?_ (by decide) (by decide) ?_ <;> rw [hsAnswered_eq hi]
    · exact hO
    · refine ⟨hO, fun h => returns_same h, fun h h' => ?_⟩
      obtain ⟨l, hl⟩ := returns_answering (v := { v with hsReqs := tld }) h h'
      show Svc.returns { v with hsReqs := tld } =
        { v with answering := true, hsReqs := (Svc.returns { v with hsReqs := tld }).hsReqs }
      rw [hl]
  · -- HANDSHAKE_ANSWER of new firmware
    intro hr hq ha ht hi he hrec hp
    obtain ⟨hsvc, hpaused⟩ := installDone_leaves (s := (u.answered q).drawn) (loader := false) (a := b)
    obtain ⟨-, hcap, -⟩ := install_answered (s := u) (q := q)
    refine ends_when (ps := [.free, .host, .nv, .svc, .out]) (inTime_any hr hq ha ht) ?_ (by decide) (by decide) ?_ <;>
      rw [hsAnswered_installs hi he hrec hp]
    · exact only_installDone (only_drawn (only_onSvc .refl (listed rfl)) (listed rfl)) (listed rfl)
    · rw [hsvc]
      exact ⟨rfl, congrArg Capture.issue hcap, congrArg Capture.build hcap, hpaused⟩
  · -- HANDSHAKE_ANSWER to no open request
    intro h
    show answer s (u.when (u.svc.hsReqs.any fun r => r.n == q && r.inTime u.now) fun t => hsAnswered t q) = _
    rw [State.when_false (inTime_none h)]
    rfl
  · -- HANDSHAKE_TIMEOUT
    intro hs h
    have hstop : hsTimedOut u = u.timedOut := hsStops_same (s := u.timedOut) h
    refine ends_when (ps := [.svc]) hs ?_ (by decide) (by decide) ?_ <;> rw [hstop]
    · exact only_onSvc .refl (listed rfl)
    · exact ⟨rfl, only_onSvc .refl (listed rfl)⟩
  · -- HANDSHAKE_TIMEOUT in RUN, after ten lost requests
    intro hrun ha hrow ht _
    refine ends_when (ps := [.free, .cfg, .dev, .ln, .seq, .can, .fret, .yl, .lp, .fld, .cb, .host, .pkg, .svc, .nv, .out])
      ?_ (only_hsTimedOut .refl (listed rfl)) (by decide) (by decide) (hsTimedOut_clears hrun ha hrow ht)
    show u.dev.state.served = true
    rw [hrun]
    rfl
  · -- FW_INFO
    exact fun h => ends_reply h (by decide) (cmdFwInfo_popped h.serves)
  · -- FW_OPEN
    intro h hkind hpos h4 hfit hmay hi he
    have hopen := runCmd_fwOpen h rfl hkind hpos h4 hfit hmay hi he
    have ⟨_, _, _, hO⟩ := hopen
    exact ends_answer (t := runCmd 0x61 cmdFwOpen u n.val) hO (by decide) (by decide) hopen
  · -- FW_WRITE
    intro h hpos hmax h4 hwin hmay ho hfit
    obtain ⟨hc, he⟩ := ho
    have hwrite := runCmd_fwWrite h rfl hpos hmax h4 hwin hmay hc he hfit
    have ⟨_, _, hO, _⟩ := hwrite
    exact ends_answer (t := runCmd 0x62 cmdFwWrite u n.val) hO (by decide) (by decide) hwrite
  · -- FW_CLOSE of an image that verifies
    intro h hmay ho hf
    obtain ⟨hc, he⟩ := ho
    have hclose := runCmd_fwClose hmay hc he h hf
    have ⟨_, _, _, _, _, hO⟩ := hclose
    exact ends_answer (t := runCmd 0x63 cmdFwClose u n.val) hO (by decide) (by decide) hclose
  · -- FW_CLOSE of an image that does not verify
    intro h hmay ho hf
    obtain ⟨hc, he⟩ := ho
    have hclose := runCmd_fwClose_fails hmay hc he h hf
    have ⟨_, _, _, hO⟩ := hclose
    exact ends_answer (t := runCmd 0x63 cmdFwClose u n.val) hO (by decide) (by decide) hclose
  · -- FW_ABORT of a download
    intro h hmay hc hw
    have habort := runCmd_fwAbort_download h hmay hc hw
    have ⟨_, _, hO⟩ := habort
    exact ends_answer (t := runCmd 0x64 cmdFwAbort u n.val) hO (by decide) (by decide) habort
  · -- FW_ABORT where nothing runs
    exact fun h hmay hc hi => ends_reply h (by decide) (cmdFwAbort_none (fwMay_popCmd.trans hmay) hc hi)
  · -- FW_ABORT past the commit point
    exact fun h hmay hc hb => ends_reply h (by decide) (cmdFwAbort_late (fwMay_popCmd.trans hmay) hc hb)
  · -- FW_ABORT of an install for which no command waits
    intro h hmay hc hi hb hw
    obtain ⟨⟨l, a⟩, hi⟩ := Option.isSome_iff_exists.mp hi
    have habort := runCmd_fwAbort_drops h hmay hc hi hb hw
    have ⟨_, _, _, _, _, hO⟩ := habort
    exact ends_answer (t := runCmd 0x64 cmdFwAbort u n.val) hO (by decide) (by decide) habort
  · -- FW_ABORT of an install for which a command waits
    intro h hmay hc hi hb hw hf hl hn hfull howed
    obtain ⟨⟨l, a⟩, hi⟩ := Option.isSome_iff_exists.mp hi
    obtain ⟨hO, habort⟩ := runCmd_fwAbort_completes h hmay hc hi hb hw hf hl hn hfull howed
    exact ends_answer (t := runCmd 0x64 cmdFwAbort u n.val) hO (by decide) (by decide) habort
  · -- FW_INSTALL
    intro h hmay hc hl hi hp hr
    have hinstall := runCmd_fwInstall h hmay hc hl hi hp hr
    have ⟨_, _, _, _, hO⟩ := hinstall
    exact ends_answer (t := runCmd 0x65 cmdFwInstall u n.val) hO (by decide) (by decide) hinstall
  · -- FW_INSTALL with another pause
    exact fun h hmay hc hl hi hp => ends_reply h (by decide) (cmdFwInstall_fails (fwMay_popCmd.trans hmay) hc hl hi hp)
  · -- FW_REFRESH
    intro h hr hs hn
    have hrefresh := runCmd_fwRefresh h hr hs hn
    have ⟨_, _, hO⟩ := hrefresh
    exact ends_answer (t := runCmd 0x66 cmdFwRefresh u n.val) hO (by decide) (by decide) hrefresh
  · -- NOR_ERASE_END
    intro hup h hu ht
    have herase := eraseEnds_leaves h hu ht
    have ⟨_, _, _, _, _, hO⟩ := herase
    exact ends_when hup hO (by decide) (by decide) herase
  · -- SUPWD_LONG_ERASE
    intro hup h ht
    refine ends_when (ps := [.wd]) ?_ (only_onWd .refl (listed rfl)) (by decide) (by decide)
      ⟨rfl, only_onWd .refl (listed rfl)⟩
    show (slotsUp u && (v.erases.head?.map fun e => e.1) == some blk && decide (v.eraseAt + 600000000 ≤ u.op)) = true
    rw [hup, h, decide_eq_true ht]
    exact Bool.and_eq_true_iff.mpr ⟨beq_self_eq_true _, rfl⟩
  · -- NOR_REFRESH_DUE
    intro hs hfw hdue hn
    refine ends_when (ps := [.svc]) ?_ (only_onSvc .refl (listed rfl)) (by decide) (by decide)
      ⟨rfl, only_onSvc .refl (listed rfl)⟩
    show (u.dev.state.served && u.clk.fwRuns && decide (v.refresh.due.toNat ≤ u.opSec) && !v.refresh.running) = true
    rw [show u.dev.state.served = true from hs, hfw, decide_eq_true hdue, hn]
    rfl
  · -- NOR_REFRESH_BLOCK
    intro hmay hnext
    have hblock := refreshBlock_leaves (blk := blk) hmay
    have ⟨_, _, _, _, hO⟩ := hblock
    show Ends (answer s (match (if refreshMay u then refreshNext u else none) with | some b => refreshBlock u b | none => u)) _
    rw [if_pos hmay, hnext]
    exact ends_answer hO (by decide) (by decide) hblock
  · -- NOR_PAGE_CHECK of a page with fewer than two corrected bits
    intro hs hfw hblk hbits
    show answer s (u.when (u.dev.state.served && u.clk.fwRuns && decide (blk < refreshBlocks)) fun t =>
      pageChecked t blk bits false) = _
    rw [State.when_true (hnor hblk hs hfw)]
    unfold pageChecked
    rw [if_neg Bool.false_ne_true, if_neg (Nat.not_le.mpr hbits)]
    rfl
  · -- NOR_PAGE_CHECK of a page with two corrected bits
    intro hs hfw hblk hbits
    have hmark := pageChecked_marks (u := u) (blk := blk) hbits
    have ⟨_, _, hO⟩ := hmark
    exact ends_when (hnor hblk hs hfw) hO (by decide) (by decide) hmark
  · -- NOR_PAGE_CHECK of a page that cannot be corrected
    intro hs hfw hblk
    have hbad := pageChecked_bad (u := u) (blk := blk) (bits := bits)
    have ⟨_, _, _, _, hO⟩ := hbad
    exact ends_when (hnor hblk hs hfw) hO (by decide) (by decide) hbad

end Sys2Proof.Machine
end

section
/-! The shafts of the fret engine: what leaves them, and what changes one of them (R221-R231). -/
namespace Sys2Proof.Machine

variable {s t u : State} {n k : Nat} {e : FretE} {r : RowSt} {ps : List Part} {x y : Shaft}

/-! ## What leaves the shafts -/

/-- The shafts are as they were. -/
def ShaftsKept (s t : State) : Prop := t.fret.shafts = s.fret.shafts

theorem ShaftsKept.refl : ShaftsKept s s := rfl

theorem ShaftsKept.trans (h : ShaftsKept s t) (h' : ShaftsKept t u) : ShaftsKept s u := Eq.trans h' h

theorem ShaftsKept.shaft (h : ShaftsKept s t) : t.shaft n = s.shaft n := by
  unfold State.shaft
  rw [h]

/-- What changes other parts than the fret engine leaves the shafts. -/
theorem ShaftsKept.of_only (h : ShaftsKept s t) (ho : Only ps t u) (k : .fret ∉ ps) : ShaftsKept s u :=
  h.trans (congrArg Fret.shafts (ho.fret_eq k))

/-- Steps over a list that each leave the shafts leave them. -/
theorem ShaftsKept.foldl {α : Type} {f : State → α → State} {l : List α} (h : ShaftsKept s t)
    (hf : ∀ u a, ShaftsKept u (f u a)) : ShaftsKept s (l.foldl f t) :=
  List.foldlRecOn (motive := ShaftsKept s) l f h fun _ hu a _ => hu.trans (hf _ a)

theorem shaftsKept_onFret {f : Fret → Fret} (h : ShaftsKept s t) (hf : (f t.fret).shafts = t.fret.shafts) :
    ShaftsKept s (t.onFret f) := h.trans hf

theorem shaftsKept_record {code : Nat} {items : List RItem} (h : ShaftsKept s t) : ShaftsKept s (record t code items) :=
  h.of_only (only_record .refl (List.Subset.refl _)) (by decide)

theorem shaftsKept_dropRow {id : BitVec 16} (h : ShaftsKept s t) : ShaftsKept s (dropRow t id) :=
  h.of_only (only_dropRow .refl (List.Subset.refl _)) (by decide)

theorem shaftsKept_rowMissed (h : ShaftsKept s t) : ShaftsKept s (rowMissed t e r) := by
  unfold rowMissed
  exact (shaftsKept_record (shaftsKept_onFret (shaftsKept_dropRow h) rfl)).of_only
    (only_raiseSource .refl (List.Subset.refl _)) (by decide)

theorem shaftsKept_cancelFrets {sel : FretE → Bool} (h : ShaftsKept s t) : ShaftsKept s (cancelFrets t sel) := by
  unfold cancelFrets
  refine shaftsKept_onFret (h.foldl fun t e => ?_) rfl
  split
  · exact shaftsKept_dropRow .refl
  · exact .refl

theorem shaftsKept_sendChange {c : Change} (h : ShaftsKept s t) : ShaftsKept s (sendChange t k c) :=
  h.of_only (only_sendChange .refl (List.Subset.refl _)) (by decide)

theorem shaftsKept_putEntry {num : Nat} {o : Option FretE} (h : ShaftsKept s t) : ShaftsKept s (putEntry t num o) :=
  shaftsKept_onFret h rfl

theorem shaftsKept_handOff {stamp : Nat} {b : Bool} (h : ShaftsKept s t) : ShaftsKept s (handOff t e stamp b).1 := by
  unfold handOff
  dsimp only
  exact shaftsKept_sendChange (shaftsKept_onFret h rfl)

theorem shaftsKept_spend (h : ShaftsKept s t) : ShaftsKept s (spend t e) := shaftsKept_onFret h rfl

theorem shaftsKept_judge (h : ShaftsKept s t) : ShaftsKept s (judge t e).1 := by
  have hlate (d : Int) : ShaftsKept s (fretLate t e d) := by
    unfold fretLate
    exact shaftsKept_record (shaftsKept_onFret h rfl)
  unfold judge
  dsimp only
  split
  · exact h
  · split
    · exact h
    · split
      · split
        · dsimp only
          exact shaftsKept_handOff h
        · refine shaftsKept_spend (h.of_only (ps := [.seq]) ?_ (by decide))
          exact only_fireTrig .refl (List.Subset.refl _)
      · split
        · exact shaftsKept_dropRow (hlate _)
        · exact hlate _

theorem shaftsKept_armRow {id : BitVec 16} (h : ShaftsKept s t) : ShaftsKept s (armRow t id) := by
  unfold armRow
  split
  · exact h
  · split
    · exact h
    · split
      · exact h
      · exact shaftsKept_onFret (shaftsKept_dropRow h) rfl

theorem shaftsKept_judgeShaft (h : ShaftsKept s t) : ShaftsKept s (judgeShaft t n) := by
  unfold judgeShaft
  refine (h.foldl fun t e => ?_).foldl fun t e => ?_
  · split
    · exact shaftsKept_putEntry (shaftsKept_judge .refl)
    · exact .refl
  · split
    · split
      · exact shaftsKept_armRow .refl
      · exact .refl
    · exact .refl

theorem shaftsKept_reproject {b : Bool} (h : ShaftsKept s t) : ShaftsKept s (reproject t n b) := by
  unfold reproject
  refine h.foldl fun t e => ?_
  split
  · split
    · split
      · exact shaftsKept_putEntry (shaftsKept_sendChange .refl)
      · split
        · split
          · exact shaftsKept_putEntry (shaftsKept_sendChange .refl)
          · exact .refl
        · exact .refl
    · exact .refl
  · exact .refl

/-! ## One shaft changes -/

/-- Shaft `n` becomes `x`, and the other shafts are as they were. -/
def OneShaft (n : Nat) (s t : State) (x : Shaft) : Prop := t.shaft n = x ∧ ∀ j, j ≠ n → t.shaft j = s.shaft j

theorem oneShaft_refl : OneShaft n s s (s.shaft n) := ⟨rfl, fun _ _ => rfl⟩

theorem oneShaft_modShaft {f : Shaft → Shaft} : OneShaft n s (s.modShaft n f) (f (s.shaft n)) :=
  ⟨State.shaft_modShaft.trans (if_pos rfl), fun _ hj => State.shaft_modShaft.trans (if_neg hj)⟩

theorem OneShaft.trans (h : OneShaft n s t x) (h' : OneShaft n t u y) : OneShaft n s u y :=
  ⟨h'.1, fun j hj => (h'.2 j hj).trans (h.2 j hj)⟩

theorem OneShaft.kept (h : OneShaft n s t x) (h' : ShaftsKept t u) : OneShaft n s u x :=
  ⟨h'.shaft.trans h.1, fun j hj => h'.shaft.trans (h.2 j hj)⟩

/-- A further change of the same shaft. -/
theorem OneShaft.mod {f : Shaft → Shaft} (h : OneShaft n s t x) : OneShaft n s (t.modShaft n f) (f x) := by
  refine h.trans ?_
  rw [← h.1]
  exact oneShaft_modShaft

/-! ## Shaft fault and encoder errors (R222, R223) -/

/-- A shaft in shaft fault: it stands, and its position holds. -/
def Shaft.failed (x : Shaft) (pos : Nat) : Shaft := { x with fault := true, v := 0, acc := 0, holdPos := pos }

/-- A shaft with one more strike. -/
def Shaft.struck (x : Shaft) (op kind : Nat) : Shaft :=
  { x with strikes := (x.strikes.filter fun t => decide (op ≤ t + 60000000000)) ++ [op], lastKind := BitVec.ofNat 8 kind }

/-- A shaft after an encoder error: the third strike is a shaft fault. -/
def Shaft.erred (x : Shaft) (op kind pos : Nat) : Shaft :=
  if 3 ≤ (x.struck op kind).strikes.length ∧ x.fault = false then (x.struck op kind).failed pos else x.struck op kind

theorem shaftFault_shaft : OneShaft n s (shaftFault s n) ((s.shaft n).failed (shaftPos s n)) := by
  refine OneShaft.kept (oneShaft_modShaft (s := s) (f := fun x => x.failed (shaftPos s n))) ?_
  refine shaftsKept_cancelFrets ((shaftsKept_record .refl).foldl fun t e => ?_)
  split
  · exact shaftsKept_rowMissed .refl
  · exact .refl

/-- The entries of the shaft that have not fired go (R223, R256). -/
theorem shaftFault_queue : ∀ e ∈ (shaftFault s n).fret.queue, e.shaft.val = n → e.fired = true ∧ e.repeats = false := by
  intro e he hn
  obtain ⟨-, hkeep⟩ := List.mem_filter.mp he
  simpa [hn] using hkeep

/-- The state with an encoder error counted and recorded (R222). -/
def State.errored (s : State) (n kind : Nat) : State :=
  record (s.modShaft n fun x => x.struck s.op kind) 0x0407
    [.b1 n, .b1 kind, .b4 (s.shaft n).cnt, .b4 ((s.shaft n).struck s.op kind).strikes.length]

theorem errored_shaft {kind : Nat} : OneShaft n s (s.errored n kind) ((s.shaft n).struck s.op kind) :=
  OneShaft.kept (oneShaft_modShaft (f := fun x => x.struck s.op kind)) (shaftsKept_record .refl)

theorem only_errored {kind : Nat} : Only [.fret, .host, .nv, .out] s (s.errored n kind) :=
  only_record (only_modShaft .refl (listed rfl)) (listed rfl)

theorem encError_eq {kind : Nat} : encError s n kind =
    if 3 ≤ ((s.shaft n).struck s.op kind).strikes.length ∧ (s.shaft n).fault = false then shaftFault (s.errored n kind) n
    else s.errored n kind := by
  obtain ⟨hx, -⟩ := oneShaft_modShaft (s := s) (n := n) (f := fun x => x.struck s.op kind)
  unfold encError State.errored
  dsimp only
  rw [show (s.modShaft n fun x => { x with
      strikes := (x.strikes.filter fun t => decide (s.op ≤ t + 60000000000)) ++ [s.op]
      lastKind := BitVec.ofNat 8 kind }) = s.modShaft n fun x => x.struck s.op kind from rfl, hx]
  rw [show ((s.shaft n).struck s.op kind).cnt = (s.shaft n).cnt from rfl,
    show ((s.shaft n).struck s.op kind).fault = (s.shaft n).fault from rfl]
  simp only [Bool.and_eq_true, decide_eq_true_eq, Bool.not_eq_true']

end Sys2Proof.Machine
end

section
/-! What a change of an encoder's inputs makes of its shaft (R220-R231). -/
namespace Sys2Proof.Machine

variable {s t u : State} {n kind : Nat} {fwd a b z : Bool} {x y : Shaft}

/-- The position of a shaft is a matter of its anchor, its motion and, in shaft fault, the position that holds. -/
theorem shaftPos_struck {op : Nat} (hx : t.shaft n = (s.shaft n).struck op kind) (hc : t.cfg = s.cfg) (hn : t.now = s.now) :
    shaftPos t n = shaftPos s n := by
  unfold shaftPos
  rw [hx, hc, hn]
  rfl

/-- An encoder error changes its shaft alone (R222). -/
theorem encError_shaft : OneShaft n s (encError s n kind) ((s.shaft n).erred s.op kind (shaftPos s n)) := by
  rw [encError_eq]
  unfold Shaft.erred
  split
  · have hfault := shaftFault_shaft (s := s.errored n kind) (n := n)
    rw [errored_shaft.1, shaftPos_struck errored_shaft.1 (only_errored.cfg_eq (by decide))
      (congrArg Clk.tb (only_errored.clk_eq (by decide)))] at hfault
    exact errored_shaft.trans hfault
  · exact errored_shaft

/-- Fewer than three strikes, or a shaft in shaft fault: the error is only counted and recorded. -/
theorem encError_few (h : ((s.shaft n).struck s.op kind).strikes.length < 3 ∨ (s.shaft n).fault = true) :
    encError s n kind = s.errored n kind := by
  rw [encError_eq]
  refine if_neg ?_
  rcases h with h | h
  · omega
  · simp [h]

/-- The third strike is a shaft fault. -/
theorem encError_third (h : 3 ≤ ((s.shaft n).struck s.op kind).strikes.length) (hf : (s.shaft n).fault = false) :
    encError s n kind = shaftFault (s.errored n kind) n := by
  rw [encError_eq]
  exact if_pos ⟨h, hf⟩

/-! ## References (R230, R231) -/

/-- A shaft whose Z mark has been taken. -/
def Shaft.disarmed (x : Shaft) : Shaft := { x with zArmed := false }

/-- A shaft that its first reference edge places at a count. -/
def Shaft.placed (x : Shaft) (cnt : Nat) : Shaft := { x with cnt := cnt, rev := 0, referenced := true }

/-- The first reference edge of a shaft. -/
theorem referenceEdge_first (hr : (s.shaft n).referenced = false) (hf : (s.shaft n).fault = false) :
    OneShaft n s (referenceEdge s n) ((s.shaft n).disarmed.placed (shZero s.cfg n)) := by
  have heq : referenceEdge s n = judgeShaft ((record (s.modShaft n Shaft.disarmed) 0x0409 [.b1 n, .b4 (s.shaft n).cnt]).modShaft
      n fun x => x.placed (shZero (record (s.modShaft n Shaft.disarmed) 0x0409 [.b1 n, .b4 (s.shaft n).cnt]).cfg n)) n := by
    unfold referenceEdge
    dsimp only
    rw [hr, hf]
    rfl
  have hcfg : (record (s.modShaft n Shaft.disarmed) 0x0409 [.b1 n, .b4 (s.shaft n).cnt]).cfg = s.cfg :=
    (only_record .refl (List.Subset.refl _)).cfg_eq (by decide)
  rw [heq, hcfg]
  exact OneShaft.kept (OneShaft.mod (f := fun x => x.placed (shZero s.cfg n)) (OneShaft.kept
    (oneShaft_modShaft (f := Shaft.disarmed)) (shaftsKept_record .refl))) (shaftsKept_judgeShaft .refl)

/-- In shaft fault such an edge only takes the mark. -/
theorem referenceEdge_held (hr : (s.shaft n).referenced = false) (hf : (s.shaft n).fault = true) :
    referenceEdge s n = s.modShaft n Shaft.disarmed := by
  unfold referenceEdge
  dsimp only
  rw [hr, hf]
  rfl

/-- The shaft as a later reference edge corrects it. -/
def Shaft.recounted (x : Shaft) (N ref : Nat) : Shaft :=
  if x.fault = true then x.disarmed else x.disarmed.corrected N (zeroDiff N x.cnt ref)

/-- The shaft as a later reference edge leaves it: an index mismatch is an encoder error. -/
def State.rereferenced (s : State) (n : Nat) (x : Shaft) (pos : Nat) : Shaft :=
  if shZtol s.cfg n < (zeroDiff (shN s.cfg n) x.cnt (shZero s.cfg n)).natAbs
  then (x.recounted (shN s.cfg n) (shZero s.cfg n)).erred s.op 3 pos
  else x.recounted (shN s.cfg n) (shZero s.cfg n)

/-- A later reference edge (R231). -/
theorem referenceEdge_later (hr : (s.shaft n).referenced = true) :
    ∃ pos, OneShaft n s (referenceEdge s n) (s.rereferenced n (s.shaft n) pos) := by
  obtain ⟨v, hv, hc, ho, heq⟩ : ∃ v, OneShaft n s v ((s.shaft n).recounted (shN s.cfg n) (shZero s.cfg n)) ∧
      v.cfg = s.cfg ∧ v.op = s.op ∧ referenceEdge s n =
        if shZtol v.cfg n < (zeroDiff (shN s.cfg n) (s.shaft n).cnt (shZero s.cfg n)).natAbs then encError v n 3 else v := by
    unfold referenceEdge Shaft.recounted
    dsimp only
    rw [hr]
    cases (s.shaft n).fault
    · exact ⟨_, OneShaft.mod (f := fun x => x.corrected _ _) (oneShaft_modShaft (f := Shaft.disarmed)), rfl, rfl, rfl⟩
    · exact ⟨_, oneShaft_modShaft (f := Shaft.disarmed), rfl, rfl, rfl⟩
  refine ⟨shaftPos v n, ?_⟩
  unfold State.rereferenced
  rw [heq, hc]
  split
  · have herr := encError_shaft (s := v) (n := n) (kind := 3)
    rw [hv.1, ho] at herr
    exact hv.trans herr
  · exact hv

end Sys2Proof.Machine
end

section
/-! Count edges, and the changes of an encoder's inputs that are accepted (R220, R225). -/
namespace Sys2Proof.Machine

variable {s t u : State} {n kind at_ : Nat} {fwd a b z : Bool} {x y : Shaft}

/-! ## The steps of a count edge -/

/-- A shaft counts: the anchor is the edge, and the velocity is carried to it (R225). -/
def Shaft.counted (x : Shaft) (full : Nat) (fwd : Bool) (at_ : Nat) : Shaft :=
  let y := x.moved full fwd
  let v := y.v + y.acc * usOf ((at_ : Int) - (y.t1 : Int))
  let against := if fwd then decide (v < 0) else decide (0 < v)
  { y with t1 := at_, v := if against then 0 else v, acc := if against then 0 else y.acc, backward := !fwd }

/-- A shaft keeps an edge for its velocity updates (R226). -/
def Shaft.noted (x : Shaft) (at_ : Nat) (p : Int) : Shaft := { x with edges := keepEdges at_ ((at_, p) :: x.edges) }

/-- A forward edge at which the armed mark reads 1 is a reference edge (R230). -/
def State.marked (s : State) (n : Nat) (fwd : Bool) : State :=
  if fwd && (s.shaft n).z && (s.shaft n).zArmed then referenceEdge s n else s

theorem countMoves_eq : ∃ p r, countMoves s n fwd at_ = reproject (((s.modShaft n fun x =>
    x.counted (max 1 (shN s.cfg n)) fwd at_).marked n fwd).modShaft n fun x => x.noted at_ p) n r := ⟨_, _, rfl⟩

/-- A shaft notes the instant of an edge. -/
def Shaft.edged (x : Shaft) (at_ : Nat) : Shaft := { x with edgeAt := some at_ }

/-- A shaft in shaft fault takes the direction of an edge. -/
def Shaft.turned (x : Shaft) (fwd : Bool) : Shaft := { x with backward := !fwd }

/-- The count of an edge: in shaft fault nothing is counted. -/
def State.edgeCounted (s : State) (n : Nat) (fwd : Bool) (at_ : Nat) : State :=
  if (s.shaft n).fault then
    (if fwd && (s.shaft n).z && (s.shaft n).zArmed then referenceEdge (s.modShaft n fun x => x.turned fwd) n
     else s.modShaft n fun x => x.turned fwd)
  else countMoves s n fwd at_

/-- An edge within 50 ns of the one before (R222). -/
def Shaft.fast (x : Shaft) (at_ : Nat) : Bool :=
  match x.edgeAt with
  | some q => decide (at_ < q + 50)
  | none => false

/-- An edge within 50 ns of the last is an encoder error; it still counts (R222). -/
theorem countEdge_eq : countEdge s n fwd at_ = (if (s.shaft n).fast at_ then encError (s.modShaft n fun x => x.edged at_) n 2
    else s.modShaft n fun x => x.edged at_).edgeCounted n fwd at_ := rfl

theorem Shaft.fast_eq_false (h : ∀ q, x.edgeAt = some q → q + 50 ≤ at_) : x.fast at_ = false := by
  unfold Shaft.fast
  split
  case h_1 q hq => exact decide_eq_false (Nat.not_lt.mpr (h q hq))
  case h_2 => rfl

theorem Shaft.fast_eq_true {q : Nat} (hq : x.edgeAt = some q) (h : at_ < q + 50) : x.fast at_ = true := by
  unfold Shaft.fast
  rw [hq]
  exact decide_eq_true h

/-- A shaft takes the levels that have passed the filter. -/
def Shaft.taken (x : Shaft) (a b z : Bool) : Shaft := { x with a := a, b := b, z := z, zArmed := x.zArmed || (z && !x.z) }

/-- The direction of an edge of a shaft at which A and B become `a` and `b` (R220, R225). -/
def Shaft.forward (x : Shaft) (inv a b : Bool) : Bool := (if a ≠ x.a then a != b else a == b) != inv

theorem edgeForward_eq {inv : Bool} : edgeForward inv (if a != x.a then !a else a) a b = x.forward inv a b := by
  unfold edgeForward Shaft.forward
  cases a <;> cases b <;> cases x.a <;> cases inv <;> rfl

/-- Both inputs change: an encoder error (R222). -/
theorem encoderEdge_both (ha : a ≠ (s.shaft n).a) (hb : b ≠ (s.shaft n).b) :
    encoderEdge s n a b z at_ = encError (s.modShaft n fun x => x.taken a b z) n 1 :=
  if_pos (Bool.and_eq_true_iff.mpr ⟨bne_iff_ne.mpr ha, bne_iff_ne.mpr hb⟩)

/-- One input changes: a count edge (R225). -/
theorem encoderEdge_one (h : a ≠ (s.shaft n).a ↔ b = (s.shaft n).b) : encoderEdge s n a b z at_ =
    countEdge (s.modShaft n fun x => x.taken a b z) n ((s.shaft n).forward (shInv s.cfg n) a b) at_ := by
  rw [← edgeForward_eq]
  refine (if_neg ?_).trans (if_pos ?_) <;>
  · simp only [Bool.and_eq_true, Bool.or_eq_true, bne_iff_ne]
    tauto

/-- Neither of the two changes. -/
theorem encoderEdge_none (ha : a = (s.shaft n).a) (hb : b = (s.shaft n).b) :
    encoderEdge s n a b z at_ = s.modShaft n fun x => x.taken a b z := by
  refine (if_neg ?_).trans (if_neg ?_) <;> simp [ha, hb]

/-! ## The levels of a shaft -/

/-- The levels of a shaft: those accepted, and those of the last sample with their instants (R220). -/
def Shaft.levels (x : Shaft) : (Bool × Bool × Bool) × (Bool × Bool × Bool) × (Nat × Nat × Nat) :=
  ((x.a, x.b, x.z), x.raw, x.since)

theorem levels_erred {op pos : Nat} : (x.erred op kind pos).levels = x.levels := by
  unfold Shaft.erred
  split <;> rfl

theorem levels_recounted {N ref : Nat} : (x.recounted N ref).levels = x.levels := by
  unfold Shaft.recounted Shaft.corrected
  dsimp only
  split
  · rfl
  · split
    · rfl
    · split <;> rfl

theorem levels_counted {full : Nat} : (x.counted full fwd at_).levels = x.levels := by
  unfold Shaft.counted Shaft.moved
  cases fwd
  · by_cases h : x.cnt = 0 <;> simp [h, Shaft.levels]
  · by_cases h : x.cnt + 1 = full <;> simp [h, Shaft.levels]

theorem levels_modShaft {f : Shaft → Shaft} : ((s.modShaft n f).shaft n).levels = (f (s.shaft n)).levels := by
  rw [oneShaft_modShaft.1]

theorem levels_noted {p : Int} : (x.noted at_ p).levels = x.levels := rfl

theorem levels_edged : (x.edged at_).levels = x.levels := rfl

theorem levels_turned : (x.turned fwd).levels = x.levels := rfl

theorem levels_encError : ((encError s n kind).shaft n).levels = (s.shaft n).levels := by
  rw [encError_shaft.1, levels_erred]

theorem levels_referenceEdge : ((referenceEdge s n).shaft n).levels = (s.shaft n).levels := by
  cases hr : (s.shaft n).referenced with
  | true =>
    obtain ⟨pos, h, -⟩ := referenceEdge_later hr
    rw [h]
    unfold State.rereferenced
    split
    · rw [levels_erred, levels_recounted]
    · exact levels_recounted
  | false =>
    cases hf : (s.shaft n).fault with
    | true =>
      rw [referenceEdge_held hr hf]
      rw [levels_modShaft]
      rfl
    | false =>
      rw [(referenceEdge_first hr hf).1]
      rfl

theorem levels_marked : ((s.marked n fwd).shaft n).levels = (s.shaft n).levels := by
  unfold State.marked
  split
  · exact levels_referenceEdge
  · rfl

theorem levels_countMoves : ((countMoves s n fwd at_).shaft n).levels = (s.shaft n).levels := by
  obtain ⟨p, r, h⟩ := countMoves_eq (s := s) (n := n) (fwd := fwd) (at_ := at_)
  rw [h, (shaftsKept_reproject .refl).shaft, levels_modShaft, levels_noted, levels_marked, levels_modShaft,
    levels_counted]

theorem levels_edgeCounted : ((s.edgeCounted n fwd at_).shaft n).levels = (s.shaft n).levels := by
  unfold State.edgeCounted
  split
  · split
    · rw [levels_referenceEdge, levels_modShaft, levels_turned]
    · rw [levels_modShaft, levels_turned]
  · exact levels_countMoves

theorem levels_countEdge : ((countEdge s n fwd at_).shaft n).levels = (s.shaft n).levels := by
  rw [countEdge_eq, levels_edgeCounted]
  split
  · rw [levels_encError, levels_modShaft, levels_edged]
  · rw [levels_modShaft, levels_edged]

/-- An accepted change leaves the sampled levels, and its own levels as the accepted ones. -/
theorem levels_encoderEdge : ((encoderEdge s n a b z at_).shaft n).levels =
    ((a, b, z), (s.shaft n).raw, (s.shaft n).since) := by
  have htaken : ((s.modShaft n fun x => x.taken a b z).shaft n).levels = ((a, b, z), (s.shaft n).raw, (s.shaft n).since) := by
    rw [oneShaft_modShaft.1]
    rfl
  rw [← htaken]
  by_cases ha : a = (s.shaft n).a
  · by_cases hb : b = (s.shaft n).b
    · rw [encoderEdge_none ha hb]
    · rw [encoderEdge_one (by tauto), levels_countEdge]
  · by_cases hb : b = (s.shaft n).b
    · rw [encoderEdge_one (by tauto), levels_countEdge]
    · rw [encoderEdge_both ha hb, levels_encError]

end Sys2Proof.Machine
end

section
/-! The samples of an encoder's inputs: what waits for the filter, and what passes it (R220). -/
namespace Sys2Proof.Machine

variable {s t u v : State} {n f now at_ c : Nat} {old lvl a b z : Bool} {x y : Shaft}

/-! ## The filter -/

/-- No input of the shaft has kept a new level for the filter time. -/
def Shaft.Waits (x : Shaft) (f now : Nat) : Prop := (x.raw.1 ≠ x.a → now < x.since.1 + f) ∧
  (x.raw.2.1 ≠ x.b → now < x.since.2.1 + f) ∧ (x.raw.2.2 ≠ x.z → now < x.since.2.2 + f)

/-- The sampled levels have been accepted. -/
theorem Shaft.waits_of_raw (h : x.raw = (x.a, x.b, x.z)) : x.Waits f now := by
  unfold Shaft.Waits
  rw [h]
  exact ⟨fun h => absurd rfl h, fun h => absurd rfl h, fun h => absurd rfl h⟩

/-- The levels of a shaft decide what waits for the filter. -/
theorem Shaft.waits_of_levels {r : Nat × Nat × Nat} (h : x.levels = ((a, b, z), (a, b, z), r)) : x.Waits f now := by
  refine waits_of_raw ?_
  simp only [levels, Prod.mk.injEq] at h
  obtain ⟨⟨ha, hb, hz⟩, hraw, -⟩ := h
  rw [hraw, ha, hb, hz]

theorem passedAt_none (h : lvl ≠ old → now < c + f) : passedAt f now old lvl c = none := by
  refine if_neg ?_
  simpa using h

/-- An input that changed at `at_`, the filter time ago or longer. -/
theorem passedAt_due (h : lvl ≠ old → c = at_) (hw : at_ + f ≤ now) :
    passedAt f now old lvl c = if lvl = old then none else some at_ := by
  by_cases hl : lvl = old
  · rw [if_pos hl, passedAt_none fun h => absurd hl h]
  · rw [if_neg hl, h hl]
    refine if_pos ?_
    simpa [hl] using hw

theorem acceptNext_waits (h : (s.shaft n).Waits (5 * shFilt s.cfg n) s.now) : acceptNext s n = s := by
  obtain ⟨ha, hb, hz⟩ := h
  unfold acceptNext
  dsimp only
  rw [passedAt_none ha, passedAt_none hb, passedAt_none hz]
  rfl

theorem acceptAll_waits (h : (s.shaft n).Waits (5 * shFilt s.cfg n) s.now) : acceptAll s n = s := by
  unfold acceptAll
  rw [acceptNext_waits h, acceptNext_waits h, acceptNext_waits h]

/-- Every input that differs from its accepted level changed at `at_`, and one does. -/
def Shaft.Due (x : Shaft) (a b z : Bool) (at_ : Nat) : Prop := x.raw = (a, b, z) ∧ (a ≠ x.a → x.since.1 = at_) ∧
  (b ≠ x.b → x.since.2.1 = at_) ∧ (z ≠ x.z → x.since.2.2 = at_) ∧ (a ≠ x.a ∨ b ≠ x.b ∨ z ≠ x.z)

/-- Of the instants of several changes that are one, the earliest is that one. -/
theorem min?_due {p q r : Prop} [Decidable p] [Decidable q] [Decidable r] (h : ¬ p ∨ ¬ q ∨ ¬ r) :
    ([if p then none else some at_, if q then none else some at_, if r then none else some at_].filterMap id).min? =
      some at_ := by
  by_cases hp : p <;> by_cases hq : q <;> by_cases hr : r <;> simp [hp, hq, hr] at h ⊢

/-- A level as of the change at `at_`. -/
theorem level_due (h : lvl ≠ old → c = at_) : (if c = at_ then lvl else old) = lvl := by
  by_cases hl : lvl = old
  · rw [hl, ite_self]
  · rw [if_pos (h hl)]

/-- The changes of one instant are accepted together (R220). -/
theorem acceptNext_due (h : (s.shaft n).Due a b z at_) (hw : at_ + 5 * shFilt s.cfg n ≤ s.now) :
    acceptNext s n = encoderEdge s n a b z at_ := by
  obtain ⟨hraw, ha, hb, hz, hone⟩ := h
  unfold acceptNext
  dsimp only
  rw [hraw, passedAt_due ha hw, passedAt_due hb hw, passedAt_due hz hw, min?_due hone]
  dsimp only
  rw [level_due ha, level_due hb, level_due hz]

/-- The accepted changes leave nothing that waits. -/
theorem acceptAll_due (h : (s.shaft n).Due a b z at_) (hw : at_ + 5 * shFilt s.cfg n ≤ s.now) :
    acceptAll s n = encoderEdge s n a b z at_ := by
  have hlevels := levels_encoderEdge (s := s) (n := n) (a := a) (b := b) (z := z) (at_ := at_)
  rw [h.1] at hlevels
  unfold acceptAll
  rw [acceptNext_due h hw, acceptNext_waits (Shaft.waits_of_levels hlevels), acceptNext_waits (Shaft.waits_of_levels hlevels)]

/-! ## A sample -/

/-- A shaft with a new sample of its inputs at instant `t`. -/
def Shaft.sampled (x : Shaft) (a b z : Bool) (t : Nat) : Shaft :=
  { x with
    raw := (a, b, z)
    since := (if x.raw.1 = a then x.since.1 else t, if x.raw.2.1 = b then x.since.2.1 else t,
      if x.raw.2.2 = z then x.since.2.2 else t) }

theorem sampleShaft_eq : sampleShaft s n a b z =
    acceptAll ((acceptAll s n).modShaft n fun x => x.sampled a b z (s.now / 5 * 5)) n := rfl

/-- A sample of the levels that the last one had says nothing new. -/
theorem Shaft.sampled_same (h : x.raw = (a, b, z)) : x.sampled a b z c = x := by
  cases x
  dsimp only at h
  subst h
  simp [sampled]

/-- The two states differ in the table of the shafts at most, and the shafts read the same. -/
def SameShafts (s t : State) : Prop := (∀ j, t.shaft j = s.shaft j) ∧ ∃ T, t = s.onFret fun f => { f with shafts := T }

theorem SameShafts.refl : SameShafts s s := ⟨fun _ => rfl, s.fret.shafts, rfl⟩

theorem SameShafts.queue (h : SameShafts s t) : t.fret.queue = s.fret.queue := by
  obtain ⟨-, T, rfl⟩ := h
  rfl

theorem SameShafts.nv (h : SameShafts s t) : t.nv = s.nv := by
  obtain ⟨-, T, rfl⟩ := h
  rfl

theorem SameShafts.only {ps : List Part} (h : SameShafts s t) (ho : Only ps u s) (k : [.fret] ⊆ ps) : Only ps u t := by
  obtain ⟨-, T, rfl⟩ := h
  exact only_onFret ho k

/-- What a change of one shaft leaves, whatever the table keeps. -/
theorem OneShaft.same (h : OneShaft n s t x) (h' : SameShafts t u) : OneShaft n s u x :=
  ⟨(h'.1 n).trans h.1, fun j hj => (h'.1 j).trans (h.2 j hj)⟩

/-- A change of a shaft that it does not see. -/
theorem sameShafts_modShaft {g : Shaft → Shaft} (h : g (s.shaft n) = s.shaft n) : SameShafts s (s.modShaft n g) := by
  refine ⟨fun j => ?_, _, rfl⟩
  by_cases hj : j = n
  · rw [hj, oneShaft_modShaft.1, h]
  · exact oneShaft_modShaft.2 j hj

/-- The state with the sample taken, before anything of it is accepted. -/
structure Sampled (n : Nat) (a b z : Bool) (s v : State) : Prop where
  shaft : OneShaft n s v ((s.shaft n).sampled a b z (s.now / 5 * 5))
  table : ∃ T, v = s.onFret fun f => { f with shafts := T }

theorem Sampled.only {ps : List Part} (h : Sampled n a b z s v) (k : [.fret] ⊆ ps) : Only ps s v := by
  obtain ⟨-, T, rfl⟩ := h
  exact only_onFret .refl k

/-- The position of a shaft does not see a sample. -/
theorem Sampled.pos (h : Sampled n a b z s v) : shaftPos v n = shaftPos s n := by
  obtain ⟨hx, T, rfl⟩ := h
  unfold shaftPos
  rw [hx.1]
  rfl

/-- A sample of the levels `a`, `b`, `z` passes the filter as of `at_`: it is the change itself, or repeats the levels of the
sample before. -/
def State.Accepts (s : State) (n : Nat) (a b z : Bool) (at_ : Nat) : Prop := at_ + 5 * shFilt s.cfg n ≤ s.now ∧
  (((s.shaft n).raw = ((s.shaft n).a, (s.shaft n).b, (s.shaft n).z) ∧ at_ = s.now / 5 * 5) ∨
    ((s.shaft n).raw = (a, b, z) ∧ (a ≠ (s.shaft n).a → (s.shaft n).since.1 = at_) ∧
      (b ≠ (s.shaft n).b → (s.shaft n).since.2.1 = at_) ∧ (z ≠ (s.shaft n).z → (s.shaft n).since.2.2 = at_)))

/-- What a sample that passes the filter, of an input that changes, has come to. -/
theorem sample_due (h : s.Accepts n a b z at_) (hone : a ≠ (s.shaft n).a ∨ b ≠ (s.shaft n).b ∨ z ≠ (s.shaft n).z) :
    ∃ v, Sampled n a b z s v ∧ SameShafts (encoderEdge v n a b z at_) (sampleShaft s n a b z) := by
  obtain ⟨hw, h⟩ := h
  rw [sampleShaft_eq]
  obtain ⟨hraw, hat⟩ | ⟨hraw, ha, hb, hz⟩ := h
  · have hx : ((s.modShaft n fun x => x.sampled a b z (s.now / 5 * 5)).shaft n).Due a b z at_ := by
      rw [oneShaft_modShaft.1]
      unfold Shaft.Due Shaft.sampled
      dsimp only
      rw [hraw]
      exact ⟨rfl, fun h => (if_neg h.symm).trans hat.symm, fun h => (if_neg h.symm).trans hat.symm,
        fun h => (if_neg h.symm).trans hat.symm, hone⟩
    refine ⟨s.modShaft n fun x => x.sampled a b z (s.now / 5 * 5), ⟨oneShaft_modShaft, _, rfl⟩, ?_⟩
    rw [acceptAll_waits (Shaft.waits_of_raw hraw), acceptAll_due hx hw]
    exact .refl
  · have hlevels := levels_encoderEdge (s := s) (n := n) (a := a) (b := b) (z := z) (at_ := at_)
    rw [hraw] at hlevels
    have hsame := Shaft.sampled_same (x := (encoderEdge s n a b z at_).shaft n) (c := s.now / 5 * 5)
      (congrArg (fun l => l.2.1) hlevels)
    refine ⟨s, ⟨?_, s.fret.shafts, rfl⟩, ?_⟩
    · rw [Shaft.sampled_same hraw]
      exact oneShaft_refl
    · rw [acceptAll_due ⟨hraw, ha, hb, hz, hone⟩ hw, acceptAll_waits]
      · exact sameShafts_modShaft hsame
      · refine Shaft.waits_of_levels (a := a) (b := b) (z := z) (r := (s.shaft n).since) ?_
        rw [oneShaft_modShaft.1, hsame, hlevels]

/-- A sample whose changes, and those before it, wait for the filter. -/
theorem sample_waits (h : (s.shaft n).Waits (5 * shFilt s.cfg n) s.now)
    (h' : ((s.shaft n).sampled a b z (s.now / 5 * 5)).Waits (5 * shFilt s.cfg n) s.now) :
    sampleShaft s n a b z = s.modShaft n fun x => x.sampled a b z (s.now / 5 * 5) := by
  rw [sampleShaft_eq, acceptAll_waits h, acceptAll_waits]
  rw [oneShaft_modShaft.1]
  exact h'

/-- A sample of the accepted levels, where the one before read them as well. -/
theorem sample_same (h : (s.shaft n).raw = ((s.shaft n).a, (s.shaft n).b, (s.shaft n).z))
    (h' : (s.shaft n).raw = (a, b, z)) : SameShafts s (sampleShaft s n a b z) := by
  rw [sample_waits (Shaft.waits_of_raw h) (by rw [Shaft.sampled_same h']; exact Shaft.waits_of_raw h)]
  exact sameShafts_modShaft (Shaft.sampled_same h')

end Sys2Proof.Machine
end

section
/-! A change of an encoder's inputs that is accepted, case by case (R221-R225, R230, R231). -/
namespace Sys2Proof.Machine

variable {s t u v : State} {n full at_ N ref : Nat} {fwd a b z : Bool} {x y : Shaft}

/-! ## The count (R221, R225, R231) -/

/-- The count after an edge. -/
def Shaft.nextCnt (x : Shaft) (full : Nat) (fwd : Bool) : Nat :=
  if fwd then (if x.cnt + 1 = full then 0 else x.cnt + 1) else (if x.cnt = 0 then full - 1 else x.cnt - 1)

/-- The revolution after an edge. -/
def Shaft.nextRev (x : Shaft) (full : Nat) (fwd : Bool) : BitVec 16 :=
  if fwd then (if x.cnt + 1 = full then x.rev + 1 else x.rev) else (if x.cnt = 0 then x.rev - 1 else x.rev)

/-- The velocity of a shaft carried to an instant. -/
def Shaft.carried (x : Shaft) (at_ : Nat) : Rat := x.v + x.acc * usOf ((at_ : Int) - (x.t1 : Int))

theorem Shaft.moved_eq : x.moved full fwd = { x with cnt := x.nextCnt full fwd, rev := x.nextRev full fwd } := by
  unfold moved nextCnt nextRev
  cases fwd
  · by_cases h : x.cnt = 0 <;> simp [h]
  · by_cases h : x.cnt + 1 = full <;> simp [h]

theorem Shaft.counted_eq : x.counted full fwd at_ =
    { x with
      cnt := x.nextCnt full fwd
      rev := x.nextRev full fwd
      t1 := at_
      v := if (fwd = true ∧ x.carried at_ < 0) ∨ (fwd = false ∧ 0 < x.carried at_) then 0 else x.carried at_
      acc := if (fwd = true ∧ x.carried at_ < 0) ∨ (fwd = false ∧ 0 < x.carried at_) then 0 else x.acc
      backward := !fwd } := by
  unfold counted
  dsimp only
  rw [moved_eq]
  unfold carried
  cases fwd <;> simp

/-- A count corrected to its reference count, the nearest way round. -/
theorem Shaft.corrected_zeroDiff (h : ref < N) : x.corrected N (zeroDiff N x.cnt ref) =
    { x with
      cnt := ref
      rev := if (N : Int) < 2 * ((ref : Int) - (x.cnt : Int)) then x.rev - 1
        else if 2 * ((ref : Int) - (x.cnt : Int)) < -(N : Int) then x.rev + 1 else x.rev } := by
  unfold corrected zeroDiff
  dsimp only
  by_cases hback : (N : Int) < 2 * ((ref : Int) - (x.cnt : Int))
  · rw [if_pos hback, if_pos hback, if_pos (by omega), show ((x.cnt : Int) + ((ref : Int) - x.cnt - N) + N).toNat = ref by omega]
  · rw [if_neg hback, if_neg hback]
    by_cases hfore : 2 * ((ref : Int) - (x.cnt : Int)) < -(N : Int)
    · rw [if_pos hfore, if_pos hfore, if_neg (by omega), if_pos (by omega),
        show ((x.cnt : Int) + ((ref : Int) - x.cnt + N) - N).toNat = ref by omega]
    · rw [if_neg hfore, if_neg hfore, if_neg (by omega), if_neg (by omega),
        show ((x.cnt : Int) + ((ref : Int) - x.cnt)).toNat = ref by omega]

/-! ## One input changes -/

/-- The shaft with the edge taken, before it is counted. -/
def Shaft.seen (x : Shaft) (a b z : Bool) (at_ : Nat) : Shaft := (x.taken a b z).edged at_

/-- The state with the edge taken, before it is counted. -/
def State.seen (s : State) (n : Nat) (a b z : Bool) (at_ : Nat) : State :=
  (s.modShaft n fun x => x.taken a b z).modShaft n fun x => x.edged at_

theorem oneShaft_seen : OneShaft n s (s.seen n a b z at_) ((s.shaft n).seen a b z at_) :=
  OneShaft.mod (f := fun x => x.edged at_) (oneShaft_modShaft (f := fun x => x.taken a b z))

theorem only_seen : Only [.fret] s (s.seen n a b z at_) := only_modShaft (only_modShaft .refl (listed rfl)) (listed rfl)

/-- An edge in time (R222). -/
theorem encoderEdge_slow (hone : a ≠ (s.shaft n).a ↔ b = (s.shaft n).b)
    (hslow : ∀ q, (s.shaft n).edgeAt = some q → q + 50 ≤ at_) :
    encoderEdge s n a b z at_ = (s.seen n a b z at_).edgeCounted n ((s.shaft n).forward (shInv s.cfg n) a b) at_ := by
  rw [encoderEdge_one hone, countEdge_eq, Shaft.fast_eq_false]
  · rfl
  · rw [oneShaft_modShaft.1]
    exact hslow

/-- An edge within 50 ns of the last: an encoder error, and a count all the same (R222). -/
theorem encoderEdge_fast (hone : a ≠ (s.shaft n).a ↔ b = (s.shaft n).b) {q : Nat} (hq : (s.shaft n).edgeAt = some q)
    (hfast : at_ < q + 50) : encoderEdge s n a b z at_ =
      (encError (s.seen n a b z at_) n 2).edgeCounted n ((s.shaft n).forward (shInv s.cfg n) a b) at_ := by
  rw [encoderEdge_one hone, countEdge_eq, Shaft.fast_eq_true (q := q) _ hfast]
  · rfl
  · rw [oneShaft_modShaft.1]
    exact hq

/-- In shaft fault an edge that takes no mark gives its direction alone (R223). -/
theorem edgeCounted_held (hf : (s.shaft n).fault = true) (hm : (fwd && (s.shaft n).z && (s.shaft n).zArmed) = false) :
    s.edgeCounted n fwd at_ = s.modShaft n fun x => x.turned fwd := by
  unfold State.edgeCounted
  rw [hf, hm]
  rfl

theorem edgeCounted_moves (hf : (s.shaft n).fault = false) : s.edgeCounted n fwd at_ = countMoves s n fwd at_ := by
  unfold State.edgeCounted
  rw [hf]
  rfl

/-- The state with the edge counted, before its mark. -/
def State.counts (s : State) (n : Nat) (fwd : Bool) (at_ : Nat) : State :=
  s.modShaft n fun x => x.counted (max 1 (shN s.cfg n)) fwd at_

theorem oneShaft_counts : OneShaft n s (s.counts n fwd at_) ((s.shaft n).counted (max 1 (shN s.cfg n)) fwd at_) :=
  oneShaft_modShaft

/-- The mark that an edge meets is that of the shaft before it counts. -/
theorem marked_counts : (s.counts n fwd at_).marked n fwd =
    if fwd && (s.shaft n).z && (s.shaft n).zArmed then referenceEdge (s.counts n fwd at_) n else s.counts n fwd at_ := by
  unfold State.marked
  rw [oneShaft_counts.1, Shaft.counted_eq]

/-- An edge without a mark. -/
theorem countMoves_unmarked (hm : (fwd && (s.shaft n).z && (s.shaft n).zArmed) = false) :
    (∃ p, OneShaft n s (countMoves s n fwd at_) (((s.shaft n).counted (max 1 (shN s.cfg n)) fwd at_).noted at_ p)) ∧
      Only [.free, .fret, .yl, .fld] s (countMoves s n fwd at_) := by
  obtain ⟨p, r, h⟩ := countMoves_eq (s := s) (n := n) (fwd := fwd) (at_ := at_)
  have heq : countMoves s n fwd at_ = reproject ((s.counts n fwd at_).modShaft n fun x => x.noted at_ p) n r := by
    rw [h, show s.modShaft n (fun x => x.counted (max 1 (shN s.cfg n)) fwd at_) = s.counts n fwd at_ from rfl, marked_counts, hm]
    rfl
  rw [heq]
  refine ⟨⟨p, OneShaft.kept ?_ (shaftsKept_reproject .refl)⟩, ?_⟩
  · exact OneShaft.mod (f := fun x => x.noted at_ p) oneShaft_counts
  · exact only_reproject (only_modShaft (only_modShaft .refl (listed rfl)) (listed rfl)) (listed rfl)

/-- An edge with the mark: what the reference edge makes of the shaft. -/
theorem countMoves_marked (hm : (fwd && (s.shaft n).z && (s.shaft n).zArmed) = true)
    (h : OneShaft n (s.counts n fwd at_) (referenceEdge (s.counts n fwd at_) n) y) :
    ∃ p, OneShaft n s (countMoves s n fwd at_) (y.noted at_ p) := by
  obtain ⟨p, r, heq⟩ := countMoves_eq (s := s) (n := n) (fwd := fwd) (at_ := at_)
  rw [show s.modShaft n (fun x => x.counted (max 1 (shN s.cfg n)) fwd at_) = s.counts n fwd at_ from rfl, marked_counts,
    hm] at heq
  rw [heq]
  exact ⟨p, OneShaft.kept (OneShaft.mod (f := fun x => x.noted at_ p) (oneShaft_counts.trans h)) (shaftsKept_reproject .refl)⟩

end Sys2Proof.Machine
end

section
/-! What a count edge with one changed input makes of its shaft: with and without a mark, too soon, and in shaft fault. -/
namespace Sys2Proof.Machine

variable {s t u v : State} {n at_ : Nat} {a b z : Bool} {x y : Shaft}

/-- The edge is a reference edge: forward, with the Z mark armed and at 1 (R230). -/
def Shaft.marks (x : Shaft) (inv a b z : Bool) : Bool := z && (x.zArmed || (z && !x.z)) && x.forward inv a b

/-- The mark as the count of the edge finds it. -/
theorem Shaft.marks_seen {inv : Bool} :
    (x.forward inv a b && (x.seen a b z at_).z && (x.seen a b z at_).zArmed) = x.marks inv a b z := by
  unfold marks seen taken edged
  dsimp only
  cases x.forward inv a b <;> cases z <;> simp

/-- A shaft after a count edge that only counts. -/
def State.edgeTo (s : State) (n : Nat) (x : Shaft) (a b z : Bool) (at_ : Nat) : Shaft :=
  (x.seen a b z at_).counted (max 1 (shN s.cfg n)) (x.forward (shInv s.cfg n) a b) at_

/-- The edge of `s` moves its shaft's count, in time. -/
structure Moves (s : State) (n : Nat) (a b : Bool) (at_ : Nat) : Prop where
  one : a ≠ (s.shaft n).a ↔ b = (s.shaft n).b
  slow : ∀ q, (s.shaft n).edgeAt = some q → q + 50 ≤ at_
  noFault : (s.shaft n).fault = false

theorem encoderEdge_moves (h : Moves s n a b at_) : encoderEdge s n a b z at_ =
    countMoves (s.seen n a b z at_) n ((s.shaft n).forward (shInv s.cfg n) a b) at_ := by
  rw [encoderEdge_slow h.one h.slow, edgeCounted_moves]
  rw [oneShaft_seen.1]
  exact h.noFault

/-- The mark in the state in which the edge is counted. -/
theorem marks_seen_state {inv : Bool} : ((s.shaft n).forward inv a b && ((s.seen n a b z at_).shaft n).z &&
    ((s.seen n a b z at_).shaft n).zArmed) = (s.shaft n).marks inv a b z := by
  rw [oneShaft_seen.1, Shaft.marks_seen]

theorem edge_unmarked (h : Moves s n a b at_) (hm : (s.shaft n).marks (shInv s.cfg n) a b z = false) :
    (∃ p, OneShaft n s (encoderEdge s n a b z at_) ((s.edgeTo n (s.shaft n) a b z at_).noted at_ p)) ∧
      Only [.free, .fret, .yl, .fld] s (encoderEdge s n a b z at_) := by
  rw [encoderEdge_moves h]
  obtain ⟨⟨p, hp⟩, hO⟩ := countMoves_unmarked (s := s.seen n a b z at_) (at_ := at_) (marks_seen_state.trans hm)
  rw [oneShaft_seen.1] at hp
  exact ⟨⟨p, oneShaft_seen.trans hp⟩, (only_seen.mono (listed rfl)).trans hO⟩

/-- The count of the edge, before its mark. -/
theorem oneShaft_counts_seen : OneShaft n s ((s.seen n a b z at_).counts n ((s.shaft n).forward (shInv s.cfg n) a b) at_)
    (s.edgeTo n (s.shaft n) a b z at_) := by
  have h := oneShaft_counts (s := s.seen n a b z at_) (n := n) (fwd := (s.shaft n).forward (shInv s.cfg n) a b) (at_ := at_)
  rw [oneShaft_seen.1] at h
  exact oneShaft_seen.trans h

/-- The reference edge of a shaft that was not referenced (R230). -/
theorem edge_first (h : Moves s n a b at_) (hm : (s.shaft n).marks (shInv s.cfg n) a b z = true)
    (hr : (s.shaft n).referenced = false) : ∃ p, OneShaft n s (encoderEdge s n a b z at_)
      (((s.edgeTo n (s.shaft n) a b z at_).disarmed.placed (shZero s.cfg n)).noted at_ p) := by
  have hto := oneShaft_counts_seen (s := s) (n := n) (a := a) (b := b) (z := z) (at_ := at_)
  have hedge := referenceEdge_first (s := (s.seen n a b z at_).counts n ((s.shaft n).forward (shInv s.cfg n) a b) at_) (n := n)
    (by rw [hto.1, State.edgeTo, Shaft.counted_eq]; exact hr) (by rw [hto.1, State.edgeTo, Shaft.counted_eq]; exact h.noFault)
  rw [encoderEdge_moves h]
  obtain ⟨p, hp⟩ := countMoves_marked (marks_seen_state.trans hm) hedge
  rw [hto.1] at hp
  exact ⟨p, oneShaft_seen.trans hp⟩

/-- The reference edge of a shaft that was referenced (R231). -/
theorem edge_later (h : Moves s n a b at_) (hm : (s.shaft n).marks (shInv s.cfg n) a b z = true)
    (hr : (s.shaft n).referenced = true) : ∃ p pos, OneShaft n s (encoderEdge s n a b z at_)
      ((s.rereferenced n (s.edgeTo n (s.shaft n) a b z at_) pos).noted at_ p) := by
  have hto := oneShaft_counts_seen (s := s) (n := n) (a := a) (b := b) (z := z) (at_ := at_)
  obtain ⟨pos, hedge⟩ := referenceEdge_later
    (s := (s.seen n a b z at_).counts n ((s.shaft n).forward (shInv s.cfg n) a b) at_) (n := n)
    (by rw [hto.1, State.edgeTo, Shaft.counted_eq]; exact hr)
  rw [encoderEdge_moves h]
  obtain ⟨p, hp⟩ := countMoves_marked (marks_seen_state.trans hm) hedge
  rw [hto.1] at hp
  exact ⟨p, pos, oneShaft_seen.trans hp⟩

/-- An edge of a shaft in shaft fault (R223). -/
theorem edge_held (hone : a ≠ (s.shaft n).a ↔ b = (s.shaft n).b)
    (hslow : ∀ q, (s.shaft n).edgeAt = some q → q + 50 ≤ at_)
    (hf : (s.shaft n).fault = true) (hm : (s.shaft n).marks (shInv s.cfg n) a b z = false) :
    OneShaft n s (encoderEdge s n a b z at_)
      (((s.shaft n).seen a b z at_).turned ((s.shaft n).forward (shInv s.cfg n) a b)) ∧
      Only [.fret] s (encoderEdge s n a b z at_) := by
  rw [encoderEdge_slow hone hslow, edgeCounted_held (by rw [oneShaft_seen.1]; exact hf) (marks_seen_state.trans hm)]
  exact ⟨OneShaft.mod (f := fun x => x.turned _) oneShaft_seen, only_modShaft only_seen (listed rfl)⟩

/-- An edge within 50 ns of the last that is no third strike: one more strike, and the count all the same (R222). -/
theorem edge_fast (hone : a ≠ (s.shaft n).a ↔ b = (s.shaft n).b)
    (hfast : ¬ ∀ q, (s.shaft n).edgeAt = some q → q + 50 ≤ at_)
    (hm : (s.shaft n).marks (shInv s.cfg n) a b z = false)
    (hfew : ((s.shaft n).struck s.op 2).strikes.length < 3 ∨ (s.shaft n).fault = true) :
    ∃ y, OneShaft n s (encoderEdge s n a b z at_) y ∧ y.strikes = ((s.shaft n).struck s.op 2).strikes ∧ y.lastKind = 2 ∧
      y.edgeAt = some at_ ∧ y.cnt = (if (s.shaft n).fault = true then (s.shaft n).cnt
        else (s.shaft n).nextCnt (max 1 (shN s.cfg n)) ((s.shaft n).forward (shInv s.cfg n) a b)) := by
  obtain ⟨q, hq, hlt⟩ : ∃ q, (s.shaft n).edgeAt = some q ∧ at_ < q + 50 := by
    push Not at hfast
    exact hfast
  have herr : OneShaft n s (encError (s.seen n a b z at_) n 2) (((s.shaft n).seen a b z at_).struck s.op 2) := by
    have h := errored_shaft (s := s.seen n a b z at_) (n := n) (kind := 2)
    rw [oneShaft_seen.1] at h
    rw [encError_few (by rw [oneShaft_seen.1]; exact hfew)]
    exact oneShaft_seen.trans h
  have hcfg : (encError (s.seen n a b z at_) n 2).cfg = s.cfg := (only_encError (only_seen.mono (listed rfl)) (listed rfl) (ps :=
    [.seq, .can, .fret, .yl, .host, .nv, .out])).cfg_eq (by decide)
  have hmark : ((s.shaft n).forward (shInv s.cfg n) a b && ((encError (s.seen n a b z at_) n 2).shaft n).z &&
      ((encError (s.seen n a b z at_) n 2).shaft n).zArmed) = false := by
    rw [herr.1]
    exact (Shaft.marks_seen (at_ := at_) (a := a) (b := b) (z := z)).trans hm
  rw [encoderEdge_fast hone hq hlt]
  by_cases hf : (s.shaft n).fault = true
  · rw [edgeCounted_held (by rw [herr.1]; exact hf) hmark, if_pos hf]
    exact ⟨_, OneShaft.mod (f := fun x => x.turned _) herr, rfl, rfl, rfl, rfl⟩
  · rw [edgeCounted_moves (by rw [herr.1]; exact Bool.eq_false_iff.mpr hf), if_neg hf]
    obtain ⟨⟨p, hp⟩, -⟩ := countMoves_unmarked (at_ := at_) hmark
    rw [herr.1, hcfg, Shaft.counted_eq] at hp
    exact ⟨_, herr.trans hp, rfl, rfl, rfl, rfl⟩

end Sys2Proof.Machine
end

section
/-! Samples that pass the filter: what each makes of its shaft (R220-R231). -/
namespace Sys2Proof.Machine

variable {s t u v : State} {n at_ kind : Nat} {a b z : Bool} {x y : Shaft}

namespace Sampled

theorem cfg (h : Sampled n a b z s v) : v.cfg = s.cfg := by
  obtain ⟨-, T, rfl⟩ := h
  rfl

theorem op (h : Sampled n a b z s v) : v.op = s.op := by
  obtain ⟨-, T, rfl⟩ := h
  rfl

theorem nv (h : Sampled n a b z s v) : v.nv = s.nv := by
  obtain ⟨-, T, rfl⟩ := h
  rfl

/-- A sample does not see whether the edge counts. -/
theorem moves (h : Sampled n a b z s v) (hm : Moves s n a b at_) : Moves v n a b at_ :=
  ⟨by rw [h.shaft.1]; exact hm.one, by rw [h.shaft.1]; exact hm.slow, by rw [h.shaft.1]; exact hm.noFault⟩

theorem marks (h : Sampled n a b z s v) : (v.shaft n).marks (shInv v.cfg n) a b z = (s.shaft n).marks (shInv s.cfg n) a b z := by
  rw [h.shaft.1, h.cfg]
  rfl

theorem edgeTo (h : Sampled n a b z s v) : v.edgeTo n x a b z at_ = s.edgeTo n x a b z at_ := by
  unfold State.edgeTo
  rw [h.cfg]

theorem rereferenced (h : Sampled n a b z s v) {pos : Nat} : v.rereferenced n x pos = s.rereferenced n x pos := by
  unfold State.rereferenced
  rw [h.cfg, h.op]

/-- What the accepted change leaves of the shafts is what the sample leaves. -/
theorem leaves (h : Sampled n a b z s v) (hx : OneShaft n v u x) (hs : SameShafts u t) : OneShaft n s t x :=
  (h.shaft.trans hx).same hs

end Sampled

/-- The shaft of `s` as the sample finds it, before anything is accepted. -/
def State.sampledShaft (s : State) (n : Nat) (a b z : Bool) : Shaft := (s.shaft n).sampled a b z (s.now / 5 * 5)

theorem Moves.changes (h : Moves s n a b at_) : a ≠ (s.shaft n).a ∨ b ≠ (s.shaft n).b ∨ z ≠ (s.shaft n).z := by
  have hone := h.one
  tauto

/-- An edge that only counts (R225). -/
theorem sample_unmarked (hacc : s.Accepts n a b z at_) (h : Moves s n a b at_)
    (hm : (s.shaft n).marks (shInv s.cfg n) a b z = false) :
    (∃ p, OneShaft n s (sampleShaft s n a b z) ((s.edgeTo n (s.sampledShaft n a b z) a b z at_).noted at_ p)) ∧
      Only [.free, .fret, .yl, .fld] s (sampleShaft s n a b z) := by
  obtain ⟨v, hv, hs⟩ := sample_due hacc h.changes
  obtain ⟨⟨p, hp⟩, hO⟩ := edge_unmarked (hv.moves h) (hv.marks.trans hm)
  rw [hv.edgeTo, hv.shaft.1] at hp
  exact ⟨⟨p, hv.leaves hp hs⟩, hs.only ((hv.only (listed rfl)).trans hO) (listed rfl)⟩

/-- A first reference edge (R230). -/
theorem sample_first (hacc : s.Accepts n a b z at_) (h : Moves s n a b at_)
    (hm : (s.shaft n).marks (shInv s.cfg n) a b z = true) (hr : (s.shaft n).referenced = false) :
    ∃ p, OneShaft n s (sampleShaft s n a b z)
      (((s.edgeTo n (s.sampledShaft n a b z) a b z at_).disarmed.placed (shZero s.cfg n)).noted at_ p) := by
  obtain ⟨v, hv, hs⟩ := sample_due hacc h.changes
  obtain ⟨p, hp⟩ := edge_first (hv.moves h) (hv.marks.trans hm) (by rw [hv.shaft.1]; exact hr)
  rw [hv.edgeTo, hv.shaft.1, hv.cfg] at hp
  exact ⟨p, hv.leaves hp hs⟩

/-- A later reference edge (R231). -/
theorem sample_later (hacc : s.Accepts n a b z at_) (h : Moves s n a b at_)
    (hm : (s.shaft n).marks (shInv s.cfg n) a b z = true) (hr : (s.shaft n).referenced = true) :
    ∃ p pos, OneShaft n s (sampleShaft s n a b z)
      ((s.rereferenced n (s.edgeTo n (s.sampledShaft n a b z) a b z at_) pos).noted at_ p) := by
  obtain ⟨v, hv, hs⟩ := sample_due hacc h.changes
  obtain ⟨p, pos, hp⟩ := edge_later (hv.moves h) (hv.marks.trans hm) (by rw [hv.shaft.1]; exact hr)
  rw [hv.edgeTo, hv.rereferenced, hv.shaft.1] at hp
  exact ⟨p, pos, hv.leaves hp hs⟩

/-- An edge within 50 ns of the last (R222). -/
theorem sample_fast (hacc : s.Accepts n a b z at_) (hone : a ≠ (s.shaft n).a ↔ b = (s.shaft n).b)
    (hfast : ¬ ∀ q, (s.shaft n).edgeAt = some q → q + 50 ≤ at_) (hm : (s.shaft n).marks (shInv s.cfg n) a b z = false)
    (hfew : ((s.shaft n).struck s.op 2).strikes.length < 3 ∨ (s.shaft n).fault = true) :
    ∃ y, OneShaft n s (sampleShaft s n a b z) y ∧ y.strikes = ((s.shaft n).struck s.op 2).strikes ∧ y.lastKind = 2 ∧
      y.edgeAt = some at_ ∧ y.cnt = (if (s.shaft n).fault = true then (s.shaft n).cnt
        else (s.shaft n).nextCnt (max 1 (shN s.cfg n)) ((s.shaft n).forward (shInv s.cfg n) a b)) := by
  obtain ⟨v, hv, hs⟩ := sample_due (z := z) hacc (by tauto)
  obtain ⟨y, hy, hstrikes, hkind, hat, hcnt⟩ := edge_fast (n := n) (a := a) (b := b) (z := z) (s := v) (at_ := at_)
    (by rw [hv.shaft.1]; exact hone) (by rw [hv.shaft.1]; exact hfast) (hv.marks.trans hm)
    (by rw [hv.shaft.1, hv.op]; exact hfew)
  rw [hv.shaft.1, hv.op] at hstrikes
  rw [hv.shaft.1, hv.cfg] at hcnt
  exact ⟨y, hv.leaves hy hs, hstrikes, hkind, hat, hcnt⟩

/-- An edge in shaft fault (R223). -/
theorem sample_held (hacc : s.Accepts n a b z at_) (hone : a ≠ (s.shaft n).a ↔ b = (s.shaft n).b)
    (hslow : ∀ q, (s.shaft n).edgeAt = some q → q + 50 ≤ at_) (hf : (s.shaft n).fault = true)
    (hm : (s.shaft n).marks (shInv s.cfg n) a b z = false) :
    OneShaft n s (sampleShaft s n a b z)
      (((s.sampledShaft n a b z).seen a b z at_).turned ((s.shaft n).forward (shInv s.cfg n) a b)) ∧
      Only [.fret] s (sampleShaft s n a b z) := by
  obtain ⟨v, hv, hs⟩ := sample_due (z := z) hacc (by tauto)
  obtain ⟨hp, hO⟩ := edge_held (n := n) (a := a) (b := b) (z := z) (s := v) (at_ := at_) (by rw [hv.shaft.1]; exact hone)
    (by rw [hv.shaft.1]; exact hslow) (by rw [hv.shaft.1]; exact hf) (hv.marks.trans hm)
  rw [hv.shaft.1, hv.cfg] at hp
  exact ⟨hv.leaves hp hs, hs.only ((hv.only (listed rfl)).trans hO) (listed rfl)⟩

/-- A sample in which both inputs change (R222). -/
theorem sample_both (hacc : s.Accepts n a b z at_) (ha : a ≠ (s.shaft n).a) (hb : b ≠ (s.shaft n).b) :
    ∃ w, OneShaft n s w ((s.sampledShaft n a b z).taken a b z) ∧ Only [.fret] s w ∧ shaftPos w n = shaftPos s n ∧
      SameShafts (encError w n 1) (sampleShaft s n a b z) := by
  obtain ⟨v, hv, hs⟩ := sample_due (z := z) hacc (.inl ha)
  rw [encoderEdge_both (by rw [hv.shaft.1]; exact ha) (by rw [hv.shaft.1]; exact hb)] at hs
  refine ⟨_, OneShaft.mod (f := fun x => x.taken a b z) hv.shaft, only_modShaft (hv.only (listed rfl)) (listed rfl), ?_, hs⟩
  rw [← hv.pos]
  unfold shaftPos
  rw [oneShaft_modShaft.1]
  rfl

/-- A shaft that takes the levels it has. -/
theorem Shaft.taken_same (ha : a = x.a) (hb : b = x.b) (hz : z = x.z) : x.taken a b z = x := by
  cases x
  dsimp only at ha hb hz
  subst ha hb hz
  simp [taken]

/-- A shaft that takes a level of Z alone. -/
theorem Shaft.taken_z (ha : a = x.a) (hb : b = x.b) : x.taken a b z = { x with z := z, zArmed := x.zArmed || (z && !x.z) } := by
  rw [taken, ha, hb]

/-- A sample in which neither A nor B changes (R220). -/
theorem sample_none (hacc : s.Accepts n a b z at_) (ha : a = (s.shaft n).a) (hb : b = (s.shaft n).b) :
    OneShaft n s (sampleShaft s n a b z) { s.sampledShaft n a b z with
      z := z
      zArmed := (s.shaft n).zArmed || (z && !(s.shaft n).z) } ∧ Only [.fret] s (sampleShaft s n a b z) := by
  have htaken : (s.sampledShaft n a b z).taken a b z = { s.sampledShaft n a b z with
      z := z
      zArmed := (s.shaft n).zArmed || (z && !(s.shaft n).z) } := Shaft.taken_z (x := s.sampledShaft n a b z) ha hb
  rw [← htaken]
  by_cases hz : z = (s.shaft n).z
  · have hsame : (s.shaft n).raw = ((s.shaft n).a, (s.shaft n).b, (s.shaft n).z) ∧ (s.shaft n).raw = (a, b, z) := by
      obtain ⟨hraw, -⟩ | ⟨hraw, -⟩ := hacc.2 <;> simp [hraw, ha, hb, hz]
    obtain ⟨hraw, hraw'⟩ := hsame
    have hs := sample_same hraw hraw'
    rw [State.sampledShaft, Shaft.sampled_same hraw', Shaft.taken_same ha hb hz]
    exact ⟨oneShaft_refl.same hs, hs.only .refl (listed rfl)⟩
  · obtain ⟨v, hv, hs⟩ := sample_due hacc (.inr (.inr hz))
    rw [encoderEdge_none (by rw [hv.shaft.1]; exact ha) (by rw [hv.shaft.1]; exact hb)] at hs
    exact ⟨(OneShaft.mod (f := fun x => x.taken a b z) hv.shaft).same hs,
      hs.only (only_modShaft (hv.only (listed rfl)) (listed rfl)) (listed rfl)⟩

end Sys2Proof.Machine
end

section
/-! The velocity updates of the shafts, and the stop that a shaft in shaft fault brings in HOLD (R48, R226, R250). -/
namespace Sys2Proof.Machine

variable {s t u : State} {n k free now win cause : Nat} {x : Shaft} {e0 em e1 : Nat × Int}

/-! ## One shaft -/

/-- A shaft with the velocity, the acceleration and the standstill of an update. -/
def Shaft.velocities (x : Shaft) (r : Rat × Rat × Bool) : Shaft := { x with v := r.1, acc := r.2.1, stopped := r.2.2 }

/-- A configured shaft after its velocity update. -/
def Shaft.updated (x : Shaft) (free now win : Nat) : Shaft :=
  if x.fault then { x with stopped := stoppedAt now x } else x.velocities (velocityOf free now win x)

theorem updateShaft_off (h : shOn s.cfg n = false) : updateShaft s n = s := by
  unfold updateShaft
  rw [h]
  rfl

theorem updateShaft_on (h : shOn s.cfg n = true) :
    OneShaft n s (updateShaft s n) ((s.shaft n).updated s.free s.now (shWin s.cfg n)) := by
  unfold updateShaft Shaft.updated
  dsimp only
  rw [h, if_neg (by decide)]
  split
  · exact oneShaft_modShaft (f := fun x => { x with stopped := stoppedAt s.now x })
  · exact OneShaft.kept (oneShaft_modShaft
      (f := fun x => x.velocities (velocityOf s.free s.now (shWin s.cfg n) (s.shaft n)))) rfl

/-- The update of a shaft leaves the others. -/
theorem updateShaft_others (h : k ≠ n) : (updateShaft s n).shaft k = s.shaft k := by
  cases hon : shOn s.cfg n with
  | true => exact (updateShaft_on hon).2 k h
  | false => rw [updateShaft_off hon]

theorem queue_updateShaft : (updateShaft s n).fret.queue = s.fret.queue := by
  unfold updateShaft
  dsimp only
  split
  · rfl
  · split <;> rfl

/-- The counts and the edges are not an update's. -/
theorem Shaft.updated_cnt : (x.updated free now win).cnt = x.cnt := by
  unfold updated
  split <;> rfl

theorem Shaft.updated_edges : (x.updated free now win).edges = x.edges := by
  unfold updated
  split <;> rfl

theorem Shaft.updated_fault : (x.updated free now win).fault = x.fault := by
  unfold updated
  split <;> rfl

theorem Shaft.updated_held (h : x.fault = true) : x.updated free now win = { x with stopped := stoppedAt now x } := if_pos h

theorem Shaft.updated_runs (h : x.fault = false) : x.updated free now win = x.velocities (velocityOf free now win x) :=
  if_neg (Bool.eq_false_iff.mp h)

/-- A shaft without an edge in 50 ms stands (R226). -/
theorem velocityOf_stands (h : ∀ e ∈ x.edges, e.1 + 50000000 ≤ now) : velocityOf free now win x = (0, 0, true) := by
  refine if_pos ?_
  simpa using h

/-- Where a shaft has just three edges, the velocity is taken from these, whatever the window (R226). -/
theorem velocityOf_three (h : x.edges = [e1, em, e0]) (hnow : now < e1.1 + 50000000) :
    velocityOf free now win x =
      let va : Rat := ((em.2 - e0.2 : Int) : Rat) / usOf ((em.1 : Int) - (e0.1 : Int))
      let vb : Rat := ((e1.2 - em.2 : Int) : Rat) / usOf ((e1.1 : Int) - (em.1 : Int))
      let acc := (vb - va) / (usOf ((e1.1 : Int) - (e0.1 : Int)) / 2)
      (vb + acc * usOf ((e1.1 : Int) - (em.1 : Int)) / 2, acc, false) := by
  have hedges : (if (x.edges.filter fun e => decide (now < e.1 + win)).length < 3 then x.edges.take 3
      else x.edges.filter fun e => decide (now < e.1 + win)) = [e1, em, e0] := by
    rw [h]
    split
    case isTrue => rfl
    case isFalse hlen => exact List.filter_sublist.eq_of_length_le (Nat.le_of_not_lt hlen)
  unfold velocityOf
  rw [if_neg (by simp [h, hnow])]
  dsimp only
  rw [hedges, show [e1, em, e0].reverse = [e0, em, e1] from rfl, show [e0, em, e1].length = 3 from rfl, if_neg (by decide)]
  rfl

/-! ## Every shaft -/

theorem foldl_updateShaft_others {l : List Nat} (h : k ∉ l) : (l.foldl updateShaft s).shaft k = s.shaft k := by
  induction l generalizing s with
  | nil => rfl
  | cons j l ih =>
    obtain ⟨hj, hl⟩ := not_or.mp (mt List.mem_cons.mpr h)
    exact (ih hl).trans (updateShaft_others hj)

theorem only_foldl_updateShaft {l : List Nat} : Only [.free, .fret] s (l.foldl updateShaft s) :=
  only_foldl .refl fun _ _ => only_updateShaft .refl (List.Subset.refl _)

/-- Of the updates of distinct shafts, a shaft sees its own, whatever number of free values was drawn before. -/
theorem foldl_updateShaft_shaft {l : List Nat} (hl : l.Nodup) (hk : k ∈ l) (hon : shOn s.cfg k = true) :
    ∃ free, (l.foldl updateShaft s).shaft k = (s.shaft k).updated free s.now (shWin s.cfg k) := by
  induction l generalizing s with
  | nil => cases hk
  | cons j l ih =>
    obtain ⟨hj, hl⟩ := List.nodup_cons.mp hl
    by_cases hkj : k = j
    · subst hkj
      exact ⟨s.free, (foldl_updateShaft_others hj).trans (updateShaft_on hon).1⟩
    · have hO : Only [.free, .fret] s (updateShaft s j) := only_updateShaft .refl (List.Subset.refl _)
      obtain ⟨free, h⟩ := ih (s := updateShaft s j) hl ((List.mem_cons.mp hk).resolve_left hkj)
        (by rw [hO.cfg_eq (by decide)]; exact hon)
      refine ⟨free, ?_⟩
      rw [updateShaft_others hkj, hO.cfg_eq (by decide), show (updateShaft s j).now = s.now from
        congrArg Clk.tb (hO.clk_eq (by decide))] at h
      exact h

theorem foldl_updateShaft_off {l : List Nat} (hoff : shOn s.cfg k = false) : (l.foldl updateShaft s).shaft k = s.shaft k := by
  induction l generalizing s with
  | nil => rfl
  | cons j l ih =>
    have hO : Only [.free, .fret] s (updateShaft s j) := only_updateShaft .refl (List.Subset.refl _)
    refine (ih (by rw [hO.cfg_eq (by decide)]; exact hoff)).trans ?_
    by_cases hkj : k = j
    · rw [hkj] at hoff
      rw [updateShaft_off hoff]
    · exact updateShaft_others hkj

theorem queue_foldl_updateShaft {l : List Nat} : (l.foldl updateShaft s).fret.queue = s.fret.queue :=
  List.foldlRecOn (motive := fun t => t.fret.queue = s.fret.queue) l updateShaft rfl fun _ ht _ _ => queue_updateShaft.trans ht

/-- The state after the velocity updates, before HOLD is judged. -/
def State.velocities (s : State) : State := rowDeadlines ((List.range 4).foldl updateShaft s)

theorem only_velocities : Only [.free, .fret] s s.velocities := only_rowDeadlines only_foldl_updateShaft (listed rfl)

theorem velocities_on (hk : k < 4) (h : shOn s.cfg k = true) :
    ∃ free, s.velocities.shaft k = (s.shaft k).updated free s.now (shWin s.cfg k) :=
  foldl_updateShaft_shaft List.nodup_range (List.mem_range.mpr hk) h

theorem velocities_off (h : shOn s.cfg k = false) : s.velocities.shaft k = s.shaft k := foldl_updateShaft_off h

/-- The count and the edges of a shaft are not an update's. -/
theorem velocities_count (hk : k < 4) :
    (s.velocities.shaft k).cnt = (s.shaft k).cnt ∧ (s.velocities.shaft k).edges = (s.shaft k).edges := by
  cases hon : shOn s.cfg k with
  | true =>
    obtain ⟨free, h⟩ := velocities_on hk hon
    rw [h]
    exact ⟨Shaft.updated_cnt, Shaft.updated_edges⟩
  | false => exact ⟨congrArg Shaft.cnt (velocities_off hon), congrArg Shaft.edges (velocities_off hon)⟩

/-- A configured shaft that is not in fault has the velocity of the rule. -/
theorem velocities_runs (hk : k < 4) (h : shOn s.cfg k = true) (hf : (s.shaft k).fault = false) :
    ∃ free, s.velocities.shaft k = (s.shaft k).velocities (velocityOf free s.now (shWin s.cfg k) (s.shaft k)) := by
  obtain ⟨free, hx⟩ := velocities_on hk h
  exact ⟨free, hx.trans (Shaft.updated_runs hf)⟩

/-- One in fault notes whether it has stopped. -/
theorem velocities_held (hk : k < 4) (h : shOn s.cfg k = true) (hf : (s.shaft k).fault = true) :
    s.velocities.shaft k = { s.shaft k with stopped := stoppedAt s.now (s.shaft k) } := by
  obtain ⟨free, hx⟩ := velocities_on hk h
  exact hx.trans (Shaft.updated_held hf)

/-- The deadline of a row, where the row is not confirmed. -/
theorem velocities_queue : s.velocities.fret.queue = s.fret.queue.map fun e =>
    { e with row := e.row.map fun r => if r.armed then r else { r with deadline := rowDeadline s.velocities e } } := by
  have hrow : s.velocities.fret.queue = ((List.range 4).foldl updateShaft s).fret.queue.map fun e =>
      { e with row := e.row.map fun r => if r.armed then r else { r with deadline := rowDeadline s.velocities e } } := by
    refine List.map_congr_left fun e _ => ?_
    have hself (o : Option RowSt) (ho : e.row = o) : e = { e with row := o } := congrArg (fun o => { e with row := o }) ho
    cases hr : e.row with
    | none => exact hself _ hr
    | some r =>
      dsimp only [Option.map]
      split
      · exact hself _ hr
      · rfl
  rw [hrow, queue_foldl_updateShaft]

/-! ## The stop out of HOLD -/

/-- The stop sequence leaves the device state until its transition (R43). -/
theorem stopSequence_eq : ∃ x, Only clearingParts s x ∧ stopSequence s cause = moveTo x cause .stop := by
  refine ⟨_, ?_, rfl⟩
  exact only_exchTransition (only_notLive (only_loopStop (only_foldl (only_cancelFrets (only_stopTasks (only_admSafeAll
    (only_safeFrame .refl (listed rfl)) (listed rfl)) (listed rfl)) (listed rfl)) fun _ _ => only_canDrop .refl (listed rfl))
    (listed rfl)) (listed rfl)) (listed rfl)

/-- Where the stop sequence may act, it leads into STOP by its cause. -/
theorem stopSequence_moved (h : moveOk (BitVec.ofNat 8 cause) s.dev.state .stop = true) :
    Moved s (stopSequence s cause) (BitVec.ofNat 8 cause) .stop := by
  obtain ⟨x, hx, he⟩ := stopSequence_eq (s := s) (cause := cause)
  have hdev : x.dev = s.dev := hx.dev_eq (by decide)
  obtain ⟨hstate, hcause, hleft, -, -⟩ := moveTo_dev (s := x) (by rw [hdev]; exact h)
  rw [he]
  exact ⟨hstate, hcause, hleft.trans (congrArg Dev.state hdev)⟩

/-- A change of the fret engine and of the free values alone. -/
theorem eq_of_fret (h : Only [.free, .fret] s t) : t = { s with free := t.free, fret := t.fret } := by
  cases t
  cases s
  simp only [State.mk.injEq, true_and]
  exact ⟨h.pending_eq (by decide), h.cfg_eq (by decide), h.dev_eq (by decide), h.clk_eq (by decide), h.ps_eq (by decide),
    h.ln_eq (by decide), h.seq_eq (by decide), h.can_eq (by decide), h.yl_eq (by decide), h.lp_eq (by decide),
    h.fld_eq (by decide), h.cb_eq (by decide), h.host_eq (by decide), h.pkg_eq (by decide), h.safe_eq (by decide),
    h.nv_eq (by decide), h.svc_eq (by decide), h.wd_eq (by decide), h.tap_eq (by decide), h.out_eq (by decide)⟩

/-- The windows that close are no matter of the fret engine. -/
theorem twdDue_velocities : twdDue s.velocities = twdDue s := by
  rw [eq_of_fret only_velocities]
  rfl

theorem velocityUpdate_eq : velocityUpdate s =
    if s.dev.state == .hold && (List.range 4).any fun j => atCreep s.velocities j then takeStop s.velocities 0x16 none
    else s.velocities := by
  have heq : velocityUpdate s = if s.velocities.dev.state == .hold && (List.range 4).any fun j => atCreep s.velocities j
      then takeStop s.velocities 0x16 none else s.velocities := rfl
  rw [heq, show s.velocities.dev = s.dev from only_velocities.dev_eq (by decide)]

/-- Outside HOLD nothing follows the velocity updates. -/
theorem velocityUpdate_calm (h : s.dev.state ≠ .hold) : velocityUpdate s = s.velocities := by
  rw [velocityUpdate_eq]
  refine if_neg ?_
  simp [h]

/-- A configured shaft in fault counts as one at its creep speed (R48). -/
theorem atCreep_velocities (hk : k < 4) (h : shOn s.cfg k = true) (hf : (s.shaft k).fault = true) :
    atCreep s.velocities k = true := by
  have hfault : (s.velocities.shaft k).fault = true := by
    rw [velocities_held hk h hf]
    exact hf
  unfold atCreep
  dsimp only
  rw [hfault, show s.velocities.cfg = s.cfg from only_velocities.cfg_eq (by decide), h]
  rfl

/-- In HOLD a shaft at its creep speed ends it (R48). -/
theorem velocityUpdate_stops (h : s.dev.state = .hold) (ht : twdDue s = false) (hl : s.dev.holdLeft ≠ 0) (hk : k < 4)
    (hc : atCreep s.velocities k = true) : Moved s (velocityUpdate s) 0x16 .stop := by
  have hdev : s.velocities.dev = s.dev := only_velocities.dev_eq (by decide)
  have hjudge : judgeStops s.velocities = s.velocities :=
    judgeStops_same (twdDue_velocities.trans ht) fun _ => by rw [hdev]; exact hl
  have hstop : takeStop s.velocities 0x16 none = stopSequence s.velocities 0x16 := by
    unfold takeStop stopNow
    rw [if_pos rfl, hjudge]
    refine if_pos ?_
    unfold isRunning
    rw [hdev, h]
    rfl
  have hmoved := stopSequence_moved (s := s.velocities) (cause := 0x16) (by rw [hdev, h]; decide)
  have hany : ((List.range 4).any fun j => atCreep s.velocities j) = true :=
    List.any_eq_true.mpr ⟨k, List.mem_range.mpr hk, hc⟩
  rw [velocityUpdate_eq, hany, if_pos (by rw [h]; rfl), hstop]
  unfold Moved at hmoved ⊢
  rw [hdev] at hmoved
  exact hmoved

/-! ## The changes that have passed the filters -/

/-- Where every configured shaft has its sampled levels, nothing is accepted. -/
theorem acceptShafts_same (h : ∀ j, j < 4 → shOn s.cfg j = true →
    (s.shaft j).raw = ((s.shaft j).a, (s.shaft j).b, (s.shaft j).z)) : acceptShafts s = s := by
  have hstep (j : Nat) (hj : j < 4) : (s.when (shOn s.cfg j) fun s => acceptAll s j) = s := by
    cases hon : shOn s.cfg j with
    | true => exact acceptAll_waits (Shaft.waits_of_raw (h j hj hon))
    | false => rfl
  refine List.foldlRecOn (motive := fun t => t = s) (List.range 4) _ rfl fun t ht j hj => ?_
  rw [ht]
  exact hstep j (List.mem_range.mp hj)

theorem only_acceptShafts_self : Only [.free, .seq, .can, .fret, .yl, .fld, .host, .nv, .out] s (acceptShafts s) :=
  only_acceptShafts .refl (List.Subset.refl _)

end Sys2Proof.Machine
end

section
/-! What the shafts' commands answer (R220-R231, R250): each clause of `Obligations.ShaftEvents`. -/
namespace Sys2Proof.Machine

variable {s t u v : State} {n at_ op kind pos dt : Nat} {a b z : Bool} {x y : Shaft} {sh : ShaftId}

/-! ## Encoder errors -/

/-- An encoder error leaves the count, the mark and the wire. -/
theorem Shaft.erred_leaves : (x.erred op kind pos).cnt = x.cnt ∧ (x.erred op kind pos).rev = x.rev ∧
    (x.erred op kind pos).zArmed = x.zArmed ∧ (x.erred op kind pos).wire = x.wire ∧ (x.erred op kind pos).wireAt = x.wireAt := by
  unfold erred
  split <;> exact ⟨rfl, rfl, rfl, rfl, rfl⟩

/-- An encoder error is a strike of its kind, and the third is a shaft fault (R222, R223). -/
theorem Shaft.erred_strikes : (x.erred op kind pos).strikes = (x.struck op kind).strikes ∧
    (x.erred op kind pos).lastKind = BitVec.ofNat 8 kind ∧
    (x.erred op kind pos).fault = (x.fault || decide (3 ≤ (x.struck op kind).strikes.length)) := by
  unfold erred
  split
  case isTrue h => exact ⟨rfl, rfl, by simp [failed, h.1]⟩
  case isFalse h =>
    refine ⟨rfl, rfl, ?_⟩
    show x.fault = _
    cases hf : x.fault with
    | true => rfl
    | false => simpa [hf] using h

theorem op_of_fret (h : Only [.fret] s t) : t.op = s.op := congrArg Clk.opNs (h.clk_eq (by decide))

/-- A sample in which both inputs change, and that is no third strike (R222). -/
theorem sample_illegal (hacc : s.Accepts n a b z at_) (ha : a ≠ (s.shaft n).a) (hb : b ≠ (s.shaft n).b)
    (hfew : ((s.shaft n).struck s.op 1).strikes.length < 3 ∨ (s.shaft n).fault = true) :
    OneShaft n s (sampleShaft s n a b z) (((s.sampledShaft n a b z).taken a b z).struck s.op 1) ∧
      Logs s (sampleShaft s n a b z) 0x0407
        [.b1 n, .b1 1, .b4 (s.shaft n).cnt, .b4 ((s.shaft n).struck s.op 1).strikes.length] ∧
      Only [.fret, .host, .nv, .out] s (sampleShaft s n a b z) := by
  obtain ⟨w, hw, hO, -, hs⟩ := sample_both hacc ha hb
  rw [encError_few (by rw [hw.1, op_of_fret hO]; exact hfew)] at hs
  have herr := errored_shaft (s := w) (n := n) (kind := 1)
  have hlog : Logs (w.modShaft n fun x => x.struck w.op 1) (w.errored n 1) 0x0407
      [.b1 n, .b1 1, .b4 (w.shaft n).cnt, .b4 ((w.shaft n).struck w.op 1).strikes.length] := logs_record
  rw [hw.1, op_of_fret hO] at herr hlog
  exact ⟨(hw.trans herr).same hs, hlog.congr (hO.nv_eq (by decide)).symm hs.nv,
    hs.only ((hO.mono (listed rfl)).trans only_errored) (listed rfl)⟩

/-- The shaft fails: it stands, its position holds, and its entries that have not fired are gone (R223). -/
def Fails (s t : State) (n : Nat) : Prop := (t.shaft n).fault = true ∧ (t.shaft n).v = 0 ∧ (t.shaft n).acc = 0 ∧
  (t.shaft n).cnt = (s.shaft n).cnt ∧ (t.shaft n).rev = (s.shaft n).rev ∧ (t.shaft n).holdPos = shaftPos s n ∧
  (∀ j, j ≠ n → t.shaft j = s.shaft j) ∧ ∀ e ∈ t.fret.queue, e.shaft.val = n → e.fired = true ∧ e.repeats = false

theorem Fails.of_shaft (h : OneShaft n s t (x.failed (shaftPos s n))) (hcnt : x.cnt = (s.shaft n).cnt)
    (hrev : x.rev = (s.shaft n).rev) (hq : ∀ e ∈ t.fret.queue, e.shaft.val = n → e.fired = true ∧ e.repeats = false) :
    Fails s t n := by
  obtain ⟨hx, ho⟩ := h
  exact ⟨congrArg Shaft.fault hx, congrArg Shaft.v hx, congrArg Shaft.acc hx, (congrArg Shaft.cnt hx).trans hcnt,
    (congrArg Shaft.rev hx).trans hrev, congrArg Shaft.holdPos hx, ho, hq⟩

/-- A sample in which both inputs change, and that is the third strike (R223). -/
theorem sample_third (hacc : s.Accepts n a b z at_) (ha : a ≠ (s.shaft n).a) (hb : b ≠ (s.shaft n).b)
    (hf : (s.shaft n).fault = false) (h3 : 3 ≤ ((s.shaft n).struck s.op 1).strikes.length) :
    Fails s (sampleShaft s n a b z) n := by
  obtain ⟨w, hw, hO, hpos, hs⟩ := sample_both hacc ha hb
  have hthird : 3 ≤ ((w.shaft n).struck w.op 1).strikes.length ∧ (w.shaft n).fault = false := by
    rw [hw.1, op_of_fret hO]
    exact ⟨h3, hf⟩
  have herr := encError_shaft (s := w) (n := n) (kind := 1)
  rw [Shaft.erred, if_pos hthird, hpos] at herr
  refine Fails.of_shaft ((hw.trans herr).same hs) ?_ ?_ fun e he => ?_
  · rw [hw.1]
    rfl
  · rw [hw.1]
    rfl
  · rw [hs.queue, encError_third hthird.1 hthird.2] at he
    exact shaftFault_queue e he

theorem shaftFault_fails : Fails s (shaftFault s n) n := Fails.of_shaft shaftFault_shaft rfl rfl shaftFault_queue

/-! ## Later reference edges -/

/-- What a later reference edge makes of a shaft that is not in fault (R231). -/
theorem rereferenced_leaves (hf : x.fault = false) (hz : shZero s.cfg n < shN s.cfg n) :
    (s.rereferenced n x pos).cnt = shZero s.cfg n ∧ (s.rereferenced n x pos).zArmed = false ∧
      (s.rereferenced n x pos).rev = (if (shN s.cfg n : Int) < 2 * ((shZero s.cfg n : Int) - (x.cnt : Int)) then x.rev - 1
        else if 2 * ((shZero s.cfg n : Int) - (x.cnt : Int)) < -(shN s.cfg n : Int) then x.rev + 1 else x.rev) ∧
      (s.rereferenced n x pos).strikes = (if shZtol s.cfg n < (zeroDiff (shN s.cfg n) x.cnt (shZero s.cfg n)).natAbs
        then (x.struck s.op 3).strikes else x.strikes) := by
  have hre : x.recounted (shN s.cfg n) (shZero s.cfg n) = x.disarmed.corrected (shN s.cfg n)
      (zeroDiff (shN s.cfg n) x.disarmed.cnt (shZero s.cfg n)) := if_neg (Bool.eq_false_iff.mp hf)
  unfold State.rereferenced
  rw [hre, Shaft.corrected_zeroDiff hz]
  split
  · obtain ⟨hcnt, hrev, harmed, -, -⟩ := Shaft.erred_leaves (x := { x.disarmed with
      cnt := shZero s.cfg n
      rev := if (shN s.cfg n : Int) < 2 * ((shZero s.cfg n : Int) - (x.disarmed.cnt : Int)) then x.disarmed.rev - 1
        else if 2 * ((shZero s.cfg n : Int) - (x.disarmed.cnt : Int)) < -(shN s.cfg n : Int) then x.disarmed.rev + 1
        else x.disarmed.rev }) (op := s.op) (kind := 3) (pos := pos)
    exact ⟨hcnt, harmed, hrev, Shaft.erred_strikes.1⟩
  · exact ⟨rfl, rfl, rfl, rfl⟩

/-! ## The commands -/

theorem ends_countEdge {P : State → Prop} (hlive : shaftLive (elapse dt s) sh.val = true)
    (hP : P (sampleShaft (elapse dt s) sh.val a b z)) : Ends (exec (.countEdge dt sh a b z) s) P :=
  ends_when (f := fun t => sampleShaft t sh.val a b z) hlive (only_sampleShaft .refl (List.Subset.refl _)) (by decide)
    (by decide) hP

theorem ends_velocityUpdate {P : State → Prop} (htick : (elapse dt s).now % 25000 = 0)
    (hserved : (elapse dt s).dev.state.served = true) (hP : P (velocityUpdate (acceptShafts (elapse dt s)))) :
    Ends (exec (.velocityUpdate dt) s) P := by
  refine ends_when (ps := [.free, .cfg, .dev, .ln, .seq, .can, .fret, .yl, .lp, .fld, .cb, .host, .pkg, .nv, .out])
    (f := fun t => velocityUpdate (acceptShafts t)) ?_ (only_velocityUpdate (only_acceptShafts .refl (listed rfl)) (listed rfl))
    (by decide) (by decide) hP
  rw [htick, hserved]
  rfl

/-- A rising edge of Z is a sample with Z at 1 (R230). -/
theorem exec_zRisingEdge : exec (.zRisingEdge dt sh) s =
    exec (.countEdge dt sh ((elapse dt s).shaft sh.val).raw.1 ((elapse dt s).shaft sh.val).raw.2.1 true) s := rfl

/-- A command that its guard refuses lets the time pass. -/
theorem answer_when_false {g : Bool} {f : State → State} (h : g = false) :
    answer s ((elapse dt s).when g f) = .next (elapse dt s) := by
  rw [State.when_false h]
  exact answer_of_only (ps := []) .refl (by decide) (by decide)

/-- The shaft with its wire error begun (R222). -/
def Shaft.miswired (x : Shaft) (now : Nat) : Shaft := { x with wire := true, wireAt := now }

/-- A wire error that begins is an encoder error (R222). -/
theorem wireErrs_shaft : OneShaft n s (encError (s.modShaft n fun x => x.miswired s.now) n 4)
    (((s.shaft n).miswired s.now).erred s.op 4 (shaftPos (s.modShaft n fun x => x.miswired s.now) n)) := by
  have hmod := oneShaft_modShaft (s := s) (n := n) (f := fun x => x.miswired s.now)
  have herr := encError_shaft (s := s.modShaft n fun x => x.miswired s.now) (n := n) (kind := 4)
  rw [hmod.1] at herr
  exact hmod.trans herr

end Sys2Proof.Machine
end

section
/-! The shafts' obligation. -/
namespace Sys2Proof.Machine

/-- Settles O39, clause by clause: what a sample makes of its shaft, wire errors, and velocity updates. -/
theorem shaftEvents : Obligations.ShaftEvents := by
  unfold Obligations.ShaftEvents
  intro s dt n a b z e0 em e1 at_ u k x tt wait full raw since accepts waits zs fwd mark cnt rev v1 hits others failed live one
    slow counts illegal c0 w y
  have hwO : Only [.free, .seq, .can, .fret, .yl, .fld, .host, .nv, .out] u w := only_acceptShafts_self
  have hwnow : w.now = u.now := congrArg Clk.tb (hwO.clk_eq (by decide))
  refine ⟨?_, ?_, ?_, ?_, ?_, ?_, ?_, ?_, ?_, ?_, ?_, ?_, ?_, ?_, ?_, ?_, ?_, ?_⟩
  · -- an edge that only counts
    intro ⟨hlive, hacc, hf, hone, hslow⟩ hm
    obtain ⟨⟨p, hx, ho⟩, hO⟩ := sample_unmarked hacc ⟨hone, hslow, hf⟩ hm
    rw [State.edgeTo, Shaft.counted_eq] at hx
    refine ends_countEdge hlive ⟨?_, ?_, ?_, ?_, ?_, ?_, ?_, ?_, ?_, ?_, ?_, ?_, ?_, ho, hO⟩ <;> rw [hx] <;> rfl
  · -- a first reference edge
    intro ⟨hlive, hacc, hf, hone, hslow⟩ hm hr
    obtain ⟨p, hx, ho⟩ := sample_first hacc ⟨hone, hslow, hf⟩ hm hr
    refine ends_countEdge hlive ⟨?_, ?_, ?_, ?_, ho⟩ <;> rw [hx] <;> rfl
  · -- a later reference edge
    intro ⟨hlive, hacc, hf, hone, hslow⟩ hm hr hz
    obtain ⟨p, pos, hx, ho⟩ := sample_later hacc ⟨hone, hslow, hf⟩ hm hr
    have ⟨hcnt, harmed, hrev, hstrikes⟩ := rereferenced_leaves (s := u) (pos := pos)
      (x := u.edgeTo k (u.sampledShaft k a b z) a b z at_) (by rw [State.edgeTo, Shaft.counted_eq]; exact hf) hz
    rw [State.edgeTo, Shaft.counted_eq] at hx hcnt harmed hrev hstrikes
    exact ends_countEdge hlive ⟨(congrArg Shaft.cnt hx).trans hcnt, (congrArg Shaft.zArmed hx).trans harmed,
      (congrArg Shaft.rev hx).trans hrev, (congrArg Shaft.strikes hx).trans hstrikes, ho⟩
  · -- an edge within 50 ns of the last
    intro hlive hacc hone hfast hm hfew
    obtain ⟨y', ⟨hx, ho⟩, hstrikes, hkind, hat, hcnt⟩ := sample_fast hacc hone hfast hm hfew
    exact ends_countEdge hlive ⟨hx ▸ hstrikes, hx ▸ hkind, hx ▸ hat, hx ▸ hcnt, ho⟩
  · -- an edge in shaft fault
    intro hlive hacc hone hslow hf hm
    obtain ⟨⟨hx, ho⟩, hO⟩ := sample_held hacc hone hslow hf hm
    exact ends_countEdge hlive ⟨hx, ho, hO⟩
  · -- both inputs change
    intro ⟨hlive, hacc, ha, hb⟩ hfew
    obtain ⟨⟨hx, ho⟩, hlog, hO⟩ := sample_illegal hacc ha hb hfew
    exact ends_countEdge hlive ⟨hx, hlog, ho, hO⟩
  · -- the third strike
    intro ⟨hlive, hacc, ha, hb⟩ hf h3
    exact ends_countEdge hlive (sample_third hacc ha hb hf h3)
  · -- neither input changes
    intro hlive hacc ha hb
    obtain ⟨⟨hx, ho⟩, hO⟩ := sample_none hacc ha hb
    exact ends_countEdge hlive ⟨hx, ho, hO⟩
  · -- a sample that waits for the filter
    intro hlive ⟨ha, hb, hz, ha', hb', hz'⟩
    refine ends_countEdge hlive ?_
    rw [sample_waits (s := u) ⟨ha, hb, hz⟩ ⟨ha', hb', hz'⟩]
    exact ⟨oneShaft_modShaft.1, oneShaft_modShaft.2, only_modShaft .refl (listed rfl)⟩
  · -- Z_RISING_EDGE
    refine ⟨exec_zRisingEdge, fun hlive hacc hraw => ?_⟩
    obtain ⟨ha, hb, hz⟩ : a = x.a ∧ b = x.b ∧ z = true := by simpa [raw] using hraw
    have hlast : x.raw.1 = a ∧ x.raw.2.1 = b := by
      obtain ⟨h, -⟩ | ⟨h, -⟩ := hacc.2 <;> rw [h]
      · exact ⟨ha.symm, hb.symm⟩
      · exact ⟨rfl, rfl⟩
    have hexec : exec (.zRisingEdge dt n) s = exec (.countEdge dt n a b z) s := by
      rw [exec_zRisingEdge, hz, ← hlast.1, ← hlast.2]
    obtain ⟨⟨hx, ho⟩, hO⟩ := sample_none hacc ha hb
    rw [hexec]
    subst hz
    exact ends_countEdge hlive ⟨hx, ho, hO⟩
  · -- WIRE_ERROR
    intro hlive hw
    obtain ⟨hx, ho⟩ := wireErrs_shaft (s := u) (n := k)
    obtain ⟨hcnt, -, -, hwire, hat⟩ := Shaft.erred_leaves (x := x.miswired u.now) (op := u.op) (kind := 4)
      (pos := shaftPos (u.modShaft k fun x => x.miswired u.now) k)
    obtain ⟨hstrikes, hkind, hfault⟩ := Shaft.erred_strikes (x := x.miswired u.now) (op := u.op) (kind := 4)
      (pos := shaftPos (u.modShaft k fun x => x.miswired u.now) k)
    refine ends_when (f := fun t => encError (t.modShaft k fun x => x.miswired t.now) k 4)
      (Bool.and_eq_true_iff.mpr ⟨hlive, congrArg Bool.not hw⟩)
      (only_encError (only_modShaft .refl (listed rfl)) (listed rfl) (ps := [.seq, .can, .fret, .yl, .host, .nv, .out]))
      (by decide) (by decide) ⟨?_, ?_, ?_, ?_, ?_, ?_, ho⟩
    · exact hx ▸ hwire
    · exact hx ▸ hat
    · exact hx ▸ hstrikes
    · exact hx ▸ hkind
    · exact hx ▸ hfault
    · exact hx ▸ hcnt
  · -- a shaft that is not sampled
    intro hoff
    refine ⟨answer_when_false hoff, answer_when_false hoff, answer_when_false ?_⟩
    exact Bool.and_eq_false_iff.mpr (.inl hoff)
  · -- WIRE_ERROR_CLEARED
    exact ends_answer (ps := [.fret]) (only_modShaft .refl (listed rfl)) (by decide) (by decide)
      ⟨(oneShaft_modShaft (s := u) (n := k) (f := fun x => { x with wire := false })).1,
        (oneShaft_modShaft (s := u) (n := k) (f := fun x => { x with wire := false })).2, only_modShaft .refl (listed rfl)⟩
  · -- WIRE_FAULT_TIMEOUT
    intro hw hat hf
    have hdue : wirePersists u k = true := by
      simp only [wirePersists, Bool.and_eq_true, decide_eq_true_eq, Bool.not_eq_true']
      exact ⟨⟨hw, hat⟩, hf⟩
    exact ends_when (f := fun t => shaftFault t k) hdue (only_shaftFault .refl (List.Subset.refl _)) (by decide) (by decide)
      shaftFault_fails
  · -- a wire that reads right, or not long enough wrong
    intro h
    refine answer_when_false (f := fun t => shaftFault t k) (g := wirePersists u k) (Bool.eq_false_iff.mpr fun hdue => ?_)
    simp only [wirePersists, Bool.and_eq_true, decide_eq_true_eq, Bool.not_eq_true'] at hdue
    obtain ⟨⟨hw, hat⟩, hf⟩ := hdue
    rcases h with h | h | h
    · exact Bool.false_ne_true (h.symm.trans hw)
    · exact absurd hat (Nat.not_le.mpr h)
    · exact Bool.false_ne_true (hf.symm.trans h)
  · exact acceptShafts_same
  · -- VELOCITY_UPDATE outside HOLD
    intro htick hserved hstate
    refine ends_velocityUpdate htick hserved ?_
    rw [velocityUpdate_calm hstate]
    have ⟨hcnt, hedges⟩ := velocities_count (s := w) n.isLt
    refine ⟨only_velocities, hcnt, hedges, velocities_queue, fun hon hf hold => ?_, fun hon hf hl hnow => ?_, fun hon hf => ?_,
      fun hoff => velocities_off hoff⟩
    · obtain ⟨free, hx⟩ := velocities_runs (s := w) n.isLt hon hf
      rw [hwnow, velocityOf_stands hold] at hx
      exact ⟨congrArg Shaft.v hx, congrArg Shaft.acc hx, congrArg Shaft.stopped hx⟩
    · obtain ⟨free, hx⟩ := velocities_runs (s := w) n.isLt hon hf
      rw [hwnow, velocityOf_three hl hnow] at hx
      exact ⟨congrArg Shaft.acc hx, congrArg Shaft.v hx, congrArg Shaft.stopped hx⟩
    · have hx := velocities_held (s := w) n.isLt hon hf
      rw [hwnow] at hx
      exact hx
  · -- VELOCITY_UPDATE in HOLD
    intro htick hserved hhold ht hleft hon hf
    exact ends_velocityUpdate htick hserved
      (velocityUpdate_stops hhold ht hleft n.isLt (atCreep_velocities n.isLt hon hf))

end Sys2Proof.Machine
end

section
/-! The words of the lane instructions as opcode bits with at most two fields below them (R83, R109-R163). -/
namespace Sys2Proof.Machine

variable {w op : BitVec 14} {n m a b lo : Nat} {hi : BitVec n} {low : BitVec m}

theorem toNat_wfld : (wfld w a n).toNat = w.toNat / 2 ^ a % 2 ^ n := by
  rw [wfld, BitVec.extractLsb'_toNat, Nat.shiftRight_eq_div_pow]

theorem getLsbD_wfld {i : Nat} : (wfld w a n).getLsbD i = (decide (i < n) && w.getLsbD (a + i)) := BitVec.getLsbD_extractLsb' ..

theorem getLsbD_wordOf {i : Nat} (h : i < 14) : (wordOf op hi lo low).getLsbD i =
    (op.getLsbD i || decide (lo ≤ i) && hi.getLsbD (i - lo) || low.getLsbD i) := by
  have h' : i - lo < 14 := by omega
  simp only [wordOf, BitVec.getLsbD_or, BitVec.getLsbD_shiftLeft, BitVec.getLsbD_setWidth, h, h', decide_true, Bool.true_and,
    ← Nat.not_le, decide_not, Bool.not_not]

/-- Opcode bits that end at bit `k` are zero below it. -/
theorem getLsbD_of_mod {k i : Nat} (h : op.toNat % 2 ^ k = 0) (hi : i < k) : op.getLsbD i = false := by
  have e := congrArg (fun v => v.testBit i) h
  rwa [Nat.testBit_mod_two_pow, decide_eq_true hi, Bool.true_and, Nat.zero_testBit] at e

/-- Above its fields a word has its opcode bits. -/
theorem wfld_wordOf_op (hm : m ≤ a) (hn : lo + n ≤ a) : wfld (wordOf op hi lo low) a b = wfld op a b := by
  refine BitVec.eq_of_getLsbD_eq fun i _ => ?_
  rw [getLsbD_wfld, getLsbD_wfld]
  by_cases h : a + i < 14
  · rw [getLsbD_wordOf h, BitVec.getLsbD_of_ge hi _ (by omega), BitVec.getLsbD_of_ge low _ (by omega)]
    simp
  · rw [BitVec.getLsbD_of_ge _ _ (by omega), BitVec.getLsbD_of_ge op _ (by omega)]

theorem toNat_wfld_wordOf (hm : m ≤ a) (hn : lo + n ≤ a) :
    (wfld (wordOf op hi lo low) a b).toNat = op.toNat / 2 ^ a % 2 ^ b := by
  rw [wfld_wordOf_op hm hn, toNat_wfld]

/-- The upper field of a word. -/
theorem wfld_wordOf_hi (hm : m ≤ lo) (hn : lo + n ≤ 14) (h : op.toNat % 2 ^ (lo + n) = 0) :
    wfld (wordOf op hi lo low) lo n = hi := by
  refine BitVec.eq_of_getLsbD_eq fun i hi => ?_
  rw [getLsbD_wfld, getLsbD_wordOf (by omega), getLsbD_of_mod h (by omega), BitVec.getLsbD_of_ge low _ (by omega)]
  simp [hi]

/-- The lower field of a word. -/
theorem wfld_wordOf_low (hm : m ≤ lo) (hn : lo + n ≤ 14) (h : op.toNat % 2 ^ (lo + n) = 0) :
    wfld (wordOf op hi lo low) 0 m = low := by
  refine BitVec.eq_of_getLsbD_eq fun i hi => ?_
  have hlo : ¬ lo ≤ i := by omega
  rw [getLsbD_wfld, getLsbD_wordOf (by omega), getLsbD_of_mod h (by omega)]
  simp [hi, hlo]

/-- A word is made of its opcode bits and of the two fields below them. -/
theorem wordOf_wfld (h : w.toNat / 2 ^ (m + n) * 2 ^ (m + n) = op.toNat) : wordOf op (wfld w m n) m (wfld w 0 m) = w := by
  refine BitVec.eq_of_getLsbD_eq fun i hi => ?_
  have hop : op.getLsbD i = (decide (m + n ≤ i) && w.getLsbD i) := by
    rw [BitVec.getLsbD, ← h, Nat.testBit_mul_two_pow, Nat.testBit_div_two_pow]
    by_cases e : m + n ≤ i
    · simp [e, BitVec.getLsbD]
    · simp [e]
  rw [getLsbD_wordOf hi, getLsbD_wfld, getLsbD_wfld, hop]
  by_cases hm : m ≤ i
  · rw [Nat.add_sub_cancel' hm]
    by_cases hn : m + n ≤ i
    · cases w.getLsbD i <;> simp [hm, hn]
    · have : i - m < n := by omega
      cases w.getLsbD i <;> simp [hm, hn, this]
  · have : i < m := by omega
    have : ¬ m + n ≤ i := by omega
    simp [*]

/-- A word with one field below its opcode bits. -/
theorem or_setWidth : op ||| low.setWidth 14 = wordOf op (0 : BitVec 0) m low := by
  simp [wordOf]

theorem or_wfld (h : w.toNat / 2 ^ m * 2 ^ m = op.toNat) : op ||| (wfld w 0 m).setWidth 14 = w := by
  have e : wfld w m 0 = 0 := Subsingleton.elim _ _
  rw [or_setWidth, ← e]
  exact wordOf_wfld h

end Sys2Proof.Machine
end

section
/-! What the decoder reads from an own word spells that word (R83, R109-R163), class by class. -/
namespace Sys2Proof.Machine

variable {w op : BitVec 14} {n m run : Nat} {l : LaneId} {p : List Pre} {i : Instr}

/-- The words of instruction `i` are the prefixes `p` and the own word `w`, on lane `l`, and it reads back as itself. -/
def Spells (run : Nat) (l : LaneId) (p : List Pre) (w : BitVec 14) (i : Instr) : Prop :=
  unitOf i = some (l, p, w) ∧ readBack run i = i

theorem spells_of_two (hw : w.toNat / 2 ^ (m + n) * 2 ^ (m + n) = op.toNat)
    (hu : unitOf i = some (l, p, wordOf op (wfld w m n) m (wfld w 0 m))) (hr : readBack run i = i) : Spells run l p w i :=
  ⟨by rw [hu, wordOf_wfld hw], hr⟩

theorem spells_of_one (hw : w.toNat / 2 ^ m * 2 ^ m = op.toNat)
    (hu : unitOf i = some (l, p, op ||| (wfld w 0 m).setWidth 14)) (hr : readBack run i = i) : Spells run l p w i :=
  ⟨by rw [hu, or_wfld hw], hr⟩

theorem spells_of_none (hw : w.toNat = op.toNat) (hu : unitOf i = some (l, p, op)) (hr : readBack run i = i) :
    Spells run l p w i :=
  ⟨by rw [hu, BitVec.eq_of_toNat_eq hw], hr⟩

/-! In the last row of a decoder's match, `imp_false` turns what `split` says of the other rows into inequalities. -/

theorem spells_decodeBitOp (h : w.toNat / 2 ^ 12 = 0) : Spells run l p w (decodeBitOp l p w) := by
  simp only [decodeBitOp, toNat_wfld]
  split
  case h_8 =>
    simp only [imp_false] at *
    exact spells_of_one (by bv_omega) rfl rfl
  all_goals exact spells_of_one (by bv_omega) rfl rfl

theorem spells_decodeAlu (h : w.toNat / 2 ^ 12 = 1) : Spells run l p w (decodeAlu l p w) := by
  simp only [decodeAlu, toNat_wfld]
  split
  case h_16 =>
    simp only [imp_false] at *
    exact spells_of_two (by bv_omega) rfl rfl
  all_goals exact spells_of_two (by bv_omega) rfl rfl

theorem spells_decodeRlo (h : w.toNat / 2 ^ 6 = 0x8D) (hi : decodeRlo l p run w = some i) : Spells run l p w i := by
  simp only [decodeRlo, toNat_wfld] at hi
  split at hi
  case h_3 => split at hi <;> cases hi <;> exact spells_of_none (by bv_omega) rfl rfl
  case h_4 =>
    simp only [imp_false] at *
    cases hi
    exact spells_of_one (by bv_omega) rfl rfl
  all_goals
    cases hi
    exact spells_of_one (by bv_omega) rfl rfl

theorem spells_decodeImm (h : w.toNat / 2 ^ 10 = 8) (hi : decodeImm l p run w = some i) : Spells run l p w i := by
  simp only [decodeImm, toNat_wfld] at hi
  split at hi
  case h_14 => exact spells_decodeRlo (by omega) hi
  case h_16 =>
    simp only [imp_false] at *
    cases hi
    exact spells_of_two (by bv_omega) rfl rfl
  all_goals
    cases hi
    exact spells_of_two (by bv_omega) rfl rfl

theorem spells_decodeMem (h : w.toNat / 2 ^ 10 = 9 ∨ w.toNat / 2 ^ 10 = 10) : Spells run l p w (decodeMem l p w) := by
  simp only [decodeMem, toNat_wfld]
  split
  case h_8 =>
    simp only [imp_false] at *
    exact spells_of_two (by bv_omega) rfl rfl
  all_goals exact spells_of_two (by bv_omega) rfl rfl

theorem spells_decodeSpecial (h : w.toNat / 2 ^ 10 = 11) (hi : decodeSpecial l p w = some i) : Spells run l p w i := by
  simp only [decodeSpecial, toNat_wfld] at hi
  split at hi
  case h_3 =>
    simp only [imp_false] at *
    split at hi <;> cases hi <;> exact spells_of_two (by bv_omega) rfl rfl
  all_goals
    split at hi
    · rename_i hn
      cases hi
      exact spells_of_two (by bv_omega) rfl (if_pos hn)
    · cases hi

theorem spells_decodeClass2 (h : w.toNat / 2 ^ 12 = 2) (hi : decodeClass2 l p run w = some i) : Spells run l p w i := by
  simp only [decodeClass2, toNat_wfld] at hi
  split at hi
  case h_1 => exact spells_decodeImm (by omega) hi
  case h_4 =>
    simp only [imp_false] at *
    exact spells_decodeSpecial (by omega) hi
  all_goals
    cases hi
    exact spells_decodeMem (by omega)

theorem toNat_mod_of_wfld {v : BitVec n} (h : wfld w 0 n = v) : w.toNat % 2 ^ n = v.toNat := by
  rw [← h, toNat_wfld, Nat.pow_zero, Nat.div_one]

theorem spells_decodeFlow (h : w.toNat / 2 ^ 10 = 12) (hi : decodeFlow l p w = some i) : Spells run l p w i := by
  simp only [decodeFlow, toNat_wfld] at hi
  split at hi
  · split at hi <;> cases hi <;> exact spells_of_one (by bv_omega) rfl rfl
  · cases hi
    exact spells_of_two (by bv_omega) rfl rfl
  · split at hi
    case h_3 => split at hi <;> cases hi <;> exact spells_of_one (by bv_omega) rfl rfl
    case h_4 =>
      simp only [imp_false] at *
      split at hi
      · rename_i hz
        have hz := toNat_mod_of_wfld hz
        cases hi
        exact spells_of_none (by bv_omega) rfl rfl
      · cases hi
    all_goals
      cases hi
      exact spells_of_one (by bv_omega) rfl rfl
  · cases hi

theorem spells_decodeLoops (h : w.toNat / 2 ^ 10 = 13) (hi : decodeLoops l p w = some i) : Spells run l p w i := by
  simp only [decodeLoops, toNat_wfld] at hi
  split at hi
  · cases hi
    exact spells_of_two (by bv_omega) rfl rfl
  · split at hi
    · rename_i hz
      have hz := toNat_mod_of_wfld hz
      cases hi
      exact spells_of_none (by bv_omega) rfl rfl
    · cases hi
  · cases hi

theorem spells_decodeCrc (h : w.toNat / 2 ^ 8 = 0x38) (hi : decodeCrc l p run w = some i) : Spells run l p w i := by
  simp only [decodeCrc, toNat_wfld] at hi
  split at hi
  case h_4 => split at hi <;> cases hi <;> exact spells_of_none (by bv_omega) rfl rfl
  case h_7 => cases hi
  all_goals
    cases hi
    exact spells_of_one (by bv_omega) rfl rfl

theorem spells_decodeSystem (h : w.toNat / 2 ^ 10 = 14) (hi : decodeSystem l p run w = some i) : Spells run l p w i := by
  simp only [decodeSystem, toNat_wfld] at hi
  split at hi
  case h_1 | h_2 | h_3 => exact spells_decodeCrc (by omega) hi
  case h_6 =>
    split at hi
    · rename_i hz
      have hz := toNat_mod_of_wfld hz
      cases hi
      exact spells_of_none (by bv_omega) rfl rfl
    · split at hi
      · rename_i ho
        have ho := toNat_mod_of_wfld ho
        cases hi
        exact spells_of_none (by bv_omega) rfl rfl
      · cases hi
  case h_12 => cases hi
  all_goals
    cases hi
    exact spells_of_two (by bv_omega) rfl rfl

/-- An own word that decodes is the word of the instruction read. -/
theorem spells_decodeWord (hi : decodeWord l p run w = some i) : Spells run l p w i := by
  simp only [decodeWord, toNat_wfld] at hi
  split at hi
  · cases hi
    exact spells_decodeBitOp (by omega)
  · cases hi
    exact spells_decodeAlu (by omega)
  · exact spells_decodeClass2 (by omega) hi
  · simp only [imp_false] at *
    split at hi
    · exact spells_decodeFlow (by omega) hi
    · exact spells_decodeLoops (by omega) hi
    · exact spells_decodeSystem (by omega) hi
    · cases hi

end Sys2Proof.Machine
end

section
/-! The units of lists of words: the words of an instruction are read as that instruction (R84, R107, R130, R148). -/
namespace Sys2Proof.Machine

variable {w : BitVec 14} {l : LaneId} {p : List Pre} {run : Nat} {i : Instr}

/-! ## Which words are assigned -/

theorem decodeRlo_isSome : (decodeRlo l p run w).isSome = (decodeRlo 0 [] 0 w).isSome := by
  unfold decodeRlo
  split
  case h_3 =>
    dsimp only
    split <;> rfl
  all_goals rfl

theorem decodeImm_isSome : (decodeImm l p run w).isSome = (decodeImm 0 [] 0 w).isSome := by
  unfold decodeImm
  split
  case h_14 => exact decodeRlo_isSome
  all_goals rfl

theorem decodeSpecial_isSome : (decodeSpecial l p w).isSome = (decodeSpecial 0 [] w).isSome := by
  unfold decodeSpecial
  split
  all_goals
    dsimp only
    split <;> rfl

theorem decodeFlow_isSome : (decodeFlow l p w).isSome = (decodeFlow 0 [] w).isSome := by
  unfold decodeFlow
  split
  case h_1 =>
    dsimp only
    split <;> rfl
  case h_3 =>
    dsimp only
    split
    case h_3 | h_4 => split <;> rfl
    all_goals rfl
  all_goals rfl

theorem decodeLoops_isSome : (decodeLoops l p w).isSome = (decodeLoops 0 [] w).isSome := by
  unfold decodeLoops
  split
  case h_2 => split <;> rfl
  all_goals rfl

theorem decodeCrc_isSome : (decodeCrc l p run w).isSome = (decodeCrc 0 [] 0 w).isSome := by
  unfold decodeCrc
  split
  case h_4 =>
    dsimp only
    split <;> rfl
  all_goals rfl

theorem decodeSystem_isSome : (decodeSystem l p run w).isSome = (decodeSystem 0 [] 0 w).isSome := by
  unfold decodeSystem
  split
  case h_1 | h_2 | h_3 => exact decodeCrc_isSome
  case h_6 => split <;> [rfl; split <;> rfl]
  all_goals rfl

/-- Whether an own word is assigned depends on the word alone. -/
theorem decodeWord_isSome : (decodeWord l p run w).isSome = (decodeWord 0 [] 0 w).isSome := by
  unfold decodeWord
  split
  · rfl
  · rfl
  · unfold decodeClass2
    split
    · exact decodeImm_isSome
    · rfl
    · rfl
    · exact decodeSpecial_isSome
  · split
    · exact decodeFlow_isSome
    · exact decodeLoops_isSome
    · exact decodeSystem_isSome
    · rfl

/-! ## Prefixes -/

theorem prefixOf_word {q : Pre} : prefixOf q.word = some q := by
  cases q with
  | ext x =>
    rw [Pre.word, or_setWidth, prefixOf, if_pos]
    · rw [wfld_wordOf_low] <;> decide
    · rw [wfld_wordOf_op] <;> decide
  | rep => rfl

theorem word_of_prefixOf {q : Pre} (h : prefixOf w = some q) : q.word = w := by
  unfold prefixOf at h
  split at h
  · rename_i he
    have he := congrArg BitVec.toNat he
    rw [toNat_wfld] at he
    cases h
    exact or_wfld (by bv_omega)
  · split at h
    · rename_i hr
      cases h
      exact hr.symm
    · cases h

/-- An EXT or REP word is no own word of an instruction. -/
theorem decodeWord_word {q : Pre} : decodeWord l p run q.word = none := by
  cases q with
  | ext x =>
    rw [Pre.word, or_setWidth]
    simp [decodeWord, toNat_wfld_wordOf]
  | rep => rfl

theorem prefixOf_of_decodeWord (h : decodeWord l p run w = some i) : prefixOf w = none := by
  cases hp : prefixOf w with
  | none => rfl
  | some q =>
    rw [← word_of_prefixOf hp, decodeWord_word] at h
    cases h

/-- Prefixes are words of class 11. -/
theorem wfld_word {q : Pre} : wfld q.word 12 2 = 3 := by
  cases q with
  | ext x => rw [Pre.word, or_setWidth, wfld_wordOf_op] <;> decide
  | rep => rfl

theorem prefixOf_of_class (h : wfld w 12 2 ≠ 3) : prefixOf w = none := by
  cases hp : prefixOf w with
  | none => rfl
  | some q => exact absurd (word_of_prefixOf hp ▸ wfld_word) h

/-! ## Units -/

theorem decodeUnit_of_prefix {q : Pre} {r : List (BitVec 14)} :
    decodeUnit l run p (q.word :: r) = decodeUnit l run (p ++ [q]) r := by
  rw [decodeUnit, prefixOf_word]

theorem decodeUnit_of_some {r : List (BitVec 14)} (h : decodeWord l p run w = some i) : decodeUnit l run p (w :: r) = some i := by
  rw [decodeUnit, prefixOf_of_decodeWord h, h]

theorem decodeUnit_of_none {r : List (BitVec 14)} (hp : prefixOf w = none) (h : decodeWord l p run w = none) :
    decodeUnit l run p (w :: r) = some (.unassignedEncoding l p w) := by
  rw [decodeUnit, hp, h]

/-- An unassigned word is read as its row of R130. -/
theorem decodeUnit_unassigned {r : List (BitVec 14)} (h : assignedWord w = false) :
    decodeUnit l run p (w :: r) = some (.unassignedEncoding l p w) := by
  simp only [assignedWord, Bool.or_eq_false_iff, Option.isSome_eq_false_iff, Option.isNone_iff_eq_none] at h
  obtain ⟨hp, hd⟩ := h
  refine decodeUnit_of_none hp (Option.isNone_iff_eq_none.mp ?_)
  rw [← Option.not_isSome, decodeWord_isSome, hd]
  rfl

/-- The own word of an instruction after its prefixes is read as that instruction. -/
theorem decodeUnit_of_unitOf {r : List (BitVec 14)} (hi : i.wf = true) (hu : unitOf i = some (l, p, w)) :
    decodeUnit l run p (w :: r) = some (readBack run i) := by
  cases i
  case bld | bldn | band | bandn | bor | bst | bset | brst =>
    cases hu
    rw [or_setWidth]
    exact decodeUnit_of_some (by
      simp [decodeWord, decodeBitOp, toNat_wfld_wordOf, wfld_wordOf_low, readBack])
  case mov | add | adc | sub | sbc | cmp | and | or | xor | tst | neg | lsl | lsr | asr | ror | mul =>
    cases hu
    exact decodeUnit_of_some (by
      simp [decodeWord, decodeAlu, toNat_wfld_wordOf, wfld_wordOf_hi, wfld_wordOf_low, readBack])
  case movi | addi | subi | cmpi | andi | ori | xori | tsti | muli | lsli | lsri | asri | rori | divs | divu =>
    cases hu
    exact decodeUnit_of_some (by
      simp [decodeWord, decodeClass2, decodeImm, toNat_wfld_wordOf, wfld_wordOf_hi, wfld_wordOf_low, readBack])
  case rtog | gtor | fillw =>
    cases hu
    rw [or_setWidth]
    exact decodeUnit_of_some (by
      simp [decodeWord, decodeClass2, decodeImm, decodeRlo, toNat_wfld_wordOf, wfld_wordOf_low, readBack])
  case rnot | rset | rclr | movsb | movsh | movsw | ret | leave | crcmb | crcmh | crcmw | crci | chk | halt =>
    cases hu
    rfl
  case ldb | ldbs | ldh | ldhs | ldw | stb | sth | stw =>
    cases hu
    exact decodeUnit_of_some (by
      simp [decodeWord, decodeClass2, decodeMem, toNat_wfld_wordOf, wfld_wordOf_hi, wfld_wordOf_low, readBack])
  case mfs n _ | mts n _ =>
    cases hu
    cases hn : srNamed n with
    | true =>
      exact decodeUnit_of_some (by
        simp [decodeWord, decodeClass2, decodeSpecial, toNat_wfld_wordOf, wfld_wordOf_hi, wfld_wordOf_low, readBack, hn])
    | false =>
      rw [readBack, if_neg (Bool.eq_false_iff.mp hn)]
      exact decodeUnit_of_none (prefixOf_of_class (by rw [wfld_wordOf_op] <;> decide)) (by
        simp [decodeWord, decodeClass2, decodeSpecial, toNat_wfld_wordOf, wfld_wordOf_hi, hn])
  case fadd | fsub | fmul | fdiv | fcmp | ftoi | itof =>
    cases hu
    exact decodeUnit_of_some (by
      simp [decodeWord, decodeClass2, decodeSpecial, toNat_wfld_wordOf, wfld_wordOf_hi, wfld_wordOf_low, readBack])
  case skcc | skz | sknz | bra | call | br | callr =>
    cases hu
    rw [or_setWidth]
    exact decodeUnit_of_some (by
      simp [decodeWord, decodeFlow, toNat_wfld_wordOf, wfld_wordOf_low, readBack])
  case bcc | loop =>
    cases hu
    exact decodeUnit_of_some (by
      simp [decodeWord, decodeFlow, decodeLoops, toNat_wfld_wordOf, wfld_wordOf_hi, wfld_wordOf_low, readBack])
  case crcb | crch | crcw | crcf | par =>
    cases hu
    rw [or_setWidth]
    exact decodeUnit_of_some (by
      simp [decodeWord, decodeSystem, decodeCrc, toNat_wfld_wordOf, wfld_wordOf_low, readBack])
  case rep inner _ =>
    cases inner with
    | movs n | crcm n =>
      cases hu
      fin_cases n <;> rfl
    | fillw r =>
      cases hu
      rw [or_setWidth]
      exact decodeUnit_of_some (by
        simp [decodeWord, decodeClass2, decodeImm, decodeRlo, toNat_wfld_wordOf, wfld_wordOf_low, readBack])
    | writesRep | other => cases hu
  case unassignedEncoding =>
    cases hu
    obtain ⟨-, hw⟩ := Bool.and_eq_true_iff.mp hi
    exact decodeUnit_unassigned ((Bool.not_eq_true' _).mp hw)
  case brev | brevb | sys | cfg | sysc | fret | fretc | taskTrigger | releaseTime | atTime | snapInfo | shaftRead | ylReadmit
      | ylMbxSend | ylMbxRead | ylStaInfo | ylCount | loopRead | loopTune | loopCapture | loopAbort | fldReadmit | cbusSend
      | cbusAbort | cbusRecover | cbusReadmit | hostNotify | safeStop | safeStatus | nvRead | nvWrite | nvAbort | nvCount
      | nvCountRead | recUser =>
    cases hu
    exact decodeUnit_of_some (by
      simp [decodeWord, decodeSystem, toNat_wfld_wordOf, wfld_wordOf_hi, wfld_wordOf_low, readBack])
  all_goals cases hu

/-- The prefixes at the head of a list of words join those that were read before. -/
theorem decodeUnit_prefixes {q : List Pre} {r : List (BitVec 14)} :
    decodeUnit l run p (q.map Pre.word ++ r) = decodeUnit l run (p ++ q) r := by
  induction q generalizing p with
  | nil => rw [List.map_nil, List.nil_append, List.append_nil]
  | cons x q ih => rw [List.map_cons, List.cons_append, decodeUnit_of_prefix, ih, List.append_assoc, List.singleton_append]

/-- What is read after the prefixes `p` spells those, the prefixes that follow, and an own word. -/
theorem spells_decodeUnit {ws : List (BitVec 14)} (h : decodeUnit l run p ws = some i) :
    ∃ q w r, ws = q.map Pre.word ++ w :: r ∧ Spells run l (p ++ q) w i := by
  induction ws generalizing p with
  | nil => cases h
  | cons w ws ih =>
    unfold decodeUnit at h
    split at h
    · rename_i q hq
      obtain ⟨qs, v, r, rfl, hs⟩ := ih h
      refine ⟨q :: qs, v, r, ?_, ?_⟩
      · rw [← word_of_prefixOf hq]
        rfl
      · rwa [List.append_assoc] at hs
    · refine ⟨[], w, ws, rfl, ?_⟩
      rw [List.append_nil]
      split at h
      · rename_i hd
        cases h
        exact spells_decodeWord hd
      · cases h
        exact ⟨rfl, rfl⟩

/-- Nothing is read from a list of prefixes, and something from every other list. -/
theorem decodeUnit_eq_none {ws : List (BitVec 14)} :
    decodeUnit l run p ws = none ↔ ∀ w ∈ ws, (prefixOf w).isSome = true := by
  induction ws generalizing p with
  | nil => simp [decodeUnit]
  | cons w ws ih =>
    rw [List.forall_mem_cons]
    cases hq : prefixOf w with
    | some q => simp only [decodeUnit, hq, ih, Option.isSome_some, true_and]
    | none =>
      cases hd : decodeWord l p run w <;> simp [decodeUnit, hq, hd]

/-- The words of an instruction are its prefixes and its own word. -/
theorem encodeUnit_eq_some {ws : List (BitVec 14)} :
    encodeUnit i = some ws ↔ ∃ l p w, unitOf i = some (l, p, w) ∧ ws = p.map Pre.word ++ [w] := by
  simp only [encodeUnit, Option.map_eq_some_iff, Prod.exists, eq_comm (a := ws)]

/-- Settles O59: encoding then decoding by the fields of each class of words, decoding then encoding by the branches of the
decoder. -/
theorem unitsEncodeAndDecode : Obligations.UnitsEncodeAndDecode := by
  unfold Obligations.UnitsEncodeAndDecode
  refine fun run => ⟨fun i ws rest hi h => ?_, fun l ws i h => ?_, fun l ws => decodeUnit_eq_none⟩
  · obtain ⟨l, p, w, hu, rfl⟩ := encodeUnit_eq_some.mp h
    refine ⟨l, p, w, hu, rfl, ?_⟩
    rw [List.append_assoc, decodeUnit_prefixes]
    exact decodeUnit_of_unitOf hi hu
  · obtain ⟨q, w, r, rfl, hu, hr⟩ := spells_decodeUnit h
    exact ⟨hr, q.map Pre.word ++ [w], r, encodeUnit_eq_some.mpr ⟨l, q, w, hu, rfl⟩, by rw [List.append_assoc]; rfl⟩

end Sys2Proof.Machine
end

section
/-! The binary32 operations (R99, R128), and the flags of a result with an overflow. -/
namespace Sys2Proof.Machine

variable {s : State} {l : LaneId} {p : List Pre} {k : Nat} {c : Copy} {d : Dec}

/-- FL packed is its five flags from DZ down to Z. -/
theorem flPack_eq {f : Fl} : flPack f = flagWord f.dz f.v f.c f.n f.z := by
  obtain ⟨dz, v, c, n, z⟩ := f
  cases dz <;> cases v <;> cases c <;> cases n <;> cases z <;> rfl

theorem flMul_eq {f : BitVec 5} {r : Word} {v : Bool} : flMul f r v = overflowFlags f r v (f.getLsbD 4) := flPack_eq

/-- A unit that writes one general register, to a value computed from the registers. -/
theorem setReg_wrote {i : Nat} {f : Copy → Word} (h : UnitRuns s l p d k c) (hf : ∀ x : Copy, x.regs = c.regs → f x = f c) :
    Ends (answer s (issue l.val p d (pureUnit fun x => x.setReg i (f x)) s))
      (Wrote s k c (p.length + 1) [(i, f c)] c.regs) :=
  pure_wrote (g := c.regs.g.setIfInBounds i (f c)) h
    (fun x hx => ⟨x.winFull, by rw [Copy.setReg_eq, hf x hx, hx]⟩) rfl fun _ hj => lookup_one hj

theorem Copy.reg_congr {x y : Copy} (h : x.regs = y.regs) (j : Nat) : x.reg j = y.reg j := by
  rw [Copy.reg, Copy.reg, h]

theorem float_wrote {f : Word → Word → Word} {x y : BitVec 3} (h : UnitRuns s l p d k c) :
    Ends (answer s (issue l.val p d (pureUnit (floatUnit f x y)) s))
      (Wrote s k c (p.length + 1) [(x.toNat, f (c.reg x.toNat) (c.reg y.toNat))] c.regs) :=
  setReg_wrote (f := fun z => f (z.reg x.toNat) (z.reg y.toNat)) h fun z hz => by
    simp only [Copy.reg_congr hz]

/-- Settles O5: the operations write one register, FCMP the flags alone, and FTOI both. -/
theorem floatResults : Obligations.FloatResults := by
  unfold Obligations.FloatResults
  intro s l p k c x y a b
  refine ⟨float_wrote, float_wrote, float_wrote, float_wrote, fun h => ?_, fun h => ?_, fun h => ?_⟩
  · -- FCMP
    exact pure_wrote (r := { c.regs with fl := flCmp c.regs.fl a b }) (g := c.regs.g) h
      (fun z hz => ⟨z.winFull, by rw [Copy.reg_congr hz, Copy.reg_congr hz, Copy.setFl, hz]⟩) rfl fun _ _ => lookup_none
  · -- FTOI
    exact pure_wrote (r := { c.regs with fl := overflowFlags c.regs.fl (fToInt b).1 (fToInt b).2 (c.regs.fl.getLsbD 4) })
      (g := c.regs.g.setIfInBounds x.toNat (fToInt b).1) h
      (fun z hz => ⟨z.winFull, by simp only [← flMul_eq, Copy.setReg_eq, Copy.setFl, hz, Copy.reg_congr hz, b]⟩) rfl
      fun _ hj => lookup_one hj
  · -- ITOF
    exact setReg_wrote (f := fun z => fOfInt (z.reg y.toNat).toInt) h fun z hz => by rw [Copy.reg_congr hz]

end Sys2Proof.Machine
end

section
/-! The load shadows (R73-R75): what the end of a slot does to them, and the loads that open them (R125, R126). -/
namespace Sys2Proof.Machine

variable {s : State} {l : LaneId} {p : List Pre} {k : Nat} {c : Copy} {d : Dec}

/-! ## The end of a slot -/

/-- The load shadow `x` ends with this slot, and its value has arrived. -/
def PendLoad.due (x : PendLoad) : Bool := decide (x.left ≤ 1) && x.arrived

/-- The load shadow with a slot less. -/
def PendLoad.pass (x : PendLoad) : PendLoad := { x with left := x.left - 1 }

theorem PendLoad.pass_ended (x : PendLoad) : (decide (x.pass.left = 0) && x.pass.arrived) = x.due := by
  have h : x.left - 1 = 0 ↔ x.left ≤ 1 := by omega
  simp only [pass, due, h]

/-- The last of the loads whose shadows have ended into a register is the one that it holds. -/
theorem foldl_loads_last (L : List PendLoad) {j : Nat} (hj : j < 16) :
    (L.foldl (fun (c : Copy) x => if x.left = 0 && x.arrived then c.setReg x.dst.toNat x.val else c) c).reg j =
      match (L.filter fun x => decide (x.left = 0) && x.arrived && decide (x.dst.toNat = j)).getLast? with
      | some x => x.val
      | none => c.reg j := by
  induction L using List.reverseRecOn with
  | nil => rfl
  | append_singleton L x ih =>
    rw [List.foldl_append, List.filter_append, List.foldl_cons, List.foldl_nil]
    by_cases hx : (decide (x.left = 0) && x.arrived) = true
    · rw [if_pos hx, Copy.reg_setReg hj]
      by_cases e : j = x.dst.toNat
      · rw [if_pos e, List.filter_cons_of_pos (by rw [hx, decide_eq_true e.symm, Bool.and_self]), List.filter_nil,
          List.getLast?_concat]
      · rw [if_neg e, List.filter_cons_of_neg (by rw [decide_eq_false (Ne.symm e), Bool.and_false]; exact Bool.false_ne_true),
          List.filter_nil, List.append_nil, ih]
    · rw [if_neg hx, List.filter_cons_of_neg (by rw [Bool.eq_false_iff.mpr hx, Bool.false_and]; exact Bool.false_ne_true),
        List.filter_nil, List.append_nil, ih]

theorem tickLoads_reg_last {j : Nat} (hj : j < 16) : (tickLoads c).reg j =
    match ((c.loads.filter PendLoad.due).filter fun x => decide (x.dst.toNat = j)).getLast? with
    | some x => x.val
    | none => c.reg j := by
  refine (foldl_loads_last (c.loads.map PendLoad.pass) hj).trans ?_
  have hp : (fun x => decide (x.left = 0) && x.arrived && decide (x.dst.toNat = j)) ∘ PendLoad.pass =
      fun x => decide (x.dst.toNat = j) && x.due := by
    funext x
    rw [Function.comp, PendLoad.pass_ended, Bool.and_comm]
    rfl
  rw [List.filter_map, hp, List.filter_filter, List.getLast?_map]
  cases (c.loads.filter fun x => decide (x.dst.toNat = j) && x.due).getLast? <;> rfl

/-- The loads that stay: those whose shadows have not ended, and those that have not arrived. -/
theorem tickLoads_loads : (tickLoads c).loads = (c.loads.filter fun x => !x.due).map PendLoad.pass := by
  have hp : (fun x : PendLoad => !(x.left == 0 && x.arrived)) ∘ PendLoad.pass = fun x => !x.due := by
    funext x
    exact congrArg (! ·) x.pass_ended
  refine (List.filter_map (f := PendLoad.pass)).trans ?_
  rw [hp]

/-- The lane waits for a load exactly where a shadow has ended without its value (R75). -/
theorem tickLoads_stall : (tickLoads c).stall = .load ↔ ∃ x ∈ c.loads, x.left ≤ 1 ∧ x.arrived = false := by
  have hs : (tickLoads c).stall = if (tickLoads c).loads.any (fun x => x.left == 0) then .load else .none := rfl
  rw [hs, tickLoads_loads]
  have ha : (((c.loads.filter fun x => !x.due).map PendLoad.pass).any fun x => x.left == 0) = true ↔
      ∃ x ∈ c.loads, x.left ≤ 1 ∧ x.arrived = false := by
    simp only [List.any_map, List.any_eq_true, List.mem_filter, Function.comp_apply, PendLoad.pass, PendLoad.due, beq_iff_eq,
      Bool.not_eq_true', Bool.and_eq_false_iff, decide_eq_false_iff_not]
    constructor
    · rintro ⟨x, ⟨hx, h⟩, h0⟩
      exact ⟨x, hx, by omega, h.resolve_left (by omega)⟩
    · rintro ⟨x, hx, h1, h⟩
      exact ⟨x, ⟨hx, .inr h⟩, by omega⟩
  rw [← ha]
  split
  · exact iff_of_true rfl ‹_›
  · exact iff_of_false nofun ‹_›

/-! ## Loads -/

/-- The low `f` bits of a number, sign-extended. -/
theorem signExt_eq {v f : Nat} (h0 : 0 < f) (h : f < 32) : signExt v f = (BitVec.ofNat f v).signExtend 32 := by
  obtain ⟨g, rfl⟩ : ∃ g, f = g + 1 := ⟨f - 1, by omega⟩
  have hc : v % 2 ^ (g + 1) < 2 ^ g ↔ 2 * (v % 2 ^ (g + 1)) < 2 ^ (g + 1) := by omega
  rw [signExt, if_neg (by omega), if_neg (by omega), BitVec.signExtend, BitVec.toInt_eq_toNat_cond, BitVec.toNat_ofNat,
    Nat.add_sub_cancel]
  simp only [hc]

theorem slotBegins_checkAccess {t a n : Nat} {store : Bool} :
    checkAccess (slotBegins s k c).1 t a n store = checkAccess s t a n store := by
  obtain ⟨x, -, h⟩ := slotBegins_state (s := s) (k := k) (c := c)
  rw [h]
  rfl

theorem slotBegins_copyValue {a n : Nat} :
    copyValue (slotBegins s k c).1 k (slotBegins s k c).2 a n = copyValue (slotBegins s k c).1 k c a n :=
  congrArg ofLe (List.map_congr_left fun _ _ =>
    copyByte_congr (fun _ => rfl) rfl slotBegins_lane slotBegins_shadow slotBegins_seed _)

/-- The load shadow that a load of `n` bytes opens. -/
def openedLoad (s : State) (k : Nat) (c : Copy) (p : List Pre) (d b : BitVec 4) (n : Nat) (signed : Bool) : PendLoad :=
  let a := c.reg b.toNat + joinS p 0 0
  let v := copyValue (slotBegins s k c).1 k c a.toNat n
  { dst := d, val := if signed then signExt v (8 * n) else BitVec.ofNat 32 v, addr := a, left := 2, arrived := isScratch a.toNat
    size := n, signed := signed }

/-- A load whose access passes its checks changes nothing but that it opens its shadow. -/
theorem loadUnit_opens {dst b : BitVec 4} {n : Nat} {signed : Bool}
    (h : checkAccess s (keyTask k) (c.reg b.toNat + joinS p 0 0).toNat n false = none) :
    loadUnit p dst b n signed (slotBegins s k c).1 k (slotBegins s k c).2 =
      { s := (slotBegins s k c).1, c := (slotBegins s k c).2, load := some (openedLoad s k c p dst b n signed) } := by
  simp only [loadUnit, slotBegins_reg, slotBegins_checkAccess, h, slotBegins_copyValue]
  rfl

/-- A unit that passes to the next leaves its copy and the scheduling decision after it. -/
theorem answer_passed {y : Copy} {n : Nat} (h : UnitRuns s l p d k c) (hy : y.restart = none) :
    ∃ t b, answer s (atPermitted (chooseLane ((slotBegins s k c).1.setCopy k (some y)) n) k) = .next t ∧
      OnlyCopy [.ln] s k c.lane t ∧ t.copy k = some { y with winFull := y.winFull && b } ∧
      (∀ j, (t.lane j).scratch = ((slotBegins s k c).1.lane j).scratch) ∧ t.seq = (slotBegins s k c).1.seq := by
  have hs : Only [.ln] s (slotBegins s k c).1 := only_slotBegins .refl (List.Subset.refl _)
  rw [atPermitted_stays]
  · exact answer_stored (ps := []) hs (by simp) (by simp) (fun j _ => slotBegins_copies) (fun j => slotBegins_lanes) n
  · have hu : Only [.ln] s (chooseLane ((slotBegins s k c).1.setCopy k (some y)) n) :=
      only_chooseLane (only_setCopy hs (List.Subset.refl _)) (List.Subset.refl _)
    have hd := h.stays.1
    unfold stopping State.inst at *
    rwa [hu.seq_eq (by simp)]
  · intro x hx
    obtain ⟨b, hb⟩ := chooseLane_copies (s := (slotBegins s k c).1.setCopy k (some y)) (n := n) (j := k)
    rw [State.copy_setCopy, if_pos rfl, hx] at hb
    cases hb
    exact hy

/-- What a load leaves whose access passes its checks. -/
theorem load_passed {dst b : BitVec 4} {n : Nat} {signed : Bool} (h : UnitRuns s l p d k c)
    (ha : checkAccess s (keyTask k) (c.reg b.toNat + joinS p 0 0).toNat n false = none) :
    Ends (answer s (issue l.val p d (loadUnit p dst b n signed) s))
      (Passed s k c (p.length + 1) [] c.regs [] [] fun x => x.shadow = c.shadow ∧ Plain c x ∧
        x.loads.getLast? = some (openedLoad s k c p dst b n signed)) := by
  have hc := laneCopy_some h.copy
  obtain ⟨a, depth, pc, hg⟩ := go_seq (r := c.regs) (first := c.regs.pc) (n := p.length + 1)
  let z : Copy := { (slotBegins s k c).2 with regs := (slotBegins s k c).2.regs.go c.regs.pc (p.length + 1) .seq }
  have hz : z.regs = { c.regs with lc := a, depth := depth, pc := pc } := by
    show (slotBegins s k c).2.regs.go c.regs.pc (p.length + 1) .seq = _
    rw [slotBegins_regs, hg]
  obtain ⟨g, ls, st, ht⟩ := tickLoads_same (c := z)
  obtain ⟨t, w, h1, h2, h3, h4, h5⟩ := answer_passed (y := addLoad (tickLoads z) (some (openedLoad s k c p dst b n signed)))
    (n := (slotBegins s k c).2.lane) h (by rw [ht]; exact slotBegins_restart.trans h.stays.2)
  rw [issue_runs h, loadUnit_opens ha]
  refine ⟨t, h1, _, h3, fun j hj hq => ?_, ?_⟩
  · show (tickLoads z).reg j = c.reg j
    rw [tickLoads_reg hj (by simpa [quiet, z] using hq), Copy.reg, hz]
    rfl
  · rw [ht]
    refine ⟨by simp [addLoad, SpecialAs, hz], fun a => ?_, slotBegins_ended.trans hc.2.1,
      ⟨⟨slotBegins_shadow, ?_, ?_⟩, fun hd => ?_⟩, h2⟩
    · exact copyByte_congr h4 h5 slotBegins_lane slotBegins_shadow slotBegins_seed a
    · exact ⟨slotBegins_ws, slotBegins_items, slotBegins_chk, slotBegins_skip.trans h.noSkip⟩
    · exact List.getLast?_concat
    · have e : z.regs = _ := (congrArg (Regs.go · _ _ _) slotBegins_regs).trans (go_seq_outside (n := p.length + 1) hd)
      simp only [addLoad, e]
      exact ⟨hd, trivial, trivial⟩

/-- Settles O12: the loads by what their units leave, the end of a slot by the last load of each register. -/
theorem loadsAndShadows : Obligations.LoadsAndShadows := by
  unfold Obligations.LoadsAndShadows
  refine ⟨fun s l p k c d b => ⟨?_, ?_, ?_, ?_, ?_⟩,
    fun c j hj => ⟨tickLoads_reg_last hj, tickLoads_loads, tickLoads_stall, ?_⟩⟩
  · exact fun h ha => load_passed h ha
  · intro h ha
    rw [← signExt_eq (by decide) (by decide)]
    exact load_passed h ha
  · exact fun h ha => load_passed h ha
  · intro h ha
    rw [← signExt_eq (by decide) (by decide)]
    exact load_passed h ha
  · exact fun h ha => load_passed h ha
  · obtain ⟨g, ls, st, ht⟩ := tickLoads_same (c := c)
    rw [ht]
    exact ⟨rfl, rfl, rfl⟩

end Sys2Proof.Machine
end

section
/-! What the end of a copy, and of a run of its task, leaves of the tasks: the fault codes of all of them (R93, R94). -/
namespace Sys2Proof.Machine

variable {s t u : State} {n k : Nat} {ps : List Part}

/-- Every task has the same fault code in both states. -/
def SameFaults (s t : State) : Prop := ∀ n, (t.task n).fault = (s.task n).fault

namespace SameFaults

theorem refl : SameFaults s s := fun _ => rfl

/-- The task states are the same. -/
theorem tasks (h : SameFaults s t) (k : u.seq.tasks = t.seq.tasks) : SameFaults s u := by
  intro n
  rw [State.task, k]
  exact h n

/-- The sequencer is the same. -/
theorem only (h : SameFaults s t) (k : Only ps t u) (hp : .seq ∉ ps) : SameFaults s u := h.tasks (by rw [k.seq_eq hp])

/-- A task's state changes, but for its fault code. -/
theorem modTask {f : TaskSt → TaskSt} (h : SameFaults s t) (hf : ∀ x, (f x).fault = x.fault) :
    SameFaults s (t.modTask n f) := by
  intro m
  rw [State.task_modTask]
  split
  · subst_vars
    rw [hf, h]
  · exact h m

/-- Every task's state changes, but for its fault code. -/
theorem mapTasks {f : TaskSt → TaskSt} (h : SameFaults s t) (hf : ∀ x, (f x).fault = x.fault)
    (hd : f {} = {}) : SameFaults s (t.onSeq fun q => { q with tasks := q.tasks.map fun e => (e.1, f e.2) }) := by
  intro m
  refine Eq.trans ?_ (h m)
  have get (l : Tab TaskSt) : tabGet {} (l.map fun e => (e.1, f e.2)) m = f (tabGet {} l m) := by
    induction l with
    | nil => exact hd.symm
    | cons e l ih =>
      rw [List.map_cons, tabGet, tabGet, ih]
      split <;> rfl
  exact (congrArg TaskSt.fault (get t.seq.tasks)).trans (hf _)

theorem foldl {α : Type} {l : List α} {f : State → α → State} (h : SameFaults s t)
    (hf : ∀ u x, SameFaults s u → SameFaults s (f u x)) : SameFaults s (l.foldl f t) := by
  induction l generalizing t with
  | nil => exact h
  | cons x l ih => exact ih (hf t x h)

/-! ## Parts of the state -/

theorem onSeq {f : Seq → Seq} (h : SameFaults s t) (hf : (f t.seq).tasks = t.seq.tasks) : SameFaults s (t.onSeq f) := h.tasks hf

theorem onCan {f : Canopy → Canopy} (h : SameFaults s t) : SameFaults s (t.onCan f) := h.tasks rfl

theorem onPkg {f : Pkg → Pkg} (h : SameFaults s t) : SameFaults s (t.onPkg f) := h.tasks rfl

theorem setInst {i : Option Inst} (h : SameFaults s t) : SameFaults s (t.setInst n i) := h.tasks rfl

theorem setCopy {c : Option Copy} (h : SameFaults s t) : SameFaults s (t.setCopy k c) := h.tasks rfl

theorem modLane {f : Lane → Lane} (h : SameFaults s t) : SameFaults s (t.modLane n f) := h.tasks rfl

theorem drawn (h : SameFaults s t) : SameFaults s t.drawn := h.tasks rfl

theorem setCfg {c : Tab Word} (h : SameFaults s t) : SameFaults s { t with cfg := c } := h.tasks rfl

theorem record {code : Nat} {items : List RItem} (h : SameFaults s t) : SameFaults s (record t code items) :=
  h.only (only_record .refl (List.Subset.refl _)) (by decide)

theorem ueBack (h : SameFaults s t) : SameFaults s (ueBack t k) :=
  h.only (only_ueBack .refl (List.Subset.refl _)) (by decide)

theorem unneed (h : SameFaults s t) : SameFaults s (unneed t n) :=
  h.only (only_unneed .refl (List.Subset.refl _)) (by decide)

theorem seeS (h : SameFaults s t) : SameFaults s (seeS t) := h.onSeq rfl

/-! ## Copies and lanes -/

theorem ageCopy {c : Copy} (h : SameFaults s t) : SameFaults s (ageCopy t k c) :=
  record (seeS (modTask (setCopy h) fun _ => rfl))

theorem decideLane (h : SameFaults s t) : SameFaults s (decideLane t n) := by
  unfold Machine.decideLane
  refine only (foldl h fun u x hu => ?_) (only_chooseLane .refl (List.Subset.refl _)) (by decide)
  split
  · exact hu.ageCopy
  · exact hu

theorem decideLanes {l : List Nat} (h : SameFaults s t) : SameFaults s (decideLanes t l) := foldl h fun _ _ hu => hu.decideLane

theorem leaveLane (h : SameFaults s t) : SameFaults s (leaveLane t n k) := decideLane (modLane h)

theorem dropCopies (h : SameFaults s t) : SameFaults s (dropCopies t n) := by
  unfold Machine.dropCopies
  refine decideLanes (foldl (foldl ?_ fun u x hu => setCopy (ueBack hu)) fun u x hu => ?_)
  · split
    · split
      · exact modLane h
      · exact h
    · exact h
  · dsimp only
    split
    · exact modLane (modLane hu)
    · exact modLane hu

theorem placeCopies (h : SameFaults s t) : SameFaults s (placeCopies t n) :=
  decideLanes (foldl h fun _ _ hu => drawn (setCopy hu))

theorem dropCopy {c : Copy} (h : SameFaults s t) : SameFaults s (dropCopy t k c) := by
  unfold Machine.dropCopy
  refine decideLane ?_
  split
  · exact modLane (modLane (setCopy (ueBack h)))
  · exact modLane (setCopy (ueBack h))

/-! ## Instances -/

theorem startNext (h : SameFaults s t) : SameFaults s (startNext t n) := by
  unfold Machine.startNext
  split
  · exact placeCopies (onCan (setInst (setInst h)))
  · exact h

theorem endInst (h : SameFaults s t) : SameFaults s (endInst t n) :=
  startNext (unneed (onSeq (setInst (dropCopies h)) rfl))

theorem dropNext (h : SameFaults s t) : SameFaults s (dropNext t n) := by
  unfold Machine.dropNext
  split
  · exact unneed (onSeq (setInst h) rfl)
  · exact h

theorem stopInst (h : SameFaults s t) : SameFaults s (stopInst t n) := onSeq (endInst (dropNext h)) rfl

theorem stopCopy (h : SameFaults s t) : SameFaults s (stopCopy t k) := by
  unfold Machine.stopCopy
  split
  · split_ifs
    · exact h.stopInst
    · exact h.dropCopy
    · exact h
  · exact h

theorem notePcs (h : SameFaults s t) : SameFaults s (notePcs t n) := by
  unfold Machine.notePcs
  dsimp only
  split
  · exact onSeq h rfl
  · exact h

/-! ## The exchange -/

theorem publish {o : Option Nat} {b : List (Nat × Byte)} (h : SameFaults s t) : SameFaults s (publish t o b) := by
  have h1 : SameFaults s ((linesOf b).foldl (retainLine o) t) :=
    h.foldl fun _ _ hu => hu.only (only_retainLine .refl (List.Subset.refl _)) (by decide)
  unfold Machine.publish
  cases o with
  | none => exact only (onSeq (onCan h1) rfl) (only_notePool .refl (List.Subset.refl _)) (by decide)
  | some o => exact onSeq (onCan h1) rfl

theorem switchTasks {p : Plan} {ts : List Nat} (h : SameFaults s t) : SameFaults s (switchTasks t p ts) := by
  unfold Machine.switchTasks
  refine foldl (foldl h.publish fun u x hu => record hu) fun u x hu => ?_
  exact modTask (hu.only (only_installTask .refl (List.Subset.refl _)) (by decide)) fun _ => rfl

theorem switchHeld {p : Plan} (h : SameFaults s t) : SameFaults s (switchHeld t p) := by
  unfold Machine.switchHeld
  dsimp only
  split
  · exact h
  · exact onPkg (switchTasks h)

theorem release (h : SameFaults s t) : SameFaults s (release t n) := by
  unfold Machine.release
  dsimp only
  split
  · exact onSeq (modTask (setInst h) fun _ => rfl) rfl
  · exact placeCopies (onSeq (modTask (setInst h) fun _ => rfl) rfl)

theorem switchCoord {p : Plan} (h : SameFaults s t) : SameFaults s (switchCoord t p) := by
  unfold Machine.switchCoord
  refine foldl h.switchHeld fun u x hu => ?_
  split
  · exact hu
  · exact release (hu.modTask fun _ => rfl)

theorem finishWaits {f : Wait → Bool} {a b c d : Nat} (h : SameFaults s t) : SameFaults s (finishWaits t f a b c d) :=
  h.only (only_finishWaits .refl (List.Subset.refl _)) (by decide)

theorem zeroGone {p : Plan} {ts : List Nat} (h : SameFaults s t) : SameFaults s (zeroGone t p ts) := publish h

theorem unswitch (h : SameFaults s t) :
    SameFaults s (t.onSeq fun q => { q with tasks := q.tasks.map fun e => (e.1, { e.2 with switched := false }) }) :=
  h.mapTasks (f := fun x => { x with switched := false }) (fun _ => rfl) rfl

theorem exchCheckDone (h : SameFaults s t) : SameFaults s (exchCheckDone t) := by
  unfold Machine.exchCheckDone
  split
  · split
    · exact finishWaits (unswitch (onPkg (setCfg (record (zeroGone h)))))
    · exact h
  · exact h

theorem arrive {p : Plan} (h : SameFaults s t) : SameFaults s (arrive t p n) := by
  have h1 : SameFaults s (t.modTask n fun x => { x with heldAt := some t.now }) := h.modTask fun _ => rfl
  unfold Machine.arrive
  dsimp only
  split
  · exact h1.switchCoord.exchCheckDone
  · exact h1

theorem afterEnd (h : SameFaults s t) : SameFaults s (afterEnd t n) := by
  unfold Machine.afterEnd
  split
  · refine exchCheckDone ?_
    split
    · exact h.arrive
    · exact h
  · exact h

theorem endNoCommit (h : SameFaults s t) : SameFaults s (endNoCommit t n) := afterEnd (endInst (notePcs h))

/-! ## Permitted boundaries -/

theorem atPermitted (h : SameFaults s t) : SameFaults s (atPermitted t k) := by
  have hs := h.stopCopy (k := k)
  unfold Machine.atPermitted
  dsimp only
  split
  · split
    · split
      · exact leaveLane (decideLane (hs.only (only_restartCopy .refl (List.Subset.refl _)) (by decide)))
      · exact hs
    · exact hs
  · exact hs

end SameFaults
end Sys2Proof.Machine
end

section
/-! The faults of units: which code the task takes, where fetching, decoding or the operation itself faults (R93, R94, R132). -/
namespace Sys2Proof.Machine

variable {s u : State} {l : LaneId} {p : List Pre} {d : Dec} {k code : Nat} {c : Copy} {errs : List EccErr}
  {body : State → Nat → Copy → Res} {i : Instr}

/-! ## The code that the task takes -/

/-- The task of a copy that a fault ends takes the code of the fault. -/
theorem faultCopy_fault (h : keyTask k < 64) : ((faultCopy s k c code).task (keyTask k)).fault = BitVec.ofNat 8 code := by
  unfold faultCopy
  dsimp only
  rw [if_neg (by omega), if_neg (by omega)]
  generalize record _ _ _ = u
  have taken : ((u.modTask (keyTask k) fun x => { x with fault := BitVec.ofNat 8 code }).task (keyTask k)).fault =
      BitVec.ofNat 8 code := by rw [State.task_modTask, if_pos rfl]
  generalize (u.modTask (keyTask k) fun x => { x with fault := BitVec.ofNat 8 code }) = v at *
  have kept : SameFaults v (if pairedCopy v k = true then v else endNoCommit v (keyTask k)) := by
    split
    · exact .refl
    · exact SameFaults.refl.endNoCommit
  exact (kept.leaveLane _).trans taken

/-- What waits for the end of that copy leaves the code. -/
theorem ends_faultCopy (h : keyTask k < 64) :
    Ends (answer s (atPermitted (faultCopy u k c code) k)) fun t => (t.task (keyTask k)).fault = BitVec.ofNat 8 code :=
  ⟨_, answer_next, ((SameFaults.refl.atPermitted (k := k)) _).trans (faultCopy_fault h)⟩

/-! ## Fetching and decoding -/

/-- A lane without an issuing copy does nothing. -/
theorem answer_issue_none (h : laneCopy s l.val = none) : answer s (issueWith errs l.val p d body s) = .next s := by
  rw [issueWith, h]
  rfl

/-- A unit with a word outside the code (R93). -/
theorem issueWith_outside (h : laneCopy s l.val = some (k, c)) (hc : inCode s k c.regs.pc (p.length + 1) = false) :
    issueWith errs l.val p d body s = faultEnds (slotBegins s k c).1 k (slotBegins s k c).2 fcPcRange := by
  simp [issueWith, h, hc]

/-- A unit that is not skipped and meets a decode fault (R132). -/
theorem issueWith_undecoded (h : laneCopy s l.val = some (k, c)) (hc : inCode s k c.regs.pc (p.length + 1) = true)
    (hs : c.skip = false) (hf : decodeFault d p = some code) :
    issueWith errs l.val p d body s = faultEnds (slotBegins s k c).1 k (slotBegins s k c).2 code := by
  simp [issueWith, h, hc, hs, hf]

/-- Every command of a lane is a unit that the lane issues. -/
theorem laneUnit_exec (h : laneUnit i = some (l, p, d)) :
    ∃ errs body, exec i s = answer s (issueWith errs l.val p d body s) := by
  cases i
  case halt _ _ errs =>
    cases h
    exact ⟨errs, _, rfl⟩
  case unassignedEncoding l p w =>
    rw [laneUnit] at h
    split at h
    · cases h
    · rename_i hw
      cases h
      exact ⟨[], _, congrArg (answer s) (if_neg hw)⟩
  all_goals
    cases h
  all_goals
    exact ⟨[], _, rfl⟩

/-! ## The order of the decode faults (R132) -/

theorem decodeFault_illegal (h : d.legal = false) : decodeFault d p = some fcIllegal := by
  simp [decodeFault, h]

theorem decodeFault_extCount (h : d.legal = true) (he : 3 < extCount p) : decodeFault d p = some fcExtCount := by
  simp [decodeFault, h, he]

theorem decodeFault_repConflict (h : d.legal = true) (he : extCount p ≤ 3) (hr : 0 < repCount p) (hw : d.writesRep = true) :
    decodeFault d p = some fcRepConflict := by
  simp [decodeFault, h, Nat.not_lt.mpr he, hr, hw]

theorem decodeFault_prefix (h : d.legal = true) (he : extCount p ≤ 3) (hr : repCount p = 0 ∨ d.writesRep = false)
    (hp : 1 < repCount p ∨ 0 < extCount p ∧ d.ext = false ∨ 0 < repCount p ∧ d.rep = false) :
    decodeFault d p = some fcPrefix := by
  have hc : ¬ (0 < repCount p ∧ d.writesRep = true) := by
    rintro ⟨h0, hw⟩
    rcases hr with hr | hr
    · omega
    · exact Bool.false_ne_true (hr.symm.trans hw)
  have hq : ((1 < repCount p ∨ extBeforeRep p = true) ∨ 0 < extCount p ∧ d.ext = false) ∨
      0 < repCount p ∧ d.rep = false := by tauto
  simp [decodeFault, h, Nat.not_lt.mpr he, hc, hq]

/-- Settles O20: each command is a unit issued on its lane, whose fetch and decode faults end its copy. -/
theorem decodeFaults : Obligations.DecodeFaults := by
  unfold Obligations.DecodeFaults
  intro s i l p d k c hi t0 ext rep
  obtain ⟨errs, body, he⟩ := laneUnit_exec (s := s) hi
  rw [he]
  have undecoded {code : Nat} (h : laneCopy s l.val = some (k, c)) (ht : t0 < 64)
      (hc : inCode s k c.regs.pc (p.length + 1) = true) (hs : c.skip = false) (hf : decodeFault d p = some code) :
      Ends (answer s (issueWith errs l.val p d body s)) fun t => (t.task t0).fault = BitVec.ofNat 8 code := by
    rw [issueWith_undecoded h hc hs hf]
    exact ends_faultCopy ht
  refine ⟨answer_issue_none, fun h ht hc => ?_, fun h ht hc hs => ⟨fun hd => ?_, fun hd hx => ?_, fun hd hx hr hw => ?_,
    fun hd hx hr hp => ?_⟩⟩
  · rw [issueWith_outside h hc]
    exact ends_faultCopy ht
  · exact undecoded h ht hc hs (decodeFault_illegal hd)
  · exact undecoded h ht hc hs (decodeFault_extCount hd hx)
  · exact undecoded h ht hc hs (decodeFault_repConflict hd hx hr hw)
  · exact undecoded h ht hc hs (decodeFault_prefix hd hx hr hp)

/-! ## Operations that fault -/

/-- A unit that runs and whose operation faults. -/
theorem ends_operationFault (h : UnitRuns s l p d k c) (ht : keyTask k < 64)
    (hf : (body (slotBegins s k c).1 k (slotBegins s k c).2).flow = .fault code) :
    Ends (answer s (issue l.val p d body s)) fun t => (t.task (keyTask k)).fault = BitVec.ofNat 8 code := by
  rw [issue_runs h, unitEnds, unitLeaves, hf]
  exact ends_faultCopy ht

theorem slotBegins_cfg : (slotBegins s k c).1.cfg = s.cfg := by
  obtain ⟨x, -, h⟩ := slotBegins_state (s := s) (k := k) (c := c)
  rw [h]

/-- A division by 0 faults where its task traps it (R124). -/
theorem divUnit_traps {b : Bool} {q v : BitVec 3} (h0 : c.reg v.toNat = 0) (ht : tDzTrap s.cfg (keyTask k) = true) :
    (divUnit b q v s k c).flow = .fault fcDivZero := by
  simp [divUnit, divideWith, h0, ht]

/-- A system register exists where its number is listed (R550). -/
theorem sysReg_eq_none {t : Tab Word} {n : Nat} : sysReg s t n = none ↔ regRow n = none := Option.map_eq_none_iff

/-- `SYS` of a number without a register faults (R158). -/
theorem sysUnit_faults {x n : Nat} (h : regRow n = none) : (sysUnit x n s k c).flow = .fault fcIllegal := by
  have hv : sysValue s c (keyTask k) n = none := by rw [sysValue, sysReg_eq_none.mpr h]
  simp only [sysUnit, hv]

/-- Settles O22: each operation leads to its fault, which ends the copy. -/
theorem operationFaults : Obligations.OperationFaults := by
  unfold Obligations.OperationFaults
  intro s l p k c q v r len sr w t0 faults ht
  refine ⟨fun h h0 hz => ?_, fun h h0 hz => ?_, fun h hd => ?_, fun h => ?_, fun h hn => ?_, fun h hc hs hw => ?_, fun hw => ?_⟩
  · exact ends_operationFault h ht (divUnit_traps (slotBegins_reg.trans h0) (by rwa [slotBegins_cfg]))
  · exact ends_operationFault h ht (divUnit_traps (slotBegins_reg.trans h0) (by rwa [slotBegins_cfg]))
  · -- LOOP at depth 4
    refine ends_operationFault (code := fcLoopDepth) h ht ?_
    simp [flowUnit, loopUnit, hd]
  · -- CFG of an ordinary task
    refine ends_operationFault (code := fcPrivilege) h ht ?_
    simp only [cfgUnit]
    rw [if_pos ht]
  · exact ends_operationFault h ht (sysUnit_faults (sysReg_eq_none.mp hn))
  · -- an unassigned word
    have hi : laneUnit (.unassignedEncoding l p w) = some (l, p, { legal := false }) := if_neg (Bool.eq_false_iff.mp hw)
    obtain ⟨errs, body, he⟩ := laneUnit_exec (s := s) hi
    show Ends (exec (.unassignedEncoding l p w) s) _
    rw [he, issueWith_undecoded h hc hs (decodeFault_illegal rfl)]
    exact ends_faultCopy ht
  · exact congrArg (answer s) (if_pos hw)

end Sys2Proof.Machine
end

section
/-! Refutations by copies listed out of order or twice: a bit store, and a misaligned store of a paired copy. -/
namespace Sys2Proof.Machine

/-! ## The low mark of the shadow pool after a bit store -/

/-- Copy 0, of task 0: BW is the address of a line of the task's own, the window copy is filled, and RLO is 1. -/
def bitStoringCopy : Copy := { lane := 0, started := true, winFull := true, regs := { bw := 0x10060000, rlo := true } }

/-- Lane 0 runs a copy that stores a bit, beside copies listed as in `storeBesideUnsortedCopies`. -/
def bitStoreBesideUnsortedCopies : State :=
  { storeBesideUnsortedCopies with
    ln := { storeBesideUnsortedCopies.ln with copies := [(0, some bitStoringCopy), (8, none), (4, some agedCopy)] } }

/-- The switch to copy 4 after the bit store lists that copy a second time, so that the pool holds a line more than the low
mark has noted. -/
theorem bitStoreBesideUnsortedCopies_lowMark : endsTest (exec (.bst 0 [] 0) bitStoreBesideUnsortedCopies)
    (fun t => decide (t.can.low = bitStoreBesideUnsortedCopies.can.low ∨
      t.can.low = min bitStoreBesideUnsortedCopies.can.low (32768 - poolUsed t))) = false := by
  decide +kernel

/-- Refutes O10: a bit store notes the low mark of the pool before the scheduling decision, as a byte store does, and where
the table of copies is not in canonical form, the switch to another copy changes what the pool counts. -/
theorem not_bitWrites : ¬ Obligations.BitWrites := by
  unfold Obligations.BitWrites
  intro h
  have room : Room bitStoreBesideUnsortedCopies 0 bitStoringCopy
      ((winBase bitStoringCopy + (joinZ [] (0 : BitVec 9).toNat 9).toNat / 8) % 2 ^ 32) := by
    unfold Room
    decide +kernel
  have runs : Runs bitStoreBesideUnsortedCopies (.bst 0 [] 0) 0 bitStoringCopy :=
    ⟨by decide +kernel, by decide +kernel, by decide +kernel, by decide +kernel, by decide +kernel⟩
  obtain ⟨hbst, -⟩ := h bitStoreBesideUnsortedCopies 0 [] 0 bitStoringCopy 0 (by decide +kernel) room (by decide +kernel)
  refine not_ends_of_test bitStoreBesideUnsortedCopies_lowMark (fun t ht => ?_) (hbst runs)
  obtain ⟨-, -, hlow⟩ := ht
  exact decide_eq_true hlow

/-! ## A fault of a copy listed twice -/

/-- Copy 1, the twin of task 0: its G2 is an address that is not a multiple of 4. -/
def misalignedCopy : Copy :=
  { lane := 0, started := true, regs := { g := (Vector.replicate 16 0).set 2 0x10060001 } }

/-- A copy of lane 0 that has not started. -/
def waitingCopy : Copy := { lane := 0, regs := {} }

/-- Lane 0 runs copy 1; task 0 is past its starvation bound. The table of copies is not in canonical form: key 1 is listed
twice. -/
def faultWithCopyTwice : State :=
  { takeoverWithCopyTwice with
    ln := { lanes := [(0, { role := .bound, acts := some 0, running := some 1 })]
            copies := [(1, some misalignedCopy), (1, some waitingCopy)] } }

/-- After the misaligned store the copy has not ended. -/
theorem faultWithCopyTwice_ended : endsTest (exec (.stw 0 [] 1 2) faultWithCopyTwice)
    (fun t => decide ((t.copy 1).map (fun x => x.ended.isSome) = some true)) = false := by
  decide +kernel

/-- Refutes O21: the scheduling decision on the lane that a copy leaves ages each copy that the table lists for that lane
(R177); where the table lists the key of the faulted copy twice, the copy aged takes its place. -/
theorem not_accessFaults : ¬ Obligations.AccessFaults := by
  unfold Obligations.AccessFaults
  intro h
  obtain ⟨halign, -⟩ := h faultWithCopyTwice 0 [] 1 misalignedCopy 1 2 (by decide)
  have runs : Runs faultWithCopyTwice (.stw 0 [] 1 2) 1 misalignedCopy :=
    ⟨by decide +kernel, by decide +kernel, by decide +kernel, by decide +kernel, by decide +kernel⟩
  refine not_ends_of_test faultWithCopyTwice_ended (fun t ht => ?_) (halign runs (by decide +kernel))
  obtain ⟨-, hcopy⟩ := ht
  obtain ⟨x, hx, hended, -⟩ := hcopy (by decide +kernel)
  exact decide_eq_true (by rw [hx, Option.map_some, hended, Option.isSome_some])

end Sys2Proof.Machine
end

section
/-! The flags of the register ALU (R63, R97, R116-R118), and the units that write a general register and FL. -/
namespace Sys2Proof.Machine

variable {s : State} {l : LaneId} {p : List Pre} {k : Nat} {c : Copy} {d : Dec}

/-! ## Flags -/

theorem b2n_eq (b : Bool) : b2n b = b.toNat := by cases b <;> rfl

theorem addWith_fst (a b : Word) (cin : Bool) : (addWith a b cin).1 = a + b + BitVec.ofNat 32 cin.toNat := by
  simp only [addWith, b2n_eq, BitVec.ofNat_add, BitVec.ofNat_toNat, BitVec.setWidth_eq]

/-- The flags that an addition writes are those of its sum (R116). -/
theorem flZNCV_addWith (f : BitVec 5) (a b : Word) (cin : Bool) :
    flZNCV f (addWith a b cin).1 (addWith a b cin).2.1 (addWith a b cin).2.2 = sumFlags f a b cin := by
  rw [addWith_fst, sumFlags, ← b2n_eq]
  exact flPack_eq

theorem flZN_eq {f : BitVec 5} {r : Word} : flZN f r = resultFlags f r := flPack_eq

theorem flShift_eq {f : BitVec 5} {r : Word} {o : Option Bool} :
    flShift f r o = carryFlags f r (o.getD (f.getLsbD 2)) := flPack_eq

theorem flDiv_eq {f : BitVec 5} {q : Word} {v z : Bool} : flDiv f q v z = overflowFlags f q v (f.getLsbD 4 || z) := flPack_eq

/-! ## Units that write registers and flags -/

/-- A unit that writes one general register and FL. -/
theorem setRegFl_wrote {f : Copy → Copy} {i : Nat} {v : Word} {e : BitVec 5} (h : UnitRuns s l p d k c)
    (hf : ∀ x : Copy, x.regs = c.regs → f x = (x.setReg i v).setFl e) :
    Ends (answer s (issue l.val p d (pureUnit f) s)) (Wrote s k c (p.length + 1) [(i, v)] { c.regs with fl := e }) :=
  pure_wrote (r := { c.regs with fl := e }) (g := c.regs.g.setIfInBounds i v) h
    (fun x hx => ⟨x.winFull, by rw [hf x hx, Copy.setReg_eq, Copy.setFl, hx]⟩) rfl fun _ hj => lookup_one hj

/-- A unit that writes FL alone. -/
theorem setFl_wrote {f : Copy → Copy} {e : BitVec 5} (h : UnitRuns s l p d k c)
    (hf : ∀ x : Copy, x.regs = c.regs → f x = x.setFl e) :
    Ends (answer s (issue l.val p d (pureUnit f) s)) (Wrote s k c (p.length + 1) [] { c.regs with fl := e }) :=
  pure_wrote (r := { c.regs with fl := e }) (g := c.regs.g) h
    (fun x hx => ⟨x.winFull, by rw [hf x hx, Copy.setFl, hx]⟩) rfl fun _ _ => lookup_none

section
variable {i : Nat} {f : Copy → Word × Word × Bool} {a b r : Word} {cin : Bool}

/-- A sum of R116 kept in a register. -/
theorem addUnit_wrote (h : UnitRuns s l p d k c) (hr : a + b + BitVec.ofNat 32 cin.toNat = r)
    (hf : ∀ x : Copy, x.regs = c.regs → f x = (a, b, cin)) :
    Ends (answer s (issue l.val p d (pureUnit (addUnit i true f)) s))
      (Wrote s k c (p.length + 1) [(i, r)] { c.regs with fl := sumFlags c.regs.fl a b cin }) :=
  setRegFl_wrote h fun x hx => by
    rw [← hr, ← addWith_fst, ← flZNCV_addWith, addUnit, hf x hx, hx]
    rfl

/-- A sum of R116 that writes the flags only. -/
theorem addUnit_compared (h : UnitRuns s l p d k c) (hf : ∀ x : Copy, x.regs = c.regs → f x = (a, b, cin)) :
    Ends (answer s (issue l.val p d (pureUnit (addUnit i false f)) s))
      (Wrote s k c (p.length + 1) [] { c.regs with fl := sumFlags c.regs.fl a b cin }) :=
  setFl_wrote h fun x hx => by
    rw [← flZNCV_addWith, addUnit, hf x hx, hx]
    rfl

end

/-- A difference is the sum with the complement and a carry (R116). -/
theorem add_not_one (a b : Word) : a + ~~~b + BitVec.ofNat 32 true.toNat = a - b := by
  rw [BitVec.sub_eq_add_neg, BitVec.neg_eq_not_add, BitVec.add_assoc]
  rfl

theorem add_no_carry (a b : Word) : a + b + BitVec.ofNat 32 false.toNat = a + b := BitVec.add_zero _

/-- Settles O1: each form is an addition of R116, with the complement and a carry for the subtractions. -/
theorem registerSums : Obligations.RegisterSums := by
  unfold Obligations.RegisterSums
  intro s l p k c d r a b cy
  refine ⟨fun h => ?_, fun h => ?_, fun h => ?_, fun h => ?_, fun h => ?_, fun h => ?_, fun h => ?_⟩
  · -- MOV
    exact setReg_wrote (f := fun x => x.reg r.toNat) h fun x hx => Copy.reg_congr hx _
  · -- ADD
    exact addUnit_wrote h (add_no_carry a b) fun x hx => by simp only [Copy.reg_congr hx, a, b]
  · -- ADC
    exact addUnit_wrote h rfl fun x hx => by simp only [Copy.reg_congr hx, hx, a, b]; rfl
  · -- SUB
    exact addUnit_wrote h (add_not_one a b) fun x hx => by simp only [Copy.reg_congr hx, a, b]
  · -- SBC
    exact addUnit_wrote h rfl fun x hx => by simp only [Copy.reg_congr hx, hx, a, b]; rfl
  · -- CMP
    exact addUnit_compared h fun x hx => by simp only [Copy.reg_congr hx, a, b]
  · -- NEG
    have hn : 0 + ~~~b + BitVec.ofNat 32 true.toNat = -b := (add_not_one 0 b).trans (BitVec.zero_sub b)
    exact addUnit_wrote h hn fun x hx => by simp only [Copy.reg_congr hx, b]

section
variable {i : Nat} {f : Copy → Word} {r : Word}

/-- A bitwise result kept in a register. -/
theorem logicUnit_wrote (h : UnitRuns s l p d k c) (hf : ∀ x : Copy, x.regs = c.regs → f x = r) :
    Ends (answer s (issue l.val p d (pureUnit (logicUnit i true f)) s))
      (Wrote s k c (p.length + 1) [(i, r)] { c.regs with fl := resultFlags c.regs.fl r }) :=
  setRegFl_wrote h fun x hx => by
    rw [← flZN_eq, logicUnit, hf x hx, hx]
    rfl

/-- A bitwise result that writes the flags only. -/
theorem logicUnit_tested (h : UnitRuns s l p d k c) (hf : ∀ x : Copy, x.regs = c.regs → f x = r) :
    Ends (answer s (issue l.val p d (pureUnit (logicUnit i false f)) s))
      (Wrote s k c (p.length + 1) [] { c.regs with fl := resultFlags c.regs.fl r }) :=
  setFl_wrote h fun x hx => by
    rw [← flZN_eq, logicUnit, hf x hx, hx]
    rfl

end

/-- Settles O2: the bitwise forms by their result, the others as additions of R116. -/
theorem bitwiseAndImmediate : Obligations.BitwiseAndImmediate := by
  unfold Obligations.BitwiseAndImmediate
  intro s l p k c d r e imm a b x i
  refine ⟨fun h => ?_, fun h => ?_, fun h => ?_, fun h => ?_, fun h => ?_, fun h => ?_, fun h => ?_, fun h => ?_,
    fun h => ?_, fun h => ?_, fun h => ?_, fun h => ?_⟩
  · -- AND
    exact logicUnit_wrote h fun z hz => by simp only [Copy.reg_congr hz, a, b]
  · -- OR
    exact logicUnit_wrote h fun z hz => by simp only [Copy.reg_congr hz, a, b]
  · -- XOR
    exact logicUnit_wrote h fun z hz => by simp only [Copy.reg_congr hz, a, b]
  · -- TST
    exact logicUnit_tested h fun z hz => by simp only [Copy.reg_congr hz, a, b]
  · -- ANDI
    exact logicUnit_wrote h fun z hz => by simp only [Copy.reg_congr hz, x, i, immOf]
  · -- ORI
    exact logicUnit_wrote h fun z hz => by simp only [Copy.reg_congr hz, x, i, immOf]
  · -- XORI
    exact logicUnit_wrote h fun z hz => by simp only [Copy.reg_congr hz, x, i, immOf]
  · -- TSTI
    exact logicUnit_tested h fun z hz => by simp only [Copy.reg_congr hz, x, i, immOf]
  · -- MOVI
    exact setReg_wrote (f := fun _ => joinS p imm.toNat 2) h fun _ _ => rfl
  · -- ADDI
    exact addUnit_wrote h (add_no_carry x i) fun z hz => by simp only [Copy.reg_congr hz, x, i, immOf]
  · -- SUBI
    exact addUnit_wrote h (add_not_one x i) fun z hz => by simp only [Copy.reg_congr hz, x, i, immOf]
  · -- CMPI
    exact addUnit_compared h fun z hz => by simp only [Copy.reg_congr hz, x, i, immOf]

end Sys2Proof.Machine
end

section
/-! The shifts and rotates at every count (R97, R117, log entry 82). -/
namespace Sys2Proof.Machine

variable {s : State} {l : LaneId} {p : List Pre} {k : Nat} {c : Copy} {d : Dec} {a : Word} {n : Nat} {cy : Bool}

theorem shiftWith_lsl : (shiftWith .lsl a n).1 = a <<< n ∧
    (shiftWith .lsl a n).2.getD cy = if n = 0 then cy else if n ≤ 32 then a.getLsbD (32 - n) else false := by
  rcases Nat.lt_or_ge n 32 with h | h
  · by_cases h0 : n = 0
    · simp [shiftWith, h0]
    · simp [shiftWith, h0, Nat.le_of_lt_succ h, h.le]
  · have hz : a <<< n = 0 := BitVec.shiftLeft_eq_zero h
    rcases Nat.eq_or_lt_of_le h with rfl | h'
    · exact ⟨hz.symm, rfl⟩
    · simp [shiftWith, hz, show n ≠ 0 by omega, show ¬n ≤ 31 by omega, show n ≠ 32 by omega, show ¬n ≤ 32 by omega]

theorem shiftWith_lsr : (shiftWith .lsr a n).1 = a >>> n ∧
    (shiftWith .lsr a n).2.getD cy = if n = 0 then cy else a.getLsbD (n - 1) := by
  rcases Nat.lt_or_ge n 32 with h | h
  · by_cases h0 : n = 0
    · simp [shiftWith, h0]
    · simp [shiftWith, h0, Nat.le_of_lt_succ h]
  · have hz : a >>> n = 0 := BitVec.ushiftRight_eq_zero h
    rcases Nat.eq_or_lt_of_le h with rfl | h'
    · exact ⟨hz.symm, rfl⟩
    · have hb : a.getLsbD (n - 1) = false := BitVec.getLsbD_of_ge _ _ (by omega)
      simp [shiftWith, hz, hb, show n ≠ 0 by omega, show ¬n ≤ 31 by omega, show n ≠ 32 by omega]

/-- An arithmetic shift by the width or more leaves copies of the sign. -/
theorem sshiftRight_of_ge (h : 32 ≤ n) : a.sshiftRight n = if a.msb then BitVec.allOnes 32 else 0 := by
  cases hm : a.msb with
  | true => rw [BitVec.sshiftRight_eq_of_msb_true hm, BitVec.ushiftRight_eq_zero h, if_pos rfl, BitVec.not_zero]
  | false => rw [BitVec.sshiftRight_eq_of_msb_false hm, BitVec.ushiftRight_eq_zero h, if_neg Bool.false_ne_true]; rfl

theorem shiftWith_asr : (shiftWith .asr a n).1 = a.sshiftRight n ∧
    (shiftWith .asr a n).2.getD cy = if n = 0 then cy else if n ≤ 31 then a.getLsbD (n - 1) else a.msb := by
  by_cases h0 : n = 0
  · simp [shiftWith, h0]
  · by_cases h : n ≤ 31
    · simp [shiftWith, h0, h]
    · rw [sshiftRight_of_ge (by omega)]
      simp [shiftWith, h0, h]

theorem shiftWith_ror : (shiftWith .ror a n).1 = a.rotateRight n ∧
    (shiftWith .ror a n).2.getD cy = if n % 32 = 0 then cy else a.getLsbD (n % 32 - 1) := by
  by_cases h : n % 32 = 0
  · have ha : a.rotateRight n = a := by
      rw [BitVec.rotateRight_def, h, BitVec.ushiftRight_zero, BitVec.shiftLeft_eq_zero (Nat.le_refl 32), BitVec.or_zero]
    simp [shiftWith, h, ha]
  · have hm : a.rotateRight (n % 32) = a.rotateRight n := BitVec.rotateRight_mod_eq_rotateRight
    simp [shiftWith, h, hm]

/-- A shift of a register leaves what `shiftWith` gives for the low eight bits of the count. -/
theorem shiftUnit_wrote {op : ShiftOp} {i : Nat} {f : Copy → Word} {w r : Word} {b : Bool} (h : UnitRuns s l p d k c)
    (hs : (shiftWith op (c.reg i) (w.toNat % 256)).1 = r ∧
      (shiftWith op (c.reg i) (w.toNat % 256)).2.getD (c.regs.fl.getLsbD 2) = b)
    (hf : ∀ x : Copy, x.regs = c.regs → f x = w) :
    Ends (answer s (issue l.val p d (pureUnit (shiftUnit op i f)) s))
      (Wrote s k c (p.length + 1) [(i, r)] { c.regs with fl := carryFlags c.regs.fl r b }) :=
  setRegFl_wrote h fun x hx => by
    rw [← hs.1, ← hs.2, ← flShift_eq, shiftUnit, hf x hx, Copy.reg_congr hx, hx]

/-- Settles O3: the result and C of each shift at every count, for a count in a register and one in the instruction. -/
theorem shiftResults : Obligations.ShiftResults := by
  unfold Obligations.ShiftResults
  intro s l p k c d r e imm a n x m cy
  refine ⟨fun h => ?_, fun h => ?_, fun h => ?_, fun h => ?_, fun h => ?_, fun h => ?_, fun h => ?_, fun h => ?_⟩
  · exact shiftUnit_wrote h shiftWith_lsl fun z hz => Copy.reg_congr hz _
  · exact shiftUnit_wrote h shiftWith_lsr fun z hz => Copy.reg_congr hz _
  · exact shiftUnit_wrote h shiftWith_asr fun z hz => Copy.reg_congr hz _
  · exact shiftUnit_wrote h shiftWith_ror fun z hz => Copy.reg_congr hz _
  · exact shiftUnit_wrote h shiftWith_lsl fun _ _ => rfl
  · exact shiftUnit_wrote h shiftWith_lsr fun _ _ => rfl
  · exact shiftUnit_wrote h shiftWith_asr fun _ _ => rfl
  · exact shiftUnit_wrote h shiftWith_ror fun _ _ => rfl

end Sys2Proof.Machine
end

section
/-! Products and quotients (R97, R118, R124). -/
namespace Sys2Proof.Machine

variable {s : State} {l : LaneId} {p : List Pre} {k : Nat} {c : Copy} {d : Dec}

/-! ## Products -/

theorem mulUnit_wrote {i : Nat} {f : Copy → Word} {b : Word} (h : UnitRuns s l p d k c)
    (hf : ∀ x : Copy, x.regs = c.regs → f x = b) :
    Ends (answer s (issue l.val p d (pureUnit (mulUnit i f)) s))
      (Wrote s k c (p.length + 1) [(i, c.reg i * b)] { c.regs with
        fl := overflowFlags c.regs.fl (c.reg i * b) (mulOverflow (c.reg i) b) (c.regs.fl.getLsbD 4) }) :=
  setRegFl_wrote h fun x hx => by
    rw [← flMul_eq, mulUnit, hf x hx, Copy.reg_congr hx, hx]

/-! ## Quotients -/

/-- What `DIVS` and `DIVU` write, where no trap is taken. -/
def quotientUnit (signed : Bool) (q v : BitVec 3) (c : Copy) : Copy :=
  let r := divideWith signed (c.reg (2 * q.toNat)) (c.reg v.toNat)
  ((c.setReg (2 * q.toNat) r.1).setReg (2 * q.toNat + 1) r.2.1).setFl (flDiv c.regs.fl r.1 r.2.2.1 r.2.2.2)

theorem divideWith_byZero {signed : Bool} {a b : Word} : (divideWith signed a b).2.2.2 = (b == 0) := by
  by_cases h0 : b = 0
  · rw [divideWith, if_pos h0, beq_iff_eq.mpr h0]
  · rw [divideWith, if_neg h0, beq_false_of_ne h0]
    split_ifs
    · rfl
    · rfl
    · rfl

theorem divUnit_eq {signed : Bool} {q v : BitVec 3} (h : c.reg v.toNat = 0 → tDzTrap s.cfg (keyTask k) = false) :
    divUnit signed q v s k c = pureUnit (quotientUnit signed q v) s k c := by
  have hz : ((divideWith signed (c.reg (2 * q.toNat)) (c.reg v.toNat)).2.2.2 && tDzTrap s.cfg (keyTask k)) = false := by
    rw [divideWith_byZero]
    by_cases h0 : c.reg v.toNat = 0
    · rw [h h0, Bool.and_false]
    · rw [beq_false_of_ne h0, Bool.false_and]
  exact if_neg (Bool.eq_false_iff.mp hz)

/-- Units that do the same at the beginning of the slot leave the same. -/
theorem issue_congr {f g : State → Nat → Copy → Res} (h : UnitRuns s l p d k c)
    (e : f (slotBegins s k c).1 k (slotBegins s k c).2 = g (slotBegins s k c).1 k (slotBegins s k c).2) :
    issue l.val p d f s = issue l.val p d g s := by
  rw [issue_runs h, issue_runs h, e]

/-- A division that its task does not trap. -/
theorem divUnit_wrote {signed : Bool} {q v : BitVec 3} {x m : Word} {o z : Bool} (h : UnitRuns s l p d k c)
    (hz : c.reg v.toNat = 0 → tDzTrap s.cfg (keyTask k) = false)
    (hr : divideWith signed (c.reg (2 * q.toNat)) (c.reg v.toNat) = (x, m, o, z)) :
    Ends (answer s (issue l.val p d (divUnit signed q v) s))
      (Wrote s k c (p.length + 1) [(2 * q.toNat, x), (2 * q.toNat + 1, m)]
        { c.regs with fl := overflowFlags c.regs.fl x o (c.regs.fl.getLsbD 4 || z) }) := by
  rw [issue_congr h (divUnit_eq (by rwa [slotBegins_reg, slotBegins_cfg]))]
  refine pure_wrote (r := { c.regs with fl := overflowFlags c.regs.fl x o (c.regs.fl.getLsbD 4 || z) })
    (g := (c.regs.g.setIfInBounds (2 * q.toNat) x).setIfInBounds (2 * q.toNat + 1) m) h (fun y hy => ⟨y.winFull, ?_⟩) rfl
    fun j hj => lookup_two (by omega) hj
  rw [← flDiv_eq, quotientUnit, Copy.reg_congr hy, Copy.reg_congr hy, hr]
  simp only [Copy.setReg_eq, Copy.setFl, hy]

/-- The results of R97 and R124 for signed operands. -/
theorem divideWith_signed (y z : Word) : divideWith true y z =
    (if z = 0 then (if y.msb then 0x80000000 else 0x7FFFFFFF) else BitVec.ofInt 32 (y.toInt.tdiv z.toInt),
      if z = 0 then y else BitVec.ofInt 32 (y.toInt.tmod z.toInt), decide (y = 0x80000000 ∧ z = 0xFFFFFFFF), z == 0) := by
  by_cases h0 : z = 0
  · subst h0
    simp [divideWith]
  · by_cases hm : y = 0x80000000 ∧ z = 0xFFFFFFFF
    · obtain ⟨rfl, rfl⟩ := hm
      decide
    · have hr : y.toInt - y.toInt.tdiv z.toInt * z.toInt = y.toInt.tmod z.toInt := by
        rw [Int.tmod_def, Int.mul_comm]
      have hb : (true && decide (y = 0x80000000) && decide (z = 0xFFFFFFFF)) = false := by simpa using hm
      rw [divideWith, if_neg h0, hb, if_neg h0, if_neg h0, decide_eq_false hm, beq_false_of_ne h0, ← hr]
      rfl

/-- The results of R97 and R124 for unsigned operands. -/
theorem divideWith_unsigned (y z : Word) : divideWith false y z =
    (if z = 0 then 0xFFFFFFFF else y / z, if z = 0 then y else y % z, false, z == 0) := by
  by_cases h0 : z = 0
  · subst h0
    simp [divideWith]
  · have hq : BitVec.ofNat 32 (y.toNat / z.toNat) = y / z := by
      rw [← BitVec.toNat_udiv, BitVec.ofNat_toNat, BitVec.setWidth_eq]
    have hm : BitVec.ofNat 32 (y.toNat % z.toNat) = y % z := by
      rw [← BitVec.toNat_umod, BitVec.ofNat_toNat, BitVec.setWidth_eq]
    rw [divideWith, if_neg h0, if_neg h0, if_neg h0, beq_false_of_ne h0, ← hq, ← hm]
    rfl

/-- Settles O4: the product with the overflow of R97, the quotients by what `divideWith` gives. -/
theorem productsAndQuotients : Obligations.ProductsAndQuotients := by
  unfold Obligations.ProductsAndQuotients
  intro s l p k c d r e imm q v a b x i y z dz big
  refine ⟨fun h => ?_, fun h => ?_, fun h hz => ?_, fun h hz => ?_⟩
  · exact mulUnit_wrote h fun w hw => Copy.reg_congr hw _
  · exact mulUnit_wrote h fun _ _ => rfl
  · exact divUnit_wrote h hz (divideWith_signed y z)
  · exact divUnit_wrote h hz (divideWith_unsigned y z)

end Sys2Proof.Machine
end

section
/-! The operations on RLO, parity and the bit reversals (R121, R155). -/
namespace Sys2Proof.Machine

variable {s : State} {l : LaneId} {p : List Pre} {k : Nat} {c : Copy} {d : Dec}

/-! ## The bits of numbers -/

theorem b2w_eq (b : Bool) : b2w b = BitVec.ofNat 32 b.toNat := by cases b <;> rfl

/-- The low `n` bits reversed: bit `j` is bit n - 1 - j. -/
theorem testBit_revBits (n v j : Nat) : (revBits n v).testBit j = (decide (j < n) && v.testBit (n - 1 - j)) := by
  induction n generalizing v j with
  | zero => simp [revBits]
  | succ n ih =>
    have hlt : revBits n (v / 2) < 2 ^ n :=
      Nat.lt_pow_two_of_testBit _ fun i hi => by rw [ih, decide_eq_false (by omega), Bool.false_and]
    rw [revBits, Nat.mul_comm, Nat.testBit_two_pow_mul_add _ hlt, ih, Nat.testBit_div_two]
    rcases Nat.lt_trichotomy j n with h | rfl | h
    · rw [if_pos h, decide_eq_true h, decide_eq_true (by omega), show n - 1 - j + 1 = n + 1 - 1 - j by omega]
    · simp
    · obtain ⟨i, rfl⟩ : ∃ i, j = n + 1 + i := ⟨j - (n + 1), by omega⟩
      have h2 : (v % 2).testBit (i + 1) = false := by
        rw [Nat.testBit_succ, Nat.div_eq_of_lt (Nat.mod_lt v two_pos), Nat.zero_testBit]
      rw [if_neg (by omega), decide_eq_false (by omega), Bool.false_and, show n + 1 + i - n = i + 1 by omega, h2]

theorem popcount_eq_countP (n v : Nat) : popcount n v = (List.range n).countP v.testBit := by
  induction n generalizing v with
  | zero => rfl
  | succ n ih =>
    have ht : v.testBit ∘ Nat.succ = (v / 2).testBit := funext fun j => Nat.testBit_succ v j
    have h0 : v % 2 = if v.testBit 0 = true then 1 else 0 := by
      rw [Nat.testBit_zero]
      rcases Nat.mod_two_eq_zero_or_one v with h | h <;> simp [h]
    rw [popcount, ih, List.range_succ_eq_map, List.countP_cons, List.countP_map, ht, h0, Nat.add_comm]

/-- The bits of a number that bytes spell. -/
theorem testBit_ofLe (bs : List Byte) (j : Nat) : (ofLe bs).testBit j = (bs.getD (j / 8) 0).getLsbD (j % 8) := by
  induction bs generalizing j with
  | nil => simp [ofLe]
  | cons b bs ih =>
    have hb : b.toNat < 2 ^ 8 := b.isLt
    rw [ofLe, Nat.add_comm, show (256 : Nat) = 2 ^ 8 from rfl, Nat.testBit_two_pow_mul_add _ hb]
    by_cases h : j < 8
    · rw [if_pos h, Nat.div_eq_of_lt h, Nat.mod_eq_of_lt h, BitVec.testBit_toNat]
      rfl
    · obtain ⟨i, rfl⟩ : ∃ i, j = i + 8 := ⟨j - 8, by omega⟩
      rw [if_neg h, Nat.add_sub_cancel, ih, Nat.add_div_right i (by decide), Nat.add_mod_right]
      rfl

theorem getLsbD_byteOf (v : Word) (i j : Nat) : (byteOf v.toNat i).getLsbD j = (decide (j < 8) && v.getLsbD (8 * i + j)) := by
  rw [byteOf, BitVec.getLsbD_ofNat, Nat.testBit_shiftRight, BitVec.testBit_toNat]

/-- `BREV` reverses the word. -/
theorem brevWord_eq (v : Word) : brevWord v = v.reverse := by
  refine BitVec.eq_of_getLsbD_eq fun i hi => ?_
  rw [brevWord, BitVec.getLsbD_ofNat, testBit_revBits, BitVec.testBit_toNat, BitVec.getLsbD_reverse, BitVec.getMsbD,
    decide_eq_true hi, Bool.true_and]

/-- `BREVB` reverses each byte. -/
theorem getLsbD_brevBytes (v : Word) {j : Nat} (hj : j < 32) :
    (brevBytes v).getLsbD j = v.getLsbD (j / 8 * 8 + (7 - j % 8)) := by
  have hb : ((leBytes 4 v.toNat).map fun b => BitVec.ofNat 8 (revBits 8 b.toNat)).getD (j / 8) 0 =
      BitVec.ofNat 8 (revBits 8 (byteOf v.toNat (j / 8)).toNat) := by
    rw [leBytes, List.map_map, List.getD_eq_getElem _ _ (by simp; omega), List.getElem_map, List.getElem_range]
    rfl
  have hm : j % 8 < 8 := Nat.mod_lt j (by decide)
  rw [brevBytes, BitVec.getLsbD_ofNat, decide_eq_true hj, Bool.true_and, testBit_ofLe, hb, BitVec.getLsbD_ofNat,
    testBit_revBits, BitVec.testBit_toNat, getLsbD_byteOf, decide_eq_true hm, decide_eq_true (by omega),
    Bool.true_and, Bool.true_and, Bool.true_and, Nat.mul_comm 8]

/-! ## Units -/

/-- A unit that writes RLO alone. -/
theorem setRlo_wrote {f : Copy → Bool} {b : Bool} (h : UnitRuns s l p d k c) (hf : ∀ x : Copy, x.regs = c.regs → f x = b) :
    Ends (answer s (issue l.val p d (pureUnit fun x => x.setRlo (f x)) s))
      (Wrote s k c (p.length + 1) [] { c.regs with rlo := b }) :=
  pure_wrote (r := { c.regs with rlo := b }) (g := c.regs.g) h
    (fun x hx => ⟨x.winFull, by rw [hf x hx, Copy.setRlo, hx]⟩) rfl fun _ _ => lookup_none

/-- Settles O6: each form writes one general register or RLO; the bit reversals bit by bit. -/
theorem rloAndBitMoves : Obligations.RloAndBitMoves := by
  unfold Obligations.RloAndBitMoves
  intro s l p k c d r x y b z ones
  refine ⟨fun h => ?_, fun h => ?_, fun h => ?_, fun h => ?_, fun h => ?_, fun h => ?_, fun h => ?_, fun h => ?_⟩
  · -- RTOG
    rw [← b2w_eq]
    exact setReg_wrote (f := fun w => b2w w.regs.rlo) h fun w hw => by rw [hw]
  · -- GTOR
    exact setRlo_wrote h fun w hw => by rw [Copy.reg_congr hw]; exact (decide_not ..).symm
  · -- RNOT
    exact setRlo_wrote (f := fun w => !w.regs.rlo) h fun w hw => by rw [hw]
  · -- RSET
    exact setRlo_wrote h fun _ _ => rfl
  · -- RCLR
    exact setRlo_wrote h fun _ _ => rfl
  · -- PAR
    refine setRlo_wrote h fun w hw => ?_
    rw [Copy.reg_congr hw, popcount_eq_countP, List.countP_eq_length_filter]
    rfl
  · -- BREV
    rw [← brevWord_eq]
    exact setReg_wrote (f := fun w => brevWord (w.reg y.toNat)) h fun w hw => by rw [Copy.reg_congr hw]
  · -- BREVB
    exact ⟨brevBytes z, fun j hj => getLsbD_brevBytes z hj,
      setReg_wrote (f := fun w => brevBytes (w.reg y.toNat)) h fun w hw => by rw [Copy.reg_congr hw]⟩

end Sys2Proof.Machine
end

section
/-! The bit reads (R109-R113): the byte read from scratch or from the filled window copy. -/
namespace Sys2Proof.Machine

variable {s : State} {l : LaneId} {p : List Pre} {k : Nat} {c : Copy} {d : Dec}

/-- What a bit read leaves in RLO: operation 0 the bit, 1 its complement, 2 and 3 the conjunction with either, 4 the
disjunction. -/
def readRlo (op : BitVec 3) (rlo x : Bool) : Bool :=
  match op.toNat with
  | 0 => x
  | 1 => !x
  | 2 => rlo && x
  | 3 => rlo && !x
  | _ => rlo || x

/-- A bit read writes no byte. -/
theorem bitEffect_read {op : BitVec 3} {rlo : Bool} {v : Byte} {b : Fin 8} (h : op.toNat < 5) :
    bitEffect op rlo v b = (readRlo op rlo (v.getLsbD b.val), none) := by
  have hop : op.toNat = 0 ∨ op.toNat = 1 ∨ op.toNat = 2 ∨ op.toNat = 3 ∨ op.toNat = 4 := by omega
  rcases hop with e | e | e | e | e
  all_goals simp only [bitEffect, readRlo, e]

/-- The byte that a bit access at `a` reads of lane scratch, or of the window copy where it is filled (R112, R113). -/
def bitSource (s : State) (k : Nat) (c : Copy) (a : Nat) : Byte :=
  if isScratch a then copyByte s k c a else lineByte c.win (a % 64)

theorem bitByte_scratch {a : Nat} (h : isScratch a = true) : bitByte s k c a = copyByte s k c a := by
  rw [bitByte, h]
  rfl

theorem bitByte_window {a : Nat} (h : isScratch a = false) (hw : a / 64 = winBase c / 64) (hf : c.winFull = true) :
    bitByte s k c a = lineByte c.win (a % 64) := by
  rw [bitByte, h, hf, hw, beq_self_eq_true]
  rfl

/-- A bit read does nothing but write RLO. -/
theorem bitAct_read {op : BitVec 3} {a : Nat} {b : Fin 8} (h : op.toNat < 5) : bitAct s k c op a b =
    { s := s, c := c.setRlo (readRlo op c.regs.rlo ((bitByte s k c a).getLsbD b.val)) } := by
  rw [bitAct, bitEffect_read h]

/-- A bit read from scratch or from the filled window copy writes RLO, and may mark the window copy as filled. -/
theorem bitUnit_read {op : BitVec 3} {n : BitVec 9} {a : Nat} (hop : op.toNat < 5)
    (ha : (winBase c + (joinZ p n.toNat 9).toNat / 8) % 2 ^ 32 = a) (hc : checkAccess s (keyTask k) a 1 false = none)
    (hr : isScratch a = true ∨ a / 64 = winBase c / 64 ∧ c.winFull = true) :
    ∃ b, bitUnit op p n s k c = { s := s, c := { c.setRlo (readRlo op c.regs.rlo
      ((bitSource s k c a).getLsbD ((joinZ p n.toNat 9).toNat % 8))) with winFull := b } } := by
  have hload : decide (5 ≤ op.toNat) = false := decide_eq_false (by omega)
  simp only [bitUnit, bitPlace, ha, hload, hc]
  cases hs : isScratch a with
  | true =>
    rw [if_pos rfl, bitAct_read hop, bitByte_scratch hs, bitSource, if_pos hs]
    exact ⟨_, rfl⟩
  | false =>
    obtain ⟨hw, hf⟩ := hr.resolve_left (Bool.eq_false_iff.mp hs)
    rw [hw, bne_self_eq_false, hf, if_neg Bool.false_ne_true, if_neg Bool.false_ne_true, if_pos rfl, bitAct_read hop,
      bitByte_window hs hw hf, bitSource, hs]
    exact ⟨_, rfl⟩

theorem slotBegins_win : (slotBegins s k c).2.win = c.win := by
  rcases slotBegins_copy (s := s) (k := k) (c := c) with h | h <;> rw [h]

/-- The beginning of a slot leaves of what a bit access reads all but the scratch. -/
theorem bitSource_slotBegins {a : Nat} : bitSource (slotBegins s k c).1 k (slotBegins s k c).2 a =
    if isScratch a then copyByte (slotBegins s k c).1 k c a else lineByte c.win (a % 64) := by
  rw [bitSource, slotBegins_win,
    copyByte_congr (fun _ => rfl) rfl slotBegins_lane slotBegins_shadow slotBegins_seed]

/-- What a bit read leaves that need not wait. -/
theorem bitRead_wrote {op : BitVec 3} {n : BitVec 9} {a : Nat} (hop : op.toNat < 5) (h : UnitRuns s l p d k c)
    (ha : (winBase c + (joinZ p n.toNat 9).toNat / 8) % 2 ^ 32 = a) (hc : checkAccess s (keyTask k) a 1 false = none)
    (hr : isScratch a = true ∨ a / 64 = winBase c / 64 ∧ c.winFull = true) :
    Ends (answer s (issue l.val p d (bitUnit op p n) s)) (Wrote s k c (p.length + 1) [] { c.regs with
      rlo := readRlo op c.regs.rlo ((if isScratch a then copyByte (slotBegins s k c).1 k c a else
        lineByte c.win (a % 64)).getLsbD ((joinZ p n.toNat 9).toNat % 8)) }) := by
  have hb : winBase (slotBegins s k c).2 = winBase c := by rw [winBase, slotBegins_regs, winBase]
  obtain ⟨b, e⟩ := bitUnit_read (s := (slotBegins s k c).1) (k := k) (c := (slotBegins s k c).2) hop (by rwa [hb])
    (slotBegins_checkAccess.trans hc) (by rwa [hb, slotBegins_winFull])
  rw [bitSource_slotBegins, slotBegins_regs] at e
  rw [issue_congr (g := pureUnit fun x => { x.setRlo _ with winFull := b }) h e]
  exact pure_wrote (g := c.regs.g) h (fun x hx => ⟨b, by rw [Copy.setRlo, hx]⟩) rfl fun _ _ => lookup_none

/-- Settles O9: the five reads by what each leaves in RLO. -/
theorem bitReads : Obligations.BitReads := by
  unfold Obligations.BitReads
  intro s l p k c n u i a v x hc hr
  exact ⟨fun h => bitRead_wrote (op := 0) (by decide) h rfl hc hr, fun h => bitRead_wrote (op := 1) (by decide) h rfl hc hr,
    fun h => bitRead_wrote (op := 2) (by decide) h rfl hc hr, fun h => bitRead_wrote (op := 3) (by decide) h rfl hc hr,
    fun h => bitRead_wrote (op := 4) (by decide) h rfl hc hr⟩

end Sys2Proof.Machine
end

section
/-! The refutation of the string elements by copies listed out of order. -/
namespace Sys2Proof.Machine

/-- Copy 0, of task 0: RS and RD are the addresses of two lines of the task's own. -/
def movingCopy : Copy := { lane := 0, started := true, regs := { rs := 0x10060040, rd := 0x10060000 } }

/-- Lane 0 runs a copy that moves a word, beside copies listed as in `storeBesideUnsortedCopies`. -/
def moveBesideUnsortedCopies : State :=
  { storeBesideUnsortedCopies with
    ln := { storeBesideUnsortedCopies.ln with copies := [(0, some movingCopy), (8, none), (4, some agedCopy)] } }

/-- The switch to copy 4 after the move lists that copy a second time, so that the pool holds a line more than the low mark
has noted. -/
theorem moveBesideUnsortedCopies_lowMark : endsTest (exec (.movsw 0 [] 0) moveBesideUnsortedCopies)
    (fun t => decide (t.can.low = moveBesideUnsortedCopies.can.low ∨
      t.can.low = min moveBesideUnsortedCopies.can.low (32768 - poolUsed t))) = false := by
  decide +kernel

/-- Refutes O14: a string element notes the low mark of the pool before the scheduling decision, as a store does, and where
the table of copies is not in canonical form, the switch to another copy changes what the pool counts. -/
theorem not_stringElements : ¬ Obligations.StringElements := by
  unfold Obligations.StringElements
  intro h
  have room : Room moveBesideUnsortedCopies 0 movingCopy movingCopy.regs.rd.toNat := by
    unfold Room
    decide +kernel
  have runs : Runs moveBesideUnsortedCopies (.movsw 0 [] 0) 0 movingCopy :=
    ⟨by decide +kernel, by decide +kernel, by decide +kernel, by decide +kernel, by decide +kernel⟩
  obtain ⟨-, -, hword, -⟩ := h moveBesideUnsortedCopies 0 [] 0 movingCopy 0 0 (.inl rfl) room
  refine not_ends_of_test moveBesideUnsortedCopies_lowMark (fun t ht => ?_)
    (hword runs ⟨by decide +kernel, by decide +kernel⟩)
  obtain ⟨-, -, hlow⟩ := ht
  exact decide_eq_true hlow

end Sys2Proof.Machine
end

section
/-! What a unit leaves that completes and changes its copy in any way, with or without a transfer of control (R135-R147). -/
namespace Sys2Proof.Machine

variable {s : State} {l : LaneId} {p : List Pre} {k n : Nat} {c y : Copy} {d : Dec} {x : Res} {r : Regs} {ps : List Part}
  {first : BitVec 21} {w : List (Nat × Word)} {q : Copy → Prop} {errs : List EccErr} {f : Flow}
  {body : State → Nat → Copy → Res}

/-! ## Flows that complete -/

/-- A flow that ends the slot of its unit and lets the copy go on. -/
def Flow.passes : Flow → Bool
  | .seq | .jump _ | .call _ | .leave | .loop _ _ => true
  | _ => false

/-- A transfer abandons levels and leaves every other register. -/
theorem abandon_same {m : Nat} {a t : BitVec 21} : ∃ e, abandon m a t r = { r with depth := e } := by
  induction m generalizing r with
  | zero => exact ⟨_, rfl⟩
  | succ m ih =>
    unfold abandon
    split
    · exact ⟨_, rfl⟩
    · dsimp only
      split
      · obtain ⟨e, h⟩ := ih (r := r.atDepth (r.depth.val - 1))
        exact ⟨e, h⟩
      · exact ⟨_, rfl⟩

/-- No flow writes a general register. -/
theorem go_g : (r.go first n f).g = r.g := by
  cases f with
  | seq =>
    obtain ⟨a, b, e, h⟩ := go_seq (r := r) (first := first) (n := n)
    rw [h]
  | jump t =>
    obtain ⟨e, h⟩ := abandon_same (r := r) (m := 5) (a := first + BitVec.ofNat 21 (n - 1)) (t := t)
    simp only [Regs.go, h]
  | loop t b =>
    obtain ⟨e, h⟩ := abandon_same (r := r) (m := 5) (a := first + BitVec.ofNat 21 (n - 1)) (t := t)
    cases b <;> simp only [Regs.go, h, Regs.open_]
  | _ => rfl

/-- The copy after a unit that completes: control has moved, and the load shadows are one slot on. -/
def Res.moved (x : Res) (first : BitVec 21) (n : Nat) : Copy := tickLoads { x.c with regs := x.c.regs.go first n x.flow }

theorem moved_same : ∃ g ls st, x.moved first n =
    { x.c with regs := { x.c.regs.go first n x.flow with g := g }, loads := ls, stall := st } := tickLoads_same

/-- What a unit leaves whose flow passes and that opens no load shadow. -/
theorem unitLeaves_passes (hf : x.flow.passes = true) (hl : x.load = none) : unitLeaves x k first n errs =
    chooseLane (x.s.setCopy k (some (x.moved first n))) x.c.lane := by
  obtain ⟨u, z, f, a⟩ := x
  cases hl
  cases f
  case seq | jump | call | leave | loop => rfl
  all_goals exact absurd hf Bool.false_ne_true

/-! ## The copy -/

theorem Ends.mono {o : Host.Outcome State Fault Refusal} {P Q : State → Prop} (h : Ends o P) (hi : ∀ t, P t → Q t) :
    Ends o Q := by
  obtain ⟨t, ht, hp⟩ := h
  exact ⟨t, ht, hi t hp⟩

/-- The copy stands on its lane with the shadow lines, the scratch and the load shadows of `c`; what waits for it waits
still. -/
def Stands (c y : Copy) : Prop :=
  y.lane = c.lane ∧ y.shadow = c.shadow ∧ y.seed = c.seed ∧ y.loads = c.loads ∧ y.restart = c.restart ∧ y.ended = c.ended

theorem stands_slotBegins : Stands c (slotBegins s k c).2 :=
  ⟨slotBegins_lane, slotBegins_shadow, slotBegins_seed, slotBegins_loads, slotBegins_restart, slotBegins_ended⟩

/-- One general register written in a copy with the registers of another. -/
theorem lookup_setReg {i j : Nat} {v : Word} (hy : y.regs = c.regs) (hj : j < 16) :
    (y.setReg i v).reg j = ([(i, v)].lookup j).getD (c.reg j) := by
  rw [Copy.setReg_eq, Copy.reg, hy]
  exact lookup_one hj

theorem specialAs_refl : SpecialAs r r := ⟨rfl, rfl, rfl, rfl, rfl, rfl, rfl, rfl, rfl, rfl, rfl⟩

theorem specialAs_slotBegins : SpecialAs c.regs (slotBegins s k c).2.regs := by
  rw [slotBegins_regs]
  exact specialAs_refl

/-- The beginning of a slot leaves the registers that a unit inside loops moves. -/
theorem loops_slotBegins : (slotBegins s k c).2.regs.depth = c.regs.depth ∧ (slotBegins s k c).2.regs.lc = c.regs.lc := by
  rw [slotBegins_regs]
  exact ⟨rfl, rfl⟩

theorem slotBegins_seq : (slotBegins s k c).1.seq = s.seq := by
  obtain ⟨x, -, h⟩ := slotBegins_state (s := s) (k := k) (c := c)
  rw [h]

/-- Unit `x` of copy `k`, which stands as `c`, completes on lane `l`: no stop and no takeover waits; its operation has changed
the parts `ps` beside its copy, none of them the lanes or the sequencer, and of the copy nothing that `Stands` names. -/
structure Completes (s : State) (l : LaneId) (k : Nat) (c : Copy) (ps : List Part) (x : Res) : Prop where
  copy : laneCopy s l.val = some (k, c)
  stays : stopping s (keyTask k) = false ∧ c.restart = none
  passes : x.flow.passes = true
  noLoad : x.load = none
  parts : Only ps (slotBegins s k c).1 x.s
  outside : ∀ q ∈ [Part.ln, .seq, .pending, .tap], q ∉ ps
  stands : Stands c x.c

/-- A unit that acts on its copy alone. -/
theorem completes_alone (hc : laneCopy s l.val = some (k, c)) (hs : stopping s (keyTask k) = false ∧ c.restart = none)
    (hf : f.passes = true) (hy : Stands c y) : Completes s l k c [] { s := (slotBegins s k c).1, c := y, flow := f } :=
  ⟨hc, hs, hf, rfl, .refl, fun _ _ => List.not_mem_nil, hy⟩

theorem Completes.seq_eq (h : Completes s l k c ps x) : x.s.seq = s.seq :=
  (h.parts.seq_eq (h.outside _ (by decide))).trans slotBegins_seq

/-- A completed unit stays with its copy: nothing waits for its boundary. -/
theorem Completes.unitEnds (h : Completes s l k c ps x) : unitEnds x k first n errs =
    chooseLane (x.s.setCopy k (some (x.moved first n))) x.c.lane := by
  obtain ⟨-, -, -, -, hrestart, -⟩ := h.stands
  rw [Machine.unitEnds, unitLeaves_passes h.passes h.noLoad, atPermitted_stays]
  · have hu : Only [.ln] x.s (chooseLane (x.s.setCopy k (some (x.moved first n)))
        x.c.lane) := only_chooseLane (only_setCopy .refl (List.Subset.refl _)) (List.Subset.refl _)
    rw [stopping, State.inst, hu.seq_eq (by decide), h.seq_eq]
    exact h.stays.1
  · intro v hv
    obtain ⟨b, hb⟩ := chooseLane_copies (s := x.s.setCopy k (some (x.moved first n))) (n := x.c.lane) (j := k)
    have hmoved : (x.moved first n).restart = none := by
      obtain ⟨g, ls, st, ht⟩ := moved_same (x := x) (first := first) (n := n)
      rw [ht]
      exact hrestart.trans h.stays.2
    rw [State.copy_setCopy, if_pos rfl, hv] at hb
    cases hb
    exact hmoved

/-- The answer of a completed unit: its copy with the load shadows one slot on, its own changes, and the scheduling decision. -/
theorem Completes.answer_eq (h : Completes s l k c ps x) :
    ∃ t b, answer s (Machine.unitEnds x k first n errs) = .next t ∧ OnlyCopy (.ln :: ps) s k c.lane t ∧
      t.copy k = some { x.moved first n with winFull := b } ∧
      (∀ j, (t.lane j).scratch = ((slotBegins s k c).1.lane j).scratch) ∧ t.seq = s.seq ∧
      Only [.ln, .pending, .tap] x.s t := by
  have hln : x.s.ln = (slotBegins s k c).1.ln := h.parts.ln_eq (h.outside _ (by decide))
  have hlanes (j : Nat) : x.s.lane j = (slotBegins s k c).1.lane j := by rw [State.lane, State.lane, hln]
  have hcopies (j : Nat) : x.s.copy j = s.copy j := by rw [State.copy, hln, ← State.copy, slotBegins_copies]
  have hs : Only (.ln :: ps) s x.s := (only_slotBegins .refl (by simp)).trans (h.parts.mono (List.subset_cons_self ..))
  obtain ⟨t, b, h1, h2, h3, h4, h5⟩ := answer_stored (k := k) (m := c.lane) (y := x.moved first n) hs
    (h.outside _ (by decide)) (h.outside _ (by decide))
    (fun j _ => hcopies j) (fun j => by rw [hlanes]; exact slotBegins_lanes) x.c.lane
  rw [h.unitEnds]
  refine ⟨t, _, h1, h2, h3, fun j => (h4 j).trans (congrArg Lane.scratch (hlanes j)), h5.trans h.seq_eq, ?_⟩
  cases answer_next.symm.trans h1
  exact only_set_tap (only_set_pending (only_chooseLane (only_setCopy .refl (by decide)) (by decide)) (by decide)) (by decide)

/-- What a completed unit leaves. -/
theorem Completes.left (h : Completes s l k c ps x) (hw : ∀ j, j < 16 → x.c.reg j = (w.lookup j).getD (c.reg j))
    (hsp : SpecialAs r (x.c.regs.go first n x.flow))
    (hq : ∀ g ls st b, q { x.c with
      regs := { x.c.regs.go first n x.flow with g := g }, loads := ls, stall := st, winFull := b }) :
    Ends (answer s (Machine.unitEnds x k first n errs)) fun t =>
      UnitLeft s k c w r [] ps q t ∧ Only [.ln, .pending, .tap] x.s t := by
  obtain ⟨hlane, hshadow, hseed, hloads, -, hended⟩ := h.stands
  obtain ⟨-, hnot, -⟩ := laneCopy_some h.copy
  obtain ⟨t, b, h1, h2, h3, h4, h5, h6⟩ := h.answer_eq (first := first) (n := n) (errs := errs)
  obtain ⟨g, ls, st, ht⟩ := moved_same (x := x) (first := first) (n := n)
  refine ⟨t, h1, ⟨_, h3, fun j hj hqt => ?_, ?_⟩, h6⟩
  · show (x.moved first n).reg j = _
    rw [Res.moved, tickLoads_reg hj (by rwa [quiet, hloads]), ← hw j hj, Copy.reg, Copy.reg, go_g]
  · rw [ht]
    exact ⟨hsp, fun a => copyByte_congr h4 (h5.trans slotBegins_seq.symm) hlane hshadow hseed a, hended.trans hnot,
      hq g ls st b, h2⟩

/-- What a completed unit leaves that transfers no control. -/
theorem Completes.passed (h : Completes s l k c ps x) (hf : x.flow = .seq)
    (hw : ∀ j, j < 16 → x.c.reg j = (w.lookup j).getD (c.reg j)) (hsp : SpecialAs r x.c.regs)
    (hloop : x.c.regs.depth = c.regs.depth ∧ x.c.regs.lc = r.lc)
    (hq : ∀ z ls st b, q { x.c with regs := z, loads := ls, stall := st, winFull := b }) :
    Ends (answer s (Machine.unitEnds x k c.regs.pc n errs)) fun t =>
      Passed s k c n w r [] ps q t ∧ Only [.ln, .pending, .tap] x.s t := by
  obtain ⟨a, b, e, hg⟩ := go_seq (r := x.c.regs) (first := c.regs.pc) (n := n)
  obtain ⟨hdepth, hlc⟩ := hloop
  refine h.left hw (by rw [hf, hg]; exact hsp) fun g ls st v => ⟨hq _ ls st v, fun hd => ?_⟩
  rw [hf, go_seq_outside (hdepth.trans hd)]
  exact ⟨hdepth.trans hd, hlc, rfl⟩

/-- What a unit leaves that acts on its copy alone and transfers no control. -/
theorem unit_passed (h : UnitRuns s l p d k c) (hb : body (slotBegins s k c).1 k (slotBegins s k c).2 =
      { s := (slotBegins s k c).1, c := y }) (hy : Stands c y)
    (hw : ∀ j, j < 16 → y.reg j = (w.lookup j).getD (c.reg j)) (hsp : SpecialAs r y.regs)
    (hloop : y.regs.depth = c.regs.depth ∧ y.regs.lc = r.lc)
    (hq : ∀ z ls st b, q { y with regs := z, loads := ls, stall := st, winFull := b }) :
    Ends (answer s (issue l.val p d body s)) (Passed s k c (p.length + 1) w r [] [] q) := by
  rw [issue_runs h, hb]
  exact ((completes_alone h.copy h.stays rfl hy).passed rfl hw hsp hloop hq).mono fun t ht => ht.1

/-- What a unit leaves that acts on its copy alone and transfers control. -/
theorem unit_went (h : UnitRuns s l p d k c) (hb : body (slotBegins s k c).1 k (slotBegins s k c).2 =
      { s := (slotBegins s k c).1, c := y, flow := f }) (hf : f.passes = true) (hy : Stands c y)
    (hw : ∀ j, j < 16 → y.reg j = (w.lookup j).getD (c.reg j))
    (hsp : SpecialAs r (y.regs.go c.regs.pc (p.length + 1) f))
    (hq : ∀ g ls st b, q { y with
      regs := { y.regs.go c.regs.pc (p.length + 1) f with g := g }, loads := ls, stall := st, winFull := b }) :
    Ends (answer s (issue l.val p d body s)) (UnitLeft s k c w r [] [] q) := by
  rw [issue_runs h, hb]
  exact ((completes_alone h.copy h.stays hf hy).left hw hsp hq).mono fun t ht => ht.1

end Sys2Proof.Machine
end

section
/-! The CRC instructions (R151-R154), and the elements of `REP` (R148-R150). -/
namespace Sys2Proof.Machine

variable {s t : State} {l : LaneId} {p : List Pre} {k n run : Nat} {c y : Copy} {d : Dec} {f : State → Nat → Copy → Elem}

/-! ## CRC on registers -/

/-- CA after one step over a unit of `u` bits (R152). -/
def crcNext (r : Regs) (data u : Nat) : Word :=
  BitVec.ofNat 32 (crcUnit (fld r.cm 0 5 + 1) r.cp.toNat u (if r.cm.getLsbD 9 then revBits u data else data) r.ca.toNat)

theorem crcStep_eq {data u : Nat} : crcStep c data u = { c with regs := { c.regs with ca := crcNext c.regs data u } } := rfl

/-- A unit that steps CA over the low bits of a register. -/
theorem crcStep_wrote {i u : Nat} (h : UnitRuns s l p d k c) :
    Ends (answer s (issue l.val p d (pureUnit fun x => crcStep x ((x.reg i).toNat % 2 ^ u) u) s))
      (Wrote s k c (p.length + 1) [] { c.regs with ca := crcNext c.regs ((c.reg i).toNat % 2 ^ u) u }) :=
  pure_wrote (g := c.regs.g) h (fun x hx => ⟨x.winFull, by rw [crcStep_eq, Copy.reg_congr hx, hx]⟩) rfl
    fun _ _ => lookup_none

/-- Settles O7: the steps by CA after a unit of R152, CRCI and CRCF as they stand. -/
theorem crcOnRegisters : Obligations.CrcOnRegisters := by
  unfold Obligations.CrcOnRegisters
  intro s l p k c d r b w inp fin
  refine ⟨fun h => ?_, fun h => ?_, fun h => ?_, fun h => ?_, fun h => ?_⟩
  · -- CRCB
    exact crcStep_wrote (u := 8) h
  · -- CRCH
    exact crcStep_wrote (u := 16) h
  · -- CRCW
    exact crcStep_wrote (u := 32) h
  · -- CRCI
    exact pure_wrote (g := c.regs.g) h (fun x hx => ⟨x.winFull, by rw [crcInit, hx]; rfl⟩) rfl fun _ _ => lookup_none
  · -- CRCF
    exact setReg_wrote (f := crcFinal) h fun x hx => by rw [crcFinal, crcFinal, hx]

/-! ## Elements -/

/-- The elements of a `REP` are over once RC is 0 (R148). -/
theorem repeatUnit_done (h : c.regs.rc = 0) : repeatUnit f k n s c = { s := s, c := c } := by
  cases n with
  | zero => rw [repeatUnit, if_pos h]
  | succ n => rw [repeatUnit, if_pos h]

/-- A unit with one element to go, alone or as the last of its `REP`. -/
theorem elemUnit_last (hr : repCount p = 0 ∨ c.regs.rc = 1 ∧ 0 < run) (hf : f s k c = .ok t y)
    (hy : y.regs.rc = c.regs.rc) : elemUnit p run f s k c =
      { s := t, c := { y with regs := { y.regs with rc := if repCount p = 0 then c.regs.rc else 0 } } } := by
  by_cases h0 : repCount p = 0
  · rw [elemUnit, if_pos h0, hf, if_pos h0, ← hy]
  · obtain ⟨h1, hrun⟩ := hr.resolve_left h0
    obtain ⟨m, rfl⟩ : ∃ m, run = m + 1 := ⟨run - 1, by omega⟩
    have hd : y.rcDown = { y with regs := { y.regs with rc := 0 } } := by rw [Copy.rcDown, hy, h1]; rfl
    have hne : c.regs.rc ≠ 0 := by rw [h1]; decide
    rw [elemUnit, if_neg h0, repeatUnit, if_neg hne, hf]
    show repeatUnit f k m t y.rcDown = _
    rw [hd, repeatUnit_done rfl, if_neg h0]

/-! ## CRC over memory -/

/-- The element of a readable unit steps CA and advances RS (R154). -/
theorem crcmElem_ok (h : checkAccess s (keyTask k) c.regs.rs.toNat n false = none) : crcmElem n s k c =
    .ok s { c with regs := { c.regs with
      ca := crcNext c.regs (copyValue s k c c.regs.rs.toNat n) (8 * n), rs := c.regs.rs + BitVec.ofNat 32 n } } := by
  rw [crcmElem, h]
  simp only [Copy.advance, crcStep_eq, BitVec.add_zero]

/-- What a CRC unit over memory leaves whose only element, or last one, is readable. -/
theorem crcm_wrote (h : UnitRuns s l p d k c) (hr : repCount p = 0 ∨ c.regs.rc = 1 ∧ 0 < run)
    (ha : checkAccess s (keyTask k) c.regs.rs.toNat n false = none) :
    Ends (answer s (issue l.val p d (elemUnit p run (crcmElem n)) s)) (Wrote s k c (p.length + 1) [] { c.regs with
      ca := crcNext c.regs (copyValue (slotBegins s k c).1 k c c.regs.rs.toNat n) (8 * n)
      rs := c.regs.rs + BitVec.ofNat 32 n, rc := if repCount p = 0 then c.regs.rc else 0 }) := by
  have e := elemUnit_last (f := crcmElem n) (s := (slotBegins s k c).1) (k := k) (c := (slotBegins s k c).2)
    (p := p) (run := run) (by rwa [slotBegins_regs])
    (crcmElem_ok (by rw [slotBegins_regs, slotBegins_checkAccess]; exact ha)) rfl
  rw [slotBegins_regs, slotBegins_copyValue] at e
  exact unit_passed h e stands_slotBegins (fun _ _ => rfl) specialAs_refl ⟨rfl, rfl⟩ fun _ _ _ _ =>
    ⟨slotBegins_shadow, slotBegins_ws, slotBegins_items, slotBegins_chk, slotBegins_skip.trans h.noSkip⟩

/-- Settles O15: one element, alone or as the last of its `REP`, over a unit of each width. -/
theorem crcOverMemory : Obligations.CrcOverMemory := by
  unfold Obligations.CrcOverMemory
  intro s l p k c run u rs w rc inp ca hr
  exact ⟨fun h ha => crcm_wrote h hr ha, fun h ha => crcm_wrote h hr ha, fun h ha => crcm_wrote h hr ha⟩

/-! ## The last element of a REP beside copies listed out of order -/

/-- Copy 0 as it moves the last word of a `REP`. -/
def lastMovingCopy : Copy := { movingCopy with regs := { movingCopy.regs with rc := 1 } }

/-- Lane 0 runs that copy, beside copies listed as in `storeBesideUnsortedCopies`. -/
def repeatBesideUnsortedCopies : State :=
  { storeBesideUnsortedCopies with
    ln := { storeBesideUnsortedCopies.ln with copies := [(0, some lastMovingCopy), (8, none), (4, some agedCopy)] } }

/-- The switch to copy 4 after the last element lists that copy a second time, so that the pool holds a line more than the
low mark has noted. -/
theorem repeatBesideUnsortedCopies_lowMark : endsTest (exec (.rep 0 [] [] (.movs 2) 1) repeatBesideUnsortedCopies)
    (fun t => decide (t.can.low = repeatBesideUnsortedCopies.can.low ∨
      t.can.low = min repeatBesideUnsortedCopies.can.low (32768 - poolUsed t))) = false := by
  decide +kernel

/-- Refutes O16: the last element of a `REP` notes the low mark of the pool before the scheduling decision, as a string
element alone does, and where the table of copies is not in canonical form, the switch to another copy changes what the pool
counts. -/
theorem not_repeatedElements : ¬ Obligations.RepeatedElements := by
  unfold Obligations.RepeatedElements
  intro h
  have room : Room repeatBesideUnsortedCopies 0 lastMovingCopy lastMovingCopy.regs.rd.toNat := by
    unfold Room
    decide +kernel
  have runs : Runs repeatBesideUnsortedCopies (.rep 0 [] [] (.movs 2) 1) 0 lastMovingCopy :=
    ⟨by decide +kernel, by decide +kernel, by decide +kernel, by decide +kernel, by decide +kernel⟩
  obtain ⟨-, -, hlast⟩ := h repeatBesideUnsortedCopies 0 [] [] 0 lastMovingCopy 2 0 1
  refine not_ends_of_test repeatBesideUnsortedCopies_lowMark (fun t ht => ?_)
    (hlast rfl (by decide) (by decide +kernel) (by decide +kernel) room runs)
  obtain ⟨-, -, hlow⟩ := ht
  exact decide_eq_true hlow

end Sys2Proof.Machine
end

section
/-! Skips (R133-R136). -/
namespace Sys2Proof.Machine

variable {s : State} {l : LaneId} {p : List Pre} {k : Nat} {c : Copy} {d : Dec} {i : Instr} {errs : List EccErr}
  {body : State → Nat → Copy → Res}

/-- The sixteen conditions of R133 by their codes. -/
theorem condHolds_eq {cc : BitVec 4} {rlo : Bool} {f : BitVec 5} : condHolds cc rlo f = condition cc rlo f := by
  have h : cc.toNat < 16 := cc.isLt
  unfold condHolds condition
  generalize cc.toNat = n at h
  interval_cases n <;> rfl

/-- What is kept of the copy by a unit that only sets the mark of a skip. -/
def Marked (c : Copy) (b : Bool) (x : Copy) : Prop :=
  x.shadow = c.shadow ∧ x.ws = c.ws ∧ x.items = c.items ∧ x.chk = c.chk ∧ x.skip = b

/-- A skip sets the mark and does nothing else. -/
theorem skip_passed {f : Copy → Bool} (h : UnitRuns s l p d k c) (hf : ∀ x : Copy, x.regs = c.regs → f x = f c) :
    Ends (answer s (issue l.val p d (pureUnit fun x => { x with skip := f x }) s))
      (Passed s k c (p.length + 1) [] c.regs [] [] (Marked c (f c))) :=
  unit_passed (y := { (slotBegins s k c).2 with skip := f c }) h
    (by rw [pureUnit, hf _ slotBegins_regs]) stands_slotBegins (fun _ _ => slotBegins_reg)
    specialAs_slotBegins loops_slotBegins
    fun _ _ _ _ => ⟨slotBegins_shadow, slotBegins_ws, slotBegins_items, slotBegins_chk, rfl⟩

/-- A marked unit is passed whatever it is (R135). -/
theorem issueWith_skipped (h : laneCopy s l.val = some (k, c)) (hc : inCode s k c.regs.pc (p.length + 1) = true)
    (hs : c.skip = true) : issueWith errs l.val p d body s = unitEnds
      { s := (slotBegins s k c).1, c := { (slotBegins s k c).2 with skip := false } } k c.regs.pc (p.length + 1) [] := by
  simp [issueWith, h, hc, hs]

/-- Settles O17: each skip sets its mark, and every command of a lane is a unit that the mark has passed over. -/
theorem skips : Obligations.Skips := by
  unfold Obligations.Skips
  intro s l p k c cc r left
  refine ⟨fun h => ?_, fun h => ?_, fun h => ?_, fun i d q hi h hc hs hstop hr => ?_⟩
  · -- SKcc
    rw [← condHolds_eq]
    exact skip_passed (f := fun x => condHolds cc x.regs.rlo x.regs.fl) h fun x hx => by rw [hx]
  · -- SKZ
    exact skip_passed (f := fun x => x.reg r.toNat == 0) h fun x hx => by rw [Copy.reg_congr hx]
  · -- SKNZ
    exact skip_passed (f := fun x => x.reg r.toNat != 0) h fun x hx => by rw [Copy.reg_congr hx]
  · -- the unit after a skip
    obtain ⟨errs, body, he⟩ := laneUnit_exec (s := s) hi
    rw [he, issueWith_skipped h hc hs]
    have passes : Completes s l k c [] { s := (slotBegins s k c).1, c := { (slotBegins s k c).2 with skip := false } } :=
      completes_alone h ⟨hstop, hr⟩ rfl stands_slotBegins
    refine (passes.passed rfl (fun _ _ => slotBegins_reg) specialAs_slotBegins loops_slotBegins fun _ _ _ _ => ?_).mono
      fun t ht => ht.1
    exact ⟨slotBegins_shadow, slotBegins_ws, slotBegins_items, slotBegins_chk, rfl⟩

end Sys2Proof.Machine
end

section
/-! Transfers of control and loop levels (R137-R145). -/
namespace Sys2Proof.Machine

variable {s : State} {l : LaneId} {p : List Pre} {k n m : Nat} {c y : Copy} {d : Dec} {r : Regs} {a t first pc : BitVec 21}
  {f : Flow} {e : Fin 5} {lc : Vector Word 4} {w : List (Nat × Word)} {body : State → Nat → Copy → Res}

/-! ## Levels that a transfer leaves -/

/-- A transfer abandons exactly the levels that it leaves (R144). -/
theorem abandon_eq {q : Nat} (hq : r.depth.val ≤ q) (h : Leaves r a t m) : abandon q a t r = r.atDepth m := by
  have stays {r : Regs} (hm : m = r.depth.val) : r = r.atDepth m := by
    rw [hm, Regs.atDepth, Fin.ofNat_val_eq_self]
  induction q generalizing r with
  | zero =>
    obtain ⟨hm, -⟩ := h
    show r = r.atDepth m
    exact stays (by omega)
  | succ q ih =>
    obtain ⟨hm, hin, hlast⟩ := h
    by_cases h0 : r.depth.val = 0
    · rw [abandon, if_pos h0]
      exact stays (by omega)
    · rw [abandon, if_neg h0]
      dsimp only
      by_cases hout : r.inBody (r.depth.val - 1) a = true ∧ r.inBody (r.depth.val - 1) t = false
      · have hne : m ≠ r.depth.val := by
          rintro rfl
          exact hlast (by omega) hout
        have hv : (r.atDepth (r.depth.val - 1)).depth.val = r.depth.val - 1 := Nat.mod_eq_of_lt (by omega)
        rw [hout.1, hout.2]
        refine ih (by omega) ⟨by omega, fun i hi hi' => hin i hi (by omega), hlast⟩
      · have he : m = r.depth.val := by
          by_contra hne
          exact hout (hin (r.depth.val - 1) (by omega) (by omega))
        rw [if_neg (by simpa using hout)]
        exact stays he

/-- Of finitely many levels, the innermost ones that a transfer leaves can be counted. -/
theorem exists_outermost (P : Nat → Prop) (n : Nat) :
    ∃ m ≤ n, (∀ i, m ≤ i → i < n → P i) ∧ (0 < m → ¬P (m - 1)) := by
  induction n with
  | zero => exact ⟨0, Nat.le_refl 0, fun i _ hi => absurd hi (Nat.not_lt_zero i), fun h => absurd h (Nat.lt_irrefl 0)⟩
  | succ n ih =>
    by_cases hn : P n
    · obtain ⟨m, hm, hin, hlast⟩ := ih
      refine ⟨m, by omega, fun i hi hi' => ?_, hlast⟩
      rcases Nat.lt_succ_iff_lt_or_eq.mp hi' with h | rfl
      · exact hin i hi h
      · exact hn
    · exact ⟨n + 1, Nat.le_refl _, fun i hi hi' => by omega, fun _ => hn⟩

theorem exists_leaves : ∃ m, Leaves r a t m := by
  obtain ⟨m, hm, hin, hlast⟩ := exists_outermost (fun i => r.inBody i a = true ∧ r.inBody i t = false) r.depth.val
  exact ⟨m, hm, hin, hlast⟩

theorem Leaves.lt (h : Leaves r a t m) : m < 5 := Nat.lt_of_le_of_lt h.1 r.depth.isLt

/-! ## Registers after a transfer -/

theorem ownWord_eq : first + BitVec.ofNat 21 (n + 1 - 1) = first + BitVec.ofNat 21 n := by rw [Nat.add_sub_cancel]

theorem go_jump (h : Leaves r (first + BitVec.ofNat 21 n) t m) :
    r.go first (n + 1) (.jump t) = { r with pc := t, depth := Fin.ofNat 5 m } := by
  rw [Regs.go, ownWord_eq, abandon_eq (Nat.le_of_lt r.depth.isLt) h]
  rfl

/-- `LOOP` with a count of 0 transfers as a branch does (R141). -/
theorem go_passOver (h : Leaves r (first + BitVec.ofNat 21 n) t m) :
    r.go first (n + 1) (.loop t none) = { r with pc := t, depth := Fin.ofNat 5 m } := by
  rw [Regs.go, ownWord_eq, abandon_eq (Nat.le_of_lt r.depth.isLt) h]
  rfl

/-- `LOOP` opens the level above those that it leaves (R141). -/
theorem go_open {last : BitVec 21} {count : Word} (h : Leaves r (first + BitVec.ofNat 21 n) t m) (hm : m < 4) :
    r.go first (n + 1) (.loop t (some (last, count))) =
      { r with
        ls := r.ls.setIfInBounds m t, le := r.le.setIfInBounds m last, lc := r.lc.setIfInBounds m count
        pc := t, depth := Fin.ofNat 5 (m + 1) } := by
  have hv : (Fin.ofNat 5 m).val = m := Nat.mod_eq_of_lt (by omega)
  rw [Regs.go, ownWord_eq, abandon_eq (Nat.le_of_lt r.depth.isLt) h]
  simp only [Regs.open_, Regs.atDepth, hv, Nat.min_eq_right hm]

/-- A unit that does not reach the end of the innermost body passes on (R142). -/
theorem go_inside (hd : 0 < r.depth.val) (hn : n ≤ (r.leAt (r.depth.val - 1) - first).toNat) :
    r.go first n .seq = { r with pc := first + BitVec.ofNat 21 n } := by
  show loopEnd 5 first n { r with pc := first + BitVec.ofNat 21 n } = _
  rw [loopEnd, if_neg (Nat.ne_of_gt hd)]
  exact if_neg (Nat.not_lt.mpr hn)

/-- The end of a body with passes left goes back to its start (R142). -/
theorem go_back (hd : 0 < r.depth.val) (hn : (r.leAt (r.depth.val - 1) - first).toNat < n)
    (hc : 1 < (r.lcAt (r.depth.val - 1)).toNat) :
    r.go first n .seq = { r with
      lc := r.lc.setIfInBounds (r.depth.val - 1) (r.lcAt (r.depth.val - 1) - 1), pc := r.lsAt (r.depth.val - 1) } := by
  show loopEnd 5 first n { r with pc := first + BitVec.ofNat 21 n } = _
  rw [loopEnd, if_neg (Nat.ne_of_gt hd)]
  exact (if_pos hn).trans (if_neg (by rw [BitVec.not_le]; exact hc))

/-- The last pass of the only level closes it (R142). -/
theorem go_last (hd : r.depth.val = 1) (hn : (r.leAt 0 - first).toNat < n) (hc : (r.lcAt 0).toNat ≤ 1) :
    r.go first n .seq = { r with pc := first + BitVec.ofNat 21 n, depth := 0 } := by
  have hk : r.depth.val - 1 = 0 := by rw [hd]
  show loopEnd 5 first n { r with pc := first + BitVec.ofNat 21 n } = _
  rw [loopEnd, if_neg (by rw [hd]; decide)]
  simp only [hk]
  exact (if_pos hn).trans (if_pos hc)

/-! ## Units -/

/-- What a unit leaves that completes and moves the PC and the loop levels, and writes no other special register but those
of `r`. -/
theorem unit_moved (h : UnitRuns s l p d k c) (hb : body (slotBegins s k c).1 k (slotBegins s k c).2 =
      { s := (slotBegins s k c).1, c := y, flow := f }) (hf : f.passes = true) (hy : Stands c y) (hp : Plain c y)
    (hw : ∀ j, j < 16 → y.reg j = (w.lookup j).getD (c.reg j))
    (hgo : y.regs.go c.regs.pc (p.length + 1) f = { r with g := y.regs.g, pc := pc, depth := e, lc := lc }) (he : e.val = m) :
    Ends (answer s (issue l.val p d body s)) (Went s k c w r pc m fun x => x.regs.lc = lc) := by
  refine unit_went h hb hf hy hw ?_ fun g ls st b => ?_
  · rw [hgo]
    exact specialAs_refl (r := r)
  · obtain ⟨-, hshadow, -⟩ := hy
    rw [hgo]
    exact ⟨hshadow, hp, rfl, he, rfl⟩

theorem plain_slotBegins (h : UnitRuns s l p d k c) : Plain c (slotBegins s k c).2 :=
  ⟨slotBegins_ws, slotBegins_items, slotBegins_chk, slotBegins_skip.trans h.noSkip⟩

/-- A unit that only transfers control. -/
theorem flowUnit_went {F : Copy → Flow} (h : UnitRuns s l p d k c) (hF : ∀ x : Copy, x.regs = c.regs → F x = f)
    (hf : f.passes = true)
    (hgo : c.regs.go c.regs.pc (p.length + 1) f = { r with g := c.regs.g, pc := pc, depth := e, lc := lc }) (he : e.val = m) :
    Ends (answer s (issue l.val p d (flowUnit F) s)) (Went s k c [] r pc m fun x => x.regs.lc = lc) :=
  unit_moved (f := f) h (by rw [flowUnit, hF _ slotBegins_regs]) hf stands_slotBegins (plain_slotBegins h)
    (fun _ _ => slotBegins_reg) (by rw [slotBegins_regs]; exact hgo) he

/-- A branch leaves the levels that R144 names. -/
theorem jump_went {F : Copy → Flow} (h : UnitRuns s l p d k c) (hF : ∀ x : Copy, x.regs = c.regs → F x = .jump t)
    (hl : Leaves c.regs (c.regs.pc + BitVec.ofNat 21 p.length) t m) :
    Ends (answer s (issue l.val p d (flowUnit F) s)) (Went s k c [] c.regs t m fun x => x.regs.lc = c.regs.lc) :=
  flowUnit_went h hF rfl (go_jump hl) (Nat.mod_eq_of_lt hl.lt)

/-- A call writes LR and leaves every level active (R139, R144). -/
theorem call_went {F : Copy → BitVec 21} (h : UnitRuns s l p d k c) (hF : ∀ x : Copy, x.regs = c.regs → F x = t) :
    Ends (answer s (issue l.val p d (callUnit p F) s)) (Went s k c
      [(14, (c.regs.pc + BitVec.ofNat 21 p.length).setWidth 32 + 1)] c.regs t c.regs.depth.val
      fun x => x.regs.lc = c.regs.lc) := by
  refine unit_moved (f := .call t) (y := (slotBegins s k c).2.link p) h (by rw [callUnit, hF _ slotBegins_regs]) rfl
    stands_slotBegins (plain_slotBegins h) (fun j hj => ?_) (e := c.regs.depth) ?_ rfl
  · rw [Copy.link, ownWord, slotBegins_regs]
    exact lookup_setReg slotBegins_regs hj
  · rw [Copy.link, Copy.setReg_eq, slotBegins_regs]
    rfl

/-- A unit that neither moves the PC elsewhere nor writes a register. -/
theorem flowUnit_wrote {F : Copy → Flow} (h : UnitRuns s l p d k c) (hF : ∀ x : Copy, x.regs = c.regs → F x = .seq) :
    Ends (answer s (issue l.val p d (flowUnit F) s)) (Wrote s k c (p.length + 1) [] c.regs) := by
  rw [issue_congr (g := pureUnit fun x => x) h (by rw [flowUnit, hF _ slotBegins_regs]; rfl)]
  exact pure_wrote (g := c.regs.g) h (fun x hx => ⟨x.winFull, by rw [← hx]⟩) rfl fun _ _ => lookup_none

theorem relTarget_eq {x : Copy} {o q : Nat} (hx : x.regs = c.regs) : relTarget x p o q =
    c.regs.pc + BitVec.ofNat 21 p.length + 1 + (joinS p o q).setWidth 21 := by
  rw [relTarget, ownWord, hx]

/-- Settles O18: branches by the levels that they leave, calls by the register that they write. -/
theorem transfersOfControl : Obligations.TransfersOfControl := by
  unfold Obligations.TransfersOfControl
  intro s l p k c cc o r f m own near far reg lr
  refine ⟨fun h hc => ?_, fun h hc hl => ?_, fun h hl => ?_, fun h hl => ?_, fun h hl => ?_, fun h => ?_, fun h => ?_,
    fun t => exists_leaves⟩
  · -- Bcc, its condition not met
    exact flowUnit_wrote h fun x hx => by rw [hx, condHolds_eq, hc, if_neg Bool.false_ne_true]
  · -- Bcc, its condition met
    exact jump_went h (fun x hx => by rw [hx, condHolds_eq, hc, if_pos rfl, relTarget_eq hx]) hl
  · -- BRA
    exact jump_went h (fun x hx => by rw [relTarget_eq hx]) hl
  · -- BR
    exact jump_went h (fun x hx => by rw [Copy.reg_congr hx]) hl
  · -- RET
    exact jump_went h (fun x hx => by rw [Copy.reg_congr hx]) hl
  · -- CALL
    exact call_went h fun x hx => relTarget_eq hx
  · -- CALLR
    exact call_went h fun x hx => by rw [Copy.reg_congr hx]

/-- The flow of `LOOP` below depth 4. -/
theorem loopUnit_eq {x : Copy} {i len : BitVec 4} (hx : x.regs = c.regs) (hd : c.regs.depth.val < 4) : loopUnit p i len x =
    if c.reg i.toNat = 0 then .loop (c.regs.pc + BitVec.ofNat 21 p.length + 1 + (joinZ p len.toNat 4).setWidth 21) none
    else .loop (c.regs.pc + BitVec.ofNat 21 p.length + 1)
      (some (c.regs.pc + BitVec.ofNat 21 p.length + (joinZ p len.toNat 4).setWidth 21, c.reg i.toNat)) := by
  rw [loopUnit, ownWord, Copy.reg_congr hx, hx, if_neg (Nat.ne_of_lt hd)]

/-- `RSET` where the end of the unit moves the PC or the levels. -/
theorem rset_went (h : UnitRuns s l p d k c)
    (hgo : ({ c.regs with rlo := true } : Regs).go c.regs.pc (p.length + 1) .seq =
      { c.regs with rlo := true, pc := pc, depth := e, lc := lc }) (he : e.val = m) :
    Ends (answer s (issue l.val p d (pureUnit fun x => x.setRlo true) s))
      (Went s k c [] { c.regs with rlo := true } pc m fun x => x.regs.lc = lc) :=
  unit_moved (f := .seq) (y := (slotBegins s k c).2.setRlo true) h rfl rfl stands_slotBegins (plain_slotBegins h)
    (fun _ _ => slotBegins_reg) (by rw [Copy.setRlo, slotBegins_regs]; exact hgo) he

/-- Settles O19: the registers after LOOP, after LEAVE and at the end of a body. -/
theorem loopLevels : Obligations.LoopLevels := by
  unfold Obligations.LoopLevels
  intro s l p k c r len m own n d
  refine ⟨fun h hd hr hl => ?_, fun h hd hr hl => ?_, fun h hd => ?_, fun h hd => ?_, fun h hd hn => ?_, fun h hd hn hc => ?_,
    fun h hd hn hc => ?_⟩
  · -- LOOP opens a level
    have hm : m < 4 := Nat.lt_of_le_of_lt hl.1 hd
    exact flowUnit_went h (fun x hx => by rw [loopUnit_eq hx hd, if_neg hr]) rfl (go_open hl hm)
      (Nat.mod_eq_of_lt (Nat.succ_lt_succ hm))
  · -- LOOP passes over its body
    exact flowUnit_went h (fun x hx => by rw [loopUnit_eq hx hd, if_pos hr]) rfl (go_passOver hl) (Nat.mod_eq_of_lt hl.lt)
  · -- LEAVE without a level
    exact flowUnit_wrote h fun x hx => by rw [hx, if_pos hd]
  · -- LEAVE closes a level
    exact flowUnit_went (f := .leave) (e := Fin.ofNat 5 d) h
      (fun x hx => by rw [hx, if_neg (Nat.ne_of_gt hd)]) rfl rfl (Nat.mod_eq_of_lt (by omega))
  · -- inside the body
    exact rset_went h (go_inside hd hn) (by show c.regs.depth.val = _; omega)
  · -- the end of the body, with passes left
    exact rset_went h (go_back hd hn hc) (by show c.regs.depth.val = _; omega)
  · -- the last pass of the only level
    exact rset_went h (go_last hd hn hc) rfl

end Sys2Proof.Machine
end

section
/-! A HALT of a copy listed twice. -/
namespace Sys2Proof.Machine

/-- After its HALT the copy has not ended. -/
theorem haltWithCopyTwice_ended : endsTest (exec (.halt 0 [] []) faultWithCopyTwice)
    (fun t => decide ((t.copy 1).map (fun x => x.ended.isSome) = some true)) = false := by
  decide +kernel

/-- Refutes O23: after a HALT the lane that the copy leaves takes other work, and the decision ages each copy that the table
lists for that lane (R177); where the table lists the key of the halted copy twice, the copy aged takes its place. -/
theorem not_checkInAndHalt : ¬ Obligations.CheckInAndHalt := by
  unfold Obligations.CheckInAndHalt
  intro h
  obtain ⟨-, -, -, -, hpaired, -⟩ := h faultWithCopyTwice 0 [] 1 misalignedCopy
  have runs : Runs faultWithCopyTwice (.halt 0 [] []) 1 misalignedCopy :=
    ⟨by decide +kernel, by decide +kernel, by decide +kernel, by decide +kernel, by decide +kernel⟩
  refine not_ends_of_test haltWithCopyTwice_ended (fun t ht => ?_)
    (hpaired { releasedNow with starveAt := 0 } runs (by decide) (by decide +kernel) (by decide +kernel))
  obtain ⟨⟨x, hx, hended, -⟩, -⟩ := ht
  exact decide_eq_true (by rw [hx, Option.map_some, hended, Option.isSome_some])

end Sys2Proof.Machine
end

section
/-! What a unit leaves that changes parts of the state beside its copy, or adds to the item stream and the write set. -/
namespace Sys2Proof.Machine

variable {s t : State} {l : LaneId} {p : List Pre} {k n : Nat} {c y : Copy} {d : Dec} {r : Regs} {ps : List Part}
  {w : List (Nat × Word)} {bs : List (Nat × Byte)} {q q' : Copy → Prop} {body : State → Nat → Copy → Res} {u : State}

theorem Passed.mono (h : Passed s k c n w r bs ps q t) (hi : ∀ x, q x → q' x) : Passed s k c n w r bs ps q' t := by
  obtain ⟨x, hx, hreg, hsp, hbytes, hend, ⟨hq, hpc⟩, honly⟩ := h
  exact ⟨x, hx, hreg, hsp, hbytes, hend, ⟨hi x hq, hpc⟩, honly⟩

/-- What a unit leaves that changes its copy and the parts `ps` beside the lanes and the sequencer. -/
theorem unit_passed_outside (h : UnitRuns s l p d k c)
    (hb : body (slotBegins s k c).1 k (slotBegins s k c).2 = { s := u, c := y }) (hu : Only ps (slotBegins s k c).1 u)
    (hps : ∀ q ∈ [Part.ln, .seq, .pending, .tap], q ∉ ps) (hy : Stands c y)
    (hw : ∀ j, j < 16 → y.reg j = (w.lookup j).getD (c.reg j)) (hsp : SpecialAs r y.regs)
    (hloop : y.regs.depth = c.regs.depth ∧ y.regs.lc = r.lc)
    (hq : ∀ z ls st b, q { y with regs := z, loads := ls, stall := st, winFull := b }) :
    Ends (answer s (issue l.val p d body s)) fun t =>
      Passed s k c (p.length + 1) w r [] ps q t ∧ Only [.ln, .pending, .tap] u t := by
  rw [issue_runs h, hb]
  exact Completes.passed (x := { s := u, c := y }) ⟨h.copy, h.stays, rfl, rfl, hu, hps, hy⟩ rfl hw hsp hloop hq

/-- What a unit adds to the item stream and to the write set of its copy (R160, R162, R163, R303). -/
def Appended (c : Copy) (it : List Byte) (ws : List WItem) (x : Copy) : Prop :=
  x.shadow = c.shadow ∧ x.chk = c.chk ∧ x.skip = false ∧ x.items = c.items ++ it ∧ x.ws = c.ws ++ ws

/-- A unit that writes a status, and adds an item to the stream and entries to the write set. -/
theorem appended_passed {i : Nat} {v : Word} {it : List Byte} {ws : List WItem} (h : UnitRuns s l p d k c)
    (hb : body (slotBegins s k c).1 k (slotBegins s k c).2 =
      { s := (slotBegins s k c).1
        c := { ((slotBegins s k c).2.item it).setReg i v with ws := (slotBegins s k c).2.ws ++ ws } }) :
    Ends (answer s (issue l.val p d body s)) (Passed s k c (p.length + 1) [(i, v)] c.regs [] [] (Appended c it ws)) := by
  refine unit_passed h hb stands_slotBegins (fun _ hj => lookup_setReg slotBegins_regs hj) specialAs_slotBegins
    loops_slotBegins fun z ls st b => ?_
  exact ⟨slotBegins_shadow, slotBegins_chk, slotBegins_skip.trans h.noSkip, congrArg (· ++ it) slotBegins_items,
    congrArg (· ++ ws) slotBegins_ws⟩

end Sys2Proof.Machine
end

section
/-! System registers (R158-R161, R513, R552). -/
namespace Sys2Proof.Machine

variable {s t u : State} {l : LaneId} {p : List Pre} {k n i srn : Nat} {c y : Copy} {d : Dec} {num : BitVec 16} {isSys : Bool}
  {m : Imm} {v w : Word} {f : State → State × Imm} {res : List (Nat × Word)} {row : RegRow}

/-! ## The value of an access -/

/-- A copy without a twin takes its own value. -/
theorem accessOnce_alone (h : pairedCopy s k = false ∨ 64 ≤ keyTask k) :
    accessOnce s k c isSys num f = ((f s).1, { c with order := c.order + 1 }, (f s).2) := by
  have hc : (decide (keyTask k < 64) && pairedCopy s k) = false := by
    rcases h with h | h
    · rw [h, Bool.and_false]
    · rw [decide_eq_false (Nat.not_lt.mpr h), Bool.false_and]
  rw [accessOnce, hc]
  rfl

/-- A copy whose twin has made the access takes the value retained (R161). -/
theorem accessOnce_retained {j : Inst} (ht : keyTask k < 64) (hp : pairedCopy s k = true) (hj : s.inst (keyTask k) = some j)
    (hm : j.imm[c.order]? = some m) (hs : m.isSys = isSys) (hn : m.num = num) :
    accessOnce s k c isSys num f = (s, { c with order := c.order + 1 }, m) := by
  simp [accessOnce, ht, hp, hj, hm, hs, hn]

theorem pairedCopy_slotBegins : pairedCopy (slotBegins s k c).1 n = pairedCopy s n := by
  rw [pairedCopy, pairedCopy, slotBegins_copies]

theorem cfgOf_slotBegins : cfgOf (slotBegins s k c).1 n = cfgOf s n := by
  obtain ⟨x, -, h⟩ := slotBegins_state (s := s) (k := k) (c := c)
  rw [h]
  rfl

theorem now_slotBegins : (slotBegins s k c).1.now = s.now := by
  obtain ⟨x, -, h⟩ := slotBegins_state (s := s) (k := k) (c := c)
  rw [h]
  rfl

theorem inst_slotBegins : (slotBegins s k c).1.inst n = s.inst n := by
  rw [State.inst, slotBegins_seq, State.inst]

theorem slotBegins_order : (slotBegins s k c).2.order = c.order := by
  rcases slotBegins_copy (s := s) (k := k) (c := c) with h | h <;> rw [h]

theorem slotBegins_tbHi : (slotBegins s k c).2.tbHi = c.tbHi := by
  rcases slotBegins_copy (s := s) (k := k) (c := c) with h | h <;> rw [h]

/-- The high words that come with a value are the only change of the copy that keeps them. -/
theorem keepHi_same : ∃ b, c.keepHi res = { c with tbHi := (resAt res hiKey).or c.tbHi, posHi := b } := by
  have fold (L : List Nat) (x : Copy) : ∃ b, L.foldl (fun c n => match resAt res (hiKey + 1 + n) with
      | some w => { c with posHi := tabPut n (some (w.setWidth 8)) c.posHi }
      | none => c) x = { x with posHi := b } := by
    induction L generalizing x with
    | nil => exact ⟨_, rfl⟩
    | cons n L ih =>
      rw [List.foldl_cons]
      split
      · exact ih _
      · exact ih x
  unfold Copy.keepHi
  dsimp only
  split
  · rename_i h
    rw [h]
    exact fold _ _
  · rename_i h
    rw [h]
    exact fold _ _

/-! ## `SYS` -/

/-- The copy with a read of a system register in its item stream, and the high words that came with the value. -/
def Copy.sysDone (c : Copy) (srn : Nat) (hi : Option Word) (pos : Tab (Option Byte)) : Copy :=
  { c with order := c.order + 1, items := c.items ++ itemSys srn, tbHi := hi.or c.tbHi, posHi := pos }

/-- What the access of a `SYS` makes of the value, for a copy that makes it itself. -/
def sysImm (srn : Nat) (res : List (Nat × Word)) : Imm :=
  { isSys := true, num := BitVec.ofNat 16 srn, status := 0, res := res, data := [] }

/-- A read of an existing register adds its item, keeps what came with the value and writes the value (R158, R303). -/
theorem sysUnit_eq (hv : sysValue s c (keyTask k) srn = some res)
    (ha : accessOnce s k c true (BitVec.ofNat 16 srn) (fun s => (s, sysImm srn res)) =
      (s, { c with order := c.order + 1 }, m)) (hm : resAt m.res 0 = some v) :
    ∃ b, sysUnit i srn s k c = { s := s, c := (c.sysDone srn (resAt m.res hiKey) b).setReg i v } := by
  obtain ⟨b, hb⟩ := keepHi_same (res := m.res) (c := ({ c with order := c.order + 1 } : Copy).item (itemSys srn))
  have ha : accessOnce s k c true (BitVec.ofNat 16 srn)
      (fun s => (s, { isSys := true, num := BitVec.ofNat 16 srn, status := 0, res := res, data := [] })) = _ := ha
  refine ⟨b, ?_⟩
  simp only [sysUnit, hv, ha, hb, hm]
  rfl

/-- The copy has read a system register: its item is in the stream, and its accesses are one more. -/
def SysRead (c : Copy) (srn : Nat) (x : Copy) : Prop :=
  x.shadow = c.shadow ∧ x.ws = c.ws ∧ x.chk = c.chk ∧ x.skip = false ∧ x.items = c.items ++ itemSys srn ∧
    x.order = c.order + 1

/-- What a read of an existing register leaves, by the value that its access gives. -/
theorem sys_passed (h : UnitRuns s l p d k c)
    (hv : sysValue (slotBegins s k c).1 (slotBegins s k c).2 (keyTask k) srn = some res)
    (ha : accessOnce (slotBegins s k c).1 k (slotBegins s k c).2 true (BitVec.ofNat 16 srn) (fun s => (s, sysImm srn res)) =
      ((slotBegins s k c).1, { (slotBegins s k c).2 with order := (slotBegins s k c).2.order + 1 }, m))
    (hm : resAt m.res 0 = some v) :
    Ends (answer s (issue l.val p d (sysUnit i srn) s)) (Passed s k c (p.length + 1) [(i, v)] c.regs [] []
      fun x => SysRead c srn x ∧ x.tbHi = (resAt m.res hiKey).or c.tbHi) := by
  obtain ⟨b, e⟩ := sysUnit_eq (i := i) hv ha hm
  refine unit_passed h e stands_slotBegins (fun _ hj => lookup_setReg slotBegins_regs hj) specialAs_slotBegins
    loops_slotBegins fun z ls st b => ⟨⟨slotBegins_shadow, slotBegins_ws, slotBegins_chk, slotBegins_skip.trans h.noSkip,
      congrArg (· ++ itemSys srn) slotBegins_items, congrArg (· + 1) slotBegins_order⟩,
      congrArg (Option.or _) slotBegins_tbHi⟩

/-- What a read leaves of a copy that makes its accesses alone. -/
theorem sys_passed_alone (h : UnitRuns s l p d k c) (ha : pairedCopy s k = false ∨ 64 ≤ keyTask k)
    (hv : sysValue (slotBegins s k c).1 (slotBegins s k c).2 (keyTask k) srn = some res) (hm : resAt res 0 = some v) :
    Ends (answer s (issue l.val p d (sysUnit i srn) s)) (Passed s k c (p.length + 1) [(i, v)] c.regs [] []
      fun x => SysRead c srn x ∧ x.tbHi = (resAt res hiKey).or c.tbHi) :=
  sys_passed h hv (accessOnce_alone (by rwa [pairedCopy_slotBegins])) hm

theorem resAt_head : resAt ((n, w) :: res) n = some w := by
  simp [resAt]

/-- The value of a register other than the high words that other reads bring with them. -/
theorem sysValue_own {x : Nat} (hv : sysReg s (cfgOf s x) srn = some v) (h1 : srn ≠ 0x0C17)
    (h2 : srn < 0x0410 ∨ 0x0430 ≤ srn ∨ srn % 8 ≠ 5) :
    ∃ res, sysValue s c x srn = some res ∧ resAt res 0 = some v := by
  have hpos : ¬(0x0410 ≤ srn ∧ srn < 0x0430 ∧ srn % 8 = 5) := by omega
  simp only [sysValue, hv, if_neg h1, if_neg hpos]
  refine ⟨_, rfl, ?_⟩
  split_ifs
  · exact resAt_head
  · exact resAt_head
  · exact resAt_head

/-- Every register that exists has a value. -/
theorem sysValue_exists {x : Nat} (h : regRow srn ≠ none) : ∃ res, sysValue s c x srn = some res := by
  obtain ⟨v, hv⟩ := Option.ne_none_iff_exists'.mp (mt (sysReg_eq_none (s := s) (t := cfgOf s x)).mp h)
  simp only [sysValue, hv]
  exact ⟨_, rfl⟩

/-- `TB_LO` reads the time base and brings its high word with it (R513). -/
theorem sysValue_tbLo {x : Nat} : sysValue s c x 0x0C16 =
    some [(0, BitVec.ofNat 32 s.now), (hiKey, BitVec.ofNat 32 (s.now / 2 ^ 32))] := rfl

/-- `TB_HI` reads the high word kept (R513). -/
theorem sysValue_tbHi {x : Nat} (h : c.tbHi = some w) : sysValue s c x 0x0C17 = some [(0, w)] := by
  have e : sysValue s c x 0x0C17 = some [(0, c.tbHi.getD (BitVec.ofNat 32 (s.now / 2 ^ 32)))] := rfl
  rw [e, h]
  rfl

/-! ## `CFG` -/

/-- At SETUP level a register that the level may write takes the value where it is writable (R159, R551). -/
theorem cfgUnit_eq (ht : 64 ≤ keyTask k) (hr : regRow srn = some row) (hs : serviceOnly srn = false) :
    cfgUnit i srn s k c = { s := if row.acc == .rw then cfgStore s (keyTask k) srn (c.reg i) else s, c := c } := by
  simp only [cfgUnit, if_neg (Nat.not_lt.mpr ht), hr, hs]
  rfl

theorem slotBegins_pkg : (slotBegins s k c).1.pkg = s.pkg := by
  obtain ⟨x, -, h⟩ := slotBegins_state (s := s) (k := k) (c := c)
  rw [h]

/-- What `CFG` of a writable register leaves: `ps` are the parts that hold it. -/
theorem cfg_passed {ps : List Part} (h : UnitRuns s l p d k c) (ht : 64 ≤ keyTask k) (hr : regRow srn = some row)
    (hrw : row.acc = .rw) (hs : serviceOnly srn = false)
    (hu : Only ps (slotBegins s k c).1 (cfgStore (slotBegins s k c).1 (keyTask k) srn (c.reg i)))
    (hps : ∀ q ∈ [Part.ln, .seq, .pending, .tap], q ∉ ps) :
    Ends (answer s (issue l.val p d (cfgUnit i srn) s)) fun t =>
      Passed s k c (p.length + 1) [] c.regs [] ps (fun x => x.shadow = c.shadow ∧ Plain c x) t ∧
        Only [.ln, .pending, .tap] (cfgStore (slotBegins s k c).1 (keyTask k) srn (c.reg i)) t :=
  unit_passed_outside h (by rw [cfgUnit_eq ht hr hs, hrw, slotBegins_reg]; rfl) hu hps stands_slotBegins
    (fun _ _ => slotBegins_reg) specialAs_slotBegins loops_slotBegins
    fun _ _ _ _ => ⟨slotBegins_shadow, plain_slotBegins h⟩

theorem cfgEffects_other (h : srn < 0x0510 ∨ 0x0518 ≤ srn) : cfgEffects s srn = s := if_neg (by omega)

/-- The setup task writes the register store, and a port's register opens or closes the port (R280). -/
theorem cfgStore_live (h : n = 64) : (cfgStore s n srn v).cfg = rWrite s.cfg srn v ∧
    Only [.cfg, .yl] s (cfgStore s n srn v) ∧ (srn < 0x0510 ∨ 0x0518 ≤ srn → (cfgStore s n srn v).yl = s.yl) := by
  have e : cfgStore s n srn v = cfgEffects { s with cfg := rWrite s.cfg srn v } srn := if_neg (by omega)
  have hyl : Only [.yl] { s with cfg := rWrite s.cfg srn v } (cfgEffects { s with cfg := rWrite s.cfg srn v } srn) :=
    only_cfgEffects .refl (List.Subset.refl _)
  rw [e]
  exact ⟨hyl.cfg_eq (by decide), (only_set_cfg .refl (by decide)).trans (hyl.mono (by decide)),
    fun hn => by rw [cfgEffects_other hn]⟩

/-- The setup task of a staged run writes the staged configuration (R407, R552). -/
theorem cfgStore_staged (h : n = 65) : Only [.pkg] s (cfgStore s n srn v) ∧
    (cfgStore s n srn v).pkg.exch.staged = s.pkg.exch.staged.map fun x => (rWrite x.1 srn v, x.2) := by
  rw [cfgStore, if_pos h]
  exact ⟨only_onPkg .refl (List.Subset.refl _), rfl⟩

theorem slotBegins_yl : (slotBegins s k c).1.yl = s.yl := by
  obtain ⟨x, -, h⟩ := slotBegins_state (s := s) (k := k) (c := c)
  rw [h]

/-- Settles O25: SYS by the value that its access gives, CFG by where the register is kept. -/
theorem systemRegisters : Obligations.SystemRegisters := by
  unfold Obligations.SystemRegisters
  intro s l p k c d n v w r u t0 srn alone read
  refine ⟨fun h ha hv h1 h2 => ?_, fun h ha hn => ?_, fun h ha hn hw => ?_, fun i m h ht hp hi hm hsys hnum hreg hres => ?_,
    fun h ht hr hrw hs => ?_, fun h ht hr hro hs => ?_, fun x m h ht hst hr hrw hs => ?_⟩
  · -- SYS of a register with a value of its own
    obtain ⟨res, hres, h0⟩ := sysValue_own (c := (slotBegins s k c).2) (by rw [cfgOf_slotBegins]; exact hv) h1 h2
    exact (sys_passed_alone h ha hres h0).mono fun t ht => ht.mono fun x hx => hx.1
  · -- SYS of TB_LO
    have hres : sysValue (slotBegins s k c).1 (slotBegins s k c).2 t0 srn =
        some [(0, BitVec.ofNat 32 s.now), (hiKey, BitVec.ofNat 32 (s.now / 2 ^ 32))] := by
      rw [hn, sysValue_tbLo, now_slotBegins]
    exact sys_passed_alone h ha hres resAt_head
  · -- SYS of TB_HI
    have hres : sysValue u (slotBegins s k c).2 t0 srn = some [(0, w)] := by
      rw [hn, sysValue_tbHi (slotBegins_tbHi.trans hw)]
    exact (sys_passed_alone h ha hres resAt_head).mono fun t ht => ht.mono fun x hx => hx.1
  · -- SYS of a copy whose twin has read the register
    obtain ⟨res, hv⟩ := sysValue_exists (s := u) (c := (slotBegins s k c).2) (x := t0) (mt sysReg_eq_none.mpr hreg)
    refine (sys_passed h hv (m := m) (accessOnce_retained ht (pairedCopy_slotBegins.trans hp) (inst_slotBegins.trans hi)
      (by rwa [slotBegins_order]) hsys hnum) hres).mono fun t ht => ht.mono fun x hx => hx.1
  · -- CFG of a live register
    obtain ⟨hcfg, hu, hyl⟩ := cfgStore_live (s := u) (srn := srn) (v := c.reg d.toNat) ht
    refine (cfg_passed h (Nat.le_of_eq ht.symm) hr hrw hs hu (by decide)).mono fun t ⟨hp, ho⟩ => ⟨hp, ?_, fun hn => ?_⟩
    · rw [ho.cfg_eq (by decide), hcfg, slotBegins_cfg]
    · rw [ho.yl_eq (by decide), hyl hn, slotBegins_yl]
  · -- CFG of a register that is only readable
    have hro : (r.acc == .rw) = false := beq_false_of_ne hro
    rw [show exec (.cfg l p d n) s = answer s (issue l.val p { ext := true } (cfgUnit d.toNat srn) s) from rfl,
      issue_congr (g := pureUnit fun x => x) h (by rw [cfgUnit_eq ht hr hs, hro]; rfl)]
    exact pure_wrote (g := c.regs.g) h (fun x hx => ⟨x.winFull, by rw [← hx]⟩) rfl fun _ _ => lookup_none
  · -- CFG of a staged register
    obtain ⟨hu, hstaged⟩ := cfgStore_staged (s := u) (srn := srn) (v := c.reg d.toNat) ht
    refine (cfg_passed h (by omega) hr hrw hs hu (by decide)).mono fun t ⟨hp, ho⟩ => ⟨hp, ?_⟩
    rw [ho.pkg_eq (by decide), hstaged, slotBegins_pkg, hst]
    rfl

end Sys2Proof.Machine
end

section
/-! Fret entries, cancellations and committed calls (R160, R162, R163): what joins the write set and the item stream. -/
namespace Sys2Proof.Machine

variable {s : State} {l : LaneId} {p : List Pre} {k n i g : Nat} {c : Copy} {d : Dec} {gd : BitVec 4} {w : BitVec 2} {o : Instr}

/-! ## Fret entries -/

/-- The status of an entry or a cancellation whose form is good, for the write set `c.ws` (R162, R163). -/
theorem fretStatus_eq : fretStatus s n c = if n < 64 ∧ releasable s n = true then (if 128 ≤ fretItems c then 0x09 else 0x00)
    else 0x06 := by
  by_cases h : n < 64 ∧ releasable s n = true
  · rw [if_pos h]
    simp [fretStatus, fretsAccepted, h, stBusy, stDone]
  · rw [if_neg h]
    have hn : (decide (n < 64) && releasable s n) = false := by simpa using h
    simp [fretStatus, fretsAccepted, hn, stDenied]

theorem fretStatus_slotBegins : fretStatus (slotBegins s k c).1 n (slotBegins s k c).2 = fretStatus s n c := by
  obtain ⟨x, -, h⟩ := slotBegins_state (s := s) (k := k) (c := c)
  have hr : releasable (slotBegins s k c).1 n = releasable s n := by rw [h]; rfl
  rw [fretStatus_eq, fretStatus_eq, hr, fretItems, slotBegins_ws, fretItems]

theorem slotBegins_copyBytes {a : Nat} :
    copyBytes (slotBegins s k c).1 k (slotBegins s k c).2 a n = copyBytes (slotBegins s k c).1 k c a n :=
  List.map_congr_left fun _ _ => copyByte_congr (fun _ => rfl) rfl slotBegins_lane slotBegins_shadow slotBegins_seed _

/-- An entry is recorded in the item stream with its status, and joins the write set with `DONE` (R162). -/
theorem fret_passed {bs : List Byte} {st : Nat} (h : UnitRuns s l p d k c)
    (ha : checkAccess s (keyTask k) (c.reg g).toNat 16 false = none)
    (hbs : copyBytes (slotBegins s k c).1 k c (c.reg g).toNat 16 = bs)
    (hst : (if fretBad (slotBegins s k c).1 (keyTask k) bs then stBadForm else fretStatus s (keyTask k) c) = st) :
    Ends (answer s (issue l.val p d (fretUnit i g) s)) (Passed s k c (p.length + 1) [(i, BitVec.ofNat 32 st)] c.regs [] []
      (Appended c (1 :: bs ++ [BitVec.ofNat 8 st]) (if st = 0 then [.fret bs] else []))) := by
  refine appended_passed h ?_
  simp only [fretUnit, slotBegins_reg, slotBegins_checkAccess, ha, slotBegins_copyBytes, hbs, fretStatus_slotBegins, hst]
  by_cases h0 : st = 0
  · rw [if_pos h0, if_pos (show st = stDone from h0)]
  · rw [if_neg h0, if_neg (show st ≠ stDone from h0), List.append_nil]
    rfl

/-- A cancellation is recorded in the item stream with its status, and joins the write set with `DONE` (R163). -/
theorem fretc_passed {st : Nat} (h : UnitRuns s l p d k c) (hst : fretStatus s (keyTask k) c = st) :
    Ends (answer s (issue l.val p d (fretcUnit i g) s)) (Passed s k c (p.length + 1) [(i, BitVec.ofNat 32 st)] c.regs [] []
      (Appended c (2 :: leBytes 4 (c.reg g).toNat ++ [BitVec.ofNat 8 st]) (if st = 0 then [.cancel (c.reg g)] else []))) := by
  refine appended_passed h ?_
  simp only [fretcUnit, slotBegins_reg, fretStatus_slotBegins, hst]
  by_cases h0 : st = 0
  · rw [if_pos h0, if_pos (show st = stDone from h0)]
  · rw [if_neg h0, if_neg (show st ≠ stDone from h0), List.append_nil]
    rfl

/-- Settles O26: FRET by its form and the status of a good one, FRETC by the same status. -/
theorem fretEntries : Obligations.FretEntries := by
  unfold Obligations.FretEntries
  intro s l p k c d r t0 a bs n st left
  refine ⟨fun h ha hb => ?_, fun h ha hb => ?_, fun h => ?_⟩
  · -- FRET of a good form
    exact fret_passed h ha rfl (by rw [if_neg (Bool.eq_false_iff.mp hb)]; exact fretStatus_eq)
  · -- FRET of a bad form
    exact fret_passed (st := stBadForm) h ha rfl (if_pos hb)
  · -- FRETC
    exact fretc_passed h fretStatus_eq

/-! ## Committed calls -/

/-- A committed call that the task may make, with arguments of good form, is put to its commit (R160). -/
theorem sysCall_committed (hc : callCommitted n = true) (hl : callLevel s.cfg (keyTask k) n = true)
    (hf : callForm s k n (c.reg 0) (c.reg 1) (c.reg 2) = true) : sysCall i n s k c = { s := s, c := commitCall i n s k c } := by
  simp [sysCall, hc, hl, hf]

theorem slotBegins_callForm {a b e : Word} : callForm (slotBegins s k c).1 k n a b e = callForm s k n a b e := by
  obtain ⟨x, -, h⟩ := slotBegins_state (s := s) (k := k) (c := c)
  rw [h]
  rfl

/-- Number of committed calls that a copy holds. -/
def heldCalls (c : Copy) : Nat := (c.ws.filter fun x => match x with | .call .. => true | _ => false).length

/-- With which status a committed call completes at issue, and what joins the write set (R160, R342). -/
inductive CallIssued (s : State) (k n : Nat) (c : Copy) : Nat → List WItem → Prop where
  | refused {st : Nat} (h : callAtIssue (cfgOf s (keyTask k)) n (c.reg 0) = some st) : CallIssued s k n c st []
  | full (h : callAtIssue (cfgOf s (keyTask k)) n (c.reg 0) = none) (hn : 16 ≤ heldCalls c) : CallIssued s k n c stBusy []
  | taken (h : callAtIssue (cfgOf s (keyTask k)) n (c.reg 0) = none) (hn : heldCalls c < 16) :
    CallIssued s k n c stDone [.call (BitVec.ofNat 16 n) (c.reg 0) (c.reg 1) (c.reg 2) (c.reg 3)]

theorem commitCall_eq {st : Nat} {ws : List WItem} (h : CallIssued s k n c st ws) : commitCall i n s k c =
    { (c.item (itemCall n (c.reg 0) (c.reg 1) (c.reg 2) (c.reg 3))).setReg i (BitVec.ofNat 32 st) with ws := c.ws ++ ws } := by
  cases h with
  | refused h =>
    simp only [commitCall, h, List.append_nil]
    rfl
  | full h hn =>
    simp only [commitCall, h, List.append_nil]
    exact if_pos hn
  | taken h hn =>
    simp only [commitCall, h]
    exact if_neg (Nat.not_le.mpr hn)

/-- The beginning of a slot changes nothing of what the issue of a call looks at. -/
theorem CallIssued.slotBegins {st : Nat} {ws : List WItem} (h : CallIssued s k n c st ws) :
    CallIssued (slotBegins s k c).1 k n (slotBegins s k c).2 st ws := by
  have hs : callAtIssue (cfgOf (Machine.slotBegins s k c).1 (keyTask k)) n ((Machine.slotBegins s k c).2.reg 0) =
      callAtIssue (cfgOf s (keyTask k)) n (c.reg 0) := by rw [cfgOf_slotBegins, slotBegins_reg]
  have hh : heldCalls (Machine.slotBegins s k c).2 = heldCalls c := by rw [heldCalls, slotBegins_ws, heldCalls]
  cases h with
  | refused h => exact .refused (hs.trans h)
  | full h hn => exact .full (hs.trans h) (hh ▸ hn)
  | taken h hn =>
    have taken := CallIssued.taken (hs.trans h) (hh.symm ▸ hn)
    simpa only [slotBegins_reg] using taken

/-- What a committed call leaves at issue. -/
theorem call_passed {st : Nat} {ws : List WItem} (h : UnitRuns s l p d k c) (hc : callCommitted n = true)
    (hl : callLevel s.cfg (keyTask k) n = true) (hf : callForm s k n (c.reg 0) (c.reg 1) (c.reg 2) = true)
    (hi : CallIssued s k n c st ws) :
    Ends (answer s (issue l.val p d (sysCall i n) s)) (Passed s k c (p.length + 1) [(i, BitVec.ofNat 32 st)] c.regs [] []
      (Appended c (itemCall n (c.reg 0) (c.reg 1) (c.reg 2) (c.reg 3)) ws)) := by
  refine appended_passed h ?_
  rw [sysCall_committed hc (by rwa [slotBegins_cfg])
    (by rwa [slotBegins_callForm, slotBegins_reg, slotBegins_reg, slotBegins_reg]), commitCall_eq hi.slotBegins]
  simp only [slotBegins_reg]

/-- Settles O27: each command is the unit of its call, which ends with its status at issue, `BUSY` or `DONE`. -/
theorem committedCalls : Obligations.CommittedCalls := by
  unfold Obligations.CommittedCalls
  intro s l p k c d w i n hi g calls it left h hc hl hf
  obtain ⟨hunit, hexec⟩ : laneUnit i = some (l, p, { ext := true }) ∧
      exec i s = answer s (issue l.val p { ext := true } (sysCall d.toNat n) s) := by
    simp only [List.mem_cons, Prod.mk.injEq, List.not_mem_nil, or_false] at hi
    rcases hi with ⟨rfl, rfl⟩ | ⟨rfl, rfl⟩ | ⟨rfl, rfl⟩ | ⟨rfl, rfl⟩ | ⟨rfl, rfl⟩ | ⟨rfl, rfl⟩ | ⟨rfl, rfl⟩ | ⟨rfl, rfl⟩ |
      ⟨rfl, rfl⟩ | ⟨rfl, rfl⟩ | ⟨rfl, rfl⟩ | ⟨rfl, rfl⟩ | ⟨rfl, rfl⟩ | ⟨rfl, rfl⟩ | ⟨rfl, rfl⟩ | ⟨rfl, rfl⟩ | ⟨rfl, rfl⟩ |
      ⟨rfl, rfl⟩ | ⟨rfl, rfl⟩
    all_goals exact ⟨rfl, rfl⟩
  have runs : UnitRuns s l p { ext := true } k c := by
    rw [Runs, hunit] at h
    exact h
  rw [hexec]
  exact ⟨fun ha hn => call_passed runs hc hl hf (.taken ha hn), fun ha hn => call_passed runs hc hl hf (.full ha hn),
    fun st ha => call_passed runs hc hl hf (.refused ha)⟩

end Sys2Proof.Machine
end

section
/-! The refutation of the task sequencer's events: the ageing of a copy listed twice. -/
namespace Sys2Proof.Machine

/-- A copy of lane 0 that waits at word 16 to start. -/
def copyAtEntry : Copy := { lane := 0, regs := startRegs 16 0 }

/-- Task 0 is past its starvation bound, and its copy waits on lane 0. The table of copies is not in canonical form: key 0 is
listed twice, for copies that start at different words. -/
def starvedCopyTwice : State :=
  { runningDevice with
    seq := { insts := [(0, some { releasedNow with starveAt := 0 })] }
    ln := { copies := [(0, some waitingCopy), (0, some copyAtEntry)] } }

/-- After its ageing the copy stands at another word. -/
theorem starvedCopyTwice_regs : endsTest (exec (.taskAged 0 0 0) starvedCopyTwice)
    (fun t => decide ((t.copy 0).map (fun x => x.regs) = some waitingCopy.regs)) = false := by
  decide +kernel

/-- Refutes O30: TASK_AGED ends with the scheduling decision of the lane, which ages each copy that the table lists for that
lane (R177); where the table lists the key of the aged copy twice, the copy aged last takes its place. -/
theorem not_taskReleases : ¬ Obligations.TaskReleases := by
  unfold Obligations.TaskReleases
  intro h
  obtain ⟨-, -, -, -, -, -, -, -, haged, -⟩ := h starvedCopyTwice 0 0 0
  refine not_ends_of_test starvedCopyTwice_regs (fun t ht => ?_)
    (haged 0 waitingCopy (by decide +kernel) rfl (by decide +kernel) rfl (by decide +kernel))
  obtain ⟨⟨y, hy, -, hregs⟩, -⟩ := ht
  exact decide_eq_true (by rw [hy, Option.map_some, hregs])

end Sys2Proof.Machine
end

section
/-! What a unit leaves that changes the sequencer, but for what its copy reads and whether a stop waits for it (R43, R161). -/
namespace Sys2Proof.Machine

variable {s t u v : State} {l : LaneId} {p : List Pre} {k n : Nat} {c y : Copy} {d : Dec} {r : Regs} {ps : List Part}
  {w : List (Nat × Word)} {q : Copy → Prop} {body : State → Nat → Copy → Res} {i j : Inst}

/-- The open instance of task `n` reads the same bytes, and a stop waits for it or not as before. -/
def SameRun (s u : State) (n : Nat) : Prop := stopping u n = stopping s n ∧ ∀ a, snapByte u n a = snapByte s n a

theorem sameRun_of_seq (h : u.seq = s.seq) : SameRun s u n := by
  simp [SameRun, stopping, snapByte, State.inst, h]

theorem SameRun.trans (h : SameRun s u n) (h' : SameRun u v n) : SameRun s v n :=
  ⟨h'.1.trans h.1, fun a => (h'.2 a).trans (h.2 a)⟩

/-- An instance that only retains more is the same to its copies. -/
theorem sameRun_setInst (h : s.inst n = some i) (hstop : j.stopDue = i.stopDue) (hsnap : j.snap = i.snap) :
    SameRun s (s.setInst n (some j)) n := by
  simp [SameRun, stopping, snapByte, h, hstop, hsnap]

/-- What a copy reads of the Canopy it reads from its shadow or from the snapshot of its instance. -/
theorem copyByte_of_sameRun {x : Copy} (h1 : ∀ j, (t.lane j).scratch = (s.lane j).scratch) (h2 : SameRun s t (keyTask k))
    (h3 : x.lane = y.lane) (h4 : x.shadow = y.shadow) (h5 : x.seed = y.seed) (a : Nat) :
    copyByte t k x a = copyByte s k y a := by
  unfold copyByte
  rw [h1, h2.2, h3, h4, h5]

/-- A unit that completes and leaves the lanes alone, whatever else it changes, stays with its copy. -/
theorem unitEnds_sameRun (h : UnitRuns s l p d k c) (hrun : SameRun s u (keyTask k)) (hy : Stands c y) :
    unitEnds { s := u, c := y } k c.regs.pc n [] =
      chooseLane (u.setCopy k (some (Res.moved { s := u, c := y } c.regs.pc n))) y.lane := by
  obtain ⟨-, -, -, -, hrestart, -⟩ := hy
  rw [unitEnds, unitLeaves_passes rfl rfl, atPermitted_stays]
  · have hu : Only [.ln] u (chooseLane (u.setCopy k (some (Res.moved { s := u, c := y } c.regs.pc n))) y.lane) :=
      only_chooseLane (only_setCopy .refl (List.Subset.refl _)) (List.Subset.refl _)
    rw [(sameRun_of_seq (hu.seq_eq (by decide))).1, hrun.1]
    exact h.stays.1
  · intro v hv
    obtain ⟨b, hb⟩ := chooseLane_copies (s := u.setCopy k (some (Res.moved { s := u, c := y } c.regs.pc n)))
      (n := y.lane) (j := k)
    obtain ⟨g, ls, st, ht⟩ := moved_same (x := { s := u, c := y }) (first := c.regs.pc) (n := n)
    rw [State.copy_setCopy, if_pos rfl, hv] at hb
    cases hb
    rw [ht]
    exact hrestart.trans h.stays.2

/-- What a unit leaves that changes its copy and the parts `ps` beside the lanes, while its instance stays the same to it. -/
theorem unit_passed_sameRun (h : UnitRuns s l p d k c)
    (hb : body (slotBegins s k c).1 k (slotBegins s k c).2 = { s := u, c := y }) (hu : Only ps (slotBegins s k c).1 u)
    (hps : ∀ q ∈ [Part.ln, .pending, .tap], q ∉ ps) (hrun : SameRun s u (keyTask k)) (hy : Stands c y)
    (hw : ∀ j, j < 16 → y.reg j = (w.lookup j).getD (c.reg j)) (hsp : SpecialAs r y.regs)
    (hloop : y.regs.depth = c.regs.depth ∧ y.regs.lc = r.lc)
    (hq : ∀ z ls st b, q { y with regs := z, loads := ls, stall := st, winFull := b }) :
    Ends (answer s (issue l.val p d body s)) (Passed s k c (p.length + 1) w r [] ps q) := by
  have hln : u.ln = (slotBegins s k c).1.ln := hu.ln_eq (hps _ (by decide))
  have hlanes (j : Nat) : u.lane j = (slotBegins s k c).1.lane j := by rw [State.lane, State.lane, hln]
  have hcopies (j : Nat) : u.copy j = s.copy j := by rw [State.copy, hln, ← State.copy, slotBegins_copies]
  have hs : Only (.ln :: ps) s u := (only_slotBegins .refl (by simp)).trans (hu.mono (List.subset_cons_self ..))
  obtain ⟨t, b, h1, h2, h3, h4, h5⟩ := answer_stored (k := k) (m := c.lane)
    (y := Res.moved { s := u, c := y } c.regs.pc (p.length + 1)) hs (hps _ (by decide)) (hps _ (by decide))
    (fun j _ => hcopies j) (fun j => by rw [hlanes]; exact slotBegins_lanes) y.lane
  rw [issue_runs h, hb, unitEnds_sameRun h hrun hy]
  obtain ⟨hlane, hshadow, hseed, hloads, -, hended⟩ := hy
  obtain ⟨-, hnot, -⟩ := laneCopy_some h.copy
  obtain ⟨g, ls, st, ht⟩ := moved_same (x := { s := u, c := y }) (first := c.regs.pc) (n := p.length + 1)
  obtain ⟨a, b', e, hg⟩ := go_seq (r := y.regs) (first := c.regs.pc) (n := p.length + 1)
  have hread : SameRun (slotBegins s k c).1 t (keyTask k) :=
    ((sameRun_of_seq slotBegins_seq.symm).trans hrun).trans (sameRun_of_seq h5)
  refine ⟨t, h1, _, h3, fun j hj hqt => ?_, ?_⟩
  · show (Res.moved _ _ _).reg j = _
    rw [Res.moved, tickLoads_reg hj (by rwa [quiet, hloads]), ← hw j hj, Copy.reg, Copy.reg, go_g]
  · rw [ht]
    refine ⟨by rw [hg]; exact hsp, fun a => copyByte_of_sameRun (fun j => (h4 j).trans (congrArg Lane.scratch (hlanes j)))
      hread hlane hshadow hseed a, hended.trans hnot, ⟨hq _ ls st _, fun hd => ?_⟩, h2⟩
    rw [go_seq_outside (hloop.1.trans hd)]
    exact ⟨hloop.1.trans hd, hloop.2, rfl⟩

end Sys2Proof.Machine
end

section
/-! Immediate calls without bytes to copy (R160, R161): what the access gives, and what the unit leaves. -/
namespace Sys2Proof.Machine

variable {s u : State} {l : LaneId} {p : List Pre} {k n i st : Nat} {c : Copy} {d : Dec} {ps : List Part} {m : Imm}
  {res : List (Nat × Word)}

/-! ## Results -/

/-- The register found first in a list of registers and values. -/
theorem getD_lookup_cons {j a : Nat} {v e : Word} :
    (((a, v) :: res).lookup j).getD e = if j = a then v else (res.lookup j).getD e := by
  rw [List.lookup_cons]
  split
  · rw [if_pos (eq_of_beq ‹_›), Option.getD_some]
  · rw [if_neg (ne_of_beq_false ‹_›)]

theorem lookup_of_not_listed {a : Nat} (h : a ∉ res.map Prod.fst) : res.lookup a = none :=
  List.lookup_eq_none_iff.mpr fun _ hx => bne_iff_ne.mpr fun e => h (e ▸ List.mem_map_of_mem hx)

/-- Registers written one after the other, each at most once. -/
theorem reg_foldl_setReg {j : Nat} (hn : (res.map Prod.fst).Nodup) (hj : j < 16) :
    (res.foldl (fun c e => c.setReg e.1 e.2) c).reg j = (res.lookup j).getD (c.reg j) := by
  induction res generalizing c with
  | nil => rfl
  | cons e r ih =>
    obtain ⟨ha, hr⟩ := List.nodup_cons.mp hn
    rw [List.foldl_cons, ih hr, Copy.reg_setReg hj, getD_lookup_cons]
    by_cases h : j = e.1
    · rw [if_pos h, if_pos h, h, lookup_of_not_listed ha, Option.getD_none]
    · rw [if_neg h, if_neg h]

theorem foldl_setReg_same : ∃ g, res.foldl (fun c e => c.setReg e.1 e.2) c = { c with regs := { c.regs with g := g } } := by
  induction res generalizing c with
  | nil => exact ⟨_, rfl⟩
  | cons e r ih =>
    obtain ⟨g, h⟩ := ih (c := c.setReg e.1 e.2)
    exact ⟨g, h⟩

/-- Where gd is no result register, it holds the status and the result registers hold the results. -/
theorem results_eq (hn : (i :: res.map Prod.fst).Nodup) :
    c.results i n st res = (res.foldl (fun c e => c.setReg e.1 e.2) c).setReg i (BitVec.ofNat 32 st) := by
  have hany : (res.any fun e => e.1 == i) = false := by
    rw [List.any_eq_false]
    intro e he h
    exact (List.nodup_cons.mp hn).1 (eq_of_beq h ▸ List.mem_map_of_mem he)
  rw [Copy.results, hany]
  rfl

theorem results_reg {j : Nat} (hn : (i :: res.map Prod.fst).Nodup) (hj : j < 16) :
    (c.results i n st res).reg j = (((i, BitVec.ofNat 32 st) :: res).lookup j).getD (c.reg j) := by
  rw [results_eq hn, Copy.reg_setReg hj, reg_foldl_setReg (List.nodup_cons.mp hn).2 hj, getD_lookup_cons]

theorem results_same (hn : (i :: res.map Prod.fst).Nodup) :
    ∃ g, c.results i n st res = { c with regs := { c.regs with g := g } } := by
  obtain ⟨g, h⟩ := foldl_setReg_same (res := res) (c := c)
  rw [results_eq hn, h]
  exact ⟨_, rfl⟩

/-! ## The unit -/

/-- An access answers with a status and results, and no bytes to copy. -/
def Imm.Gives (m : Imm) (st : Nat) (res : List (Nat × Word)) : Prop := m.data = [] ∧ m.status.toNat = st ∧ m.res = res

/-- The copy `c` with one access more and the item of the call in its stream. -/
def Copy.called (c : Copy) (n : Nat) : Copy := ({ c with order := c.order + 1 } : Copy).item (itemImm n)

/-- What a completed immediate call leaves of the copy beside its registers (R161, R303). -/
def Called (c : Copy) (n : Nat) (x : Copy) : Prop :=
  x.ws = c.ws ∧ x.chk = c.chk ∧ x.skip = false ∧ x.items = c.items ++ itemImm n ∧ x.order = c.order + 1

/-- An immediate call is to be made and may be: its class, level and form are right, it finds the tag that it needs, and its
copy has no twin (R32, R160, R161). -/
structure CallMade (s : State) (k n : Nat) (c : Copy) : Prop where
  immediate : callCommitted n = false ∧ callImmediate n = true
  level : callLevel s.cfg (keyTask k) n = true
  form : callForm s k n (c.reg 0) (c.reg 1) (c.reg 2) = true
  tag : lacksTag s k n c = false
  alone : pairedCopy s k = false ∨ 64 ≤ keyTask k

/-- A call that is made takes its own value, and copies no bytes where there are none. -/
theorem sysCall_made (h : CallMade s k n c)
    (hr : immAccess (keyTask k) n (c.reg 0) (c.reg 1) (c.reg 2) s = (u, m)) (hm : m.Gives st res) :
    sysCall i n s k c = { s := u, c := (c.called n).results i n st res } := by
  obtain ⟨⟨hcomm, himm⟩, hlevel, hform, htag, halone⟩ := h
  obtain ⟨hdata, rfl, rfl⟩ := hm
  simp only [sysCall, hcomm, himm, hlevel, hform, htag, accessOnce_alone halone, hr, hdata, copyStoreAll]
  rfl

/-- What an immediate call leaves. -/
theorem call_made_passed (h : UnitRuns s l p d k c) (hc : CallMade (slotBegins s k c).1 k n (slotBegins s k c).2)
    (hr : immAccess (keyTask k) n (c.reg 0) (c.reg 1) (c.reg 2) (slotBegins s k c).1 = (u, m)) (hm : m.Gives st res)
    (hn : (i :: res.map Prod.fst).Nodup) (hu : Only ps (slotBegins s k c).1 u)
    (hps : ∀ q ∈ [Part.ln, .pending, .tap], q ∉ ps) (hrun : SameRun s u (keyTask k)) :
    Ends (answer s (issue l.val p d (sysCall i n) s))
      (Passed s k c (p.length + 1) ((i, BitVec.ofNat 32 st) :: res) c.regs [] ps (Called c n)) := by
  obtain ⟨g, hg⟩ := results_same (c := (slotBegins s k c).2.called n) (n := n) (st := st) hn
  refine unit_passed_sameRun h (sysCall_made hc (by simpa only [slotBegins_reg] using hr) hm) hu hps hrun ?_ (fun j hj => ?_)
    ?_ ?_ fun z ls st b => ?_
  · rw [hg]
    exact stands_slotBegins
  · rw [results_reg hn hj]
    exact congrArg _ slotBegins_reg
  · rw [hg]
    exact specialAs_slotBegins
  · rw [hg]
    exact loops_slotBegins
  · rw [hg]
    exact ⟨slotBegins_ws, slotBegins_chk, slotBegins_skip.trans h.noSkip, congrArg (· ++ itemImm n) slotBegins_items,
      congrArg (· + 1) slotBegins_order⟩

end Sys2Proof.Machine
end

section
/-! The immediate calls that read device state (R194, R257, R294, R342, R432, R464): what each access gives. -/
namespace Sys2Proof.Machine

variable {s u : State} {l : LaneId} {p : List Pre} {k n i st : Nat} {c : Copy} {d : Dec} {g0 g1 g2 : Word} {j : Inst} {m : Imm}
  {res : List (Nat × Word)}

/-! ## Calls that change nothing -/

theorem immRelease_gives (h : s.inst n = some j) :
    (immRelease s n).Gives 0 [(0, BitVec.ofNat 32 j.rel), (1, BitVec.ofNat 32 (j.rel / 2 ^ 32)), (2, j.num)] := by
  rw [immRelease, h]
  exact ⟨rfl, rfl, rfl⟩

theorem immSnap_gives {x : Nat × Bool × Nat} (h : s.inst n = some j)
    (hx : j.groups.find? (fun y => y.1 == g0.toNat) = some x) :
    (immSnap s n g0).Gives 0 [(1, BitVec.ofNat 32 x.2.1.toNat), (2, BitVec.ofNat 32 x.2.2)] := by
  have hb : b2w x.2.1 = BitVec.ofNat 32 x.2.1.toNat := by cases x.2.1 <;> rfl
  simp only [immSnap, h, hx, hb]
  exact ⟨rfl, rfl, rfl⟩

/-- A shaft in use reads as at the release of the instance. -/
theorem immShaft_gives {x : ShaftSnap} (h : s.inst n = some j) (hx : j.shafts[fld g0 0 2]? = some x)
    (hb : g0.getLsbD 8 = false) (hon : shOn (cfgOf s n) (fld g0 0 2) = true) :
    (immShaft s n g0).Gives 0
      [(1, x.pos.setWidth 32), (2, put x.stat.toNat 24 8 ||| put (x.pos.toNat / 2 ^ 32) 0 8), (3, x.vel)] := by
  have hb : wbit g0 8 = false := hb
  simp only [immShaft, hon, h, hb, List.getD_eq_getElem?_getD, hx]
  exact ⟨rfl, rfl, rfl⟩

theorem immShaft_unused (hon : shOn (cfgOf s n) (fld g0 0 2) = false) : (immShaft s n g0).Gives 0x0A [] := by
  simp only [immShaft, hon]
  exact ⟨rfl, rfl, rfl⟩

theorem immLoop_gives (hon : lOn (cfgOf s n) (fld g0 0 8) = true) : (immLoop s n g0).Gives 0
    [(1, (s.loop (fld g0 0 8)).uPrev), (2, loopStat s (fld g0 0 8)), (3, (s.loop (fld g0 0 8)).i)] := by
  simp only [immLoop, hon]
  exact ⟨rfl, rfl, rfl⟩

theorem immLoop_unused (hon : lOn (cfgOf s n) (fld g0 0 8) = false) : (immLoop s n g0).Gives 0x0A [] := by
  simp only [immLoop, hon]
  exact ⟨rfl, rfl, rfl⟩

/-! ## `LOOP_READ` -/

/-- The value that the instance of task `t` retains for a loop (R342). -/
def State.loopKept (s : State) (t n : Nat) : Option Imm := (s.inst t).bind fun i => tabGet none i.loopRd n

/-- The instance of task `t`, if it has one, retains `m` for a loop (R342). -/
def State.keepLoop (s : State) (t n : Nat) (m : Imm) : State :=
  match s.inst t with
  | some i => s.setInst t (some { i with loopRd := tabSet none n (some m) i.loopRd })
  | none => s

/-- The first read of a loop in an instance is retained. -/
theorem immAccess_loop_first (h : s.loopKept n (fld g0 0 8) = none) :
    immAccess n 0x0600 g0 g1 g2 s = (s.keepLoop n (fld g0 0 8) (immLoop s n g0), immLoop s n g0) := by
  show immCall n 0x0600 g0 g1 g2 s = _
  rw [State.loopKept] at h
  simp only [immCall, h]
  rfl

/-- A later one returns what is retained. -/
theorem immAccess_loop_later (h : s.loopKept n (fld g0 0 8) = some m) : immAccess n 0x0600 g0 g1 g2 s = (s, m) := by
  show immCall n 0x0600 g0 g1 g2 s = _
  rw [State.loopKept] at h
  simp only [immCall, h]

theorem only_keepLoop {t : Nat} : Only [.seq] s (s.keepLoop t n m) := by
  unfold State.keepLoop
  split
  · exact only_setInst .refl (List.Subset.refl _)
  · exact .refl

theorem sameRun_keepLoop {t : Nat} : SameRun s (s.keepLoop t n m) t := by
  unfold State.keepLoop
  split
  next i hi => exact sameRun_setInst hi rfl rfl
  next => exact ⟨rfl, fun _ => rfl⟩

theorem loopKept_slotBegins {t : Nat} : (slotBegins s k c).1.loopKept t n = s.loopKept t n := by
  rw [State.loopKept, inst_slotBegins, State.loopKept]

/-! ## `NV_COUNT_READ` -/

/-- The counter read holds a tag for as long as it takes (R31, R448). -/
theorem immAccess_count : immAccess n 0x0B04 g0 g1 g2 s =
    (passTag (readCounter s (g0.toNat % 32 + 2)) (taskTags s.cfg n) stDone, (immNvCount s g0).2) := rfl

theorem immNvCount_gives (v : Nat) (h : v = (tabGet ({} : Ctr) s.nv.ctrs (g0.toNat % 32 + 2)).value) :
    (immNvCount s g0).2.Gives 0 [(1, BitVec.ofNat 32 v), (2, BitVec.ofNat 32 (v / 2 ^ 32 % 256))] := by
  subst h
  exact ⟨rfl, rfl, rfl⟩

theorem lacksTag_of_free (h : freeTags s (taskTags s.cfg (keyTask k)) ≠ []) : lacksTag s k n c = false := by
  rw [lacksTag, List.isEmpty_eq_false_iff.mpr h]
  simp

/-! ## The calls -/

/-- A call that changes nothing of the state. -/
theorem call_read_passed (h : UnitRuns s l p d k c) (hc : CallMade (slotBegins s k c).1 k n (slotBegins s k c).2)
    (hr : immAccess (keyTask k) n (c.reg 0) (c.reg 1) (c.reg 2) (slotBegins s k c).1 = ((slotBegins s k c).1, m))
    (hm : m.Gives st res) (hn : (i :: res.map Prod.fst).Nodup) :
    Ends (answer s (issue l.val p d (sysCall i n) s))
      (Passed s k c (p.length + 1) ((i, BitVec.ofNat 32 st) :: res) c.regs [] [] (Called c n)) :=
  call_made_passed h hc hr hm hn .refl (by decide) (sameRun_of_seq slotBegins_seq)

/-- The first read of a loop, which the instance retains. -/
theorem call_loop_first_passed (h : UnitRuns s l p d k c) (hc : CallMade (slotBegins s k c).1 k 0x0600 (slotBegins s k c).2)
    (hk : s.loopKept (keyTask k) (fld (c.reg 0) 0 8) = none)
    (hm : (immLoop (slotBegins s k c).1 (keyTask k) (c.reg 0)).Gives st res) (hn : (i :: res.map Prod.fst).Nodup) :
    Ends (answer s (issue l.val p d (sysCall i 0x0600) s))
      (Passed s k c (p.length + 1) ((i, BitVec.ofNat 32 st) :: res) c.regs [] [.seq] (Called c 0x0600)) :=
  call_made_passed h hc (immAccess_loop_first (loopKept_slotBegins.trans hk)) hm hn only_keepLoop (by decide)
    ((sameRun_of_seq slotBegins_seq).trans sameRun_keepLoop)

/-- Where the slot of a call begins, the call is made as it may be when it issues. -/
theorem callMade_slotBegins (hi : callCommitted n = false ∧ callImmediate n = true)
    (hl : callLevel s.cfg (keyTask k) n = true)
    (hf : callForm (slotBegins s k c).1 k n (c.reg 0) (c.reg 1) (c.reg 2) = true)
    (ht : lacksTag (slotBegins s k c).1 k n (slotBegins s k c).2 = false) (ha : pairedCopy s k = false ∨ 64 ≤ keyTask k) :
    CallMade (slotBegins s k c).1 k n (slotBegins s k c).2 :=
  ⟨hi, by rwa [slotBegins_cfg], by rwa [slotBegins_reg, slotBegins_reg, slotBegins_reg], ht, by rwa [pairedCopy_slotBegins]⟩

/-- Settles O28: each call by what its access gives; a read of a loop by whether the instance retains an earlier one. -/
theorem immediateCalls : Obligations.ImmediateCalls := by
  unfold Obligations.ImmediateCalls
  intro s l p k c d v1 v2 v3 t0 u g alone lo key read
  have made {n : Nat} (hi : callCommitted n = false ∧ callImmediate n = true) (ht : callFabric n = false) (ha : alone)
      (hl : callLevel s.cfg t0 n = true) (hf : callForm u k n (g 0) (g 1) (g 2) = true) :
      CallMade u k n (slotBegins s k c).2 := callMade_slotBegins hi hl hf (by rw [lacksTag, ht]; rfl) ha
  refine ⟨?_, ?_, ?_, ?_, ?_, ?_, ?_, ?_, ?_, ?_, ?_⟩
  · -- RELEASE_TIME
    intro i hi h ha h0 h1 h2 hl hf
    exact call_read_passed h (made ⟨rfl, rfl⟩ rfl ha hl hf) rfl (immRelease_gives (inst_slotBegins.trans hi))
      (by simp [h0, h1, h2])
  · -- SNAP_INFO
    intro i x hi hx h ha h1 h2 hl hf
    exact call_read_passed h (made ⟨rfl, rfl⟩ rfl ha hl hf) rfl (immSnap_gives (inst_slotBegins.trans hi) hx) (by simp [h1, h2])
  · -- SHAFT_READ
    intro i x hi hx hb hon h ha h1 h2 h3 hl hf
    exact call_read_passed h (made ⟨rfl, rfl⟩ rfl ha hl hf) rfl
      (immShaft_gives (inst_slotBegins.trans hi) hx hb (by rwa [cfgOf_slotBegins])) (by simp [h1, h2, h3])
  · -- YL_STA_INFO
    intro h ha h1 h2 h3 hl hf
    have hm : (immSta u (g 0)).Gives 0 [(1, staWord u key), (2, (s.sta key).type), (3, (s.sta key).rtt)] := by
      rw [State.sta, ← slotBegins_yl (s := s) (k := k) (c := c)]
      exact ⟨rfl, rfl, rfl⟩
    exact call_read_passed h (made ⟨rfl, rfl⟩ rfl ha hl hf) rfl hm (by simp [h1, h2, h3])
  · -- YL_COUNT
    intro h ha h1 hl hf
    have hm : (immCount u (g 0)).Gives 0 [(1, tabGet 0 s.yl.counts (16 * fld (g 0) 0 3 + fld (g 0) 8 4))] := by
      rw [← slotBegins_yl (s := s) (k := k) (c := c)]
      exact ⟨rfl, rfl, rfl⟩
    exact call_read_passed h (made ⟨rfl, rfl⟩ rfl ha hl hf) rfl hm (by simp [h1])
  · -- LOOP_READ, the first of its loop
    intro h ha h1 h2 h3 hl hf hon hk
    have hlp : u.lp = s.lp := (only_slotBegins (ps := [.ln]) .refl (by decide)).lp_eq (by decide)
    have hm := immLoop_gives (s := u) (n := t0) (g0 := g 0) (by rwa [cfgOf_slotBegins])
    rw [State.loop, hlp] at hm
    exact call_loop_first_passed h (made ⟨rfl, rfl⟩ rfl ha hl hf) hk hm (by simp [h1, h2, h3])
  · -- LOOP_READ, a later one
    intro i m hi hm hdata hres hst h ha h1 h2 h3 hl hf
    have hk : u.loopKept t0 (fld (g 0) 0 8) = some m := by
      rw [loopKept_slotBegins, State.loopKept, hi]
      exact hm
    exact call_read_passed (st := 0) h (made ⟨rfl, rfl⟩ rfl ha hl hf) (immAccess_loop_later hk) ⟨hdata, by rw [hst]; rfl, hres⟩
      (by simp [h1, h2, h3])
  · -- LOOP_READ of a loop that is not in use
    intro hon hk h ha hl hf
    exact call_loop_first_passed h (made ⟨rfl, rfl⟩ rfl ha hl hf) hk (immLoop_unused (by rwa [cfgOf_slotBegins])) (by simp)
  · -- SHAFT_READ of a shaft that is not in use
    intro hb hon h ha hl hf
    exact call_read_passed h (made ⟨rfl, rfl⟩ rfl ha hl hf) rfl (immShaft_unused (by rwa [cfgOf_slotBegins])) (by simp)
  · -- SAFE_STATUS
    intro h ha h1 h2 h3 hl hf
    exact call_read_passed h (made ⟨rfl, rfl⟩ rfl ha hl hf) rfl (m := immSafe u) ⟨rfl, rfl, rfl⟩ (by simp [h1, h2, h3])
  · -- NV_COUNT_READ
    intro v hv ht h ha h1 h2 hl hf
    have hnv : u.nv = s.nv := (only_slotBegins (ps := [.ln]) .refl (by decide)).nv_eq (by decide)
    have hu : Only [.free, .yl, .host, .nv, .out] u (passTag (readCounter u ((g 0).toNat % 32 + 2)) (taskTags u.cfg t0) stDone) :=
      only_passTag (only_readCounter .refl (by decide)) (by decide)
    exact call_made_passed h (callMade_slotBegins ⟨rfl, rfl⟩ hl hf (lacksTag_of_free ht) ha) immAccess_count
      (immNvCount_gives v (by rw [hnv]; exact hv)) (by simp [h1, h2]) hu (by decide)
      (sameRun_of_seq ((hu.seq_eq (by decide)).trans slotBegins_seq))

end Sys2Proof.Machine
end

section
/-! The channels of the field die: what a change of one of them, and the held changes of R355, leave of it. -/
namespace Sys2Proof.Machine

variable {s t u : State} {k j n : Nat} {f : Chan → Chan} {c : Change} {l l1 l2 : List Change} {x y z : Chan} {b v : Bool}

/-! ## Drivers -/

/-- A driver brought up to date is the only change of its channel. -/
theorem Chan.drive_same : ∃ a r w, x.drive b n = { x with driver := a, readback := r, swAt := w } := by
  unfold Chan.drive
  dsimp only
  split
  · exact ⟨x.driver, x.readback, x.swAt, rfl⟩
  · exact ⟨_, _, _, rfl⟩

/-- What the driver of a channel does not change: its configuration, its value, its hold and its test. -/
theorem Chan.drive_keeps : (x.drive b n).mode = x.mode ∧ (x.drive b n).value = x.value ∧
    (x.drive b n).expired = x.expired ∧ (x.drive b n).test = x.test := by
  obtain ⟨a, r, w, h⟩ := x.drive_same (b := b) (n := n)
  rw [h]
  exact ⟨rfl, rfl, rfl, rfl⟩

/-- One channel changed, with its driver. -/
theorem chan_onChan : (onChan s k f).chan j = if j = k then (f (s.chan k)).drive (chanPower s k) s.fld.dieNs else s.chan j :=
  State.chan_modChan

/-- Of the field, only channels have changed, and of the machine nothing else. -/
def ChansOnly (s t : State) : Prop := ∃ v, t = s.onFld fun f => { f with chans := v }

theorem ChansOnly.refl : ChansOnly s s := ⟨s.fld.chans, rfl⟩

theorem ChansOnly.trans (h : ChansOnly s t) (h' : ChansOnly t u) : ChansOnly s u := by
  obtain ⟨v, rfl⟩ := h
  obtain ⟨w, rfl⟩ := h'
  exact ⟨w, rfl⟩

theorem chansOnly_onChan : ChansOnly s (onChan s k f) := ⟨_, rfl⟩

/-- Changes of several channels, each of those that `g` names by its own function. -/
theorem chansOnly_foldl {g : Nat → Bool} {f : Nat → Chan → Chan} {L : List Nat} :
    ChansOnly s (L.foldl (fun s k => if g k then onChan s k (f k) else s) s) :=
  List.foldlRecOn (motive := ChansOnly s) _ _ .refl fun u h k _ => h.trans <| by
    split
    · exact chansOnly_onChan
    · exact .refl

/-- What the changes of several channels leave of one of them. -/
theorem chan_foldl_onChan {g : Nat → Bool} {f : Nat → Chan → Chan} {L : List Nat} (hL : L.Nodup) :
    (L.foldl (fun s k => if g k then onChan s k (f k) else s) s).chan j =
      if j ∈ L ∧ g j = true then (f j (s.chan j)).drive (chanPower s j) s.fld.dieNs else s.chan j := by
  induction L generalizing s with
  | nil => simp
  | cons a L ih =>
    obtain ⟨ha, hL⟩ := List.nodup_cons.mp hL
    rw [List.foldl_cons, ih hL]
    by_cases hg : g a = true
    · obtain ⟨v, hv⟩ := chansOnly_onChan (s := s) (k := a) (f := f a)
      have hpower : chanPower (onChan s a (f a)) j = chanPower s j := by rw [hv]; rfl
      have hns : (onChan s a (f a)).fld.dieNs = s.fld.dieNs := by rw [hv]; rfl
      rw [if_pos hg, hpower, hns, chan_onChan]
      by_cases e : j = a
      · subst e
        simp [ha, hg]
      · simp [e]
    · rw [if_neg hg]
      by_cases e : j = a
      · subst e
        simp [hg]
      · simp [e]

/-! ## Held changes -/

/-- What a change applied leaves of channel `k`: a FRET channel that it names and that has not expired has its value (R355). -/
structure Chan.Applied (c : Change) (k : Nat) (x y : Chan) : Prop where
  mode : y.mode = x.mode
  expired : y.expired = x.expired
  value : y.value = if c.channels.getLsbD k = true ∧ x.mode = 5 ∧ x.expired = false then c.vals.getLsbD k else x.value
  unnamed : c.channels.getLsbD k = false → y = x

theorem chansOnly_applyChange : ChansOnly s (applyChange s c) := chansOnly_foldl

theorem chan_applyChange (hk : k < 32) : (s.chan k).Applied c k ((applyChange s c).chan k) := by
  have h : (applyChange s c).chan k = _ := chan_foldl_onChan List.nodup_range
  rw [h]
  by_cases hg : c.channels.getLsbD k = true
  · obtain ⟨hmode, hvalue, hexp, -⟩ := Chan.drive_keeps (b := chanPower s k) (n := s.fld.dieNs)
      (x := if (s.chan k).mode = 5 && !(s.chan k).expired then { s.chan k with value := c.vals.getLsbD k, safeHeld := false }
        else s.chan k)
    rw [if_pos ⟨List.mem_range.mpr hk, hg⟩]
    refine ⟨hmode.trans ?_, hexp.trans ?_, hvalue.trans ?_, fun h => absurd (hg.symm.trans h) nofun⟩
    · split <;> rfl
    · split <;> rfl
    · rw [apply_ite Chan.value]
      simp [hg]
  · rw [if_neg fun h => hg h.2]
    exact ⟨rfl, rfl, by rw [if_neg fun h => hg h.1], fun _ => rfl⟩

/-- The value that a list of changes gives channel `k`: that of the last one that names it, or `v` where none does. -/
def lastValue (k : Nat) (l : List Change) (v : Bool) : Bool :=
  match (l.filter fun y => y.channels.getLsbD k).getLast? with
  | some y => y.vals.getLsbD k
  | none => v

theorem lastValue_cons : lastValue k (c :: l) v = lastValue k l (if c.channels.getLsbD k = true then c.vals.getLsbD k else v) := by
  unfold lastValue
  by_cases h : c.channels.getLsbD k = true
  · rw [List.filter_cons, if_pos h, if_pos h, List.getLast?_cons]
    cases (l.filter fun y => y.channels.getLsbD k).getLast? <;> rfl
  · rw [List.filter_cons, if_neg h, if_neg h]

/-- Held changes leave of the field all but the channels, and are no longer held. -/
theorem applyHeld_eq : ∃ v, applyHeld s l = s.onFld fun f => { f with chans := v, timed := l.foldl (fun m y => m.erase y) f.timed } := by
  unfold applyHeld
  induction l generalizing s with
  | nil => exact ⟨s.fld.chans, rfl⟩
  | cons c l ih =>
    obtain ⟨v, hv⟩ := chansOnly_applyChange (s := s.onFld fun f => { f with timed := f.timed.erase c }) (c := c)
    rw [List.foldl_cons, hv]
    obtain ⟨w, hw⟩ := ih (s := (s.onFld fun f => { f with timed := f.timed.erase c }).onFld fun f => { f with chans := v })
    exact ⟨w, hw⟩

/-- What held changes leave of channel `k`. -/
structure Chan.AppliedAll (l : List Change) (k : Nat) (x y : Chan) : Prop where
  mode : y.mode = x.mode
  expired : y.expired = x.expired
  value : x.mode = 5 → x.expired = false → y.value = lastValue k l x.value
  other : x.mode ≠ 5 → y.value = x.value
  unnamed : (∀ c ∈ l, c.channels.getLsbD k = false) → y = x

theorem Chan.AppliedAll.nil : x.AppliedAll [] k x := ⟨rfl, rfl, fun _ _ => rfl, fun _ => rfl, fun _ => rfl⟩

theorem Chan.AppliedAll.cons (h : x.Applied c k y) (h' : y.AppliedAll l k z) : x.AppliedAll (c :: l) k z := by
  refine ⟨h'.mode.trans h.mode, h'.expired.trans h.expired, fun h5 he => ?_, fun h5 => ?_, fun hn => ?_⟩
  · rw [h'.value (h.mode.trans h5) (h.expired.trans he), h.value, lastValue_cons]
    simp only [h5, he, and_self, and_true]
  · rw [h'.other (h.mode ▸ h5), h.value, if_neg fun e => h5 e.2.1]
  · obtain ⟨hc, hl⟩ := List.forall_mem_cons.mp hn
    exact (h'.unnamed hl).trans (h.unnamed hc)

theorem chan_applyHeld (hk : k < 32) : (s.chan k).AppliedAll l k ((applyHeld s l).chan k) := by
  unfold applyHeld
  induction l generalizing s with
  | nil => exact .nil
  | cons c l ih => exact .cons (chan_applyChange (s := s.onFld fun f => { f with timed := f.timed.erase c }) hk) ih

/-! ## The order of the changes that are due -/

theorem mem_insertChange {d : Change} : d ∈ insertChange n c l ↔ d = c ∨ d ∈ l := by
  induction l with
  | nil => simp [insertChange]
  | cons h r ih =>
    unfold insertChange
    split
    · exact List.mem_cons
    · rw [List.mem_cons, ih, List.mem_cons]
      tauto

/-- In the order of the stamps as instant `n` sees them. -/
def InOrder (n : Nat) (l : List Change) : Prop := l.Pairwise fun a b => ahead a.stamp n ≤ ahead b.stamp n

theorem inOrder_insertChange (h : InOrder n l) : InOrder n (insertChange n c l) := by
  induction l with
  | nil => exact List.pairwise_singleton ..
  | cons d r ih =>
    obtain ⟨hd, hr⟩ := List.pairwise_cons.mp h
    unfold insertChange
    split
    next hlt =>
      refine List.pairwise_cons.mpr ⟨fun e he => ?_, h⟩
      rcases List.mem_cons.mp he with rfl | he
      · exact hlt.le
      · exact hlt.le.trans (hd e he)
    next hge =>
      refine List.pairwise_cons.mpr ⟨fun e he => ?_, ih hr⟩
      rcases mem_insertChange.mp he with rfl | he
      · exact not_lt.mp hge
      · exact hd e he

theorem inOrder_dueChanges : InOrder n (dueChanges s n) :=
  List.foldlRecOn (motive := InOrder n) _ _ List.Pairwise.nil fun _ h _ _ => inOrder_insertChange h

theorem mem_foldl_insertChange {d : Change} : d ∈ l2.foldl (fun l c => insertChange n c l) l1 ↔ d ∈ l1 ∨ d ∈ l2 := by
  induction l2 generalizing l1 with
  | nil => simp
  | cons c r ih =>
    rw [List.foldl_cons, ih, mem_insertChange, List.mem_cons]
    tauto

/-- The changes due are those held whose stamp has come. -/
theorem mem_dueChanges {d : Change} : d ∈ dueChanges s n ↔ d ∈ s.fld.timed ∧ ahead d.stamp n ≤ 0 := by
  rw [dueChanges, mem_foldl_insertChange]
  simp

/-- Up to the first change with an identifier. -/
theorem changesUpTo_first {id : BitVec 4} (hc : c.id = id) (h : ∀ d ∈ l1, d.id ≠ id) :
    changesUpTo id (l1 ++ c :: l2) = l1 ++ [c] := by
  induction l1 with
  | nil => exact if_pos hc
  | cons d r ih =>
    obtain ⟨hd, hr⟩ := List.forall_mem_cons.mp h
    have hany : ((r ++ c :: l2).any (·.id == id)) = true := by simp [hc]
    rw [List.cons_append, changesUpTo, if_neg hd, if_pos hany, ih hr, List.cons_append]

end Sys2Proof.Machine
end

section
/-! Up frames (R34, R172, R351, R352): what the input read point of a frame leaves of the field, of the Canopy and of the
recorder. -/
namespace Sys2Proof.Machine

variable {s t : State} {a : Answer} {w : UpFrame} {r : List Answer} {l : List News} {n : News} {ok : Bool} {k : Nat}

/-! ## News -/

/-- One piece of news reaches the logic side: it is recorded, unless an earlier frame has told it (R23). -/
def hear (s : State) (n : News) : State :=
  if s.fld.news.contains n then tellNews (s.onFld fun f => { f with news := f.news.erase n }) n else s

theorem fld_record {c : Nat} {i : List RItem} : (record s c i).fld = s.fld :=
  (only_record .refl (List.Subset.refl _)).fld_eq (by decide)

theorem fld_tellNews : (tellNews s n).fld = s.fld := (only_tellNews .refl (List.Subset.refl _)).fld_eq (by decide)

theorem fld_hear : (hear s n).fld = { s.fld with news := s.fld.news.erase n } := by
  unfold hear
  split
  · exact fld_tellNews
  next h => rw [List.erase_of_not_mem (by simpa using h)]

theorem fld_foldl_hear : (l.foldl hear s).fld = { s.fld with news := l.foldl (fun m n => m.erase n) s.fld.news } := by
  induction l generalizing s with
  | nil => rfl
  | cons n l ih => rw [List.foldl_cons, ih, fld_hear, List.foldl_cons]

theorem learn_eq : learn s a = a.news.foldl hear (s.onFld fun f => { f with view := a.view }) := rfl

/-- What the logic side learns with a frame: the channels as they were, and the news that it has not heard yet. -/
theorem fld_learn : (learn s a).fld =
    { s.fld with view := a.view, news := a.news.foldl (fun m n => m.erase n) s.fld.news } := by
  rw [learn_eq, fld_foldl_hear]
  rfl

theorem foldl_erase_self : l.foldl (fun m n => m.erase n) l = [] := by
  induction l with
  | nil => rfl
  | cons n l ih => rw [List.foldl_cons, List.erase_cons_head, ih]

/-- A single piece of news, not heard before, is recorded. -/
theorem learn_single (h : a.news = [n]) (h' : s.fld.news = [n]) :
    learn s a = tellNews ((s.onFld fun f => { f with view := a.view }).onFld fun f => { f with news := f.news.erase n }) n := by
  have hc : ((s.onFld fun f => { f with view := a.view }).fld.news.contains n) = true := by
    show s.fld.news.contains n = true
    simp [h']
  rw [learn_eq, h]
  exact if_pos hc

/-! ## A valid up frame -/

/-- What the logic side notes of a valid up frame (R351). -/
def State.upNoted (s : State) (w : UpFrame) : State :=
  s.onFld fun f => { f with lastUp := some w, lastUpSeq := some w.seq, lastUpAt := s.now, goodRun := f.goodRun + 1 }

/-- The bytes that an up frame commits (R351). -/
def upBytes (w : UpFrame) : List Byte := leBytes 4 w.input.toNat ++ leBytes 4 w.readback.toNat

/-- The state in which the stream is judged: inputs committed, groups and edges handled. -/
def upCommitted (s : State) (w : UpFrame) : State :=
  fieldEdges (fieldGroups (publishInputs (s.upNoted w) (atAddr 0x10000000 (upBytes w))) true) w s.fld.seen.input

theorem upArrives_eq : upArrives s w = streamRestored (upCommitted s w) w := rfl

theorem only_upCommitted : Only [.seq, .can, .host, .nv, .out] (s.upNoted w) (upCommitted s w) :=
  only_fieldEdges (only_fieldGroups (only_publishInputs .refl (List.Subset.refl _)) (by decide)) (by decide)

/-- The stream is valid from the third good frame on (R352). -/
theorem fld_streamRestored : ∃ x, (streamRestored s w).fld =
    { s.fld with valid := s.fld.valid || decide (3 ≤ s.fld.goodRun), restoredAt := x } := by
  unfold streamRestored
  split
  next h =>
    rw [Bool.and_eq_true, Bool.not_eq_true'] at h
    obtain ⟨hv, hg⟩ := h
    rw [hv, hg]
    refine ⟨s.now, ?_⟩
    dsimp only
    split
    · rfl
    · split
      · exact fld_record
      · exact fld_record.trans fld_record
  next h =>
    refine ⟨s.fld.restoredAt, ?_⟩
    have hsame : (s.fld.valid || decide (3 ≤ s.fld.goodRun)) = s.fld.valid := by
      cases hv : s.fld.valid <;> simp_all
    rw [hsame]

/-- What a valid up frame leaves of the field. -/
theorem fld_upArrives : ∃ x, (upArrives s w).fld = { s.fld with
    lastUp := some w, lastUpSeq := some w.seq, lastUpAt := s.now, goodRun := s.fld.goodRun + 1
    valid := s.fld.valid || decide (3 ≤ s.fld.goodRun + 1), restoredAt := x } := by
  obtain ⟨x, hx⟩ := fld_streamRestored (s := upCommitted s w) (w := w)
  refine ⟨x, ?_⟩
  rw [upArrives_eq, hx, only_upCommitted.fld_eq (by decide)]
  rfl

/-- Bytes at an address other than 0 are written as a run. -/
theorem putAll_atAddr {M : Mem} {b : Nat} {l : List Byte} (h : b ≠ 0) : putAll M (atAddr b l) = M.putBytes b l := by
  rw [← putAll_zip, atAddr, if_neg h]
  congr 1
  refine List.ext_getElem (by simp) fun i hi _ => ?_
  have hi : i < l.length := by simpa using hi
  simp [byteAt, hi]

/-- What a valid up frame leaves of the bytes of the Canopy. -/
theorem mem_upArrives : (upArrives s w).can.mem = s.can.mem.putBytes 0x10000000 (upBytes w) := by
  have hpub : Only [.seq, .fld, .host, .nv, .out] (publishInputs (s.upNoted w) (atAddr 0x10000000 (upBytes w)))
      (upArrives s w) :=
    only_streamRestored (only_fieldEdges (only_fieldGroups .refl (by decide)) (by decide)) (by decide)
  rw [hpub.can_eq (by decide), publishInputs, (canRepair_leaves (m := 0)).1, can_mem_publish, putAll_atAddr (b := 0x10000000) (by decide)]
  rfl

/-- The eight bytes that an up frame commits. -/
theorem getD_upBytes {j : Nat} (hj : j < 4) : (upBytes w).getD j 0 = BitVec.ofNat 8 (w.input.toNat / 2 ^ (8 * j)) ∧
    (upBytes w).getD (4 + j) 0 = BitVec.ofNat 8 (w.readback.toNat / 2 ^ (8 * j)) := by
  have h : j = 0 ∨ j = 1 ∨ j = 2 ∨ j = 3 := by omega
  rw [← Nat.shiftRight_eq_div_pow, ← Nat.shiftRight_eq_div_pow]
  rcases h with rfl | rfl | rfl | rfl <;> exact ⟨rfl, rfl⟩

theorem byte_upArrives {j : Nat} (hj : j < 4) :
    (upArrives s w).can.mem.byte (0x10000000 + j) = BitVec.ofNat 8 (w.input.toNat / 2 ^ (8 * j)) ∧
      (upArrives s w).can.mem.byte (0x10000004 + j) = BitVec.ofNat 8 (w.readback.toNat / 2 ^ (8 * j)) := by
  have hlen : (upBytes w).length = 8 := rfl
  obtain ⟨hin, hback⟩ := getD_upBytes (w := w) hj
  rw [mem_upArrives, Mem.byte_putBytes, Mem.byte_putBytes, hlen, if_pos (by omega), if_pos (by omega), ← hin, ← hback]
  exact ⟨congrArg (fun i => (upBytes w).getD i 0) (by omega), congrArg (fun i => (upBytes w).getD i 0) (by omega)⟩

theorem byte_upArrives_other {b : Nat} (hb : b < 0x10000000 ∨ 0x10000008 ≤ b) :
    (upArrives s w).can.mem.byte b = s.can.mem.byte b := by
  have hlen : (upBytes w).length = 8 := rfl
  rw [mem_upArrives, Mem.byte_putBytes, hlen, if_neg (by omega)]

theorem bad_publish {b : List (Nat × Byte)} : (publish s none b).can.bad = s.can.bad := by
  show ((linesOf b).foldl (retainLine none) s).can.bad = s.can.bad
  exact List.foldlRecOn (motive := fun t : State => t.can.bad = s.can.bad) _ _ rfl fun _ ht _ _ => ht

/-- Where no word is unrepaired and the stream is valid, an up frame records nothing. -/
theorem nv_upArrives (hv : s.fld.valid = true) (hb : s.can.bad = []) : (upArrives s w).nv = s.nv := by
  have hrepair : publishInputs (s.upNoted w) (atAddr 0x10000000 (upBytes w)) =
      publish (s.upNoted w) none (atAddr 0x10000000 (upBytes w)) := by
    have hbad : (publish (s.upNoted w) none (atAddr 0x10000000 (upBytes w))).can.bad = [] := bad_publish.trans hb
    unfold publishInputs canRepair
    rw [hbad]
    rfl
  have hvalid : (upCommitted s w).fld.valid = true := by
    rw [only_upCommitted.fld_eq (by decide)]
    exact hv
  have hstream : upArrives s w = upCommitted s w := by
    rw [upArrives_eq, streamRestored, hvalid]
    rfl
  rw [hstream, upCommitted, hrepair]
  exact (only_fieldEdges (only_fieldGroups (only_publish (ps := [.seq, .can]) .refl (List.Subset.refl _)) (by decide))
    (by decide)).nv_eq (by decide)

/-! ## The read point -/

/-- The answer at the front has gone. -/
def State.upRead (s : State) : State := s.onFld fun f => { f with answers := f.answers.drop 1 }

section
variable (ha : s.fld.answers = a :: r) (hd : a.at_ + 3200 ≤ s.fld.dieNs)
include ha hd

theorem upEnds_valid (hf : a.frame = some w) (hs : s.fld.lastUpSeq ≠ some w.seq) :
    upEnds s true = upArrives (learn s.upRead a) w := by
  have hnew : (s.fld.lastUpSeq != some w.seq) = true := bne_iff_ne.mpr hs
  unfold upEnds
  rw [ha]
  dsimp only
  rw [if_pos hd, hf]
  exact if_pos hnew

theorem upEnds_invalid (hf : a.frame = some w) (hs : ok = false ∨ s.fld.lastUpSeq = some w.seq) :
    upEnds s ok = upDiscard s.upRead := by
  have hold : (ok && s.fld.lastUpSeq != some w.seq) = false := by
    rcases hs with h | h <;> simp [h]
  unfold upEnds
  rw [ha]
  dsimp only
  rw [if_pos hd, hf]
  exact if_neg (ne_true_of_eq_false hold)

theorem upEnds_missing (hf : a.frame = none) :
    upEnds s ok = fieldGroups (s.upRead.onFld fun f => { f with goodRun := 0 }) false := by
  unfold upEnds
  rw [ha]
  dsimp only
  rw [if_pos hd, hf]
  rfl

end

theorem upEnds_early (ha : s.fld.answers = a :: r) (hd : s.fld.dieNs < a.at_ + 3200) : upEnds s ok = s := by
  unfold upEnds
  rw [ha]
  exact if_neg (Nat.not_le.mpr hd)

end Sys2Proof.Machine
end

section
/-! The up frames, the loss of the stream, silence and timed changes: what each command leaves (R351, R352, R355, R359, R362). -/
namespace Sys2Proof.Machine

variable {s : State} {a : Answer} {w : UpFrame} {r : List Answer} {ok : Bool} {k dt j m : Nat} {kind : Byte}

/-! ## Up frames -/

/-- What a valid up frame leaves of the field, as the answer that carries it tells it. -/
theorem fld_upArrives_learn : ∃ x, (upArrives (learn s.upRead a) w).fld = { s.fld with
    answers := s.fld.answers.drop 1, view := a.view, news := a.news.foldl (fun m n => m.erase n) s.fld.news
    lastUp := some w, lastUpSeq := some w.seq, lastUpAt := s.now, goodRun := s.fld.goodRun + 1
    valid := s.fld.valid || decide (3 ≤ s.fld.goodRun + 1), restoredAt := x } := by
  obtain ⟨x, hx⟩ := fld_upArrives (s := learn s.upRead a) (w := w)
  have hnow : (learn s.upRead a).now = s.now :=
    congrArg Clk.tb ((only_learn (t := s.upRead) .refl (List.Subset.refl _)).clk_eq (by decide))
  rw [hnow, fld_learn] at hx
  exact ⟨x, hx⟩

theorem can_learn : (learn s a).can = s.can := (only_learn .refl (List.Subset.refl _)).can_eq (by decide)

/-- A fault that the logic side has not heard of is recorded last, where the stream is valid and no word is unrepaired. -/
theorem logs_upArrives_learn (hv : s.fld.valid = true) (hb : s.can.bad = []) (hn : s.fld.news = [.fault j kind m])
    (ha : a.news = s.fld.news) : Logs s (upArrives (learn s.upRead a) w) 0x0703 [.b1 j, .b1 kind.toNat, .b4 m] := by
  have hvalid : (learn s.upRead a).fld.valid = true := by
    rw [fld_learn]
    exact hv
  have hbad : (learn s.upRead a).can.bad = [] := by
    rw [can_learn]
    exact hb
  refine logs_record.congr (s := (s.upRead.onFld fun f => { f with view := a.view }).onFld fun f =>
    { f with news := f.news.erase (.fault j kind m) }) rfl ((nv_upArrives hvalid hbad).trans ?_)
  rw [learn_single (s := s.upRead) (ha.trans hn) hn]
  rfl

/-! ## The loss of the stream -/

/-- What the loss of the stream leaves of the field (R352). -/
def State.streamLost (s : State) : State :=
  s.onFld fun f => { f with valid := false, lostAt := s.now, losses := satInc f.losses, goodRun := 0 }

/-- What the recorder is told of the loss: when the last up frame came, and how many were in error. -/
def lossItems (s : State) : List RItem := [.b8 s.fld.lastUpAt, .b4 s.fld.errs.toNat]

theorem exec_bridgeLoss : exec (.bridgeLoss dt) s =
    answer s ((elapse dt s).when (bridgeLate (elapse dt s)) fun t => record t.streamLost 0x0701 (lossItems t)) := rfl

theorem only_recordLoss : Only [.fld, .host, .nv, .out] s (record s.streamLost 0x0701 (lossItems s)) :=
  only_record (only_onFld .refl (by decide)) (by decide)

theorem logs_recordLoss : Logs s (record s.streamLost 0x0701 (lossItems s)) 0x0701 (lossItems s) :=
  Logs.congr (s := s.streamLost) logs_record rfl rfl

/-! ## Silence -/

/-- Every dark test ends (R359). -/
def State.testsEnd (s : State) : State :=
  (List.range 32).foldl (fun t k => onChan t k fun x => { x with test := none }) s

theorem chansOnly_testsEnd : ChansOnly s s.testsEnd :=
  chansOnly_foldl (g := fun _ => true) (f := fun _ x => { x with test := none })

theorem chan_testsEnd (hk : k < 32) : (s.testsEnd.chan k).test = none ∧ (s.testsEnd.chan k).value = (s.chan k).value ∧
    (s.testsEnd.chan k).expired = (s.chan k).expired := by
  have h : s.testsEnd.chan k = _ :=
    chan_foldl_onChan (g := fun _ => true) (f := fun _ x => { x with test := none }) List.nodup_range
  obtain ⟨-, hvalue, hexp, htest⟩ :=
    Chan.drive_keeps (x := { s.chan k with test := none }) (b := chanPower s k) (n := s.fld.dieNs)
  rw [h, if_pos ⟨List.mem_range.mpr hk, rfl⟩]
  exact ⟨htest, hvalue, hexp⟩

/-- What silence leaves: the held changes whose stamp has come have taken effect, the others are discarded (R355, R362). -/
def State.silenced (s : State) : State :=
  ((applyHeld s (dueChanges s (dieClock s))).onFld fun f => { f with silent := true, timed := [] }).testsEnd

theorem exec_silence : exec (.silence dt) s = answer s ((elapse dt s).when (dieLate (elapse dt s)) State.silenced) := rfl

theorem fld_silenced : s.silenced.fld.silent = true ∧ s.silenced.fld.timed = [] := by
  obtain ⟨v, hv⟩ := chansOnly_testsEnd (s := (applyHeld s (dueChanges s (dieClock s))).onFld fun f =>
    { f with silent := true, timed := [] })
  rw [State.silenced, hv]
  exact ⟨rfl, rfl⟩

theorem chan_silenced (hk : k < 32) : (s.silenced.chan k).test = none ∧
    ((s.chan k).mode ≠ 5 ∨ s.fld.timed = [] → (s.silenced.chan k).value = (s.chan k).value) ∧
    (s.silenced.chan k).expired = (s.chan k).expired := by
  have happ := chan_applyHeld (s := s) (l := dueChanges s (dieClock s)) hk
  obtain ⟨htest, hvalue, hexp⟩ := chan_testsEnd (s := (applyHeld s (dueChanges s (dieClock s))).onFld fun f =>
    { f with silent := true, timed := [] }) hk
  refine ⟨htest, fun h => hvalue.trans ?_, hexp.trans happ.expired⟩
  rcases h with h | h
  · exact happ.other h
  · refine congrArg Chan.value (happ.unnamed fun c hc => ?_)
    obtain ⟨hheld, -⟩ := mem_dueChanges.mp hc
    rw [h] at hheld
    exact absurd hheld List.not_mem_nil

theorem only_silenced : Only [.fld] s s.silenced := by
  obtain ⟨v, hv⟩ := chansOnly_testsEnd (s := (applyHeld s (dueChanges s (dieClock s))).onFld fun f =>
    { f with silent := true, timed := [] })
  rw [State.silenced, hv]
  exact only_onFld (only_onFld (only_applyHeld .refl (by decide)) (by decide)) (by decide)

/-- The hold limit of an output channel has run out (R362). -/
theorem holdOver_of {ms : Nat} (hs : s.fld.silent = true) (ho : (s.chan k).isOut = true) (he : (s.chan k).expired = false)
    (hh : (s.chan k).hold = some ms) (hd : s.fld.dieLastEnd + 1000000 * ms ≤ s.fld.dieNs) : holdOver s k = true := by
  simp [holdOver, hs, ho, he, hh, hd]

/-- A channel that has expired does not expire again. -/
theorem holdOver_expired (he : (s.chan k).expired = true) : holdOver s k = false := by
  simp [holdOver, he]

/-- Settles O36, command by command: up frames by what the read point finds, the others by what they leave of a channel. -/
theorem bridgeUpFramesAndSilence : Obligations.BridgeUpFramesAndSilence := by
  unfold Obligations.BridgeUpFramesAndSilence
  intro s dt w k l1 l2 c id ms a r u f x all due
  refine ⟨?_, ?_, ?_, ?_, ?_, ?_, ?_, ?_, ⟨inOrder_dueChanges, fun _ => mem_dueChanges⟩, ?_⟩
  · -- UP_FRAME, valid and with a new number
    rintro ⟨hopen, hanswers, htime⟩ hframe hseq
    have hO : Only [.seq, .can, .fld, .host, .nv, .out] u (upEnds u true) := only_upEnds .refl (List.Subset.refl _)
    refine ends_when hopen hO (by decide) (by decide) ?_
    rw [upEnds_valid hanswers htime hframe hseq] at hO ⊢
    obtain ⟨y, hfld⟩ := fld_upArrives_learn (s := u) (a := a) (w := w)
    rw [hfld]
    refine ⟨congrArg (List.drop 1) hanswers, rfl, rfl, rfl, rfl, fun j hj => byte_upArrives hj, fun b hb => ?_, rfl, rfl,
      fun hnews => ?_, fun j kind m hv hb hn ha => logs_upArrives_learn hv hb hn ha, hO⟩
    · rw [byte_upArrives_other hb, can_learn]
      rfl
    · show a.news.foldl (fun m n => m.erase n) u.fld.news = []
      rw [← hnews]
      exact foldl_erase_self
  · -- UP_FRAME, invalid or repeated
    rintro ok ⟨hopen, hanswers, htime⟩ hframe hbad
    have hO : Only [.seq, .fld] u (upDiscard u.upRead) := only_upDiscard (only_onFld .refl (by decide)) (List.Subset.refl _)
    have hfld : (upDiscard u.upRead).fld = { f with answers := f.answers.drop 1, errs := satInc f.errs, goodRun := 0 } :=
      (only_fieldGroups .refl (List.Subset.refl _)).fld_eq (by decide)
    show Ends (answer s (u.when (readOpen u) fun t => upEnds t ok)) _
    rw [State.when_true hopen, upEnds_invalid hanswers htime hframe hbad]
    refine ends_answer hO (by decide) (by decide) ⟨?_, hO⟩
    rw [hfld, hanswers]
    rfl
  · -- UP_FRAME without an answer
    rintro ok ⟨hopen, hanswers, htime⟩ hframe
    have hO : Only [.seq, .fld] u (fieldGroups (u.upRead.onFld fun f => { f with goodRun := 0 }) false) :=
      only_fieldGroups (only_onFld (only_onFld .refl (by decide)) (by decide)) (by decide)
    have hfld : (fieldGroups (u.upRead.onFld fun f => { f with goodRun := 0 }) false).fld =
        { f with answers := f.answers.drop 1, goodRun := 0 } :=
      (only_fieldGroups .refl (List.Subset.refl _)).fld_eq (by decide)
    show Ends (answer s (u.when (readOpen u) fun t => upEnds t ok)) _
    rw [State.when_true hopen, upEnds_missing hanswers htime hframe]
    refine ends_answer hO (by decide) (by decide) ⟨?_, hO⟩
    rw [hfld, hanswers]
    rfl
  · -- UP_FRAME before its instant, or after a read point of the same instant
    intro ok hanswers h
    show answer s (u.when (readOpen u) fun t => upEnds t ok) = _
    have hsame : (u.when (readOpen u) fun t => upEnds t ok) = u := by
      rcases h with h | h
      · exact State.when_false h
      · rw [State.when, upEnds_early hanswers h, ite_self]
    rw [hsame]
    rfl
  · -- BRIDGE_LOSS
    intro hv ht
    have hlate : bridgeLate u = true := by
      rw [bridgeLate, hv, Bool.true_and]
      exact decide_eq_true ht
    rw [exec_bridgeLoss]
    exact ends_when hlate only_recordLoss (by decide) (by decide) ⟨fld_record, logs_recordLoss, only_recordLoss⟩
  · -- SILENCE
    intro hs ht
    have hlate : dieLate u = true := by
      rw [dieLate, hs, Bool.not_false, Bool.true_and]
      exact decide_eq_true ht
    obtain ⟨hsilent, htimed⟩ := fld_silenced (s := u)
    obtain ⟨htest, hvalue, hexp⟩ := chan_silenced (s := u) k.isLt
    rw [exec_silence]
    exact ends_when hlate only_silenced (by decide) (by decide) ⟨hsilent, htimed, htest, hvalue, hexp, only_silenced⟩
  · -- CHANNEL_HOLD_EXPIRY
    intro hs ho he hh hd
    have hO : Only [.fld] u (onChan u k.val fun x => { x.safe with expired := true }) := only_onChan .refl (by decide)
    obtain ⟨-, hvalue, hexp, -⟩ :=
      Chan.drive_keeps (x := { x.safe with expired := true }) (b := chanPower u k.val) (n := u.fld.dieNs)
    refine ends_when (holdOver_of hs ho he hh hd) hO (by decide) (by decide) ⟨?_, ?_, fun j hj => ?_, hO⟩
    · rw [chan_onChan, if_pos rfl]
      exact hexp
    · rw [chan_onChan, if_pos rfl]
      exact hvalue
    · rw [chan_onChan, if_neg hj]
  · -- CHANNEL_HOLD_EXPIRY of a channel that has expired
    intro he
    show answer s (u.when (holdOver u k.val) _) = _
    rw [State.when_false (holdOver_expired he)]
    rfl
  · -- TIMED_CHANGE
    intro hl hc hfirst
    have hO : Only [.fld] u (applyHeld u (l1 ++ [c])) := only_applyHeld .refl (by decide)
    obtain ⟨v, hv⟩ := applyHeld_eq (s := u) (l := l1 ++ [c])
    have happ := chan_applyHeld (s := u) (l := l1 ++ [c]) k.isLt
    show Ends (answer s (applyHeld u (changesUpTo id (dueChanges u (dieClock u))))) _
    rw [hl, changesUpTo_first hc hfirst]
    refine ends_answer hO (by decide) (by decide) ⟨?_, happ.value, happ.unnamed, hO⟩
    rw [hv]
    rfl

end Sys2Proof.Machine
end

section
/-! The evaluation of a queue of one entry (R238-R242), and the rows that are missed (R250, R251). -/
namespace Sys2Proof.Machine

variable {s t : State} {e : FretE} {r : RowSt} {o : Option FretE} {pos m : Nat}

/-! ## One entry in the queue -/

theorem putEntry_single (h : s.fret.queue = [e]) : putEntry s e.num o = s.onFret fun f => { f with queue := o.toList } := by
  simp [putEntry, State.onFret, h]

/-- No entry is put back into an empty queue. -/
theorem putEntry_nil {n : Nat} (h : s.fret.queue = []) : putEntry s n o = s.onFret fun f => { f with queue := [] } := by
  simp [putEntry, State.onFret, h]

/-- The queue holds one entry, and an evaluation judges it: it has not fired, and its shaft works and is referenced (R232,
R238). -/
structure Evaluable (s : State) (e : FretE) : Prop where
  queue : s.fret.queue = [e]
  referenced : (s.shaft e.shaft.val).referenced = true
  sound : (s.shaft e.shaft.val).fault = false
  on : shOn s.cfg e.shaft.val = true
  judged : e.judged = true
  unfired : e.fired = false
  unstamped : e.change = none

theorem evalAll_single (h : Evaluable s e) : evalAll s =
    putEntry (evalEntry s (shaftPos s e.shaft.val) e).1 e.num (evalEntry s (shaftPos s e.shaft.val) e).2 := by
  have hnow : (entryNow s e.num).filter FretE.judged = some e := by
    simp [entryNow, h.queue, Option.filter, h.judged]
  unfold evalAll
  rw [h.queue, List.foldl_cons, List.foldl_nil]
  dsimp only
  rw [hnow]
  simp only [h.referenced, h.sound, h.on, Bool.not_false, Bool.and_self, if_true]

/-- An evaluation that leaves the state beside its entry alone. -/
theorem evalAll_keeps (h : Evaluable s e) (he : evalEntry s (shaftPos s e.shaft.val) e = (s, o)) :
    evalAll s = s.onFret fun f => { f with queue := o.toList } := by
  rw [evalAll_single h, he]
  exact putEntry_single h.queue

/-! ## The cases of an evaluation -/

section
variable (hf : e.fired = false) (hc : e.change = none)
include hf

/-- An armed TRIG entry that is crossed fires (R240, R241). -/
theorem evalEntry_trig (ha : e.armed = true) (h1 : e.kind ≠ 1) (h2 : e.kind ≠ 2)
    (hx : e.crosses e.lastD (e.dist pos) = true) : evalEntry s pos e =
      if e.repeats then (raiseTrigger s (e.sub.toNat % 64) 0xA, some { e with lastD := e.dist pos, fired := true, armed := false })
      else (spend (raiseTrigger s (e.sub.toNat % 64) 0xA) e, none) := by
  unfold evalEntry fireTrig
  dsimp only
  rw [hf, ha, hx, if_neg h1, if_neg h2]
  rfl

/-- An armed ROW entry that is crossed unconfirmed is missed (R251). -/
theorem evalEntry_row (ha : e.armed = true) (hk : e.kind = 2) (hr : e.row = some r)
    (hx : e.crosses e.lastD (e.dist pos) = true) : evalEntry s pos e = (rowMissed s e r, none) := by
  simp [evalEntry, hf, ha, hk, hr, hx]

/-- An armed OUT entry that has a stamp is handed off with it (R242). -/
theorem evalEntry_out (ha : e.armed = true) (hk : e.kind = 1)
    (ho : outStamp s e (e.dist pos) (e.crosses e.lastD (e.dist pos)) = some m) : evalEntry s pos e =
      ((handOff s { e with lastD := e.dist pos } m false).1, some (handOff s { e with lastD := e.dist pos } m false).2) := by
  simp [evalEntry, hf, ha, hk, ho]

/-- An armed entry that is not crossed stays armed, unless it crosses backward (R238). -/
theorem evalEntry_passed (ha : e.armed = true) (hx : e.crosses e.lastD (e.dist pos) = false)
    (ho : e.kind = 1 → outStamp s e (e.dist pos) false = none) :
    evalEntry s pos e = (s, some { e with lastD := e.dist pos, armed := !e.crossesBack e.lastD (e.dist pos) }) := by
  unfold evalEntry
  dsimp only
  rw [hf, ha, hx]
  by_cases hk : e.kind = 1
  · rw [if_pos hk, ho hk]
    cases hb : e.crossesBack e.lastD (e.dist pos) <;> rfl
  · rw [if_neg hk]
    cases hb : e.crossesBack e.lastD (e.dist pos) <;> rfl

include hc

/-- An entry that is not armed is armed where it lies beyond its hysteresis (R239). -/
theorem evalEntry_unarmed (ha : e.armed = false) : evalEntry s pos e =
    if e.rearms ((2 ^ shHyst s.cfg e.shaft.val : Nat) : Int) (e.dist pos) = true then
      (s, some { e with lastD := e.dist pos, armed := true, sideNeg := decide (e.dist pos < 0) })
    else (s, some { e with lastD := e.dist pos }) := by
  simp [evalEntry, hf, ha, hc]

end

/-! ## The stamp of an OUT entry -/

variable {d : Int}

/-- The stamp of an OUT entry that has crossed (R242). -/
theorem outStamp_crossed (h : ∀ i, e.projected s.cfg (s.shaft e.shaft.val) = some i → m = min i s.now)
    (h' : e.projected s.cfg (s.shaft e.shaft.val) = none → m = s.now) : outStamp s e d true = some m := by
  unfold outStamp
  dsimp only
  cases hp : e.projected s.cfg (s.shaft e.shaft.val) with
  | some i => rw [h i hp]; rfl
  | none => rw [h' hp]; rfl

/-- The entry comes nearer to its target from its own side (R238). -/
def FretE.Nears (s : State) (e : FretE) (d : Int) : Prop :=
  e.before d = true ∧ e.before (e.dist (anchorPos s.cfg e.shaft.val (s.shaft e.shaft.val))) = true

theorem outStamp_near (hn : e.Nears s d) (hp : e.projected s.cfg (s.shaft e.shaft.val) = some m) (hm : m ≤ s.now + 10000) :
    outStamp s e d false = some m := by
  simp [outStamp, hp, hn.1, hn.2, hm]

theorem outStamp_none (h : e.Nears s d → ∀ i, e.projected s.cfg (s.shaft e.shaft.val) = some i → s.now + 10000 < i) :
    outStamp s e d false = none := by
  unfold outStamp
  dsimp only
  cases hp : e.projected s.cfg (s.shaft e.shaft.val) with
  | none => rfl
  | some i =>
    have : ¬ (e.Nears s d ∧ i ≤ s.now + 10000) := fun ⟨hn, hi⟩ => absurd hi (Nat.not_le.mpr (h hn i hp))
    simpa [FretE.Nears] using this

/-! ## What firing leaves -/

theorem fret_raiseTrigger {n x : Nat} : (raiseTrigger s n x).fret = s.fret :=
  (only_raiseTrigger .refl (List.Subset.refl _)).fret_eq (by decide)

theorem trigs_raiseTrigger {n x : Nat} : (raiseTrigger s n x).seq.trigs = s.seq.trigs ++
    (if tEnable s.cfg n && tEvent s.cfg n && (s.task n).armed then [{ task := n, source := BitVec.ofNat 4 x, at_ := s.now }]
      else []) := by
  unfold raiseTrigger
  split
  · rfl
  · exact (List.append_nil _).symm

/-- The identifier of the next timed change has been given out (R242). -/
def State.changeNamed (s : State) : State := s.onFret fun f => { f with nextChange := f.nextChange + 1 }

/-- A change on its way to the bridge, with its tag (R350). -/
def State.changeSent (s : State) (c : Change) : State := s.onFld fun f => { f with
  changeQ := f.changeQ ++ [c]
  startDue := true
  relDue := f.relDue ||| (if f.valid then BitVec.ofNat 32 (c.mask.toNat <<< (if c.half then 16 else 0)) &&&
    (match f.lastUp with | some u => u.expired | none => 0) else 0) }

theorem sendChange_eq {n : Nat} {c : Change} : sendChange s n c =
    (drawTag s (taskTags s.cfg n)).1.changeSent { c with tag := (drawTag s (taskTags s.cfg n)).2 } := by
  unfold sendChange
  generalize drawTag s (taskTags s.cfg n) = x
  rfl

theorem fret_changeSent {c : Change} : (s.changeSent c).fret = s.fret := rfl

theorem startDue_changeSent {c : Change} : (s.changeSent c).fld.startDue = true := rfl

/-- An OUT entry hands its change to the bridge with a tag, and a down frame falls due (R31, R242, R350). -/
theorem handOff_leaves {b : Bool} : ∃ g, (handOff s e m b).1.fld.changeQ =
      s.fld.changeQ ++ [{ outChange e 1 s.fret.nextChange m b with tag := g }] ∧
    (handOff s e m b).1.fld.startDue = true ∧
    (handOff s e m b).1.fret = { s.fret with nextChange := s.fret.nextChange + 1 } := by
  have hO : Only [.free, .yl] s.changeNamed (drawTag s.changeNamed (taskTags s.changeNamed.cfg e.task)).1 :=
    only_drawTag .refl (List.Subset.refl _)
  have heq : (handOff s e m b).1 = sendChange s.changeNamed e.task (outChange e 1 s.fret.nextChange m b) := by
    unfold handOff State.changeNamed
    dsimp only
  rw [heq, sendChange_eq]
  refine ⟨(drawTag s.changeNamed (taskTags s.changeNamed.cfg e.task)).2, ?_, startDue_changeSent,
    fret_changeSent.trans (hO.fret_eq (by decide))⟩
  show (drawTag s.changeNamed _).1.fld.changeQ ++ _ = _
  rw [hO.fld_eq (by decide)]
  rfl

/-! ## Rows that are missed -/

theorem mem_ueReturned {l : List (Nat × Word)} : (ueReturned s l).can.mem = s.can.mem := by
  induction l generalizing s with
  | nil => rfl
  | cons w l ih =>
    rw [ueReturned, ih]
    exact congrArg Canopy.mem ((only_record .refl (List.Subset.refl _)).can_eq (by decide))

theorem mem_dropRow {id : BitVec 16} : (dropRow s id).can.mem = s.can.mem := by
  have hends : ∀ sel, (endWaits s sel stAborted).can.mem = s.can.mem := fun sel =>
    congrArg Canopy.mem ((only_endWaits .refl (List.Subset.refl _)).can_eq (by decide))
  unfold dropRow freeRetained
  dsimp only
  rw [mem_ueReturned]
  exact hends _

/-- The state in which a missed row is off the queue and counted, before it is recorded. -/
def State.rowGone (s : State) (e : FretE) (r : RowSt) : State := (dropRow s r.id).onFret fun f => { f with
  missCount := satInc f.missCount
  queue := f.queue.filter fun x => x.num != e.num }

/-- A missed row is recorded, and the triggers of source 0x4 are raised (R251). -/
theorem rowMissed_eq : ∃ i, rowMissed s e r = raiseSource (record (s.rowGone e r) 0x0401 i) 0x4 fun a => a.testBit e.shaft.val :=
  ⟨_, rfl⟩

/-- What a missed row leaves of the queue, of the triggers and of the committed bytes (R251). -/
theorem rowMissed_leaves :
    (rowMissed s e r).fret = { s.fret with
      missCount := satInc s.fret.missCount
      queue := s.fret.queue.filter fun x => x.num != e.num } ∧
    (rowMissed s e r).seq.trigs = s.seq.trigs ++ raised s 0x4 (fun a => a.testBit e.shaft.val) ∧
    (rowMissed s e r).can.mem = s.can.mem := by
  obtain ⟨i, hi⟩ := rowMissed_eq (s := s) (e := e) (r := r)
  have hdrop : Only [.can, .yl, .host, .nv, .out] s (dropRow s r.id) := only_dropRow .refl (List.Subset.refl _)
  have hrec : Only [.host, .nv, .out] (s.rowGone e r) (record (s.rowGone e r) 0x0401 i) :=
    only_record .refl (List.Subset.refl _)
  have hO : Only [.can, .fret, .yl, .host, .nv, .out] s (record (s.rowGone e r) 0x0401 i) :=
    only_record (only_onFret (hdrop.mono (listed rfl)) (listed rfl)) (listed rfl)
  have hraised : raised (record (s.rowGone e r) 0x0401 i) 0x4 (fun a => a.testBit e.shaft.val) =
      raised s 0x4 (fun a => a.testBit e.shaft.val) := by
    unfold raised State.task State.now
    rw [hO.cfg_eq (by decide), hO.seq_eq (by decide), hO.clk_eq (by decide)]
  rw [hi, raiseSource_eq]
  refine ⟨?_, ?_, ?_⟩
  · show (record (s.rowGone e r) 0x0401 i).fret = _
    rw [hrec.fret_eq (by decide), State.rowGone, State.onFret, hdrop.fret_eq (by decide)]
  · show (record (s.rowGone e r) 0x0401 i).seq.trigs ++ _ = _
    rw [hraised, hO.seq_eq (by decide)]
  · show (record (s.rowGone e r) 0x0401 i).can.mem = _
    rw [hrec.can_eq (by decide)]
    exact mem_dropRow

/-- The row that has missed its deadline is that of the entry found with it (R250). -/
theorem not_mem_rowMissed : e ∉ (rowMissed s e r).fret.queue := by
  rw [rowMissed_leaves.1]
  simp

end Sys2Proof.Machine
end

section
/-! The planned frames of a port: what leaves them, which of them have come, and where a new one takes its place (R272). -/
namespace Sys2Proof.Machine

variable {s t u : State} {p q n m a b : Nat} {w : YWait} {d x : Depart} {l : List Depart} {f : YFrame} {byPos : Bool}

/-! ## What leaves the plan -/

theorem plan_injFlush : (injFlush s p).yl.plan = s.yl.plan :=
  List.foldlRecOn (motive := fun t : State => t.yl.plan = s.yl.plan) _ _ rfl fun _ ht _ _ => ht

theorem plan_injNote {acts : Bool} : (injNote s p acts).yl.plan = s.yl.plan := by
  unfold injNote
  split <;> rfl

theorem plan_ylSend {b : List Byte} : (ylSend s p b).yl.plan = s.yl.plan := rfl

theorem plan_injHold {b : List Byte} {rx : Bool} : (injHold s p a b rx).yl.plan = s.yl.plan := rfl

theorem plan_ylEmit : (ylEmit s p f a).yl.plan = s.yl.plan := by
  unfold ylEmit
  dsimp only
  split
  · split
    · rw [plan_injNote]
    · rw [plan_injFlush, plan_ylSend, plan_injNote]
    · rw [plan_injHold, plan_injNote]
    · rw [plan_injHold, plan_injNote]
    · rw [plan_injFlush, plan_ylSend, plan_injNote]
  · rw [plan_injFlush, plan_ylSend]

theorem plan_ite_ylEmit {c : Prop} [Decidable c] : (if c then ylEmit s p f a else s).yl.plan = s.yl.plan := by
  split
  · exact plan_ylEmit
  · rfl

theorem plan_lineEmit : (lineEmit s p f byPos a).yl.plan = s.yl.plan := by
  unfold lineEmit
  dsimp only
  split
  · exact plan_ite_ylEmit.trans plan_ite_ylEmit
  · exact plan_ite_ylEmit

theorem plan_noteSync : (noteSync s d).yl.plan = s.yl.plan := by
  unfold noteSync
  split <;> rfl

theorem plan_noteRow : (noteRow s d).yl.plan = s.yl.plan :=
  congrArg Yelx.plan ((only_noteRow .refl (List.Subset.refl _)).yl_eq (by decide))

theorem plan_depart : (depart s d).yl.plan = s.yl.plan := by
  unfold depart
  dsimp only
  split
  · exact plan_lineEmit.trans (plan_noteSync.trans plan_noteRow)
  · exact plan_lineEmit.trans (plan_noteSync.trans plan_noteRow)

/-- Beside the row whose streaming starts with it, a frame that leaves changes the ports and the outputs. -/
theorem depart_after_noteRow : Only [.yl, .out] (noteRow s d) (depart s d) := by
  unfold depart
  dsimp only
  split
  · exact only_lineEmit (only_noteSync (only_modPort .refl (listed rfl)) (listed rfl)) (listed rfl)
  · exact only_lineEmit (only_noteSync (only_onYl (only_modSta (only_modPort .refl (listed rfl)) (listed rfl)) (listed rfl))
      (listed rfl)) (listed rfl)

/-! ## Frames whose start has come -/

/-- The planned frame is one of port `p` whose start has come. -/
def Depart.isDue (d : Depart) (p now : Nat) : Bool := d.port == p && decide (d.at_ ≤ now)

/-- The plan without the frames of a port whose start has come. -/
def State.undue (s : State) (p : Nat) : State := s.onYl fun y => { y with plan := y.plan.filter fun d => !d.isDue p s.now }

theorem departs_eq : departs s p = (s.yl.plan.filter fun d => d.isDue p s.now).foldl depart (s.undue p) := rfl

theorem plan_departs : (departs s p).yl.plan = s.yl.plan.filter fun d => !d.isDue p s.now :=
  List.foldlRecOn (motive := fun t : State => t.yl.plan = s.yl.plan.filter fun d => !d.isDue p s.now) _ _ rfl
    fun _ ht _ _ => plan_depart.trans ht

theorem now_departs : (departs s p).now = s.now :=
  congrArg Clk.tb ((only_departs .refl (List.Subset.refl _)).clk_eq (by decide))

/-- No planned frame of port `p` has a start that has come. -/
def Clear (p : Nat) (s : State) : Prop := ∀ d ∈ s.yl.plan, d.port = p → s.now < d.at_

theorem clear_departs : Clear p (departs s p) := by
  intro d hd hp
  rw [plan_departs, List.mem_filter] at hd
  rw [now_departs]
  simpa [Depart.isDue, hp] using hd.2

theorem Clear.departs (h : Clear p s) : Clear p (departs s q) := by
  intro d hd hp
  rw [plan_departs, List.mem_filter] at hd
  rw [now_departs]
  exact h d hd.1 hp

theorem clear_departAll (hp : p < 8) : Clear p (departAll s) := by
  have hkeeps : ∀ (l : List Nat) (t : State), Clear p t → Clear p (l.foldl Machine.departs t) := fun l t ht =>
    List.foldlRecOn (motive := Clear p) l _ ht fun _ hu _ _ => hu.departs
  have hall : ∀ (l : List Nat) (t : State), p ∈ l → Clear p (l.foldl Machine.departs t) := by
    intro l
    induction l with
    | nil => exact fun _ h => absurd h List.not_mem_nil
    | cons q l ih =>
      intro t h
      rcases List.mem_cons.mp h with rfl | h
      · exact hkeeps l _ clear_departs
      · exact ih _ h
  exact hall _ _ (List.mem_range.mpr hp)

/-- Where no start has come, nothing leaves. -/
theorem Clear.departs_same (h : Clear p s) : Machine.departs s p = s := by
  have hnone : ∀ d ∈ s.yl.plan, d.isDue p s.now = false := fun d hd => by
    by_cases hp : d.port = p
    · simpa [Depart.isDue, hp] using h d hd hp
    · simp [Depart.isDue, hp]
  have hdue : s.yl.plan.filter (fun d => d.isDue p s.now) = [] :=
    List.filter_eq_nil_iff.mpr fun d hd => by simp [hnone d hd]
  have hrest : s.yl.plan.filter (fun d => !d.isDue p s.now) = s.yl.plan :=
    List.filter_eq_self.mpr fun d hd => by simp [hnone d hd]
  rw [departs_eq, hdue, List.foldl_nil, State.undue, State.onYl, hrest]

/-! ## A new frame -/

theorem mem_insertDepart : x ∈ insertDepart d l ↔ x = d ∨ x ∈ l := by
  induction l with
  | nil => rw [insertDepart, List.mem_singleton, or_iff_left List.not_mem_nil]
  | cons h r ih =>
    unfold insertDepart
    split
    · exact List.mem_cons
    · rw [List.mem_cons, ih, List.mem_cons]
      exact or_left_comm

/-- A new frame is the only one of a kind that no planned frame is of. -/
theorem filter_insertDepart {c : Depart → Bool} (h : ∀ x ∈ l, c x = false) (hd : c d = true) :
    (insertDepart d l).filter c = [d] := by
  induction l with
  | nil => simp [insertDepart, hd]
  | cons y r ih =>
    have hr : r.filter c = [] := List.filter_eq_nil_iff.mpr fun x hx => by simp [h x (List.mem_cons_of_mem _ hx)]
    have hy := h y List.mem_cons_self
    unfold insertDepart
    split
    · rw [List.filter_cons_of_pos hd, List.filter_cons_of_neg (by simp [hy]), hr]
    · rw [List.filter_cons_of_neg (by simp [hy]), ih fun x hx => h x (List.mem_cons_of_mem _ hx)]

/-- The frame has its place in the plan, and nothing has left yet. -/
def State.planned (s : State) (d : Depart) : State :=
  (s.modPort d.port fun x => { x with busyTo := max x.busyTo (d.at_ + wireNs d.frame.body.length) }).onYl fun y =>
    { y with plan := insertDepart d y.plan }

theorem plan_eq : plan s d = departs (s.planned d) d.port := rfl

theorem only_planned : Only [.yl] s (s.planned d) := only_onYl (only_modPort .refl (listed rfl)) (listed rfl)

/-- A frame whose start is still to come waits in the plan. -/
theorem plan_waits (h : Clear d.port s) (hd : s.now < d.at_) : plan s d = s.planned d ∧ Clear d.port (s.planned d) := by
  have hclear : Clear d.port (s.planned d) := fun x hx hp => by
    rcases mem_insertDepart.mp hx with rfl | hx
    · exact hd
    · exact h x hx hp
  exact ⟨hclear.departs_same, hclear⟩

/-- A frame whose start has come leaves at once, and no other does. -/
theorem plan_leaves (h : Clear d.port s) (hd : d.at_ ≤ s.now) :
    plan s d = depart ((s.planned d).undue d.port) d ∧ Clear d.port (plan s d) := by
  have hdue : (s.planned d).yl.plan.filter (fun x => x.isDue d.port (s.planned d).now) = [d] := by
    refine filter_insertDepart (fun x hx => ?_) ?_
    · by_cases hp : x.port = d.port
      · exact Bool.and_eq_false_iff.mpr (.inr (decide_eq_false (Nat.not_le.mpr (h x hx hp))))
      · simp [Depart.isDue, hp]
    · exact Bool.and_eq_true_iff.mpr ⟨beq_self_eq_true _, decide_eq_true hd⟩
  refine ⟨?_, clear_departs⟩
  rw [plan_eq, departs_eq, hdue, List.foldl_cons, List.foldl_nil]

/-! ## Room for it -/

theorem plan_carryOver : (carryOver s d).yl.plan = s.yl.plan ∨ (carryOver s d).yl.plan = s.yl.plan.erase d := by
  unfold carryOver
  dsimp only
  split
  · exact .inl rfl
  · split
    · exact .inr rfl
    · exact .inr rfl

/-- Frames that are carried over leave the plan, and no other does. -/
theorem plan_foldl_carryOver : (∀ x ∈ (l.foldl carryOver s).yl.plan, x ∈ s.yl.plan) ∧
    ∀ x ∈ s.yl.plan, x ∉ l → x ∈ (l.foldl carryOver s).yl.plan := by
  refine List.foldlRecOn (motive := fun t : State => (∀ x ∈ t.yl.plan, x ∈ s.yl.plan) ∧
    ∀ x ∈ s.yl.plan, x ∉ l → x ∈ t.yl.plan) l _ ⟨fun _ h => h, fun _ h _ => h⟩ fun t ⟨hsub, hkeep⟩ d hd => ?_
  rcases plan_carryOver (s := t) (d := d) with h | h <;> rw [h]
  · exact ⟨hsub, hkeep⟩
  · refine ⟨fun x hx => hsub x (List.mem_of_mem_erase hx), fun x hx hn => ?_⟩
    exact (List.mem_erase_of_ne fun e : x = d => hn (e ▸ hd)).mpr (hkeep x hx hn)

/-- A planned frame moved by `m`, where it makes room on port `p` for one of step `n` (R272). -/
def Depart.shifted (p n m : Nat) (d : Depart) : Depart :=
  if d.port == p && !d.before n then { d with at_ := d.at_ + m } else d

theorem Depart.shifted_keeps : (d.shifted p n m).port = d.port ∧ (d.shifted p n m).before = d.before ∧
    d.at_ ≤ (d.shifted p n m).at_ := by
  unfold shifted
  split
  · exact ⟨rfl, rfl, Nat.le_add_right ..⟩
  · exact ⟨rfl, rfl, Nat.le_refl _⟩

/-- The plan after room has been made: moved frames, of which some are carried over. -/
theorem plan_pushBack : ∃ m, (∀ x ∈ (pushBack s p n a).yl.plan, ∃ d ∈ s.yl.plan, x = d.shifted p n m) ∧
    ∀ d ∈ s.yl.plan, d.port = p → d.before n = true → d ∈ (pushBack s p n a).yl.plan := by
  unfold pushBack
  dsimp only
  split
  · refine ⟨0, fun x hx => ⟨x, hx, ?_⟩, fun d hd _ _ => hd⟩
    unfold Depart.shifted
    split <;> rfl
  next h r hmine =>
    refine ⟨a - h.at_, fun x hx => ?_, fun d hd hp hb => ?_⟩
    · obtain ⟨d, hd, rfl⟩ := List.mem_map.mp (plan_foldl_carryOver.1 x hx)
      exact ⟨d, hd, rfl⟩
    · refine plan_foldl_carryOver.2 d (List.mem_map.mpr ⟨d, hd, ?_⟩) fun hin => ?_
      · exact if_neg (by simp [hb])
      · have := (List.mem_filter.mp hin).2
        rw [hb, Bool.not_true, Bool.and_false] at this
        exact Bool.false_ne_true this

theorem now_pushBack : (pushBack s p n a).now = s.now :=
  congrArg Clk.tb ((only_pushBack .refl (List.Subset.refl _)).clk_eq (by decide))

theorem Clear.pushBack (h : Clear q s) : Clear q (pushBack s p n a) := by
  obtain ⟨m, hplan, -⟩ := plan_pushBack (s := s) (p := p) (n := n) (a := a)
  intro x hx hp
  obtain ⟨d, hd, rfl⟩ := hplan x hx
  obtain ⟨hport, -, hat⟩ := Depart.shifted_keeps (d := d) (p := p) (n := n) (m := m)
  rw [now_pushBack]
  exact Nat.lt_of_lt_of_le (h d hd (hport ▸ hp)) hat

end Sys2Proof.Machine
end

section
/-! A request that is started, or kept for a tag or for the next cycle (R32, R272, R274). -/
namespace Sys2Proof.Machine

variable {s t u : State} {p q n m a b g : Nat} {w : YWait} {d x : Depart} {res : Bool}

/-! ## Tags -/

/-- A request that finds a free tag holds it. -/
theorem drawTag_has (h : freeTags s res ≠ []) :
    ∃ k g, drawTag s res = (s.drawn.onYl fun y => { y with peak := k }, .has g) := by
  have hl : (freeTags s res).isEmpty = false := by simpa using h
  unfold drawTag
  generalize freeTags s res = l at hl ⊢
  dsimp only
  rw [hl, if_neg Bool.false_ne_true]
  exact ⟨_, _, rfl⟩

/-- At most tags are drawn and frames counted or kept: the planned frames are as they were. -/
structure Quiet (s t : State) : Prop where
  plan : t.yl.plan = s.yl.plan
  only : Only [.free, .yl] s t

theorem Quiet.refl : Quiet s s := ⟨rfl, .refl⟩

theorem Quiet.trans (h : Quiet s t) (k : Quiet t u) : Quiet s u := ⟨k.plan.trans h.plan, h.only.trans k.only⟩

theorem quiet_ylCountUp : Quiet s (ylCountUp s p n) := ⟨rfl, only_ylCountUp .refl (listed rfl)⟩

theorem quiet_ylWait : Quiet s (ylWait s w) := ⟨rfl, only_ylWait .refl (listed rfl)⟩

theorem quiet_drawTag : Quiet s (drawTag s res).1 := by
  refine ⟨?_, only_drawTag .refl (listed rfl)⟩
  unfold drawTag
  generalize freeTags s res = l
  dsimp only
  split <;> rfl

theorem quiet_tagged : Quiet s (tagged s w).1 ∧ (tagged s w).2.port = w.port ∧ (tagged s w).2.for_ = w.for_ := by
  have hq := quiet_drawTag (s := s) (res := w.reserved)
  unfold tagged
  generalize drawTag s w.reserved = y at hq ⊢
  split
  · exact ⟨hq, rfl, rfl⟩
  · exact ⟨.refl, rfl, rfl⟩

theorem quiet_ylLater : Quiet s (ylLater s w) := by
  obtain ⟨hq, -, -⟩ := quiet_tagged (s := s) (w := w)
  unfold ylLater
  generalize tagged s w = y at hq ⊢
  exact hq.trans quiet_ylWait

/-! ## The start of a request -/

/-- The first attempt of a transaction is planned for `a`, with a tag. -/
def YWait.departs (w : YWait) (g a : Nat) : Depart :=
  { at_ := a, port := w.port, frame := { w.frame with tag := some (BitVec.ofNat 9 g) }, for_ := w.for_ }

/-- The transaction is open (R31, R274). -/
def State.opened (s : State) (w : YWait) (g a cost : Nat) : State := s.onYl fun y => { y with
  trans := y.trans ++
    [{ tag := g, frame := (w.departs g a).frame, for_ := w.for_, firstAt := a, sentAt := some a, retries := cost }] }

theorem startTrans_eq : startTrans s w g a n = plan (s.opened w g a n) (w.departs g a) := rfl

/-- The instant at which the frame of a request that starts at `a` has left. -/
def YWait.ends (w : YWait) (a : Nat) : Nat := a + wireNs w.frame.body.length

theorem YWait.lt_ends : a < w.ends a := by
  have : 0 < wireNs w.frame.body.length := by
    unfold wireNs
    omega
  unfold ends
  omega

/-- What `startOrKeep` can do: keep the request, or start it. -/
theorem startOrKeep_cases : (Quiet s (startOrKeep s w a).1 ∧ (startOrKeep s w a).2 = a) ∨
    ∃ g, Quiet s (tagged s w).1 ∧ startOrKeep s w a =
      (startTrans (pushBack (tagged s w).1 (tagged s w).2.port (tagged s w).2.for_.step ((tagged s w).2.ends a)) (tagged s w).2 g a 0,
        (tagged s w).2.ends a) := by
  obtain ⟨hq, -, -⟩ := quiet_tagged (s := s) (w := w)
  unfold startOrKeep
  generalize tagged s w = y at hq ⊢
  obtain ⟨t, v⟩ := y
  dsimp only at hq ⊢
  split
  · split
    · exact .inl ⟨hq.trans (quiet_ylLater (w := v)), rfl⟩
    · split
      · exact .inr ⟨_, hq, rfl⟩
      · exact .inl ⟨(hq.trans quiet_ylLater).trans quiet_ylCountUp, rfl⟩
  · exact .inl ⟨hq.trans quiet_ylWait, rfl⟩

/-- A request with a free tag that may go, in a running cycle that it ends before, starts (R272, R280). -/
theorem startOrKeep_starts (htag : w.tag = .no) (hfree : freeTags s w.reserved ≠ []) (hgo : mayGo s w = true)
    (hrun : (s.port w.port).t0.isNone = false) (hfit : fitsAt s w a = true) :
    ∃ k g, startOrKeep s w a =
      (startTrans (pushBack (s.drawn.onYl fun y => { y with peak := k }) w.port w.for_.step (w.ends a)) { w with tag := .has g } g a 0,
        w.ends a) := by
  obtain ⟨k, g, hdraw⟩ := drawTag_has hfree
  refine ⟨k, g, ?_⟩
  have hgo' : mayGo (s.drawn.onYl fun y => { y with peak := k }) { w with tag := .has g } = true := hgo
  have hfit' : fitsAt (s.drawn.onYl fun y => { y with peak := k }) { w with tag := .has g } a = true := hfit
  have hrun' : ((s.drawn.onYl fun y => { y with peak := k }).port w.port).t0.isNone = false := hrun
  have htagged : tagged s w = (s.drawn.onYl fun y => { y with peak := k }, { w with tag := .has g }) := by
    unfold tagged
    rw [if_pos htag, hdraw]
  unfold startOrKeep
  rw [htagged]
  dsimp only
  rw [hgo', hrun', hfit', if_pos rfl]
  rfl

/-! ## A request whose start is still to come -/

/-- Nothing of port `p` leaves, and its frames that keep their places before one of step `n` stay planned. -/
structure Onward (p n : Nat) (s t : State) : Prop where
  only : Only [.free, .yl] s t
  clear : Clear p t
  keeps : ∀ d ∈ s.yl.plan, d.port = p → d.before n = true → d ∈ t.yl.plan

theorem Onward.now (h : Onward p n s t) : t.now = s.now := congrArg Clk.tb (h.only.clk_eq (by decide))

theorem Onward.trans (h : Onward p n s t) (k : Onward p n t u) : Onward p n s u :=
  ⟨h.only.trans k.only, k.clear, fun d hd hp hb => k.keeps d (h.keeps d hd hp hb) hp hb⟩

theorem Quiet.now (h : Quiet s t) : t.now = s.now := congrArg Clk.tb (h.only.clk_eq (by decide))

theorem Quiet.clear (h : Quiet s t) (k : Clear p s) : Clear p t := by
  intro d hd
  rw [h.now]
  exact k d (h.plan ▸ hd)

theorem Quiet.onward (h : Quiet s t) (k : Clear p s) : Onward p n s t :=
  ⟨h.only, h.clear k, fun _ hd _ _ => h.plan.symm ▸ hd⟩

/-- A start that is still to come is planned, behind the room that is made for it. -/
theorem startTrans_waits (hc : Clear w.port s) (ha : s.now < a) :
    Onward w.port n s (startTrans (pushBack s w.port n b) w g a m) ∧
      w.departs g a ∈ (startTrans (pushBack s w.port n b) w g a m).yl.plan := by
  have hclear : Clear (w.departs g a).port ((pushBack s w.port n b).opened w g a m) := hc.pushBack
  obtain ⟨hplan, hclear'⟩ := plan_waits hclear (now_pushBack.symm ▸ ha)
  have hmem : ∀ x, x = w.departs g a ∨ x ∈ (pushBack s w.port n b).yl.plan →
      x ∈ (((pushBack s w.port n b).opened w g a m).planned (w.departs g a)).yl.plan := fun _ hx => mem_insertDepart.mpr hx
  obtain ⟨-, -, hkeep⟩ := plan_pushBack (s := s) (p := w.port) (n := n) (a := b)
  rw [startTrans_eq, hplan]
  refine ⟨⟨?_, hclear', fun d hd hp hb => hmem d (.inr (hkeep d hd hp hb))⟩, hmem _ (.inl rfl)⟩
  exact (only_onYl (only_pushBack .refl (listed rfl)) (listed rfl)).trans (only_planned.mono (listed rfl))

/-- A request that is due after now waits, planned or kept. -/
theorem startOrKeep_onward (hc : Clear w.port s) (ha : s.now < a) (hw : w.for_.step = n) :
    Onward w.port n s (startOrKeep s w a).1 ∧ a ≤ (startOrKeep s w a).2 := by
  obtain ⟨-, hport, hfor⟩ := quiet_tagged (s := s) (w := w)
  rcases startOrKeep_cases (s := s) (w := w) (a := a) with ⟨hq, hat⟩ | ⟨g, hq, heq⟩
  · exact ⟨hq.onward hc, hat.ge⟩
  · rw [heq, hfor, hw]
    refine ⟨(hq.onward hc).trans ?_, Nat.le_of_lt YWait.lt_ends⟩
    rw [← hport]
    exact (startTrans_waits (hport ▸ hq.clear hc) (hq.now.symm ▸ ha)).1

end Sys2Proof.Machine
end

section
/-! The streaming of a row, and its start where it is late (R246, R260, R269). -/
namespace Sys2Proof.Machine

variable {s t u : State} {e : FretE} {r : RowSt} {f : RowSt → RowSt} {id : BitVec 16} {k p a c n m base len : Nat}
  {lo : List (Nat × Nat)} {said : List Nat}

/-! ## Rows and their entries -/

theorem rowEntry_row (h : rowEntry s id = some e) : ∃ r, e.row = some r ∧ r.id = id := by
  have hid := List.find?_some h
  cases hr : e.row with
  | none => rw [hr] at hid; cases hid
  | some r => rw [hr] at hid; exact ⟨r, rfl, eq_of_beq hid⟩

/-- The entry of a row whose state has changed, but not its identifier. -/
theorem rowEntry_modRow (h : rowEntry s id = some e) (hr : e.row = some r) (hf : ∀ r, (f r).id = r.id) :
    rowEntry (modRow s id f) id = some { e with row := some (f r) } := by
  obtain ⟨r', hr', hid⟩ := rowEntry_row h
  obtain rfl : r = r' := Option.some_inj.mp (hr.symm.trans hr')
  have hsame : ∀ x : FretE, (match (match x.row with
        | some r => if r.id = id then { x with row := some (f r) } else x
        | none => x).row with | some r => r.id == id | none => false) =
      (match x.row with | some r => r.id == id | none => false) := by
    intro x
    cases hx : x.row with
    | none => simp [hx]
    | some q =>
      by_cases hq : q.id = id
      · simp [hq, hf]
      · simp [hq, hx]
  unfold rowEntry modRow at *
  show List.find? _ (s.fret.queue.map _) = _
  rw [List.find?_map]
  refine (congrArg (Option.map _) ((congrArg (fun q => List.find? q s.fret.queue) (funext hsame)).trans h)).trans ?_
  rw [Option.map_some, hr]
  simp [hid]

/-- The queue holds one entry, that of a row. -/
structure OneRow (s : State) (e : FretE) (r : RowSt) : Prop where
  queue : s.fret.queue = [e]
  row : e.row = some r

theorem OneRow.of_fret (h : OneRow s e r) (k : t.fret = s.fret) : OneRow t e r :=
  ⟨(congrArg Fret.queue k).trans h.queue, h.row⟩

theorem OneRow.entry (h : OneRow s e r) : rowEntry s r.id = some e := by
  simp [rowEntry, h.queue, h.row]

theorem OneRow.mod (h : OneRow s e r) : OneRow (modRow s r.id f) { e with row := some (f r) } (f r) := by
  refine ⟨?_, rfl⟩
  simp [modRow, State.onFret, h.queue, h.row]

/-- The rows that are not armed, of one. -/
theorem OneRow.inOrder (h : OneRow s e r) (ha : r.armed = false) :
    rowsInOrder s = [(e.projected s.cfg (s.shaft e.shaft.val), (e, r))] := by
  simp [rowsInOrder, h.queue, h.row, ha, insertBy]

/-- Only the row of the queue streams, and only where it is eligible (R246). -/
theorem OneRow.sendRows (h : OneRow s e r) (ha : r.armed = false) : sendRows s p a =
    if lineState s p = 4 && s.dev.state != .setup then
      (if rowEligible s p e r then (r.parts.filter fun y => y.1 / 32 == p).foldl (sendPart e r) (s, a) else (s, a))
    else (s, a) := by
  unfold Machine.sendRows
  rw [h.inOrder ha]
  rfl

/-! ## A start that is late -/

/-- What a row whose streaming on a port is late has in common (R246). -/
structure LateRow (s : State) (p : Nat) (e : FretE) (r : RowSt) : Prop where
  row : e.row = some r
  unarmed : r.armed = false
  unsent : ∀ x ∈ r.parts, x.1 / 32 = p → tabGet 0 r.sent x.1 = 0
  unnoted : ∀ x ∈ r.leadOpen, x.1 ≠ p
  referenced : (s.shaft e.shaft.val).referenced = true

theorem lateRow_of_leadDue (h : leadDue s id p = some c) : ∃ e r, rowEntry s id = some e ∧ LateRow s p e r := by
  unfold leadDue at h
  split at h
  · cases h
  next e he =>
    split at h
    next r t hr ht =>
      dsimp only at h
      split at h
      next hg =>
        simp only [Bool.and_eq_true, Bool.not_eq_true', List.all_eq_true, List.mem_filter, List.any_eq_false,
          decide_eq_true_eq, beq_iff_eq, and_imp] at hg
        obtain ⟨⟨⟨⟨⟨⟨-, harmed⟩, -⟩, hsent⟩, hopen⟩, href⟩, -⟩ := hg
        exact ⟨e, r, he, hr, harmed, hsent, hopen, href⟩
      · cases h
    · cases h

/-- The row with its late start on a port noted. -/
def RowSt.leadNoted (r : RowSt) (p c : Nat) : RowSt := { r with leadOpen := r.leadOpen ++ [(p, c)] }

/-- The row with the streaming on a port begun. -/
def RowSt.leadBegun (r : RowSt) (p : Nat) : RowSt :=
  { r with leadOpen := r.leadOpen.filter (fun x => x.1 != p), leadSaid := p :: r.leadSaid }

/-- The record of a late start (R260). -/
def leadItems (e : FretE) (p a c : Nat) : List RItem :=
  [.b1 e.shaft.val, .b4 e.key.toNat, .b1 p, .b8 (BitVec.ofInt 64 ((a : Int) - (c : Int))).toNat]

/-- The streaming of a row whose late start has been noted begins, and is recorded (R246, R260). -/
theorem OneRow.rowStarts (h : OneRow s e r) (hn : r.leadOpen.find? (fun x => x.1 == p) = some (p, c)) :
    rowStarts s r.id p a = record (modRow s r.id (·.leadBegun p)) 0x0405 (leadItems e p a c) := by
  have hfind : (rowEntry s r.id).bind (fun e => e.row.bind fun r => (r.leadOpen.find? fun x => x.1 == p).map fun x =>
      (e, (x.2 : Int))) = some (e, (c : Int)) := by
    rw [h.entry, Option.bind_some, h.row, Option.bind_some, hn]
    rfl
  unfold Machine.rowStarts
  rw [hfind]
  rfl

/-! ## Fragments (R269) -/

theorem fragments_first (h : 0 < n) : fragments 0 n 3 = (0, min 1464 n) :: fragments 1464 n 2 := by
  rw [fragments, if_neg (by omega), Nat.sub_zero, Nat.zero_add]

theorem fragments_from {o f : Nat} : ∀ x ∈ fragments o n f, o ≤ x.1 := by
  induction f generalizing o with
  | zero => exact fun x hx => absurd hx List.not_mem_nil
  | succ f ih =>
    intro x hx
    rw [fragments] at hx
    split at hx
    · exact absurd hx List.not_mem_nil
    · rcases List.mem_cons.mp hx with rfl | hx
      · exact Nat.le_refl _
      · exact Nat.le_trans (Nat.le_add_right ..) (ih x hx)

/-- The one row of the queue has streamed to a station, with these late starts noted and recorded. -/
def RowIs (s : State) (id : BitVec 16) (k : Nat) (lo : List (Nat × Nat)) (said : List Nat) : Prop :=
  ∃ e r, OneRow s e r ∧ r.id = id ∧ 0 < tabGet 0 r.sent k ∧ r.leadOpen = lo ∧ r.leadSaid = said

theorem RowIs.of_fret (h : RowIs s id k lo said) (hf : t.fret = s.fret) : RowIs t id k lo said := by
  obtain ⟨e, r, hrow, h⟩ := h
  exact ⟨e, r, hrow.of_fret hf, h⟩

/-- A fragment that reaches beyond the start of the row has been handed over. -/
def sentTo (k n : Nat) (r : RowSt) : RowSt := { r with sent := tabSet 0 k n r.sent }

theorem OneRow.sent (h : OneRow s e r) (hn : 0 < n) :
    RowIs (modRow s r.id (sentTo k n)) r.id k r.leadOpen r.leadSaid := by
  refine ⟨_, _, h.mod, rfl, ?_, rfl, rfl⟩
  rw [sentTo, tabGet_tabSet, if_pos rfl]
  exact hn

theorem RowIs.sent (h : RowIs s id k lo said) (hn : 0 < n) : RowIs (modRow s id (sentTo k n)) id k lo said := by
  obtain ⟨e, r, hrow, rfl, -, rfl, rfl⟩ := h
  exact hrow.sent hn

/-- More of the row streams to a station: what is planned stays planned, and nothing leaves. -/
structure Streams (k : Nat) (id : BitVec 16) (s t : State) : Prop where
  only : Only [.free, .fret, .yl] s t
  clear : Clear (k / 32) t
  keeps : ∀ d ∈ s.yl.plan, d.port = k / 32 → d.before 5 = true → d ∈ t.yl.plan
  row : ∀ lo said, RowIs s id k lo said → RowIs t id k lo said

theorem Streams.refl (h : Clear (k / 32) s) : Streams k id s s := ⟨.refl, h, fun _ h _ _ => h, fun _ _ h => h⟩

theorem Streams.trans (h : Streams k id s t) (h' : Streams k id t u) : Streams k id s u :=
  ⟨h.only.trans h'.only, h'.clear, fun d hd hp hb => h'.keeps d (h.keeps d hd hp hb) hp hb,
    fun lo said hr => h'.row lo said (h.row lo said hr)⟩

theorem Streams.now (h : Streams k id s t) : t.now = s.now := congrArg Clk.tb (h.only.clk_eq (by decide))

theorem Onward.streams (h : Onward (k / 32) 5 s t) : Streams k id s t :=
  ⟨h.only.mono (listed rfl), h.clear, h.keeps, fun _ _ hr => hr.of_fret (h.only.fret_eq (by decide))⟩

theorem streams_sent (h : Clear (k / 32) s) (hn : 0 < n) : Streams k id s (modRow s id (sentTo k n)) :=
  ⟨only_modRow .refl (listed rfl), h, fun _ h _ _ => h, fun _ _ hr => hr.sent hn⟩

/-- The request that carries a fragment of a row (R269). -/
def rowWait (e : FretE) (r : RowSt) (k base n o len : Nat) : YWait :=
  reqWait k 4 0 (rowBody e r base n o len) (.row r.id o len)

/-- A row whose first fragment goes to a station counts as new there (R246). -/
def State.rowNew (s : State) (k : Nat) : State := s.modSta k fun z => { z with rowsNew := z.rowsNew + 1 }

theorem sendFragment_stopped {o : Nat} : sendFragment e r k base n (s, a, false) (o, len) = (s, a, false) := rfl

theorem sendFragment_unfit {o : Nat} (h : fitsAt s (rowWait e r k base n o len) a = false) :
    sendFragment e r k base n (s, a, true) (o, len) = (ylCountUp s (k / 32) 12, a, false) := by
  unfold rowWait at h
  unfold sendFragment
  dsimp only
  rw [h]
  rfl

theorem sendFragment_fits {o : Nat} (h : fitsAt s (rowWait e r k base n o len) a = true)
    (ht : t = if o = 0 then s.rowNew k else s) : sendFragment e r k base n (s, a, true) (o, len) =
      (modRow (startOrKeep t (rowWait e r k base n o len) a).1 r.id (sentTo k (o + len)),
        (startOrKeep t (rowWait e r k base n o len) a).2, decide (a < (startOrKeep t (rowWait e r k base n o len) a).2)) := by
  subst ht
  unfold rowWait at h ⊢
  unfold sendFragment State.rowNew
  dsimp only
  rw [h]
  rfl

/-- A fragment after the first waits, in the plan or for a tag. -/
theorem sendFragment_later {x : State × Nat × Bool} {fr : Nat × Nat} (hc : Clear (k / 32) x.1)
    (hx : x.2.2 = true → x.1.now < x.2.1) (hfr : 0 < fr.1) :
    Streams k r.id x.1 (sendFragment e r k base n x fr).1 ∧
      ((sendFragment e r k base n x fr).2.2 = true → (sendFragment e r k base n x fr).1.now < (sendFragment e r k base n x fr).2.1) := by
  obtain ⟨s, a, ok⟩ := x
  obtain ⟨o, len⟩ := fr
  cases ok with
  | false =>
    rw [sendFragment_stopped]
    exact ⟨.refl hc, hx⟩
  | true =>
    cases hfit : fitsAt s (rowWait e r k base n o len) a with
    | false =>
      rw [sendFragment_unfit hfit]
      exact ⟨(quiet_ylCountUp.onward hc).streams, fun h => absurd h Bool.false_ne_true⟩
    | true =>
      obtain ⟨hon, hle⟩ := startOrKeep_onward (w := rowWait e r k base n o len) (n := 5) hc (hx rfl) rfl
      rw [sendFragment_fits hfit (if_neg hfr.ne').symm]
      have hstreams := hon.streams.trans (streams_sent (id := r.id) (n := o + len) hon.clear (Nat.add_pos_left hfr _))
      dsimp only
      refine ⟨hstreams, fun _ => ?_⟩
      rw [hstreams.now]
      exact Nat.lt_of_lt_of_le (hx rfl) hle

end Sys2Proof.Machine
end

section
/-! FRET_LEAD: a row whose streaming is late, and starts or waits (R246, R260). -/
namespace Sys2Proof.Machine

variable {s t u v : State} {e : FretE} {r : RowSt} {id row : BitVec 16} {k p a c n m base len g b q0 dt : Nat} {w : YWait}
  {lo : List (Nat × Nat)} {said : List Nat} {pt : PortId}

/-! ## The first fragment -/

theorem key_reqFrame {ty sub : Nat} {l : List Byte} (hk : k / 32 < 8) : (reqFrame k ty sub l).key = k := by
  unfold reqFrame YFrame.key
  simp only [BitVec.toNat_ofNat]
  omega

/-- A planned frame that starts the streaming of the row of the queue, at its start (R246, R260). -/
theorem noteRow_first {d : Depart} (h : OneRow s e r) (hn : r.leadOpen.find? (fun x => x.1 == p) = some (p, c))
    (hd : d.for_ = .row r.id 0 len) (hk : d.frame.key / 32 = p) :
    noteRow s d = record (modRow s r.id (·.leadBegun p)) 0x0405 (leadItems e p d.at_ c) := by
  unfold noteRow
  rw [hd, hk]
  exact h.rowStarts hn

/-- What a start leaves that comes now: the streaming of the row begins, and nothing else is due. -/
theorem startTrans_leaves (hc : Clear w.port s) (ha : a = s.now) (hrow : OneRow s e r)
    (hn : r.leadOpen.find? (fun x => x.1 == p) = some (p, c)) (hw : w.for_ = .row r.id 0 len) (hk : w.frame.key / 32 = p) :
    ∃ u, u.fret = s.fret ∧ u.nv = s.nv ∧ Clear w.port (startTrans (pushBack s w.port n b) w g a m) ∧
      Only [.yl, .out] (record (modRow u r.id (·.leadBegun p)) 0x0405 (leadItems e p a c))
        (startTrans (pushBack s w.port n b) w g a m) := by
  have hclear : Clear (w.departs g a).port ((pushBack s w.port n b).opened w g a m) := hc.pushBack
  obtain ⟨hplan, hclear'⟩ := plan_leaves hclear (now_pushBack.symm ▸ ha.le)
  have hO : Only [.yl] s ((((pushBack s w.port n b).opened w g a m).planned (w.departs g a)).undue (w.departs g a).port) :=
    only_onYl ((only_onYl (only_pushBack .refl (listed rfl)) (listed rfl)).trans only_planned) (listed rfl)
  refine ⟨_, hO.fret_eq (by decide), hO.nv_eq (by decide), hclear', ?_⟩
  have hnote : noteRow _ (w.departs g a) = record (modRow _ r.id (·.leadBegun p)) 0x0405 (leadItems e p a c) :=
    noteRow_first (hrow.of_fret (hO.fret_eq (by decide))) hn hw hk
  rw [startTrans_eq, hplan, ← hnote]
  exact depart_after_noteRow

theorem now_startTrans : (startTrans (pushBack s p n b) w g a m).now = s.now :=
  congrArg Clk.tb ((only_startTrans (only_pushBack .refl (listed rfl)) (List.Subset.refl _)).clk_eq (by decide))

/-- The first fragment of a row may start at `a`: its station's line is up in a running cycle that has room for it, and a tag
is free. -/
structure Startable (s : State) (e : FretE) (r : RowSt) (k base n len a : Nat) : Prop where
  clear : Clear (k / 32) s
  fits : fitsAt s (rowWait e r k base n 0 len) a = true
  tag : freeTags s false ≠ []
  up : mayGo s (rowWait e r k base n 0 len) = true
  runs : (s.port (k / 32)).t0.isNone = false

theorem fitsAt_rowNew : fitsAt (s.rowNew k) w a = fitsAt s w a := by
  have hsta : ((s.rowNew k).sta w.frame.key).rtt = (s.sta w.frame.key).rtt := by
    rw [State.rowNew, State.sta_modSta]
    split
    next h => rw [h]
    · rfl
  unfold fitsAt spanNs
  rw [hsta]
  rfl

/-- The first fragment of a row starts: what it is sent from, and what comes of it. -/
theorem sendFragment_first (h : Startable s e r k base n len a) : ∃ t w g, t.fret = s.fret ∧ t.nv = s.nv ∧ t.now = s.now ∧
    Clear (k / 32) t ∧ w.port = k / 32 ∧ w.for_ = .row r.id 0 len ∧ w.frame = reqFrame k 4 0 (rowBody e r base n 0 len) ∧
    sendFragment e r k base n (s, a, true) (0, len) =
      (modRow (startTrans (pushBack t (k / 32) 5 (w.ends a)) w g a 0) r.id (sentTo k len), w.ends a, true) := by
  obtain ⟨x, g, hstart⟩ := startOrKeep_starts (s := s.rowNew k) (w := rowWait e r k base n 0 len) rfl h.tag h.up h.runs
    (fitsAt_rowNew.trans h.fits)
  rw [sendFragment_fits h.fits (if_pos rfl).symm, hstart, Nat.zero_add]
  dsimp only
  rw [decide_eq_true YWait.lt_ends]
  exact ⟨(s.rowNew k).drawn.onYl fun y => { y with peak := x }, { rowWait e r k base n 0 len with tag := .has g }, g,
    rfl, rfl, rfl, h.clear, rfl, rfl, rfl, rfl⟩

/-- What holds once the first fragment of a row has been handed over, and the rest of the row follows after now. -/
structure FirstSent (k : Nat) (id : BitVec 16) (lo : List (Nat × Nat)) (said : List Nat) (x : State × Nat × Bool) : Prop where
  clear : Clear (k / 32) x.1
  later : x.1.now < x.2.1
  row : RowIs x.1 id k lo said

/-- A first fragment whose start is still to come is planned. -/
theorem sendFragment_waits (h : Startable s e r k base n len a) (hrow : OneRow s e r) (hlen : 0 < len) (ha : s.now < a) :
    FirstSent k r.id r.leadOpen r.leadSaid (sendFragment e r k base n (s, a, true) (0, len)) ∧
      ∃ d ∈ (sendFragment e r k base n (s, a, true) (0, len)).1.yl.plan, d.port = k / 32 ∧ d.at_ = a ∧
        d.for_ = .row r.id 0 len ∧ d.before 5 = true := by
  obtain ⟨t, w, g, hfret, -, hnow, hclear, hport, hfor, hframe, heq⟩ := sendFragment_first h
  obtain ⟨hon, hplan⟩ := startTrans_waits (w := w) (n := 5) (b := w.ends a) (g := g) (m := 0) (hport ▸ hclear) (hnow ▸ ha)
  rw [hport] at hon hplan
  rw [heq]
  have hrow' := hrow.of_fret ((hon.only.fret_eq (by decide)).trans hfret)
  refine ⟨⟨hon.clear, ?_, hrow'.sent hlen⟩, w.departs g a, hplan, hport, rfl, hfor, ?_⟩
  · exact lt_of_eq_of_lt (now_startTrans.trans hnow) (Nat.lt_trans ha YWait.lt_ends)
  · show (w.frame.retry || decide (w.for_.step ≤ 5)) = true
    rw [hfor]
    simp [TransFor.step]

/-- A first fragment whose start has come leaves at once, and the late start is recorded (R246, R260). -/
theorem sendFragment_leaves (h : Startable s e r k base n len a) (hrow : OneRow s e r) (hlen : 0 < len) (ha : a = s.now)
    (hk : k / 32 < 8) (hn : r.leadOpen.find? (fun x => x.1 == k / 32) = some (k / 32, c)) :
    FirstSent k r.id (r.leadBegun (k / 32)).leadOpen (r.leadBegun (k / 32)).leadSaid
        (sendFragment e r k base n (s, a, true) (0, len)) ∧
      Logs s (sendFragment e r k base n (s, a, true) (0, len)).1 0x0405 (leadItems e (k / 32) a c) := by
  obtain ⟨t, w, g, hfret, hnv, hnow, hclear, hport, hfor, hframe, heq⟩ := sendFragment_first h
  obtain ⟨u, hufret, hunv, hclear', hO⟩ := startTrans_leaves (w := w) (n := 5) (b := w.ends a) (g := g) (m := 0) (hport ▸ hclear)
    (ha.trans hnow.symm) (hrow.of_fret hfret) hn hfor (by rw [hframe, key_reqFrame hk])
  rw [hport] at hclear' hO
  rw [heq]
  have hrow' := ((hrow.of_fret (hufret.trans hfret)).mod (f := (·.leadBegun (k / 32)))).of_fret
    ((hO.fret_eq (by decide)).trans ((only_record .refl (List.Subset.refl _)).fret_eq (by decide)))
  refine ⟨⟨hclear', ?_, hrow'.sent hlen⟩, ?_⟩
  · exact lt_of_eq_of_lt (now_startTrans.trans (hnow.trans ha.symm)) YWait.lt_ends
  · exact (logs_record (s := modRow u r.id (·.leadBegun (k / 32)))).congr (hunv.trans hnv).symm (hO.nv_eq (by decide))

/-! ## A part of a row -/

/-- A part that has not begun to stream, and may, begins: what follows its first fragment waits. -/
theorem sendPart_streams (hn : 0 < n) (hmay : mayStream s k 0 = true) (hsent : tabGet 0 r.sent k = 0)
    (h : FirstSent k id lo said (sendFragment e r k base n (s, a, true) (0, min 1464 n))) :
    Streams k r.id (sendFragment e r k base n (s, a, true) (0, min 1464 n)).1 (sendPart e r (s, a) (k, base, n)).1 := by
  have hpart : (sendPart e r (s, a) (k, base, n)).1 = ((fragments 1464 n 2).foldl (sendFragment e r k base n)
      (sendFragment e r k base n (s, a, true) (0, min 1464 n))).1 := by
    unfold sendPart
    dsimp only
    rw [hsent, hmay, decide_eq_true hn, fragments_first hn, List.foldl_cons]
    rfl
  rw [hpart]
  refine (List.foldlRecOn (motive := fun x : State × Nat × Bool =>
    Streams k r.id (sendFragment e r k base n (s, a, true) (0, min 1464 n)).1 x.1 ∧ (x.2.2 = true → x.1.now < x.2.1))
    _ _ ⟨.refl h.clear, fun _ => h.later⟩ fun x ⟨hx, hlater⟩ fr hfr => ?_).1
  obtain ⟨hs, hl⟩ := sendFragment_later (e := e) (r := r) (n := n) (base := base) (fr := fr) hx.clear hlater
    (Nat.lt_of_lt_of_le (by decide) (fragments_from fr hfr))
  exact ⟨hx.trans hs, hl⟩

/-! ## FRET_LEAD -/

/-- The state after the late start of a row on a port has been noted: it streams at once where the port runs a cycle (R246). -/
def leadAnswer (v : State) (row : BitVec 16) (p c : Nat) : State :=
  let t := modRow v row (·.leadNoted p c)
  if (t.port (homePort t.cfg p)).t0.isSome then (sendRows t (homePort t.cfg p) (slotAt t (homePort t.cfg p) 5)).1 else t

theorem only_leadAnswer : Only [.free, .fret, .yl, .host, .nv, .out] v (leadAnswer v row p c) :=
  only_ite (only_sendRows (only_modRow .refl (listed rfl)) (listed rfl)) (only_modRow .refl (listed rfl))

theorem ends_fretLead {P : State → Prop} (h : leadDue (departAll (elapse dt s)) row pt.val = some c)
    (hP : P (leadAnswer (departAll (elapse dt s)) row pt.val c)) : Ends (exec (.fretLead dt row pt) s) P := by
  have hexec : exec (.fretLead dt row pt) s = answer s (leadAnswer (departAll (elapse dt s)) row pt.val c) := by
    show execFretLead dt row pt s = _
    unfold execFretLead
    dsimp only
    rw [h]
    rfl
  rw [hexec]
  exact ends_answer ((only_departAll .refl (listed rfl)).trans only_leadAnswer) (by decide) (by decide) hP

theorem ends_fretLead_none {P : State → Prop} (h : leadDue (departAll (elapse dt s)) row pt.val = none)
    (hP : P (departAll (elapse dt s))) : Ends (exec (.fretLead dt row pt) s) P := by
  have hexec : exec (.fretLead dt row pt) s = answer s (departAll (elapse dt s)) := by
    show execFretLead dt row pt s = _
    unfold execFretLead
    dsimp only
    rw [h]
  rw [hexec]
  exact ends_answer (only_departAll .refl (List.Subset.refl _)) (by decide) (by decide) hP

/-- A late start that has been noted. -/
theorem leadNoted_entry (h : leadDue v row p = some c) : ∃ f i, rowEntry (modRow v row (·.leadNoted p c)) row = some f ∧
    f.row = some i ∧ (p, c) ∈ i.leadOpen := by
  obtain ⟨e, r, he, hlate⟩ := lateRow_of_leadDue h
  exact ⟨_, _, rowEntry_modRow he hlate.row fun _ => rfl, rfl, List.mem_append_right _ List.mem_cons_self⟩

/-- A late row on a port that runs no cycle is noted (R246). -/
theorem leadAnswer_idle (h : (v.port (homePort v.cfg p)).t0 = none) : leadAnswer v row p c = modRow v row (·.leadNoted p c) := by
  unfold leadAnswer
  exact if_neg (Bool.eq_false_iff.mp (congrArg Option.isSome h))

/-- A late row on a port that runs a cycle streams as far as the cycle lets it (R246). -/
theorem leadAnswer_runs (hhome : homePort v.cfg p = p) (ht0 : (v.port p).t0 = some q0) :
    leadAnswer v row p c = (sendRows (modRow v row (·.leadNoted p c)) p (slotAt v p 5)).1 := by
  have hhome' : homePort (modRow v row (·.leadNoted p c)).cfg p = p := hhome
  unfold leadAnswer
  dsimp only
  rw [hhome']
  exact if_pos (congrArg Option.isSome ht0)

section
variable (hdue : leadDue v row p = some c) (hrow : OneRow v e r)
include hdue hrow

/-- The row of a queue of one that is late. -/
theorem OneRow.late : row = r.id ∧ LateRow v p e r := by
  obtain ⟨e', r', he, hlate⟩ := lateRow_of_leadDue hdue
  obtain ⟨r'', hr'', hid⟩ := rowEntry_row he
  have hmem : e' ∈ v.fret.queue := List.mem_of_find?_eq_some he
  obtain rfl : e' = e := by simpa [hrow.queue] using hmem
  obtain rfl : r' = r := Option.some_inj.mp (hlate.row.symm.trans hrow.row)
  obtain rfl : r'' = r' := Option.some_inj.mp (hr''.symm.trans hrow.row)
  exact ⟨hid.symm, hlate⟩

theorem OneRow.noted : OneRow (modRow v row (·.leadNoted p c)) { e with row := some (r.leadNoted p c) } (r.leadNoted p c) := by
  obtain ⟨rfl, -⟩ := hrow.late hdue
  exact hrow.mod

/-- A row that was committed after the start of the running cycle is noted only (R34, R246). -/
theorem leadAnswer_later (hhome : homePort v.cfg p = p) (ht0 : (v.port p).t0 = some q0) (hcommit : q0 < r.commitAt) :
    leadAnswer v row p c = modRow v row (·.leadNoted p c) := by
  obtain ⟨-, hlate⟩ := hrow.late hdue
  have helig : rowEligible (modRow v row (·.leadNoted p c)) p { e with row := some (r.leadNoted p c) } (r.leadNoted p c) = false := by
    show ((v.shaft e.shaft.val).referenced && (match (v.port p).t0 with | some a => decide (r.commitAt ≤ a) | none => false)) = false
    rw [ht0]
    exact Bool.and_eq_false_iff.mpr (.inr (decide_eq_false (Nat.not_le.mpr hcommit)))
  rw [leadAnswer_runs hhome ht0, (hrow.noted hdue).sendRows hlate.unarmed, helig, if_neg Bool.false_ne_true, ite_self]

end

/-- A late row that may stream on a port in its running cycle (R246, R272, R280). -/
structure MayLead (v : State) (row : BitVec 16) (p c q0 : Nat) (e : FretE) (r : RowSt) (y : Nat × Nat × Nat) : Prop where
  due : leadDue v row p = some c
  queue : OneRow v e r
  runs : (v.port p).t0 = some q0
  home : homePort v.cfg p = p
  up : lineState v p = 4
  setUp : v.dev.state ≠ .setup
  committed : r.commitAt ≤ q0
  part : r.parts = [y]
  here : y.1 / 32 = p
  may : mayStream v y.1 0 = true
  bytes : 0 < y.2.2
  fits : fitsAt v (rowWait e r y.1 y.2.1 y.2.2 0 (min 1464 y.2.2)) (slotAt v p 5) = true
  tag : freeTags v false ≠ []
  port : p < 8
  clear : Clear p v

variable {y : Nat × Nat × Nat}

/-- It streams. -/
theorem MayLead.streams (h : MayLead v row p c q0 e r y) : leadAnswer v row p c =
    (sendPart { e with row := some (r.leadNoted p c) } (r.leadNoted p c) (modRow v row (·.leadNoted p c), slotAt v p 5) y).1 := by
  obtain ⟨-, hlate⟩ := h.queue.late h.due
  have helig : rowEligible (modRow v row (·.leadNoted p c)) p { e with row := some (r.leadNoted p c) } (r.leadNoted p c) = true := by
    show ((v.shaft e.shaft.val).referenced && (match (v.port p).t0 with | some a => decide (r.commitAt ≤ a) | none => false)) = true
    rw [h.runs, hlate.referenced]
    exact decide_eq_true h.committed
  have hline : (lineState (modRow v row (·.leadNoted p c)) p = 4 && (modRow v row (·.leadNoted p c)).dev.state != .setup) = true := by
    show (decide (lineState v p = 4) && v.dev.state != .setup) = true
    rw [h.up, Bool.and_eq_true]
    exact ⟨rfl, bne_iff_ne.mpr h.setUp⟩
  have hparts : ((r.leadNoted p c).parts.filter fun y => y.1 / 32 == p) = [y] := by
    show (r.parts.filter fun y => y.1 / 32 == p) = _
    simp [h.part, h.here]
  rw [leadAnswer_runs h.home h.runs, (h.queue.noted h.due).sendRows hlate.unarmed, helig, if_pos hline, if_pos rfl, hparts]
  rfl

/-- Its first fragment may start in the slot of its step. -/
theorem MayLead.startable (h : MayLead v row p c q0 e r y) : Startable (modRow v row (·.leadNoted p c))
    { e with row := some (r.leadNoted p c) } (r.leadNoted p c) y.1 y.2.1 y.2.2 (min 1464 y.2.2) (slotAt v p 5) := by
  refine ⟨?_, h.fits, h.tag, ?_, ?_⟩
  · rw [h.here]
    exact h.clear
  · show (lineState v (y.1 / 32) == 4 && v.dev.state != .setup) = true
    rw [h.here, h.up]
    exact bne_iff_ne.mpr h.setUp
  · show (v.port (y.1 / 32)).t0.isNone = false
    rw [h.here, h.runs]
    rfl

/-- No frame starts before now. -/
theorem now_le_slotAt : s.now ≤ slotAt s p n := by
  unfold slotAt
  have hfold : ∀ (l : List Depart) (a : Nat), a ≤ l.foldl (fun a d => max a (d.at_ + wireNs d.frame.body.length)) a := fun l a =>
    List.foldlRecOn (motive := fun b => a ≤ b) l _ (Nat.le_refl a) fun b hb d _ => Nat.le_trans hb (Nat.le_max_left ..)
  exact Nat.le_trans (Nat.le_max_left ..) (hfold _ _)

theorem OneRow.rowsAt (h : OneRow s e r) :
    rowsAt s k = if tabGet 0 r.sent k != 0 && (!r.armed || r.reports.contains k) then 1 else 0 := by
  unfold Machine.rowsAt
  rw [h.queue, List.filter_cons, List.filter_nil, h.row]
  exact apply_ite List.length ..

/-- The row as FRET_LEAD leaves it, whatever late starts are noted and recorded. -/
theorem RowIs.entry (h : RowIs s id k lo said) :
    ∃ f i, rowEntry s id = some f ∧ f.row = some i ∧ 0 < tabGet 0 i.sent k ∧ i.leadOpen = lo ∧ i.leadSaid = said := by
  obtain ⟨e, r, hrow, rfl, hsent, hlo, hsaid⟩ := h
  exact ⟨e, r, hrow.entry, hrow.row, hsent, hlo, hsaid⟩

/-- A late row that may stream takes its place: it waits for its start, or starts now and is recorded (R246, R260). -/
theorem leadAnswer_streams (h : MayLead v row p c q0 e r y) :
    (∃ f i, rowEntry (leadAnswer v row p c) row = some f ∧ f.row = some i ∧ 0 < tabGet 0 i.sent y.1 ∧
      (v.now < slotAt v p 5 → (p, c) ∈ i.leadOpen) ∧ (slotAt v p 5 = v.now → p ∈ i.leadSaid)) ∧
    (v.now < slotAt v p 5 → ∃ d ∈ (leadAnswer v row p c).yl.plan, d.port = p ∧ d.at_ = slotAt v p 5 ∧
      d.for_ = .row r.id 0 (min 1464 y.2.2)) ∧
    (slotAt v p 5 = v.now → Logs v (leadAnswer v row p c) 0x0405 (leadItems e p (slotAt v p 5) c)) := by
  obtain ⟨hid, hlate⟩ := h.queue.late h.due
  have hlen : 0 < min 1464 y.2.2 := Nat.lt_min.mpr ⟨by decide, h.bytes⟩
  have hsent : tabGet 0 (r.leadNoted p c).sent y.1 = 0 := hlate.unsent y (h.part ▸ List.mem_cons_self) h.here
  have hmay : mayStream (modRow v row (·.leadNoted p c)) y.1 0 = true := by
    rw [mayStream, (h.queue.noted h.due).rowsAt]
    have := h.may
    rwa [mayStream, h.queue.rowsAt] at this
  rw [h.streams]
  rcases Nat.lt_or_eq_of_le (now_le_slotAt (s := v) (p := p) (n := 5)) with ha | ha
  · obtain ⟨hfirst, d, hd, hport, hat, hfor, hbefore⟩ := sendFragment_waits h.startable (h.queue.noted h.due) hlen ha
    have hstreams := sendPart_streams h.bytes hmay hsent hfirst
    have hrow := hstreams.row _ _ hfirst.row
    rw [show (r.leadNoted p c).id = row from hid.symm] at hrow
    obtain ⟨f, i, hf, hi, hs, hlo, -⟩ := hrow.entry
    refine ⟨⟨f, i, hf, hi, hs, fun _ => ?_, fun he => absurd he ha.ne'⟩, fun _ => ⟨d, ?_, ?_, hat, hfor⟩,
      fun he => absurd he ha.ne'⟩
    · rw [hlo]
      exact List.mem_append_right _ List.mem_cons_self
    · exact hstreams.keeps d hd hport hbefore
    · rw [hport, h.here]
  · have hlead : (r.leadNoted p c).leadOpen.find? (fun x => x.1 == y.1 / 32) = some (y.1 / 32, c) := by
      have hnone : r.leadOpen.find? (fun x => x.1 == p) = none :=
        List.find?_eq_none.mpr fun x hx => by simpa using hlate.unnoted x hx
      show (r.leadOpen ++ [(p, c)]).find? _ = _
      rw [h.here, List.find?_append, hnone, Option.none_or]
      simp
    obtain ⟨hfirst, hlogs⟩ := sendFragment_leaves h.startable (h.queue.noted h.due) hlen ha.symm (h.here ▸ h.port) hlead
    have hstreams := sendPart_streams h.bytes hmay hsent hfirst
    have hrow := hstreams.row _ _ hfirst.row
    rw [show (r.leadNoted p c).id = row from hid.symm] at hrow
    obtain ⟨f, i, hf, hi, hs, -, hsaid⟩ := hrow.entry
    refine ⟨⟨f, i, hf, hi, hs, fun hlt => absurd ha hlt.ne, fun _ => ?_⟩, fun hlt => absurd ha hlt.ne, fun _ => ?_⟩
    · rw [hsaid, RowSt.leadBegun, h.here]
      exact List.mem_cons_self
    · rw [h.here] at hlogs
      exact hlogs.congr rfl (hstreams.only.nv_eq (by decide))

end Sys2Proof.Machine
end

section
/-! The samples of a loop class, the commit of its write sets, and the duration limit of a tune (R322, R327, R336). -/
namespace Sys2Proof.Machine

variable {s t u : State} {a : LoopAcc} {n k i : Nat} {g : Tune}

/-! ## What a class sample leaves until its write set is queued -/

/-- The write sets that wait, the instants of the samples and the read point are as they were. -/
structure SampleKept (s t : State) : Prop where
  pend : t.lp.pend = s.lp.pend
  sampled : t.lp.sampled = s.lp.sampled
  readAt : t.seq.readAt = s.seq.readAt

theorem SampleKept.refl : SampleKept s s := ⟨rfl, rfl, rfl⟩

theorem SampleKept.trans (h : SampleKept s t) (h' : SampleKept t u) : SampleKept s u :=
  ⟨h'.pend.trans h.pend, h'.sampled.trans h.sampled, h'.readAt.trans h.readAt⟩

theorem SampleKept.of_only {ps : List Part} (h : SampleKept s t) (ho : Only ps t u) (hl : .lp ∉ ps) (hq : .seq ∉ ps) :
    SampleKept s u :=
  h.trans ⟨congrArg Loops.pend (ho.lp_eq hl), congrArg Loops.sampled (ho.lp_eq hl), congrArg Seq.readAt (ho.seq_eq hq)⟩

theorem SampleKept.record {c : Nat} {l : List RItem} (h : SampleKept s t) : SampleKept s (record t c l) :=
  h.of_only (only_record .refl (List.Subset.refl _)) (by decide) (by decide)

theorem SampleKept.onLp {f : Loops → Loops} (h : SampleKept s t) (hf : ∀ l, (f l).pend = l.pend ∧ (f l).sampled = l.sampled) :
    SampleKept s (t.onLp f) := h.trans ⟨(hf _).1, (hf _).2, rfl⟩

theorem SampleKept.modLoop {f : LoopSt → LoopSt} (h : SampleKept s t) : SampleKept s (t.modLoop n f) := h.trans ⟨rfl, rfl, rfl⟩

theorem SampleKept.raiseSource {c : Nat} {sel : Nat → Bool} (h : SampleKept s t) : SampleKept s (raiseSource t c sel) := by
  rw [raiseSource_eq]
  exact h.trans ⟨rfl, rfl, rfl⟩

theorem SampleKept.loopFault {c : Nat} {r y : Word} (h : SampleKept s t) : SampleKept s (loopFault t n c r y) := by
  unfold Machine.loopFault loopEvent
  exact SampleKept.raiseSource (SampleKept.record (h.trans ⟨rfl, rfl, rfl⟩))

/-- The capture of a sample changes the capture alone (R339, R340). -/
theorem capSample_cap {r y v : Word} : ∃ c, (capSample s n r y v).1 = s.onLp fun l => { l with cap := c } := by
  unfold capSample
  split
  · split
    · exact ⟨s.lp.cap, rfl⟩
    · exact ⟨_, (apply_ite Prod.fst ..).trans (ite_self _)⟩
  · exact ⟨s.lp.cap, rfl⟩

section
variable (h : SampleKept s a.s)
include h

theorem SampleKept.capture {r y v : Word} : SampleKept s (a.capture n r y v).s := by
  obtain ⟨c, hc⟩ := capSample_cap (s := a.s) (n := n) (r := r) (y := y) (v := v)
  show SampleKept s (capSample a.s n r y v).1
  rw [hc]
  exact h.onLp fun _ => ⟨rfl, rfl⟩

theorem SampleKept.region {e : LoopEv} : SampleKept s (a.region n e).s := by
  unfold LoopAcc.region
  dsimp only
  split
  · exact h.record
  · exact h

theorem SampleKept.endTune {st : Nat} : SampleKept s (a.endTune n st).s := h.modLoop

theorem SampleKept.add {b : List (Nat × Byte)} : SampleKept s (a.add b).s := h

theorem SampleKept.accFoldl {α : Type} {f : LoopAcc → α → LoopAcc} {l : List α}
    (hf : ∀ b x, SampleKept s b.s → SampleKept s (f b x).s) : SampleKept s (l.foldl f a).s :=
  List.foldlRecOn (motive := fun b : LoopAcc => SampleKept s b.s) l f h fun b hb x _ => hf b x hb

end

/-- A capture after a change of the state. -/
theorem SampleKept.captureOf {r y v : Word} (h : SampleKept s t) : SampleKept s (({ a with s := t } : LoopAcc).capture n r y v).s := by
  refine SampleKept.capture ?_
  exact h

/-- A loop that is in no group leaves them, whatever its sample comes to (R327, R330, R334). -/
theorem SampleKept.single (h : SampleKept s a.s) : SampleKept s (a.single n).s := by
  have hend : ∀ st, SampleKept s (a.endTune n st).s := fun _ => h.endTune
  unfold LoopAcc.single
  generalize capInject a.s n = y
  obtain ⟨isp, iout⟩ := y
  dsimp only
  generalize loopEval a.s n isp = o
  cases o with
  | safe st r y =>
    refine SampleKept.capture ?_
    refine SampleKept.add (SampleKept.modLoop ?_)
    split
    exacts [hend _, h]
  | held st r y =>
    refine SampleKept.captureOf (SampleKept.modLoop ?_)
    split
    exacts [hend _, h]
  | fault c r y =>
    refine SampleKept.captureOf (SampleKept.loopFault ?_)
    split
    exacts [hend _, h]
  | go e =>
    dsimp only
    split
    · refine SampleKept.capture (SampleKept.add (SampleKept.modLoop (SampleKept.region ?_)))
      split
      exacts [hend _, h]
    · refine SampleKept.capture (SampleKept.add (SampleKept.modLoop (SampleKept.region ?_)))
      split
      exacts [hend _, h]

/-- So does a member of a group that is not to be chosen (R333). -/
theorem SampleKept.members {l : List (Nat × LoopOut)} {ms : List (Nat × LoopOut)} {c : Tab Word} (h : SampleKept s a.s) :
    SampleKept s (l.foldl (fun (a : LoopAcc) (m : Nat × LoopOut) => match m.2 with
      | .safe st r y => ({ a with s := a.s.modLoop m.1 fun _ => st }).capture m.1 r y (lSafe c m.1)
      | .held st r y => ({ a with s := a.s.modLoop m.1 fun _ => st }).capture m.1 r y (a.s.loop m.1).uPrev
      | .fault k r y => ({ a with s := Machine.loopFault a.s m.1 k r y }).capture m.1 r y (a.s.loop m.1).uPrev
      | .go e => a.region m.1 e) { a with members := ms }).s := by
  refine SampleKept.accFoldl ?_ fun b m hb => ?_
  · exact h
  · split
    · exact SampleKept.captureOf hb.modLoop
    · exact SampleKept.captureOf hb.modLoop
    · exact SampleKept.captureOf hb.loopFault
    · exact hb.region

/-- A group leaves them, whether a member is chosen or not (R333). -/
theorem SampleKept.group {b : Nat} (h : SampleKept s a.s) : SampleKept s (a.group b).s := by
  unfold LoopAcc.group
  dsimp only
  split
  · refine SampleKept.add ?_
    dsimp only
    refine SampleKept.onLp (SampleKept.accFoldl (SampleKept.accFoldl ?_ fun c m hc => ?_) fun c m hc => ?_) fun _ => ⟨rfl, rfl⟩
    · refine SampleKept.modLoop ?_
      exact SampleKept.members h
    · exact hc.modLoop
    · exact hc.capture
  · split
    · refine SampleKept.accFoldl ?_ fun c m hc => ?_
      · exact SampleKept.members h
      · exact SampleKept.captureOf hc.modLoop
    · refine SampleKept.add ?_
      dsimp only
      refine SampleKept.onLp ?_ fun _ => ⟨rfl, rfl⟩
      exact SampleKept.members h

theorem SampleKept.loop (h : SampleKept s a.s) : SampleKept s (a.loop n).s := by
  unfold LoopAcc.loop
  split
  · exact h.single
  · dsimp only
    split
    · refine SampleKept.group ?_
      exact h
    · exact h

/-! ## A class sample -/

/-- The instant of a class sample is noted, and it is a read point (R322). -/
def State.sampling (s : State) (k : Nat) : State :=
  (s.onLp fun l => { l with sampled := tabSet none k (some s.now) l.sampled }).onSeq fun q => { q with readAt := some s.now }

/-- The loops of a class that sample, in ascending order (R322, R341). -/
def sampledLoops (s : State) (k : Nat) : List Nat := (lAll s.cfg).filter fun n => lClass s.cfg n == k && loopRuns s n

theorem sampledLoops_congr (hc : t.cfg = s.cfg) (hd : t.dev = s.dev) : sampledLoops t k = sampledLoops s k := by
  unfold sampledLoops loopRuns
  rw [hc, hd]

/-- What the loops of a class have come to in a sample. -/
def classAcc (s : State) (k : Nat) : LoopAcc := (sampledLoops (s.sampling k) k).foldl LoopAcc.loop { s := s.sampling k }

/-- The write set of a class sample (R322). -/
def LoopAcc.writeSet (a : LoopAcc) (k at_ : Nat) : LoopWs :=
  { cls := k, at_ := at_, bytes := a.bytes, tunes := a.tunes, aux := a.aux, capEnds := a.capEnds, capHead := a.capHead }

/-- The write set has joined those that wait for their commit instant. -/
def State.pended (s : State) (w : LoopWs) : State := s.onLp fun l => { l with pend := l.pend ++ [w] }

theorem sampleClass_eq : sampleClass s k = (classAcc s k).s.pended
    ((classAcc s k).writeSet k ((s.sampling k).now + 200 + 150 * loopsUpTo (s.sampling k).cfg k)) := by
  unfold sampleClass classAcc sampledLoops State.sampling State.pended LoopAcc.writeSet
  rfl

/-- What a class sample puts: one write set, and the instant of the sample, which is a read point (R322). -/
theorem sampleClass_puts : (sampleClass s k).lp.pend =
      s.lp.pend ++ [(classAcc s k).writeSet k (s.now + 200 + 150 * loopsUpTo s.cfg k)] ∧
    tabGet none (sampleClass s k).lp.sampled k = some s.now ∧ (sampleClass s k).seq.readAt = some s.now := by
  have hkept : SampleKept (s.sampling k) (classAcc s k).s :=
    SampleKept.accFoldl (a := { s := s.sampling k }) (f := LoopAcc.loop) (l := sampledLoops (s.sampling k) k) .refl
      fun _ _ hb => hb.loop
  rw [sampleClass_eq]
  refine ⟨congrArg (· ++ [_]) hkept.pend, ?_, hkept.readAt⟩
  show tabGet none (classAcc s k).s.lp.sampled k = _
  rw [hkept.sampled]
  show tabGet none (tabSet none k (some s.now) s.lp.sampled) k = _
  exact tabGet_tabSet.trans (if_pos rfl)

/-- A class sample changes loops alone, and records what they come to. -/
theorem only_classSample : Only [.seq, .lp, .host, .nv, .out] s (sampleClass s k) := only_sampleClass .refl (List.Subset.refl _)

/-! ## A loop in mode OFF -/

/-- The loop reset, in mode OFF (R327). -/
def offLoop (s : State) (n : Nat) : LoopSt :=
  { LoopSt.cleared s n (s.loop n) with mode := 0, selected := false, rested := true }

theorem loopEval_off {v : Word} (h : cmdMode s n = 0) : ∃ r y, loopEval s n v = .safe (offLoop s n) r y := by
  unfold loopEval
  dsimp only
  rw [h]
  exact ⟨_, _, rfl⟩

theorem capture_none {r y v : Word} (h : a.s.lp.cap = none) : a.capture n r y v = a := by
  have hnone : capSample a.s n r y v = (a.s, [], [], none) := by
    unfold capSample
    rw [h]
  unfold LoopAcc.capture
  rw [hnone]
  simp

theorem capInject_none (h : s.lp.cap = none) : capInject s n = (0, 0) := by
  unfold capInject
  rw [h]

/-- The tune that a sample ends before the law is run has ended (R336). -/
def LoopAcc.stopped (a : LoopAcc) (n : Nat) (o : LoopOut) : LoopAcc :=
  match tuneStops a.s n o with
  | some st => a.endTune n st
  | none => a

theorem LoopAcc.stopped_untuned {o : LoopOut} (h : (a.s.loop n).tune = none) : a.stopped n o = a := by
  rw [LoopAcc.stopped, tuneStops, h]

theorem LoopAcc.stopped_ending {o : LoopOut} (h : (a.s.loop n).tune = some g) (hi : g.ending = some i) :
    a.stopped n o = a.endTune n i := by
  rw [LoopAcc.stopped, tuneStops, h]
  dsimp only
  rw [hi]

theorem LoopAcc.tune_endTune : ((a.endTune n i).s.loop n).tune = none := by
  show ((a.s.modLoop n _).loop n).tune = none
  rw [State.loop_modLoop, if_pos rfl]

/-- The sample of a loop in mode OFF, outside groups and captures: a reset, and its safe value (R327). -/
theorem single_off (hm : cmdMode a.s n = 0) (hc : a.s.lp.cap = none) : ∃ o, a.single n = { a.stopped n o with
    s := (a.stopped n o).s.modLoop n fun _ => { offLoop a.s n with tune := ((a.stopped n o).s.loop n).tune }
    bytes := (a.stopped n o).bytes ++ lWriteSafe (a.stopped n o).s n } := by
  obtain ⟨r, y, heval⟩ := loopEval_off (v := 0) hm
  have hcap : (a.stopped n (.safe (offLoop a.s n) r y)).s.lp.cap = none := by
    rw [LoopAcc.stopped]
    split <;> exact hc
  refine ⟨.safe (offLoop a.s n) r y, ?_⟩
  unfold LoopAcc.single
  rw [capInject_none hc]
  dsimp only
  rw [heval]
  refine (capture_none ?_).trans rfl
  exact hcap

end Sys2Proof.Machine
end

section
/-! One loop in mode OFF samples; the write set of a class commits; a tune runs out of time (R322, R327, R336). -/
namespace Sys2Proof.Machine

variable {s t u : State} {a : LoopAcc} {n k i : Nat} {w : LoopWs} {g : Tune}

/-! ## States that loops read alike -/

/-- The configuration and the committed bytes read the same. -/
structure ReadsAs (s t : State) : Prop where
  cfg : t.cfg = s.cfg
  byte : ∀ a, canByte t a = canByte s a

theorem ReadsAs.trans (h : ReadsAs s t) (h' : ReadsAs t u) : ReadsAs s u :=
  ⟨h'.cfg.trans h.cfg, fun a => (h'.byte a).trans (h.byte a)⟩

theorem sByte_onLp {f : Loops → Loops} {o : Nat} : sByte (s.onLp f) o = sByte s o := by
  unfold sByte
  rfl

theorem sByte_readAt {x : Option Nat} {o : Nat} : sByte (s.onSeq fun q => { q with readAt := x }) o = sByte s o := by
  unfold sByte
  rfl

theorem readsAs_onLp {f : Loops → Loops} : ReadsAs s (s.onLp f) := ⟨rfl, fun a => by
  unfold canByte
  rw [sByte_onLp]
  rfl⟩

theorem readsAs_modLoop {f : LoopSt → LoopSt} : ReadsAs s (s.modLoop n f) :=
  readsAs_onLp (f := fun l => { l with loops := tabMod {} n f l.loops })

theorem readsAs_sampling : ReadsAs s (s.sampling k) := readsAs_onLp.trans ⟨rfl, fun a => by
  unfold canByte
  rw [State.sampling, sByte_readAt]
  rfl⟩

section
variable (h : ReadsAs s t)
include h

theorem ReadsAs.word {b : Nat} : canWord t b = canWord s b := by
  unfold canWord canBytes
  simp only [h.byte]

theorem ReadsAs.mode : cmdMode t n = cmdMode s n := by
  unfold cmdMode
  rw [h.cfg, h.word]

theorem ReadsAs.safe : lWriteSafe t n = lWriteSafe s n := by
  unfold lWriteSafe lWrite bankAt
  simp only [h.cfg, h.word]

theorem ReadsAs.aux {x : List Word} : auxLine t n i x = auxLine s n i x := by
  unfold auxLine
  rw [h.cfg]

theorem ReadsAs.sched : schedLine t n = schedLine s n := by
  unfold schedLine
  simp only [h.cfg, h.word]

theorem ReadsAs.off (hl : t.loop n = s.loop n) : offLoop t n = offLoop s n := by
  unfold offLoop LoopSt.cleared
  rw [hl, h.sched, h.cfg]

end

/-! ## A class whose one loop is in mode OFF -/

/-- One loop of a class samples, in mode OFF, outside groups and captures (R327). -/
structure OffAlone (s : State) (k n : Nat) : Prop where
  alone : sampledLoops s k = [n]
  ungrouped : groupOf s.cfg n = none
  off : cmdMode s n = 0
  uncaptured : s.lp.cap = none

/-- What a class sample starts from. -/
def sampleStart (s : State) (k : Nat) : LoopAcc := { s := s.sampling k }

theorem loop_sampleClass : (sampleClass s k).loop n = (classAcc s k).s.loop n := by
  rw [sampleClass_eq]
  rfl

theorem readsAs_sampleStart : ReadsAs s (sampleStart s k).s := readsAs_sampling

theorem loop_sampleStart : (sampleStart s k).s.loop n = s.loop n := rfl

/-- A tune that ends leaves the bytes, the capture and what loops read. -/
theorem LoopAcc.stopped_leaves {o : LoopOut} : (a.stopped n o).bytes = a.bytes ∧ (a.stopped n o).capEnds = a.capEnds ∧
    (a.stopped n o).capHead = a.capHead ∧ ReadsAs a.s (a.stopped n o).s := by
  rw [LoopAcc.stopped]
  split
  · exact ⟨rfl, rfl, rfl, readsAs_modLoop⟩
  · exact ⟨rfl, rfl, rfl, rfl, fun _ => rfl⟩

/-- A loop outside groups completes its sample by itself. -/
theorem LoopAcc.loop_ungrouped (h : groupOf a.s.cfg n = none) : a.loop n = a.single n := by
  rw [LoopAcc.loop, h]

section
variable (h : OffAlone s k n)
include h

theorem OffAlone.acc : classAcc s k = (sampleStart s k).single n := by
  have halone : sampledLoops (s.sampling k) k = [n] := (sampledLoops_congr rfl rfl).trans h.alone
  rw [← LoopAcc.loop_ungrouped (a := sampleStart s k) h.ungrouped, classAcc, halone, List.foldl_cons, List.foldl_nil]
  rfl

/-- The loop is reset, and its safe value is all of the write set but for the line of a tune that ends (R327, R336). -/
theorem OffAlone.sampled : ∃ o,
    (classAcc s k).s.loop n = { offLoop s n with tune := (((sampleStart s k).stopped n o).s.loop n).tune } ∧
    (classAcc s k).bytes = lWriteSafe s n ∧ (classAcc s k).capEnds = none ∧ (classAcc s k).capHead = [] ∧
    (classAcc s k).tunes = ((sampleStart s k).stopped n o).tunes ∧
    (classAcc s k).aux = ((sampleStart s k).stopped n o).aux := by
  obtain ⟨o, ho⟩ := single_off (a := sampleStart s k) (readsAs_sampleStart.mode.trans h.off) h.uncaptured
  obtain ⟨hbytes, hends, hhead, hreads⟩ := LoopAcc.stopped_leaves (a := sampleStart s k) (n := n) (o := o)
  refine ⟨o, ?_⟩
  rw [h.acc, ho]
  dsimp only
  refine ⟨?_, ?_, hends, hhead, rfl, rfl⟩
  · rw [State.loop_modLoop, if_pos rfl, readsAs_sampleStart.off loop_sampleStart]
  · rw [hbytes, (readsAs_sampleStart.trans hreads).safe]
    rfl

/-- What the write set and the loop come to, without a tune and with one that ends (R327, R336). -/
theorem OffAlone.leaves {m : Nat} : ((classAcc s k).writeSet k m).bytes = lWriteSafe s n ∧
    ((classAcc s k).writeSet k m).capEnds = none ∧ ((classAcc s k).writeSet k m).capHead = [] ∧
    ((s.loop n).tune = none → (sampleClass s k).loop n = offLoop s n ∧ ((classAcc s k).writeSet k m).tunes = [] ∧
      ((classAcc s k).writeSet k m).aux = []) ∧
    (∀ i, (s.loop n).tune = some g → g.ending = some i → (sampleClass s k).loop n = { offLoop s n with tune := none } ∧
      ((classAcc s k).writeSet k m).tunes = [(n, i, 0, 0)] ∧ ((classAcc s k).writeSet k m).aux = [(n, auxLine s n i [])]) := by
  obtain ⟨o, hloop, hbytes, hends, hhead, htunes, haux⟩ := h.sampled
  rw [loop_sampleClass, hloop]
  refine ⟨hbytes, hends, hhead, fun ht => ?_, fun i ht hi => ?_⟩
  · have hstop : (sampleStart s k).stopped n o = sampleStart s k := LoopAcc.stopped_untuned ht
    rw [hstop] at htunes haux ⊢
    rw [loop_sampleStart, ht]
    refine ⟨?_, htunes, haux⟩
    show { offLoop s n with tune := none } = offLoop s n
    rw [← ht]
    rfl
  · have hstop : (sampleStart s k).stopped n o = (sampleStart s k).endTune n i := LoopAcc.stopped_ending ht hi
    rw [hstop] at htunes haux ⊢
    rw [LoopAcc.tune_endTune]
    refine ⟨rfl, htunes, haux.trans ?_⟩
    show [] ++ [(n, auxLine (sampleStart s k).s n i [])] = _
    rw [readsAs_sampleStart.aux]
    rfl

end

/-! ## The write set of a class takes effect -/

/-- After bytes are written, each reads as its last writing or as before. -/
theorem byte_putAll {m : Mem} {b : List (Nat × Byte)} : (putAll m b).byte i = (b.reverse.lookup i).getD (m.byte i) := by
  induction b using List.reverseRecOn with
  | nil => rfl
  | append_singleton b x ih =>
    have hlast : putAll m (b ++ [x]) = (putAll m b).setByte x.1 x.2 := List.foldl_concat ..
    rw [hlast, Mem.byte_setByte, ih, List.reverse_concat, List.lookup_cons]
    by_cases hi : i = x.1
    · rw [if_pos hi, beq_iff_eq.mpr hi]
      rfl
    · rw [if_neg hi, beq_eq_false_iff_ne.mpr hi]

/-- The bytes that the commit of a write set without a capture that ends writes (R322, R340). -/
def LoopWs.all (w : LoopWs) : List (Nat × Byte) := w.bytes ++ (w.aux.flatMap fun x => x.2) ++ w.capHead

/-- The write sets of a class that are due wait no more (R322). -/
def State.unpended (s : State) (k : Nat) : State :=
  s.onLp fun l => { l with pend := l.pend.filter fun y => !(y.cls == k && decide (y.at_ ≤ s.now)) }

theorem commitClass_none (h : classReady s k = []) : commitClass s k = s := by
  have hall : (s.lp.pend.filter fun w => !(w.cls == k && decide (w.at_ ≤ s.now))) = s.lp.pend :=
    List.filter_eq_self.mpr fun w hw => by
      rw [Bool.eq_false_of_not_eq_true (List.filter_eq_nil_iff.mp h w hw), Bool.not_false]
  unfold commitClass
  rw [h]
  show s.unpended k = s
  rw [State.unpended, State.onLp, hall]

theorem commitClass_one (h : classReady s k = [w]) (ht : w.tunes = []) (hc : w.capEnds = none) :
    commitClass s k = (publishWhole (s.unpended k) w.all).modTask 64 fun x =>
      { x with live := true, lastCommit := some (publishWhole (s.unpended k) w.all).now } := by
  unfold commitClass
  rw [h]
  show loopWsCommit (s.unpended k) w = _
  unfold loopWsCommit
  rw [ht, hc]
  rfl

/-- The commit of one write set of a class: its bytes, and the commit of the device's own writer (R322). -/
theorem commitClass_leaves (h : classReady s k = [w]) (ht : w.tunes = []) (hc : w.capEnds = none) :
    (commitClass s k).can.mem = putAll s.can.mem w.all ∧ (commitClass s k).lp.pend = (s.unpended k).lp.pend ∧
    (commitClass s k).lp.loops = s.lp.loops ∧
    ((commitClass s k).task 64).live = true ∧ ((commitClass s k).task 64).lastCommit = some s.now := by
  have hO : Only [.seq, .can, .host, .nv, .out] (s.unpended k) (publishWhole (s.unpended k) w.all) :=
    only_publishWhole .refl (listed rfl)
  have hlp : (publishWhole (s.unpended k) w.all).lp = (s.unpended k).lp := hO.lp_eq (by decide)
  rw [commitClass_one h ht hc, State.task_modTask, if_pos rfl, now_publishWhole]
  exact ⟨(publishWhole_leaves (m := 0)).1, congrArg Loops.pend hlp, (congrArg Loops.loops hlp).trans rfl, rfl, rfl⟩

/-! ## A tune past its limit -/

theorem tuneLate_iff (h : (s.loop n).tune = some g) :
    tuneLate s n = true ↔ g.ending = none ∧ g.startAt + g.limitNs ≤ s.now := by
  simp [tuneLate, h]

theorem tuneLate_none (h : (s.loop n).tune = none) : tuneLate s n = false := by
  rw [tuneLate, h]

end Sys2Proof.Machine
end

section
/-! What FRET_EVALUATION, FRET_MISSED, the loop commands and TUNE_TIMEOUT answer. -/
namespace Sys2Proof.Machine

variable {s : State} {e : FretE} {r : RowSt} {dt m : Nat} {l : Fin 256} {j : Fin 8} {row : BitVec 16} {P : State → Prop}

/-! ## A queue of one judged entry -/

/-- The distance of an entry to its target, at its shaft's position (R236). -/
def FretE.distNow (s : State) (e : FretE) : Int := e.dist (shaftPos s e.shaft.val)

section
variable (h : Evaluable s e)
include h

/-- An armed TRIG entry that is crossed fires, and is consumed unless it repeats (R240, R241). -/
theorem evalAll_trig (ha : e.armed = true) (h1 : e.kind ≠ 1) (h2 : e.kind ≠ 2) (hx : e.crosses e.lastD (e.distNow s) = true) :
    (evalAll s).fret.queue = (if e.repeats then [{ e with lastD := e.distNow s, fired := true, armed := false }] else []) ∧
    (evalAll s).fret.spent = s.fret.spent ++ (if e.repeats then [] else [(e.task, e.key)]) ∧
    (evalAll s).seq.trigs = s.seq.trigs ++ (if tEnable s.cfg (e.sub.toNat % 64) && tEvent s.cfg (e.sub.toNat % 64) &&
      (s.task (e.sub.toNat % 64)).armed then [{ task := e.sub.toNat % 64, source := 0xA, at_ := s.now }] else []) ∧
    Only [.seq, .fret] s (evalAll s) := by
  have hraise : Only [.seq, .fret] s (raiseTrigger s (e.sub.toNat % 64) 0xA) := only_raiseTrigger .refl (listed rfl)
  have hfret : (raiseTrigger s (e.sub.toNat % 64) 0xA).fret = s.fret := fret_raiseTrigger
  have hqueue : (raiseTrigger s (e.sub.toNat % 64) 0xA).fret.queue = [e] := (congrArg Fret.queue hfret).trans h.queue
  rw [evalAll_single h, evalEntry_trig h.unfired ha h1 h2 hx]
  cases e.repeats with
  | true =>
    rw [if_pos rfl]
    dsimp only
    rw [putEntry_single hqueue]
    refine ⟨rfl, ?_, trigs_raiseTrigger, only_onFret hraise (listed rfl)⟩
    show (raiseTrigger s _ _).fret.spent = _
    rw [hfret]
    exact (List.append_nil _).symm
  | false =>
    rw [if_neg Bool.false_ne_true]
    dsimp only
    have hspend : (spend (raiseTrigger s (e.sub.toNat % 64) 0xA) e).fret.queue = [e] := hqueue
    rw [putEntry_single hspend]
    refine ⟨rfl, ?_, trigs_raiseTrigger, only_onFret (only_spend hraise (listed rfl)) (listed rfl)⟩
    show (raiseTrigger s _ _).fret.spent ++ _ = _
    rw [hfret]
    rfl

/-- An armed ROW entry that is crossed unconfirmed leaves the queue and is counted (R251). -/
theorem evalAll_row (ha : e.armed = true) (hk : e.kind = 2) (hr : e.row = some r) (hx : e.crosses e.lastD (e.distNow s) = true) :
    (evalAll s).fret.queue = [] ∧ (evalAll s).fret.missCount = satInc s.fret.missCount := by
  obtain ⟨hfret, -, -⟩ := rowMissed_leaves (s := s) (e := e) (r := r)
  have hqueue : (rowMissed s e r).fret.queue = [] := by
    rw [hfret, h.queue]
    simp
  rw [evalAll_single h, evalEntry_row h.unfired ha hk hr hx]
  dsimp only
  rw [putEntry_nil hqueue]
  exact ⟨rfl, congrArg Fret.missCount hfret⟩

/-- An armed OUT entry with a stamp hands its change to the bridge, and stays until then (R242). -/
theorem evalAll_out (ha : e.armed = true) (hk : e.kind = 1)
    (ho : outStamp s e (e.distNow s) (e.crosses e.lastD (e.distNow s)) = some m) :
    (evalAll s).fret.queue =
      [{ e with lastD := e.distNow s, fired := true, armed := false, change := some (s.fret.nextChange, m) }] ∧
    (evalAll s).fld.startDue = true ∧
    (∃ g, (evalAll s).fld.changeQ = s.fld.changeQ ++ [{ outChange e 1 s.fret.nextChange m false with tag := g }]) ∧
    (evalAll s).fret.nextChange = s.fret.nextChange + 1 ∧ Only [.free, .yl, .fret, .fld] s (evalAll s) := by
  obtain ⟨g, hchange, hstart, hfret⟩ := handOff_leaves (s := s) (e := { e with lastD := e.distNow s }) (m := m) (b := false)
  have hentry : (handOff s { e with lastD := e.distNow s } m false).2 =
    { e with lastD := e.distNow s, fired := true, armed := false, change := some (s.fret.nextChange, m) } := rfl
  have honly : Only [.free, .yl, .fret, .fld] s (handOff s { e with lastD := e.distNow s } m false).1 :=
    only_handOff .refl (listed rfl)
  rw [evalAll_single h, evalEntry_out h.unfired ha hk ho]
  dsimp only
  rw [← FretE.distNow, hentry]
  generalize (handOff s { e with lastD := e.distNow s } m false).1 = x at hchange hstart hfret honly
  rw [putEntry_single ((congrArg Fret.queue hfret).trans h.queue)]
  exact ⟨rfl, hstart, ⟨g, hchange⟩, congrArg Fret.nextChange hfret, only_onFret honly (listed rfl)⟩

/-- An evaluation that changes its entry alone. -/
theorem evalAll_stays {x : FretE} (he : evalEntry s (shaftPos s e.shaft.val) e = (s, some x)) :
    (evalAll s).fret = { s.fret with queue := [x] } ∧ Only [.fret] s (evalAll s) := by
  rw [evalAll_keeps h he]
  exact ⟨rfl, only_onFret .refl (List.Subset.refl _)⟩

end

/-! ## The commands -/

theorem ends_fretEvaluation (hn : (elapse dt s).now % 25 = 0) (hd : (elapse dt s).dev.state.served = true)
    (hP : P (evalAll (acceptShafts (elapse dt s)))) : Ends (exec (.fretEvaluation dt) s) P := by
  refine ends_when ?_ (only_evalAll (only_acceptShafts .refl (listed rfl)) (List.Subset.refl _)) (by decide) (by decide) hP
  rw [hn, hd]
  rfl

theorem fretEvaluation_idle (h : (elapse dt s).now % 25 ≠ 0 ∨ (elapse dt s).dev.state.served = false) :
    exec (.fretEvaluation dt) s = .next (elapse dt s) := by
  refine answer_when_false (Bool.and_eq_false_iff.mpr ?_)
  exact h.imp_left beq_eq_false_iff_ne.mpr

theorem ends_fretMissed (h : missDue (elapse dt s) row = some (e, r)) (hP : P (rowMissed (elapse dt s) e r)) :
    Ends (exec (.fretMissed dt row) s) P := by
  have hexec : exec (.fretMissed dt row) s = answer s (rowMissed (elapse dt s) e r) := by
    show execFretMissed dt row s = _
    unfold execFretMissed
    dsimp only
    rw [h]
  rw [hexec]
  exact ends_answer (only_rowMissed .refl (List.Subset.refl _)) (by decide) (by decide) hP

theorem fretMissed_none (h : missDue (elapse dt s) row = none) : exec (.fretMissed dt row) s = .next (elapse dt s) := by
  show execFretMissed dt row s = _
  unfold execFretMissed
  dsimp only
  rw [h]
  exact answer_of_only (ps := []) .refl (by decide) (by decide)

theorem ends_loopSample (h : classDue (elapse dt s) j.val = true) (hP : P (sampleClass (settled (elapse dt s)) j.val)) :
    Ends (exec (.loopSample dt j) s) P :=
  ends_when h (only_sampleClass (only_settled .refl (List.Subset.refl _)) (listed rfl)) (by decide) (by decide) hP

theorem ends_loopClassCommit (hP : P (commitClass (elapse dt s) j.val)) : Ends (exec (.loopClassCommit dt j) s) P :=
  ends_answer (only_commitClass .refl (List.Subset.refl _)) (by decide) (by decide) hP

theorem loopClassCommit_none (h : classReady (elapse dt s) j.val = []) :
    exec (.loopClassCommit dt j) s = .next (elapse dt s) := by
  show answer s (commitClass (elapse dt s) j.val) = _
  rw [commitClass_none h]
  exact answer_of_only (ps := []) .refl (by decide) (by decide)

theorem ends_tuneTimeout (h : tuneLate (elapse dt s) l.val = true) (hP : P (tuneEndsAs (elapse dt s) l.val stTimeout)) :
    Ends (exec (.tuneTimeout dt l) s) P :=
  ends_when h (only_tuneEndsAs .refl (List.Subset.refl _)) (by decide) (by decide) hP

theorem tuneTimeout_idle (h : tuneLate (elapse dt s) l.val = false) : exec (.tuneTimeout dt l) s = .next (elapse dt s) :=
  answer_when_false h

end Sys2Proof.Machine
end

section
/-! The evaluation of frets, the late streaming of rows, and the loop commands: the clauses of
`Obligations.FretQueueAndLoopEvents`. -/
namespace Sys2Proof.Machine

variable {s u : State} {e : FretE} {r : RowSt} {row : BitVec 16} {pt : PortId} {g : Tune} {l : Fin 256} {j : Fin 8}
  {c q0 dt m : Nat} {y : Nat × Nat × Nat}

/-! ## Evaluations -/

theorem now_acceptShafts : (acceptShafts s).now = s.now := congrArg Clk.tb (only_acceptShafts_self.clk_eq (by decide))

/-- The stamp of an OUT entry that has crossed its target, or that nears it and comes within 10 us of it (R242). -/
theorem outStamp_due {d : Int} {x : Bool}
    (h : (x = true ∧ (∀ i, e.projected s.cfg (s.shaft e.shaft.val) = some i → m = min i s.now) ∧
        (e.projected s.cfg (s.shaft e.shaft.val) = none → m = s.now)) ∨
      (¬ x = true ∧ e.Nears s d ∧ e.projected s.cfg (s.shaft e.shaft.val) = some m ∧ m ≤ s.now + 10000)) :
    outStamp s e d x = some m := by
  rcases h with ⟨rfl, hmin, hnone⟩ | ⟨hx, hnears, hproj, hsoon⟩
  · exact outStamp_crossed hmin hnone
  · rw [Bool.eq_false_of_not_eq_true hx]
    exact outStamp_near hnears hproj hsoon

/-! ## Late rows -/

theorem now_departAll : (departAll s).now = s.now :=
  congrArg Clk.tb ((only_departAll .refl (List.Subset.refl _)).clk_eq (by decide))

/-- The start of a late row is noted, and nothing else happens (R246). -/
theorem ends_leadNoted {v : State} (hv : v = departAll (elapse dt s)) (hdue : leadDue v row pt.val = some c)
    (ht : leadAnswer v row pt.val c = modRow v row (·.leadNoted pt.val c)) :
    Ends (exec (.fretLead dt row pt) s) fun t =>
      (∃ f i, rowEntry t row = some f ∧ f.row = some i ∧ (pt.val, c) ∈ i.leadOpen) ∧ t.yl = v.yl ∧ Only [.fret] v t := by
  have honly : Only [.fret] v (modRow v row (·.leadNoted pt.val c)) := only_modRow .refl (List.Subset.refl _)
  have hdue' : leadDue (departAll (elapse dt s)) row pt.val = some c := hv ▸ hdue
  refine ends_fretLead hdue' ?_
  rw [← hv, ht]
  exact ⟨leadNoted_entry hdue, honly.yl_eq (by decide), honly⟩

/-- A late row that may stream takes its place of the running cycle (R246, R260). -/
theorem ends_leadStreams {v : State} (hv : v = departAll (elapse dt s)) (h : MayLead v row pt.val c q0 e r y) :
    Ends (exec (.fretLead dt row pt) s) fun t =>
      (∃ f i, rowEntry t row = some f ∧ f.row = some i ∧ 0 < tabGet 0 i.sent y.1 ∧
        ((elapse dt s).now < slotAt v pt.val 5 → (pt.val, c) ∈ i.leadOpen) ∧
        (slotAt v pt.val 5 = (elapse dt s).now → pt.val ∈ i.leadSaid)) ∧
      ((elapse dt s).now < slotAt v pt.val 5 → ∃ d ∈ t.yl.plan, d.port = pt.val ∧ d.at_ = slotAt v pt.val 5 ∧
        d.for_ = (rowWait e r y.1 y.2.1 y.2.2 0 (min 1464 y.2.2)).for_) ∧
      (slotAt v pt.val 5 = (elapse dt s).now → Logs v t 0x0405 (leadItems e pt.val (slotAt v pt.val 5) c)) := by
  have hnow : v.now = (elapse dt s).now := hv ▸ now_departAll
  have hdue : leadDue (departAll (elapse dt s)) row pt.val = some c := hv ▸ h.due
  rw [← hnow]
  refine ends_fretLead hdue ?_
  rw [← hv]
  exact leadAnswer_streams h

/-! ## Loop samples and commits -/

/-- What a class sample leaves, and what a class whose one loop is in mode OFF writes (R322, R327, R336). -/
theorem loopSample_leaves (q : State) (hq : q = settled u) : ∃ w, (sampleClass q j.val).lp.pend = q.lp.pend ++ [w] ∧ w.cls = j.val ∧
    w.at_ = u.now + 200 + 150 * loopsUpTo u.cfg j.val ∧ tabGet none (sampleClass q j.val).lp.sampled j.val = some u.now ∧
    (sampleClass q j.val).seq.readAt = some u.now ∧ Only [.seq, .lp, .host, .nv, .out] q (sampleClass q j.val) ∧
    ((lAll u.cfg).filter (fun i => lClass u.cfg i == j.val && loopRuns u i) = [l.val] → groupOf u.cfg l.val = none →
      cmdMode q l.val = 0 → q.lp.cap = none →
      w.bytes = lWriteSafe q l.val ∧ w.capEnds = none ∧ w.capHead = [] ∧
      ((q.loop l.val).tune = none → (sampleClass q j.val).loop l.val =
        { LoopSt.cleared q l.val (q.loop l.val) with mode := 0, selected := false, rested := true } ∧ w.tunes = [] ∧ w.aux = []) ∧
      (∀ i, (q.loop l.val).tune = some g → g.ending = some i →
        (sampleClass q j.val).loop l.val =
          { LoopSt.cleared q l.val (q.loop l.val) with mode := 0, selected := false, rested := true, tune := none } ∧
          w.tunes = [(l.val, i, 0, 0)] ∧ w.aux = [(l.val, auxLine q l.val i [])])) := by
  have honly : Only [.free, .seq, .can, .fret, .yl, .lp, .fld, .host, .nv, .out] u q := hq ▸ only_settled .refl (List.Subset.refl _)
  have hcfg : q.cfg = u.cfg := honly.cfg_eq (by decide)
  have hdev : q.dev = u.dev := honly.dev_eq (by decide)
  have hnow : q.now = u.now := congrArg Clk.tb (honly.clk_eq (by decide))
  obtain ⟨hpend, hsampled, hread⟩ := sampleClass_puts (s := q) (k := j.val)
  rw [← hcfg, ← hnow]
  refine ⟨_, hpend, rfl, rfl, hsampled, hread, only_classSample, fun halone hgroup hoff hcap => ?_⟩
  have hsampledLoops : sampledLoops q j.val = [l.val] := by
    rw [sampledLoops_congr hcfg hdev, sampledLoops, ← hcfg]
    exact halone
  exact OffAlone.leaves ⟨hsampledLoops, hgroup, hoff, hcap⟩

end Sys2Proof.Machine
end

section
/-! FRET_EVALUATION, FRET_LEAD, FRET_MISSED, LOOP_SAMPLE, LOOP_CLASS_COMMIT and TUNE_TIMEOUT. -/
namespace Sys2Proof.Machine

/-- Settles O40: an evaluation of a queue of one entry comes to the branch of `evalEntry` that its state and crossing
choose; a late row takes the place of its step in the running cycle; a class sample and its commit are those of its one
write set. -/
theorem fretQueueAndLoopEvents : Obligations.FretQueueAndLoopEvents := by
  unfold Obligations.FretQueueAndLoopEvents
  intro s dt e k l row pt r m c q0 w g y u f d e1 judged crosses ahead nears v a first q
  have hnow : f.now = u.now := now_acceptShafts
  have heval : judged → Evaluable f e ∧ ∀ P, P (evalAll f) → Ends (exec (.fretEvaluation dt) s) P := by
    rintro ⟨hmul, hserved, hqueue, href, hsound, hon, hjudged, hfired, hchange⟩
    exact ⟨⟨hqueue, href, hsound, hon, hjudged, hfired, hchange⟩, fun P hP => ends_fretEvaluation hmul hserved hP⟩
  refine ⟨fun hj h1 h2 ha hx => ?trigFires, fun hj hk ha hr hx => ?rowMissed,
    fun hj hk ha hstamp => ?outHandedOff, fun hj ha hx hfar => ?armedStays, fun hj ha hre => ?rearms,
    fun hj ha hre => ?unarmedStays, fretEvaluation_idle, fun hdue ht0 => ?leadIdle,
    fun hdue ht0 hhome hup hset hqueue hr hcommit hpart hhere hmay hbytes hfits htag => ?leadStreams,
    fun hdue ht0 hhome hqueue hr hlater => ?leadLater, fun hdue => ?leadNotDue, fun hdue => ?missed, fretMissed_none,
    fun hdue => ends_loopSample hdue ?sampled, fun hdue => answer_when_false hdue,
    fun hready htunes hcap => ?committed, loopClassCommit_none, fun htune hopen hlate => ?tuneLate, fun hidle => ?tuneOpen⟩
  case trigFires =>
    obtain ⟨hone, hends⟩ := heval hj
    rw [← hnow]
    exact hends _ (evalAll_trig hone ha h1 h2 hx)
  case rowMissed =>
    obtain ⟨hone, hends⟩ := heval hj
    exact hends _ (evalAll_row hone ha hk hr hx)
  case outHandedOff =>
    obtain ⟨hone, hends⟩ := heval hj
    rw [← hnow] at hstamp
    exact hends _ (evalAll_out (e := e) hone ha hk (outStamp_due hstamp))
  case armedStays =>
    obtain ⟨hone, hends⟩ := heval hj
    rw [← hnow] at hfar
    exact hends _ (evalAll_stays hone
      (evalEntry_passed hone.unfired ha (Bool.eq_false_of_not_eq_true hx) fun hk => outStamp_none (hfar hk)))
  case rearms =>
    obtain ⟨hone, hends⟩ := heval hj
    exact hends _ (evalAll_stays hone ((evalEntry_unarmed hone.unfired hone.unstamped ha).trans (if_pos hre)))
  case unarmedStays =>
    obtain ⟨hone, hends⟩ := heval hj
    exact hends _ (evalAll_stays hone
      ((evalEntry_unarmed hone.unfired hone.unstamped ha).trans (if_neg (Bool.eq_false_iff.mp hre))))
  case leadIdle =>
    exact (ends_leadNoted rfl hdue (leadAnswer_idle ht0)).mono fun t ⟨hentry, _, honly⟩ => ⟨hentry, honly⟩
  case leadStreams =>
    have hlead : MayLead v row pt.val c q0 e r y :=
      ⟨hdue, ⟨hqueue, hr⟩, ht0, hhome, hup, hset, hcommit, hpart, hhere, hmay, hbytes, hfits, htag, pt.isLt, clear_departAll pt.isLt⟩
    exact ends_leadStreams rfl hlead
  case leadLater => exact ends_leadNoted rfl hdue (leadAnswer_later hdue ⟨hqueue, hr⟩ hhome ht0 hlater)
  case leadNotDue => exact ends_fretLead_none hdue .refl
  case missed =>
    obtain ⟨hfret, htrigs, hmem⟩ := rowMissed_leaves (s := u) (e := e) (r := r)
    exact ends_fretMissed hdue
      ⟨not_mem_rowMissed, congrArg Fret.missCount hfret, htrigs, hmem, only_rowMissed .refl (List.Subset.refl _)⟩
  case sampled => exact loopSample_leaves (u := u) (j := k) (l := l) (g := g) q rfl
  case committed =>
    obtain ⟨hmem, hpend, hloops, hlive, hlast⟩ := commitClass_leaves hready htunes hcap
    refine ends_loopClassCommit ⟨fun i => ?_, fun hwf => ?_, hpend, hloops, hlive, hlast,
      only_commitClass .refl (List.Subset.refl _)⟩
    · rw [hmem, byte_putAll]
      rfl
    · rw [hmem]
      exact Mem.wf_foldl hwf
  case tuneLate =>
    refine ends_tuneTimeout ((tuneLate_iff htune).mpr ⟨hopen, hlate⟩)
      ⟨?_, fun j hj => State.loop_modLoop.trans (if_neg hj), only_tuneEndsAs .refl (List.Subset.refl _)⟩
    refine State.loop_modLoop.trans ((if_pos rfl).trans ?_)
    rw [htune]
    rfl
  case tuneOpen =>
    refine tuneTimeout_idle ?_
    rcases hidle with hnone | ⟨htune, hend⟩
    · exact tuneLate_none hnone
    · refine Bool.eq_false_iff.mpr fun hlate => ?_
      obtain ⟨hopen, hpast⟩ := (tuneLate_iff htune).mp hlate
      exact hend.elim (absurd hopen) (Nat.not_lt.mpr hpast)

end Sys2Proof.Machine
end
